-- ==== Sys2Proof/Word.lean ====
section
/-! DEFINITION. The word types of the Saryth and their plainest arithmetic (R7, R8, R9, R65, R66). -/

namespace Sys2Proof

/-- A 32-bit word: a register (R12), a general register (R110), a queue item. -/
abbrev Word := BitVec 32

/-- A byte of memory. -/
abbrev Byte := BitVec 8

/-- A stamp: ground time in picots modulo 2^64 (R9, R65). -/
abbrev Time := BitVec 64

/-- `a` lies before `b`: the 64-bit difference read as a signed number is negative (R66). -/
def before (a b : Time) : Bool := (a - b).msb

/-- `a` lies at or before `b` (R66). -/
def upTo (a b : Time) : Bool := !before b a

/-- The later of two stamps (R66). -/
def later (a b : Time) : Time := if before a b then b else a

/-- The earlier of two stamps (R66). -/
def earlier (a b : Time) : Time := if before b a then b else a

/-- A duration of `n` ns in picots: n × 64 (R9). -/
def ns (n : Nat) : Nat := n * 64

/-- A duration of `n` ns as a stamp difference. -/
def nsT (n : Nat) : Time := BitVec.ofNat 64 (n * 64)

/-- A count of picots as a stamp difference. -/
def picots (n : Nat) : Time := BitVec.ofNat 64 n

/-- A signed count of picots as a stamp difference. -/
def picotsI (n : Int) : Time := BitVec.ofInt 64 n

/-- The signed distance from `b` to `a`, in picots (R66). -/
def dist (a b : Time) : Int := (a - b).toInt

/-- An integer limited to the range of a signed 32-bit number. -/
def sat32 (x : Int) : Int := max (-2147483648) (min x 2147483647)

/-- An integer limited to the range of a signed 64-bit number. -/
def sat64 (x : Int) : Int := max (-9223372036854775808) (min x 9223372036854775807)

/-- Bits [lo + w - 1 : lo] of a word, as a number (R7). -/
def bitsOf (x : Word) (lo w : Nat) : Nat := (x.extractLsb' lo w).toNat

/-- Bit `k` of a word. -/
def bitOf (x : Word) (k : Nat) : Bool := x.getLsbD k

/-- `x` with bits [lo + w - 1 : lo] replaced by `v`. -/
def putBits (x : Word) (lo w v : Nat) : Word :=
  let m : Word := BitVec.ofNat 32 ((2 ^ w - 1) * 2 ^ lo)
  (x &&& ~~~m) ||| ((BitVec.ofNat 32 (v * 2 ^ lo)) &&& m)

/-- A truth value as the number 0 or 1. -/
def b2n (b : Bool) : Nat := if b then 1 else 0

/-- The low half of a 64-bit value (R19). -/
def loHalf (x : BitVec 64) : Word := x.extractLsb' 0 32

/-- The high half of a 64-bit value (R19). -/
def hiHalf (x : BitVec 64) : Word := x.extractLsb' 32 32

/-- A 64-bit value from its halves (R19). -/
def joinHalves (hi lo : Word) : BitVec 64 := hi ++ lo

end Sys2Proof
end

