-- ==== Sys2Proof/Syntax.lean ====
section
/-! DEFINITION. The commands of the Saryth: one constructor per row of spec/opcode_table.json, in the table's order,
with the operands each needs. A shuttle instruction names the task (`t`, a task ID) whose context issues it. An event
names the unit it happens at; where the instant of an event does not follow from the state the event carries it (`g`,
ground time). A register access carries the access port (R20). -/

namespace Sys2Proof

/-- The access ports of R20: PCIe, the quad-SPI target, each management core, the debug port. -/
inductive Port where
  | pcie | qspi | mgmt0 | mgmt1 | debug
  deriving DecidableEq, Repr

/-- A field naming a general register (R122). -/
abbrev GReg := Fin 16

/-- A time register read by an instruction: t0 to t3, 4 = tn, 5 = tl (R122). -/
abbrev TReg := Fin 6

/-- A time register written by an instruction: t0 to t3 (R122). -/
abbrev TDst := Fin 4

/-- A 14-bit resource handle: kind in [13:10], slot in [9:0] (R150). -/
abbrev Handle := BitVec 14

/-- The time units of TADDI and TCVT (R138). -/
inductive TUnit where
  | ps | ns | us
  deriving DecidableEq, Repr

/-- The four forms of TMOV (R138). -/
inductive TmovForm where
  | move (td : TDst) (ta : TReg)
  | lo (rd : GReg) (ta : TReg)
  | hi (rd : GReg) (ta : TReg)
  | pair (td : TDst) (ga gb : GReg)
  deriving DecidableEq, Repr

/-- The byte counts of CRC (R198). -/
inductive CrcLen where
  | four | one | two
  deriving DecidableEq, Repr

/-- A feedback line (R102). -/
inductive Line where
  | a | b | z
  deriving DecidableEq, Repr

/-- What the pad readback monitor found (R252, R258). -/
inductive Mismatch where
  | edge (expected : Time)
  | level
  deriving DecidableEq, Repr

/-- What the header of a received frame holds, as far as R381 and R389 look at it; `domain` is the domainNumber of a PTP message. -/
structure RxHdr where
  fcsOk : Bool
  len : Nat
  dst : BitVec 48
  vid : Option Nat
  ethertype : Nat
  domain : Nat
  deriving DecidableEq, Repr

/-- What a Delay_Req, Pdelay_Req or Pdelay_Resp says of itself: sequenceId and correctionField (in units of 2^-16 ns). -/
structure PtpReq where
  seq : Nat
  corr : Int
  deriving DecidableEq, Repr

/-- The intervals that a Signaling message asks for, as base 2 logarithms of seconds: peer delay, Sync, Announce. -/
structure PtpIntervals where
  pd : Int
  sync : Int
  ann : Int
  deriving DecidableEq, Repr

/-- Where an access of a port goes, and its width in bits (R23, R24). -/
structure Access where
  off : Nat
  width : Nat
  deriving DecidableEq, Repr

/-- A LOAD or UNLOAD that runs: its command queue, and the dies whose copy of the digest is wrong by then (R207). -/
structure PlacerRun where
  queue : Nat
  bad : BitVec 8
  deriving DecidableEq, Repr

/-- The payload of an axis frame (R395). -/
structure AxisFrame where
  version : Nat
  domain : Nat
  restart : Bool
  unqualified : Bool
  node : Nat
  axis : Nat
  seq : BitVec 32
  digest : Word
  stampNs : Nat
  pos : BitVec 64
  vel : BitVec 64
  deriving DecidableEq, Repr

/-- The data set an Announce message carries (IEEE 1588, as R389 names it). -/
structure Announce where
  gmId : BitVec 64
  priority1 : Nat
  clockClass : Nat
  clockAccuracy : Nat
  variance : Nat
  priority2 : Nat
  stepsRemoved : Nat
  deriving DecidableEq, Repr

/-- A message of the PTP instance that a message interval makes it send (R389). -/
inductive PtpTx where
  | announce | sync | delayReq | pdelayReq
  deriving DecidableEq, Repr

/-- The commands, one per row of the table of operations and events. -/
inductive Instr where
  -- R132
  | add (t : Nat) (rd ra rb : GReg)
  | sub (t : Nat) (rd ra rb : GReg)
  | and (t : Nat) (rd ra rb : GReg)
  | or (t : Nat) (rd ra rb : GReg)
  | xor (t : Nat) (rd ra rb : GReg)
  | shl (t : Nat) (rd ra rb : GReg)
  | shr (t : Nat) (rd ra rb : GReg)
  | sra (t : Nat) (rd ra rb : GReg)
  | min (t : Nat) (rd ra rb : GReg)
  | max (t : Nat) (rd ra rb : GReg)
  | adds (t : Nat) (rd ra rb : GReg)
  | subs (t : Nat) (rd ra rb : GReg)
  | cmp (t : Nat) (ra rb : GReg)
  | addi (t : Nat) (rd ra : GReg) (imm : BitVec 18)
  | andi (t : Nat) (rd ra : GReg) (imm : BitVec 18)
  | ori (t : Nat) (rd ra : GReg) (imm : BitVec 18)
  | xori (t : Nat) (rd ra : GReg) (imm : BitVec 18)
  | lui (t : Nat) (rd : GReg) (imm : BitVec 18)
  | limm (t : Nat) (rd : GReg) (ext : Word)
  -- R133, R134
  | mul (t : Nat) (rd ra rb : GReg)
  | mulh (t : Nat) (rd ra rb : GReg)
  | mulhu (t : Nat) (rd ra rb : GReg)
  | mac (t : Nat) (ra rb : GReg)
  | macr (t : Nat) (rd ra : GReg)
  | qmul (t : Nat) (rd ra rb : GReg)
  | divu (t : Nat) (rd ra rb : GReg)
  | divs (t : Nat) (rd ra rb : GReg)
  | remu (t : Nat) (rd ra rb : GReg)
  -- R135, R136
  | beq (t : Nat) (ra rb : GReg) (off : BitVec 18)
  | bne (t : Nat) (ra rb : GReg) (off : BitVec 18)
  | blt (t : Nat) (ra rb : GReg) (off : BitVec 18)
  | bge (t : Nat) (ra rb : GReg) (off : BitVec 18)
  | bltu (t : Nat) (ra rb : GReg) (off : BitVec 18)
  | bgeu (t : Nat) (ra rb : GReg) (off : BitVec 18)
  | jmp (t : Nat) (ra : GReg) (off : BitVec 18)
  | call (t : Nat) (ra : GReg) (off : BitVec 18)
  | ret (t : Nat)
  -- R137
  | ldb (t : Nat) (rd ra : GReg) (off : BitVec 18)
  | ldh (t : Nat) (rd ra : GReg) (off : BitVec 18)
  | ldw (t : Nat) (rd ra : GReg) (off : BitVec 18)
  | ldd (t : Nat) (td : TDst) (ra : GReg) (off : BitVec 18)
  | stb (t : Nat) (ra rb : GReg) (off : BitVec 18)
  | sth (t : Nat) (ra rb : GReg) (off : BitVec 18)
  | stw (t : Nat) (ra rb : GReg) (off : BitVec 18)
  | std (t : Nat) (ra : GReg) (tb : TReg) (off : BitVec 18)
  -- R138, R139
  | tmov (t : Nat) (f : TmovForm)
  | tadd (t : Nat) (td : TDst) (ta : TReg) (gb : GReg)
  | taddi (t : Nat) (td : TDst) (ta : TReg) (u : TUnit) (ext : Word)
  | tsub (t : Nat) (td : TDst) (ta tb : TReg)
  | tcmp (t : Nat) (ta tb : TReg)
  | tlead (t : Nat) (td : TDst) (ta : TReg)
  | tcvt (t : Nat) (rd : GReg) (ta tb : TReg) (u : TUnit)
  | tnow (t : Nat) (m : GReg)
  -- R140, R126, R159, R162
  | brk (t : Nat)
  | nop (t : Nat)
  | endStep (t : Nat)
  | wait (t : Nat) (ta : TReg)
  | waite (t : Nat) (rd : GReg) (timer : Option TReg)
  -- R164
  | stch (t : Nat) (ts : TReg) (ga : GReg) (h : Handle)
  | stchr (t : Nat) (ts : TReg) (ga : GReg) (h : Handle)
  | capt (t : Nat) (td : TDst) (ga : GReg) (h : Handle)
  | captp (t : Nat) (td : TDst) (h : Handle)
  -- R171, R175, R179, R184
  | pwmw (t : Nat) (ts : TReg) (ga gb : GReg) (h : Handle)
  | pwmc (t : Nat) (ts : TReg) (ga : GReg) (h : Handle)
  | fbrd (t : Nat) (td : TDst) (ga : GReg) (h : Handle)
  | fbspd (t : Nat) (td : TDst) (h : Handle)
  | fbcmp (t : Nat) (tc : TReg) (ga gb : GReg) (h : Handle)
  | hooprd (t : Nat) (rd ga : GReg) (h : Handle)
  | hevt (t : Nat) (ga gb : GReg) (h : Handle)
  | hcan (t : Nat) (ga : GReg) (h : Handle)
  | send (t : Nat) (ts : TReg) (ga gb : GReg) (h : Handle)
  | recv (t : Nat) (rd ga : GReg) (h : Handle)
  -- R187
  | qput (t : Nat) (ga : GReg) (h : Handle)
  | qrsv (t : Nat) (rd ga : GReg) (h : Handle)
  | qend (t : Nat) (h : Handle)
  | qget (t : Nat) (rd : GReg) (h : Handle)
  | qmark (t : Nat) (h : Handle)
  | qrew (t : Nat) (h : Handle)
  | qrel (t : Nat) (h : Handle)
  | qlvl (t : Nat) (rd ga : GReg) (h : Handle)
  -- R194, R195, R197, R198, R199
  | evnt (t : Nat) (ga gb : GReg) (h : Handle)
  | ring (t : Nat) (h : Handle)
  | camh (t : Nat) (rd ga gb : GReg) (h : Handle)
  | crc (t : Nat) (rd ra rb : GReg) (n : CrcLen)
  | fault (t : Nat) (code : BitVec 16)
  -- scheduling: R79, R95, R96, R160, R185
  | stepReady (t : Nat)
  | stepDispatch (d slot : Nat)
  | stepCutOff (t : Nat)
  | timerFire (t : Nat)
  | messageDeliver (i : Nat)
  -- host commands, each the one that command queue q has accepted: R462, R463, R208, R209, R213, R220
  | cmdNop (q : Nat)
  | task (q : Nat)
  | load (q : PlacerRun)
  | start (q : Nat)
  | stop (q : Nat)
  | unload (q : PlacerRun)
  | setAffinity (q : Nat)
  | setSplit (q : Nat)
  -- R259, R491, R220 to R227
  | stopFallback (t : Nat)
  | taskFaultFallback (t : Nat)
  | migrationStart (t : Nat) (g : Time)
  | migrationEnd (t : Nat) (g : Time)
  | migrationTimeout (q : Nat) (g : Time)
  | rotationStart (d : Nat) (g : Time)
  | bistDone (d : Nat) (pass : Bool) (g : Time)
  | rotationDefer (d : Nat) (g : Time)
  -- timing pins: R243, R245, R239, R234, R253, R255, R262, R261
  | pinInputEdge (p : Nat) (stamp : Time) (level : Bool)
  | pinFilterAccept (p : Nat)
  | stitchLock (p : Nat)
  | stitchApply (p : Nat)
  | engineDisagree (p : Nat) (g : Time)
  | readbackMismatch (p : Nat) (m : Mismatch) (g : Time)
  | pinFaultClear (port : Port) (p : Nat)
  | pinCtrlWrite (port : Port) (p : Nat) (v : Word)
  | pinCapSelWrite (port : Port) (p : Nat) (v : Word)
  -- carriers: R268, R272, R271, R269, R276, R265
  | carrierStartApply (c : Nat)
  | carrierBoundary (c : Nat)
  | carrierMidpoint (c : Nat)
  | phaseHoldEnd (c : Nat)
  | pwmStoppedWriteApply (c : Nat)
  | referenceEdge (c n : Nat)
  | deadTimeExpiry (c n : Nat)
  | minPulseExpiry (c n : Nat)
  | pairCfgWrite (port : Port) (c n : Nat) (v : Word)
  -- trips: R278, R280, R283, R566, R512
  | tripInputEdge (j : Nat) (stamp : Time) (level : Bool)
  | tripFilterAccept (j : Nat)
  | blankWindowEnd (j : Nat)
  | tripClearApply (j : Nat)
  | tripCmdClear (port : Port) (j : Nat)
  | tripCtrlWrite (port : Port) (j : Nat) (v : Word) (g : Time)
  | tripCheck (j : Nat) (filterOk forceOk : Bool) (g : Time)
  -- feedback: R305, R311, R329, R336, R337, R313, R320, R324, R297, R332, R331
  | fbCountEdge (n : Nat)
  | commCodeChange (n : Nat)
  | fbIndexEdge (n : Nat)
  | fbProbeEdge (n : Nat)
  | probeArm (port : Port) (n : Nat) (g : Time)
  | serialFrameStart (n : Nat)
  | serialFrameVisible (n : Nat) (crossedLate measured : Bool) (asked came : Time)
  | fbStandstill (n : Nat)
  | fbModeWrite (port : Port) (n : Nat) (v : Word) (g : Time)
  | fbCompareArmApply (n : Nat)
  | fbCompareDisarmApply (n : Nat)
  -- hoops: R352, R350, R356, R371, R365, R182, R183, R368, R373, R379, R378
  | hoopTooth (h : Nat)
  | hoopIndexEdge (h : Nat)
  | hoopMissingTooth (h : Nat)
  | hoopStall (h : Nat)
  | hoopCoastExpiry (h : Nat)
  | hevtApply (h : Nat)
  | hcanApply (h : Nat)
  | hoopEventStart (h slot : Nat)
  | hoopEventEnd (h slot : Nat)
  | hoopEnable (port : Port) (h : Nat) (v : Word) (g : Time)
  | hoopDisable (port : Port) (h : Nat) (v : Word) (g : Time)
  | hoopEvtSelWrite (port : Port) (h : Nat) (v : Word)
  -- network: R380, R403, R389 to R391, R385 to R387, R384, R386, R400
  | netLinkChange (p : Nat) (up : Bool) (g : Time)
  | axisFrameRx (p : Nat) (h : RxHdr) (f : AxisFrame) (raw : Time)
  | ptpSyncRx (p : Nat) (h : RxHdr) (seq : Nat) (originNs corr : Int) (twoStep : Bool) (raw : Time)
  | ptpFollowUpRx (p : Nat) (h : RxHdr) (seq : Nat) (originNs corr : Int) (raw : Time)
  | ptpDelayReqRx (p : Nat) (h : RxHdr) (m : PtpReq) (raw : Time)
  | ptpDelayRespRx (p : Nat) (h : RxHdr) (seq : Nat) (rxNs corr : Int) (raw : Time)
  | ptpPdelayReqRx (p : Nat) (h : RxHdr) (m : PtpReq) (raw : Time)
  | ptpPdelayRespRx (p : Nat) (h : RxHdr) (m : PtpReq) (rxNs : Int) (twoStep : Bool) (raw : Time)
  | ptpPdelayRespFollowUpRx (p : Nat) (h : RxHdr) (seq : Nat) (txNs corr : Int) (raw : Time)
  | ptpAnnounceRx (p : Nat) (h : RxHdr) (m : Announce) (raw : Time)
  | ptpSignalingRx (p : Nat) (h : RxHdr) (v : PtpIntervals) (raw : Time)
  | ptpTxInterval (p : Nat) (m : PtpTx) (g : Time)
  | ptpSyncTimeout (g : Time)
  | ptpAnnounceTimeout (p : Nat) (g : Time)
  | netPtpCtrlWrite (port : Port) (intervals : Bool) (v : Word) (g : Time)
  | gateCycleStart (p : Nat)
  | gateEntryEnd (p : Nat)
  | gateSwap (port : Port) (p : Nat) (v : Word)
  | frameTxStart (p : Nat) (g : Time)
  | frameTxEnd (p : Nat)
  | gateDrop (p q : Nat)
  | axpSamplePost (i : Nat)
  -- queues: R414, R417, R419, R423, R418
  | queuePacketPublish (q : Nat)
  | qrelApply (q : Nat)
  | queueFlushTimeout (q : Nat)
  | queuePointerMismatch (q : Nat) (g : Time)
  | queHostRelWrite (port : Port) (q : Nat) (v : Word) (g : Time)
  -- DMA: R433, R441, R447, R434, R420, R435, R439, R421
  | dmaStart (port : Port) (c : Nat)
  | dmaAbort (port : Port) (c : Nat)
  | dmaAppend (port : Port) (c : Nat) (v : Word)
  | dmaDescFetchDone (c : Nat)
  | dmaPacingMet (c : Nat) (g : Time)
  | dmaBeatDone (c : Nat) (g : Time)
  | dmaBeatError (c : Nat) (ecc : Bool) (g : Time)
  | dmaLengthWordWrite (c : Nat) (g : Time)
  | dmaTailReadDone (c : Nat) (ok : Bool) (g : Time)
  | dmaParkReread (c : Nat)
  -- command queues: R459, R460, R466, R464, R487
  | cqDoorbell (port : Port) (q : Nat) (v : Word)
  | cqEntryDecode (q : Nat) (g : Time)
  | cqRingReadFail (q : Nat)
  | commandComplete (q : Nat) (g : Time)
  | cqEnable (port : Port) (q : Nat) (v : Word)
  | cqBaseHiWrite (port : Port) (q : Nat) (v : Word)
  -- records: R469, R468, R498
  | horizonReport (d : Nat) (g : Time)
  | eqEnable (port : Port) (n : Nat) (v : Word)
  | eqHeadWrite (port : Port) (n : Nat) (v : Word)
  | horizonReportTimeout (d : Nat) (g : Time)
  -- event router: R476, R478, R479, R480, R475
  | rtrDoorbell (port : Port) (v : Word)
  | routerNotify (t : Nat)
  | rtrClaim (port : Port) (t : Nat)
  | rtrComplete (port : Port) (t : Nat) (v : Word)
  | groupHoldoffExpiry (g : Nat)
  | mailboxPost (t : Nat) (words : List Word)
  -- quad-SPI and link: R456, R520
  | qspiWrite32 (off : Nat) (v : Word)
  | qspiRead32 (off : Nat)
  | qspiReadTimeout (off : Nat)
  | linkOnlyReset
  -- register and memory accesses: R19, R21, R16, R25, R54, R57, R147, R228
  | reg64LoRead (port : Port) (a : Access)
  | reg64HiWrite (port : Port) (a : Access) (v : BitVec 64)
  | rcFieldRead (port : Port) (a : Access)
  | registerWrite (port : Port) (a : Access) (v : BitVec 64)
  | absentDieAccess (port : Port) (a : Access) (write : Bool)
  | dieMemoryWrite (port : Port) (d off width : Nat) (v : BitVec 64)
  | ctxSelWrite (port : Port) (d : Nat) (v : Word)
  | plcRptSelWrite (port : Port) (v : Word)
  -- debug: R141 to R144, R140, R539, R540
  | ctxHalt (port : Port) (d : Nat)
  | ctxResume (port : Port) (d : Nat)
  | ctxSingleStep (port : Port) (d : Nat)
  | brkEnable (port : Port) (d : Nat)
  | brkDisable (port : Port) (d : Nat)
  | dbgNewChallenge (port : Port)
  | dbgSubmit (port : Port)
  | dbgUnlockCheckDone
  | dbgLock (port : Port)
  | packageDebugHalt (port : Port) (g : Time)
  | packageDebugResume (port : Port) (g : Time)
  -- time and log: R67 to R69, R391, R101, R103
  | gtSlewWrite (port : Port) (v : Word) (g : Time)
  | slewApply
  | gtSet (port : Port) (hi : Word)
  | plantOffsetWrite (port : Port) (hi : Word)
  | timeCtrlWrite (port : Port) (v : Word) (g : Time)
  | logCtrlWrite (port : Port) (v : Word)
  | logGapClose (d : Nat) (g : Time)
  -- faults: R41 to R43, R51, R493, R495, R498, R499, R503 to R505, R511
  | linkRetransmit (d k : Nat)
  | linkOutOfService (d k : Nat) (g : Time)
  | syncLaneLossTimeout (d : Nat) (g : Time)
  | clockLoss (d : Nat) (g : Time)
  | shuttleCheckFail (d slot cause : Nat) (g : Time)
  | issueWatchdog (d slot : Nat) (g : Time)
  | shuttleReplayLoad (d : Nat) (g : Time)
  | prickingUncorrectable (d : Nat) (g : Time)
  | dieFence (d : Nat) (g : Time)
  | mgmtFailure (cause : Nat) (g : Time)
  | mgmtWatchdogExpiry (g : Time)
  | mgmtTakeoverDone (g : Time)
  | standbyLost (g : Time)
  | packageFault (cause : Nat)
  | scrubUncorrectable (d off : Nat) (shadowOf : Option Nat) (g : Time)
  -- supplies, resets, start-up and boot: R551, R516, R518, R519, R523, R526 to R528, R533 to R535, R538
  | channelBankOutOfRange (d : Nat) (timing : Bool) (g : Time)
  | supplyOutOfRange (rail : Nat)
  | porRelease
  | sysRstNAssert
  | perstAssert
  | rstCtrlReset (port : Port) (v : Word)
  | packageResetEnd
  | fuseLoadDone (ok : Bool)
  | pllLock (d : Nat)
  | dieCoreEnable (d : Nat)
  | sramClearStart (d : Nat)
  | sramClearEnd (d : Nat) (ok : Bool)
  | shuttleSlotEnable (d slot : Nat)
  | mgmtPairEnable (d : Nat)
  | releasePathSelfTest (d : Nat) (pass : Bool)
  | dieStartCheck (d : Nat) (aligned : Bool) (links : BitVec 4) (digestOk : Bool)
  | flashImageReadDone (slot : Nat) (image : Option (List Byte))
  | bootGo (port : Port) (v : Word)
  | fwVerifyDone
  | standbyImageCheckDone (g : Time)
  | readySet
  | taskKeyLockWrite (port : Port) (v : Word)
  -- R233, R339, R498, R551, R522, R453, R511, R489
  | effectArrival (i : Nat)
  | fbInputEdge (n : Nat) (l : Line) (stamp : Time) (level : Bool)
  | clockReturn (d : Nat) (g : Time)
  | channelBankInRange (d : Nat) (timing : Bool)
  | perstRelease
  | pcieConfigWrite (bme d3hot : Bool)
  | scrubCorrectedWord (d off : Nat) (committing : Bool)
  | pcieCorrectableError
  deriving DecidableEq, Repr

end Sys2Proof
end

