-- ==== Sys2Proof/Decode.lean ====
section
/-! DEFINITION. The encodings of the shuttle instructions (R121 to R126, R150, R159, R164 to R199): the decoder that the
shuttle's fetch uses, and the encoder. The table of commands gives no row any bits, so `decodeTableWord` answers none. -/

namespace Sys2Proof

/-- Bits [31:26] of an instruction word. -/
def opOf (w : Word) : Nat := (w.extractLsb' 26 6).toNat
/-- Bits [25:22]. -/
def f1Of (w : Word) : Nat := (w.extractLsb' 22 4).toNat
/-- Bits [21:18]. -/
def f2Of (w : Word) : Nat := (w.extractLsb' 18 4).toNat
/-- Bits [17:14]. -/
def f3Of (w : Word) : Nat := (w.extractLsb' 14 4).toNat
/-- Bits [13:8]. -/
def fnOf (w : Word) : Nat := (w.extractLsb' 8 6).toNat
/-- Bits [7:0]. -/
def lowOf (w : Word) : Nat := (w.extractLsb' 0 8).toNat
/-- Bits [17:0]. -/
def immOf (w : Word) : BitVec 18 := w.extractLsb' 0 18
/-- Bits [13:0]. -/
def hOf (w : Word) : Handle := w.extractLsb' 0 14
/-- A field of four bits as a general register. -/
def gr (n : Nat) : GReg := Fin.ofNat 16 n
/-- A field of four bits as a time register that is read: 0 to 5 (R122). -/
def tr (n : Nat) : Option TReg := if h : n < 6 then some ⟨n, h⟩ else none
/-- A field of four bits as a time register that is written: 0 to 3 (R122). -/
def td (n : Nat) : Option TDst := if h : n < 4 then some ⟨n, h⟩ else none

/-- A three-register instruction of format A. -/
abbrev Mk3 := Nat → GReg → GReg → GReg → Instr

/-- The ALU group (opcode 0x01) by function code (R126, R132). -/
def decodeAlu (t : Nat) (fn a b c : Nat) : Option Instr :=
  match fn with
  | 0 => some (.add t (gr a) (gr b) (gr c))
  | 1 => some (.sub t (gr a) (gr b) (gr c))
  | 2 => some (.and t (gr a) (gr b) (gr c))
  | 3 => some (.or t (gr a) (gr b) (gr c))
  | 4 => some (.xor t (gr a) (gr b) (gr c))
  | 5 => some (.shl t (gr a) (gr b) (gr c))
  | 6 => some (.shr t (gr a) (gr b) (gr c))
  | 7 => some (.sra t (gr a) (gr b) (gr c))
  | 8 => some (.min t (gr a) (gr b) (gr c))
  | 9 => some (.max t (gr a) (gr b) (gr c))
  | 10 => some (.adds t (gr a) (gr b) (gr c))
  | 11 => some (.subs t (gr a) (gr b) (gr c))
  | 12 => if a = 0 then some (.cmp t (gr b) (gr c)) else none
  | _ => none

/-- The multiply and divide group (opcode 0x02) by function code (R126, R133, R134). -/
def decodeMul (t : Nat) (fn a b c : Nat) : Option Instr :=
  match fn with
  | 0 => some (.mul t (gr a) (gr b) (gr c))
  | 1 => some (.mulh t (gr a) (gr b) (gr c))
  | 2 => some (.mulhu t (gr a) (gr b) (gr c))
  | 3 => if a = 0 then some (.mac t (gr b) (gr c)) else none
  | 4 => if c = 0 then some (.macr t (gr a) (gr b)) else none
  | 5 => some (.qmul t (gr a) (gr b) (gr c))
  | 8 => some (.divu t (gr a) (gr b) (gr c))
  | 9 => some (.divs t (gr a) (gr b) (gr c))
  | 10 => some (.remu t (gr a) (gr b) (gr c))
  | _ => none

/-- The time group (opcode 0x1A) by function code (R126, R138). A register field that a form does not use must be 0 (log entry
111). -/
def decodeTime (t : Nat) (fn a b c : Nat) : Option Instr :=
  match fn with
  | 0 => match td a, tr b with
    | some x, some y => if c = 0 then some (.tmov t (.move x y)) else none
    | _, _ => none
  | 1 => match tr b with
    | some y => if c = 0 then some (.tmov t (.lo (gr a) y)) else none
    | none => none
  | 2 => match tr b with
    | some y => if c = 0 then some (.tmov t (.hi (gr a) y)) else none
    | none => none
  | 3 => match td a with
    | some x => some (.tmov t (.pair x (gr b) (gr c)))
    | none => none
  | 4 => match td a, tr b with
    | some x, some y => some (.tadd t x y (gr c))
    | _, _ => none
  | 5 => match td a, tr b, tr c with
    | some x, some y, some z => some (.tsub t x y z)
    | _, _, _ => none
  | 6 => match tr b, tr c with
    | some y, some z => if a = 0 then some (.tcmp t y z) else none
    | _, _ => none
  | 7 => match td a, tr b with
    | some x, some y => if c = 0 then some (.tlead t x y) else none
    | _, _ => none
  | 8 => match tr b, tr c with
    | some y, some z => some (.tcvt t (gr a) y z .ps)
    | _, _ => none
  | 9 => match tr b, tr c with
    | some y, some z => some (.tcvt t (gr a) y z .ns)
    | _, _ => none
  | 10 => match tr b, tr c with
    | some y, some z => some (.tcvt t (gr a) y z .us)
    | _, _ => none
  | 12 => if b = 0 ∧ c = 0 then some (.tnow t (gr a)) else none
  | _ => none

/-- WAIT, WAITE and END (opcodes 0x1C to 0x1E; R159). -/
def decodeStep (t : Nat) (op fn a b c : Nat) : Option Instr :=
  if c ≠ 0 then none
  else if op = 0x1C then
    if a = 0 ∧ fn = 0 then (tr b).map (fun x => .wait t x) else none
  else if op = 0x1D then
    if fn = 1 then (tr b).map (fun x => .waite t (gr a) (some x))
    else if fn = 0 ∧ b = 0 then some (.waite t (gr a) none) else none
  else if a = 0 ∧ b = 0 ∧ fn = 0 then some (.endStep t) else none

/-- The byte count of CRC by its function code (R198). -/
def crcLenOf (fn : Nat) : Option CrcLen :=
  if fn = 0 then some .four else if fn = 1 then some .one else if fn = 2 then some .two else none

/-- Format A: bits [7:0] must be 0 (R124). -/
def decodeA (t : Nat) (w : Word) : Option Instr :=
  let a := f1Of w
  let b := f2Of w
  let c := f3Of w
  let fn := fnOf w
  if lowOf w ≠ 0 then none
  else
    match opOf w with
    | 0x01 => decodeAlu t fn a b c
    | 0x02 => decodeMul t fn a b c
    | 0x11 => if a = 0 ∧ b = 0 ∧ c = 0 ∧ fn = 0 then some (.ret t) else none
    | 0x1A => decodeTime t fn a b c
    | 0x1C => decodeStep t 0x1C fn a b c
    | 0x1D => decodeStep t 0x1D fn a b c
    | 0x1E => decodeStep t 0x1E fn a b c
    | 0x3B => (crcLenOf fn).map (fun n => .crc t (gr a) (gr b) (gr c) n)
    | 0x3D => if a = 0 ∧ b = 0 ∧ c = 0 ∧ fn = 0 then some (.brk t) else none
    | 0x3E => if a = 0 ∧ b = 0 ∧ c = 0 ∧ fn = 0 then some (.nop t) else none
    | _ => none

/-- Formats B and C (R121, R123). -/
def decodeBC (t : Nat) (w : Word) : Option Instr :=
  let a := f1Of w
  let b := f2Of w
  let m := immOf w
  match opOf w with
  | 3 => some (.addi t (gr a) (gr b) m)
  | 4 => some (.andi t (gr a) (gr b) m)
  | 5 => some (.ori t (gr a) (gr b) m)
  | 6 => some (.xori t (gr a) (gr b) m)
  | 7 => if b = 0 then some (.lui t (gr a) m) else none
  | 9 => some (.beq t (gr a) (gr b) m)
  | 10 => some (.bne t (gr a) (gr b) m)
  | 11 => some (.blt t (gr a) (gr b) m)
  | 12 => some (.bge t (gr a) (gr b) m)
  | 13 => some (.bltu t (gr a) (gr b) m)
  | 14 => some (.bgeu t (gr a) (gr b) m)
  | 15 => if a = 0 then some (.jmp t (gr b) m) else none
  | 16 => if a = 0 then some (.call t (gr b) m) else none
  | 18 => some (.ldb t (gr a) (gr b) m)
  | 19 => some (.ldh t (gr a) (gr b) m)
  | 20 => some (.ldw t (gr a) (gr b) m)
  | 21 => (td a).map (fun x => .ldd t x (gr b) m)
  | 22 => some (.stb t (gr a) (gr b) m)
  | 23 => some (.sth t (gr a) (gr b) m)
  | 24 => some (.stw t (gr a) (gr b) m)
  | 25 => (tr b).map (fun x => .std t (gr a) x m)
  | 0x3C => if a = 0 ∧ b = 0 ∧ f3Of w < 4 then some (.fault t (m.extractLsb' 0 16)) else none
  | _ => none

/-- Format D with a handle (R150; R164, R171, R175, R179, R184, R187, R194 to R196). -/
def decodeD (t : Nat) (w : Word) : Option Instr :=
  let a := f1Of w
  let b := f2Of w
  let c := f3Of w
  let h := hOf w
  match opOf w with
  | 0x20 => if c = 0 then (tr a).map (fun x => .stch t x (gr b) h) else none
  | 0x21 => if c = 0 then (tr a).map (fun x => .stchr t x (gr b) h) else none
  | 0x22 => if c = 0 then (td a).map (fun x => .capt t x (gr b) h) else none
  | 0x23 => if b = 0 ∧ c = 0 then (td a).map (fun x => .captp t x h) else none
  | 0x24 => (tr a).map (fun x => .pwmw t x (gr b) (gr c) h)
  | 0x25 => if c = 0 then (tr a).map (fun x => .pwmc t x (gr b) h) else none
  | 0x26 => if c = 0 then (td a).map (fun x => .fbrd t x (gr b) h) else none
  | 0x27 => if b = 0 ∧ c = 0 then (td a).map (fun x => .fbspd t x h) else none
  | 0x28 => (tr a).map (fun x => .fbcmp t x (gr b) (gr c) h)
  | 0x29 => if c = 0 then some (.hooprd t (gr a) (gr b) h) else none
  | 0x2A => if a = 0 then some (.hevt t (gr b) (gr c) h) else none
  | 0x2B => if a = 0 ∧ c = 0 then some (.hcan t (gr b) h) else none
  | 0x2C => (tr a).map (fun x => .send t x (gr b) (gr c) h)
  | 0x2D => if c = 0 then some (.recv t (gr a) (gr b) h) else none
  | 0x30 => if a = 0 ∧ c = 0 then some (.qput t (gr b) h) else none
  | 0x31 => if b = 0 ∧ c = 0 then some (.qget t (gr a) h) else none
  | 0x32 => if c = 0 then some (.qrsv t (gr a) (gr b) h) else none
  | 0x33 => if a = 0 ∧ b = 0 ∧ c = 0 then some (.qend t h) else none
  | 0x34 => if a = 0 ∧ b = 0 ∧ c = 0 then some (.qmark t h) else none
  | 0x35 => if a = 0 ∧ b = 0 ∧ c = 0 then some (.qrew t h) else none
  | 0x36 => if a = 0 ∧ b = 0 ∧ c = 0 then some (.qrel t h) else none
  | 0x37 => if c = 0 then some (.qlvl t (gr a) (gr b) h) else none
  | 0x38 => if a = 0 then some (.evnt t (gr b) (gr c) h) else none
  | 0x39 => if a = 0 ∧ b = 0 ∧ c = 0 then some (.ring t h) else none
  | 0x3A => some (.camh t (gr a) (gr b) (gr c) h)
  | _ => none

/-- The unit code of TADDI (R138). -/
def unitOf (m : BitVec 18) : Option TUnit :=
  if m = 0 then some .ps else if m = 1 then some .ns else if m = 2 then some .us else none

/-- Format X: LIMM and TADDI, with the extension word `e` (R121, R138). -/
def decodeX (t : Nat) (w e : Word) : Option Instr :=
  let a := f1Of w
  let b := f2Of w
  match opOf w with
  | 0x08 => if b = 0 ∧ immOf w = 0 then some (.limm t (gr a) e) else none
  | 0x1B => match td a, tr b, unitOf (immOf w) with
    | some x, some y, some u => some (.taddi t x y u e)
    | _, _, _ => none
  | _ => none

/-- Is the instruction of a word an X-format one, with an extension word after it? -/
def isX (w : Word) : Bool := opOf w == 0x08 || opOf w == 0x1B

/-- The instruction that task `t` finds in word `w` followed by word `e`; none where R124 makes it illegal. -/
def decodeWord (t : Nat) (w e : Word) : Option Instr :=
  let o := opOf w
  if isX w then decodeX t w e
  else if o = 0x01 ∨ o = 0x02 ∨ o = 0x11 ∨ (0x1A ≤ o ∧ o ≤ 0x1E) ∨ o = 0x3B ∨ o = 0x3D ∨ o = 0x3E then decodeA t w
  else if o ≤ 0x19 ∨ o = 0x3C then decodeBC t w
  else decodeD t w

/-- The command that a word spells by the bits of spec/opcode_table.json: the table gives no row bits, so none. -/
def decodeTableWord (_nbits _w : Nat) : Option Instr := none

/-! ## The encoder -/

/-- A word of format A. -/
def encA (op fn a b c : Nat) : Word :=
  BitVec.ofNat 6 op ++ BitVec.ofNat 4 a ++ BitVec.ofNat 4 b ++ BitVec.ofNat 4 c ++ BitVec.ofNat 6 fn ++ (0 : BitVec 8)

/-- A word of format B or C. -/
def encB (op a b : Nat) (m : BitVec 18) : Word :=
  BitVec.ofNat 6 op ++ BitVec.ofNat 4 a ++ BitVec.ofNat 4 b ++ m

/-- A word of format D. -/
def encD (op a b c : Nat) (h : Handle) : Word :=
  BitVec.ofNat 6 op ++ BitVec.ofNat 4 a ++ BitVec.ofNat 4 b ++ BitVec.ofNat 4 c ++ h

/-- The unit code as imm18. -/
def TUnit.imm : TUnit → BitVec 18
  | .ps => 0
  | .ns => 1
  | .us => 2

/-- The function code of TCVT by unit (R126). -/
def TUnit.fn : TUnit → Nat
  | .ps => 8
  | .ns => 9
  | .us => 10

/-- The words of a shuttle instruction: the instruction word and, for format X, the extension word; none for a command that
is no shuttle instruction. -/
def encode : Instr → Option (Word × Option Word)
  | .add _ d a b => some (encA 0x01 0 d a b, none)
  | .sub _ d a b => some (encA 0x01 1 d a b, none)
  | .and _ d a b => some (encA 0x01 2 d a b, none)
  | .or _ d a b => some (encA 0x01 3 d a b, none)
  | .xor _ d a b => some (encA 0x01 4 d a b, none)
  | .shl _ d a b => some (encA 0x01 5 d a b, none)
  | .shr _ d a b => some (encA 0x01 6 d a b, none)
  | .sra _ d a b => some (encA 0x01 7 d a b, none)
  | .min _ d a b => some (encA 0x01 8 d a b, none)
  | .max _ d a b => some (encA 0x01 9 d a b, none)
  | .adds _ d a b => some (encA 0x01 10 d a b, none)
  | .subs _ d a b => some (encA 0x01 11 d a b, none)
  | .cmp _ a b => some (encA 0x01 12 0 a b, none)
  | .addi _ d a m => some (encB 3 d a m, none)
  | .andi _ d a m => some (encB 4 d a m, none)
  | .ori _ d a m => some (encB 5 d a m, none)
  | .xori _ d a m => some (encB 6 d a m, none)
  | .lui _ d m => some (encB 7 d 0 m, none)
  | .limm _ d e => some (encB 8 d 0 0, some e)
  | .mul _ d a b => some (encA 0x02 0 d a b, none)
  | .mulh _ d a b => some (encA 0x02 1 d a b, none)
  | .mulhu _ d a b => some (encA 0x02 2 d a b, none)
  | .qmul _ d a b => some (encA 0x02 5 d a b, none)
  | .divu _ d a b => some (encA 0x02 8 d a b, none)
  | .divs _ d a b => some (encA 0x02 9 d a b, none)
  | .remu _ d a b => some (encA 0x02 10 d a b, none)
  | .mac _ a b => some (encA 0x02 3 0 a b, none)
  | .macr _ d a => some (encA 0x02 4 d a 0, none)
  | .beq _ a b m => some (encB 9 a b m, none)
  | .bne _ a b m => some (encB 10 a b m, none)
  | .blt _ a b m => some (encB 11 a b m, none)
  | .bge _ a b m => some (encB 12 a b m, none)
  | .bltu _ a b m => some (encB 13 a b m, none)
  | .bgeu _ a b m => some (encB 14 a b m, none)
  | .jmp _ a m => some (encB 15 0 a m, none)
  | .call _ a m => some (encB 16 0 a m, none)
  | .ret _ => some (encA 0x11 0 0 0 0, none)
  | .ldb _ d a m => some (encB 18 d a m, none)
  | .ldh _ d a m => some (encB 19 d a m, none)
  | .ldw _ d a m => some (encB 20 d a m, none)
  | .ldd _ d a m => some (encB 21 d a m, none)
  | .stb _ d a m => some (encB 22 d a m, none)
  | .sth _ d a m => some (encB 23 d a m, none)
  | .stw _ d a m => some (encB 24 d a m, none)
  | .std _ d a m => some (encB 25 d a m, none)
  | .tmov _ (.move d a) => some (encA 0x1A 0 d a 0, none)
  | .tmov _ (.lo d a) => some (encA 0x1A 1 d a 0, none)
  | .tmov _ (.hi d a) => some (encA 0x1A 2 d a 0, none)
  | .tmov _ (.pair d a b) => some (encA 0x1A 3 d a b, none)
  | .tadd _ d a b => some (encA 0x1A 4 d a b, none)
  | .taddi _ d a u e => some (encB 0x1B d a u.imm, some e)
  | .tsub _ d a b => some (encA 0x1A 5 d a b, none)
  | .tcmp _ a b => some (encA 0x1A 6 0 a b, none)
  | .tlead _ d a => some (encA 0x1A 7 d a 0, none)
  | .tcvt _ d a b u => some (encA 0x1A u.fn d a b, none)
  | .tnow _ m => some (encA 0x1A 12 m 0 0, none)
  | .brk _ => some (encA 0x3D 0 0 0 0, none)
  | .nop _ => some (encA 0x3E 0 0 0 0, none)
  | .endStep _ => some (encA 0x1E 0 0 0 0, none)
  | .wait _ a => some (encA 0x1C 0 0 a 0, none)
  | .waite _ d (some a) => some (encA 0x1D 1 d a 0, none)
  | .waite _ d none => some (encA 0x1D 0 d 0 0, none)
  | .stch _ x a h => some (encD 0x20 x a 0 h, none)
  | .stchr _ x a h => some (encD 0x21 x a 0 h, none)
  | .capt _ x a h => some (encD 0x22 x a 0 h, none)
  | .captp _ x h => some (encD 0x23 x 0 0 h, none)
  | .pwmw _ x a b h => some (encD 0x24 x a b h, none)
  | .pwmc _ x a h => some (encD 0x25 x a 0 h, none)
  | .fbrd _ x a h => some (encD 0x26 x a 0 h, none)
  | .fbspd _ x h => some (encD 0x27 x 0 0 h, none)
  | .fbcmp _ x a b h => some (encD 0x28 x a b h, none)
  | .hooprd _ x a h => some (encD 0x29 x a 0 h, none)
  | .hevt _ a b h => some (encD 0x2A 0 a b h, none)
  | .hcan _ a h => some (encD 0x2B 0 a 0 h, none)
  | .send _ x a b h => some (encD 0x2C x a b h, none)
  | .recv _ x a h => some (encD 0x2D x a 0 h, none)
  | .qput _ a h => some (encD 0x30 0 a 0 h, none)
  | .qget _ x h => some (encD 0x31 x 0 0 h, none)
  | .qrsv _ x a h => some (encD 0x32 x a 0 h, none)
  | .qend _ h => some (encD 0x33 0 0 0 h, none)
  | .qmark _ h => some (encD 0x34 0 0 0 h, none)
  | .qrew _ h => some (encD 0x35 0 0 0 h, none)
  | .qrel _ h => some (encD 0x36 0 0 0 h, none)
  | .qlvl _ x a h => some (encD 0x37 x a 0 h, none)
  | .evnt _ a b h => some (encD 0x38 0 a b h, none)
  | .ring _ h => some (encD 0x39 0 0 0 h, none)
  | .camh _ x a b h => some (encD 0x3A x a b h, none)
  | .crc _ d a b n => some (encA 0x3B (match n with | .four => 0 | .one => 1 | .two => 2) d a b, none)
  | .fault _ m => some (encB 0x3C 0 0 ((0 : BitVec 2) ++ m), none)
  | _ => none

end Sys2Proof
end

