-- ==== Sys2Proof/Config.lean ====
section
/-! DEFINITION. What the spec leaves to the part or to a standard it only names: functions and constants with no body, so
that no proof can see a value of them (log entries 6, 7, 8). -/

namespace Sys2Proof

/-- A fresh word the spec calls random (DBG_CHALLENGE, R539), by a count that State holds (log entry 6). -/
opaque Config.freeWord : Nat → Word

/-- SHA-384 of a byte string (R531, R532, R536, R539): a standard the spec names and does not give (log entry 7). -/
opaque Config.sha384 : List Byte → BitVec 384

/-- Does an ECDSA P-384 signature (r then s) by a public key verify over a hash (R531, R536)? (log entry 7) -/
opaque Config.ecdsaP384Verify : (key sig : List Byte) → (hash : BitVec 384) → Bool

/-- The clock class this node announces when it can be grandmaster (R389; IEEE 1588, log entry 8). -/
opaque Config.ptpClockClass : Nat

/-- The clock accuracy this node announces (R389; IEEE 1588, log entry 8). -/
opaque Config.ptpClockAccuracy : Nat

/-- The variance this node announces (R389; IEEE 1588, log entry 8). -/
opaque Config.ptpVariance : Nat

/-- The calibration trims of a timing pin, PIN_CAL (R250): found by the part's own calibration, by pin and a count that State
holds (log entry 21). -/
opaque Config.pinTrim : Nat → Nat → Word

end Sys2Proof
end

