-- ==== Sys2Proof/Machine/Registers.lean ====
section
/-! DEFINITION. Every register of the spec's register tables: its name, its place in BAR0, its copies, the access type of
each bit and its reset value (R12 to R14). -/

namespace Sys2Proof.Machine

/-- The registers, by their names in the spec; an indexed name stands for all its copies. -/
inductive Reg where
  | ID_DEVICE | ID_REVISION | ID_SERIAL_LO | ID_SERIAL_HI | FW_VERSION | CAP_DIES_PRESENT | CAP_DIES_LIVE
  | CAP_DIES_FENCED | CAP_GENERATION | MGMT_ROLE | NET_PORTS | GROUND_TOPOLOGY | GROUND_LINKS_UP | CAP_SHUTTLES
  | CAP_CONTEXTS_LIVE | CAP_THROUGHPUT | ABSENT_ACCESS_COUNT | MEM_WRITE_REJECT_COUNT | GT_NOW_LO | GT_NOW_HI
  | GT_SET_LO | GT_SET_HI | GT_SLEW | TIME_CTRL | PLANT_OFFSET_LO | PLANT_OFFSET_HI | PLANT_NOW_LO
  | PLANT_NOW_HI | TIME_STATUS | CONFIG_DIGEST | DET_STATUS | BREACH_COUNT | LOG_CTRL | LOG_LOST_COUNT
  | CTX_SEL | CTX_STATUS | CTX_PC_FLAGS | CTX_STEP_SEQ_LO | CTX_STEP_SEQ_HI | CTX_TN_LO | CTX_TN_HI | CTX_TL_LO
  | CTX_TL_HI | CTX_A_LO | CTX_A_HI | CTX_G | CTX_T_LO | CTX_T_HI | CTX_RSTACK | CTX_MARK | DBG_CTRL
  | DBG_STATUS | BRK_COUNT | PLC_STATUS | PLC_ROT_PERIOD | PLC_SPLIT | PLC_RPT_SEL | PLC_RPT_LOC | PLC_RPT_CODE
  | PLC_RPT_DATA | PLC_RPT_WIN | PLC_RPT_LOAD | PLC_BIND_SEL | PLC_BIND_IDX | PLC_MIG_COUNT | PLC_ROT_DEFER
  | TASK_STATE | SHT_ROLE | SHT_LOAD | SHT_LAST_BIST | SHT_ROT_COUNT | PIN_CTRL | PIN_OWNER | PIN_STATUS
  | PIN_CMD | PIN_CAP_SEL | PIN_CAP_INFO | PIN_CAP_STAMP_LO | PIN_CAP_STAMP_HI | PIN_NEXT_LO | PIN_NEXT_HI
  | PIN_NEXT_INFO | PIN_MERGE_COUNT | PIN_DROP_COUNT | PIN_REFUSE_COUNT | PIN_CLAMP_COUNT | PIN_CAL
  | PIN_CAP_COUNT | PINS_RELEASED_LO | PINS_RELEASED_HI | PINS_FAILED_LO | PINS_FAILED_HI | CAR_CTRL
  | CAR_STATUS | CAR_HALF_PERIOD | CAR_PHASE | CAR_LAST_BOUNDARY_LO | CAR_LAST_BOUNDARY_HI | CAR_POS
  | CAR_REJECT_COUNT | PAIR_CFG | PAIR_DT | PAIR_MINPULSE | PAIR_COMPARE | PAIR_DITHER | PAIR_STATE
  | PAIR_DROP_COUNT | PAIR_STRETCH_COUNT | TRIP_CTRL | TRIP_BLANK | TRIP_ROUTE_LO | TRIP_ROUTE_HI | TRIP_STATUS
  | TRIP_CMD | TRIP_LAST_LO | TRIP_LAST_HI | TRIP_FIRE_COUNT | TRIP_BLANKED_COUNT | TRIP_REFUSE_COUNT
  | TRIPS_LATCHED | FB_CTRL | FB_STATUS | FB_POS_LO | FB_POS_HI | FB_SPEED_LO | FB_SPEED_HI | FB_LAST_EVENT_LO
  | FB_LAST_EVENT_HI | FB_SPD_CFG | FB_IDX_CFG | FB_CPR | FB_IDX_VALUE_LO | FB_IDX_VALUE_HI | FB_IDX_POS_LO
  | FB_IDX_POS_HI | FB_IDX_DEV | FB_COMM_CFG | FB_COMM_SEQ | FB_COMM_STATE | FB_SER_CLK | FB_SER_FRAME
  | FB_SER_CRC | FB_SER_CRC_INIT | FB_SER_TIMING | FB_SER_PERIOD | FB_SER_LD_MEAS | FB_SER_RAW_LO
  | FB_SER_RAW_HI | FB_CMP_VALUE_LO | FB_CMP_VALUE_HI | FB_CMP_SPACING | FB_CMP_STATUS | FB_CMP_COUNT
  | FB_PROBE_CTRL | FB_PROBE_CMD | FB_PROBE_STATUS | FB_PROBE_POS_LO | FB_PROBE_POS_HI | FB_PROBE_STAMP_LO
  | FB_PROBE_STAMP_HI | FB_OUT_CTRL | FB_PT_PINS | FB_DIV_PINS | FB_DIV_RATIO | FB_DIV_ZCOUNT | FB_ERR_COUNT_0
  | FB_ERR_COUNT_1 | FB_ERR_COUNT_2 | FB_IDX_COUNT | HOOP_CTRL | HOOP_SRC | HOOP_WHEEL | HOOP_MICRO
  | HOOP_REF_ANGLE | HOOP_DIR | HOOP_BAD_LIMIT | HOOP_STALL | HOOP_COAST | HOOP_STATUS | HOOP_ANGLE | HOOP_REVS
  | HOOP_PERIOD | HOOP_LAST_TOOTH_LO | HOOP_LAST_TOOTH_HI | HOOP_TOOTH_INFO | HOOP_EVT_SEL | HOOP_EVT_INFO
  | HOOP_EVT_START_LO | HOOP_EVT_START_HI | HOOP_EVT_END_LO | HOOP_EVT_END_HI | HOOP_SLOTS_PENDING_LO
  | HOOP_SLOTS_PENDING_HI | HOOP_SLOTS_ACTIVE_LO | HOOP_SLOTS_ACTIVE_HI | HOOP_BAD_COUNT | HOOP_SYNC_COUNT
  | HOOP_EVT_COUNT | HOOP_LIMIT_COUNT | NET_CTRL | NET_STATUS | NET_MAC_LO | NET_MAC_HI | NET_VLAN | NET_LAT
  | NET_PDELAY | NET_RX_COUNT | NET_TX_COUNT | NET_GATE_CTRL | NET_GATE_BASE_LO | NET_GATE_BASE_HI
  | NET_GATE_CYCLE | NET_GATE_ENTRY | NET_PTP_CTRL | NET_PTP_INTERVALS | NET_PTP_STATUS | NET_GM_ID_LO
  | NET_GM_ID_HI | NET_OFFSET | NET_SERVO | NET_SERVO_GAIN | NET_QUAL | NET_QUAL_COUNT | LS_CTRL | LS_NODE
  | LS_LINE_DIGEST | LS_GROUP_MAC_LO | LS_GROUP_MAC_HI | LS_STATUS | LS_DROP_COUNT_0 | LS_DROP_COUNT_1
  | AXP_CFG | AXP_PERIOD | AXP_SEQ | AXP_COUNT | AXS_CFG | AXS_SRC | AXS_PERIOD | AXS_ALLOW | AXS_STATUS
  | AXS_LAST_SEQ | AXS_LAST_STAMP_LO | AXS_LAST_STAMP_HI | AXS_COUNT | QUE_CFG | QUE_BASE | QUE_STATUS
  | QUE_FREE | QUE_GEN | QUE_IDLE | QUE_MARK_HI | QUE_MARK_LO | QUE_FLUSH | QUE_HOST_SRC | QUE_WR_PTR
  | QUE_RD_PTR | QUE_HOST_REL | QUE_PKT_COUNT | QUE_IDLE_COUNT | DMA_CTRL | DMA_STATUS | DMA_HEAD_LO
  | DMA_HEAD_HI | DMA_CUR_LO | DMA_CUR_HI | DMA_CMD | DMA_APPEND | DMA_APPEND_COUNT | DMA_SEEN
  | DMA_HWIN_BASE_LO | DMA_HWIN_BASE_HI | DMA_HWIN_SIZE | DMA_DONE_COUNT | DMA_RETRY_COUNT | DMA_ERR_ADDR_LO
  | DMA_ERR_ADDR_HI | DMA_BYTES_LO | DMA_BYTES_HI | CQ_BASE_LO | CQ_BASE_HI | CQ_CFG | CQ_STATUS | CQ_NEXT_SEQ
  | EQ_BASE_LO | EQ_BASE_HI | EQ_CFG | EQ_HEAD | EQ_STATUS | EQ_NEXT_SEQ | EQ_LOST_COUNT | REC_HORIZON_LO
  | REC_HORIZON_HI | REC_LAG | EQ_ROUTE | RTR_CLAIM | RTR_COMPLETE | RTR_CTRL | RTR_IDLE | RTR_STATUS
  | RTR_PRIV_EN_LO | RTR_PRIV_EN_HI | RTR_PRIV_PEND_LO | RTR_PRIV_PEND_HI | RTR_PRIV_ACT_LO | RTR_PRIV_ACT_HI
  | RTR_GROUP | RTR_DB_REJECT | RTR_SRC | RTR_DOORBELL | CQ_DOORBELL | FLT_STATUS | FLT_PKG_CAUSE
  | FLT_FENCE_CAUSE | FLT_CORR_COUNT_0 | FLT_CORR_COUNT_1 | FLT_TASK_COUNT | FLT_UNIT_COUNT | FLT_ACT_DROP
  | DIE_HEALTH | DIE_SHUTTLE_FAULT | DIE_ECC_COUNT | DIE_ECC_ADDR | DIE_SCRUB_CFG | DIE_SCRUB_STATUS
  | DIE_BIST_COUNT | DIE_TRIPCHK | DIE_ORIGIN_COUNT | DIE_RELEASE | RST_STATUS | RST_CTRL | PWR_STATUS
  | CLK_STATUS | START_FAIL | BOOT_CTRL | BOOT_STATUS | FUSE_POLICY | CLK_LOSS_COUNT | TASK_KEY_HASH
  | TASK_KEY_LOCK | DBG_LOCK | DBG_PKG_CTRL | DBG_CHALLENGE | DBG_RESPONSE | MBOX_WORD | MBOX_FULL
  deriving DecidableEq, Repr

/-- What a register table gives: `win` = in the die windows (R53), the offset, (stride, count) of each index, the masks
of the RW, W1C, W1S, RC and RO bits (R14), the reset value (R13), and which half of a 64-bit value it is (R19). -/
structure RegInfo where
  win : Bool
  off : Nat
  dims : List (Nat × Nat)
  rw : Nat
  w1c : Nat
  w1s : Nat
  rc : Nat
  ro : Nat
  reset : Nat
  half : Nat
  deriving DecidableEq, Repr

/-- Which copy of a register: the die, and up to three indices. -/
structure Ix where
  d : Nat
  i : Nat
  j : Nat
  k : Nat
  deriving DecidableEq, Repr

/-- One register of the part: its name and which copy. -/
abbrev RKey := Reg × Ix

/-- The order in which the register map lists its keys. -/
def rkeyLt (a b : RKey) : Bool :=
  if a.1.ctorIdx = b.1.ctorIdx then
    if a.2.d = b.2.d then
      if a.2.i = b.2.i then (if a.2.j = b.2.j then a.2.k < b.2.k else a.2.j < b.2.j)
      else a.2.i < b.2.i
    else a.2.d < b.2.d
  else a.1.ctorIdx < b.1.ctorIdx

/-- The register tables, one line per register (rule and file in INVENTORY.md). -/
def Reg.info : Reg → RegInfo
  | .ID_DEVICE => ⟨false, 0, [], 0, 0, 0, 0, 0xFFFFFFFF, 0x1F5E, 0⟩
  | .ID_REVISION => ⟨false, 4, [], 0, 0, 0, 0, 0xF03FF, 0x10, 0⟩
  | .ID_SERIAL_LO => ⟨false, 8, [], 0, 0, 0, 0, 0xFFFFFFFF, 0, 1⟩
  | .ID_SERIAL_HI => ⟨false, 0xC, [], 0, 0, 0, 0, 0xFFFFFFFF, 0, 2⟩
  | .FW_VERSION => ⟨false, 0x10, [], 0, 0, 0, 0, 0xFFFFFF, 0, 0⟩
  | .CAP_DIES_PRESENT => ⟨false, 0x20, [], 0, 0, 0, 0, 0xFF, 0, 0⟩
  | .CAP_DIES_LIVE => ⟨false, 0x24, [], 0, 0, 0, 0, 0xFF, 0, 0⟩
  | .CAP_DIES_FENCED => ⟨false, 0x28, [], 0, 0, 0, 0, 0xFF, 0, 0⟩
  | .CAP_GENERATION => ⟨false, 0x2C, [], 0, 0, 0, 0, 0xFFFFFFFF, 0, 0⟩
  | .MGMT_ROLE => ⟨false, 0x30, [], 0, 0, 0, 0, 7, 0, 0⟩
  | .NET_PORTS => ⟨false, 0x34, [], 0, 0, 0, 0, 0x33, 3, 0⟩
  | .GROUND_TOPOLOGY => ⟨false, 0x38, [], 0, 0, 0, 0, 0xFFF0FFF, 0xB40000, 0⟩
  | .GROUND_LINKS_UP => ⟨false, 0x3C, [], 0, 0, 0, 0, 0xFFFFFFFF, 0, 0⟩
  | .CAP_SHUTTLES => ⟨false, 0x40, [(4, 8)], 0, 0, 0, 0, 0xF01F, 0, 0⟩
  | .CAP_CONTEXTS_LIVE => ⟨false, 0x60, [], 0, 0, 0, 0, 0x7FF, 0, 0⟩
  | .CAP_THROUGHPUT => ⟨false, 0x64, [], 0, 0, 0, 0, 0xFFFF, 0, 0⟩
  | .ABSENT_ACCESS_COUNT => ⟨false, 0x68, [], 0, 0, 0, 0xFFFF, 0, 0, 0⟩
  | .MEM_WRITE_REJECT_COUNT => ⟨false, 0x6C, [], 0, 0, 0, 0xFFFF, 0, 0, 0⟩
  | .GT_NOW_LO => ⟨false, 0x100000, [], 0, 0, 0, 0, 0xFFFFFFFF, 0, 1⟩
  | .GT_NOW_HI => ⟨false, 0x100004, [], 0, 0, 0, 0, 0xFFFFFFFF, 0, 2⟩
  | .GT_SET_LO => ⟨false, 0x100008, [], 0xFFFFFFFF, 0, 0, 0, 0, 0, 1⟩
  | .GT_SET_HI => ⟨false, 0x10000C, [], 0xFFFFFFFF, 0, 0, 0, 0, 0, 2⟩
  | .GT_SLEW => ⟨false, 0x100010, [], 0xFFFFF, 0, 0, 0, 0, 0, 0⟩
  | .TIME_CTRL => ⟨false, 0x100014, [], 1, 0, 0, 0, 0, 0, 0⟩
  | .PLANT_OFFSET_LO => ⟨false, 0x100018, [], 0xFFFFFFFF, 0, 0, 0, 0, 0, 1⟩
  | .PLANT_OFFSET_HI => ⟨false, 0x10001C, [], 0xFFFFFFFF, 0, 0, 0, 0, 0, 2⟩
  | .PLANT_NOW_LO => ⟨false, 0x100020, [], 0, 0, 0, 0, 0xFFFFFFFF, 0, 1⟩
  | .PLANT_NOW_HI => ⟨false, 0x100024, [], 0, 0, 0, 0, 0xFFFFFFFF, 0, 2⟩
  | .TIME_STATUS => ⟨false, 0x100028, [], 0, 0x78, 0, 0, 0xFF07, 0, 0⟩
  | .CONFIG_DIGEST => ⟨false, 0x10002C, [], 0, 0, 0, 0, 0xFFFFFFFF, 0, 0⟩
  | .DET_STATUS => ⟨false, 0x100030, [], 0, 0x1F, 0, 0, 0, 0, 0⟩
  | .BREACH_COUNT => ⟨false, 0x100034, [(4, 5)], 0, 0, 0, 0xFFFF, 0, 0, 0⟩
  | .LOG_CTRL => ⟨false, 0x100048, [], 1, 0, 0, 0, 0, 0, 0⟩
  | .LOG_LOST_COUNT => ⟨false, 0x10004C, [], 0, 0, 0, 0xFFFFFFFF, 0, 0, 0⟩
  | .CTX_SEL => ⟨true, 0x408000, [], 0x1FFF, 0, 0, 0, 0, 0, 0⟩
  | .CTX_STATUS => ⟨true, 0x408004, [], 0, 0, 0, 0, 0xFF3FFF, 0, 0⟩
  | .CTX_PC_FLAGS => ⟨true, 0x408008, [], 0, 0, 0, 0, 0xFF3FFFF, 0, 0⟩
  | .CTX_STEP_SEQ_LO => ⟨true, 0x408010, [], 0, 0, 0, 0, 0xFFFFFFFF, 0, 1⟩
  | .CTX_STEP_SEQ_HI => ⟨true, 0x408014, [], 0, 0, 0, 0, 0xFFFFFFFF, 0, 2⟩
  | .CTX_TN_LO => ⟨true, 0x408018, [], 0, 0, 0, 0, 0xFFFFFFFF, 0, 1⟩
  | .CTX_TN_HI => ⟨true, 0x40801C, [], 0, 0, 0, 0, 0xFFFFFFFF, 0, 2⟩
  | .CTX_TL_LO => ⟨true, 0x408020, [], 0, 0, 0, 0, 0xFFFFFFFF, 0, 1⟩
  | .CTX_TL_HI => ⟨true, 0x408024, [], 0, 0, 0, 0, 0xFFFFFFFF, 0, 2⟩
  | .CTX_A_LO => ⟨true, 0x408028, [], 0, 0, 0, 0, 0xFFFFFFFF, 0, 1⟩
  | .CTX_A_HI => ⟨true, 0x40802C, [], 0, 0, 0, 0, 0xFFFFFFFF, 0, 2⟩
  | .CTX_G => ⟨true, 0x408040, [(4, 16)], 0, 0, 0, 0, 0xFFFFFFFF, 0, 0⟩
  | .CTX_T_LO => ⟨true, 0x408080, [(8, 4)], 0, 0, 0, 0, 0xFFFFFFFF, 0, 1⟩
  | .CTX_T_HI => ⟨true, 0x408084, [(8, 4)], 0, 0, 0, 0, 0xFFFFFFFF, 0, 2⟩
  | .CTX_RSTACK => ⟨true, 0x4080C0, [(4, 8)], 0, 0, 0, 0, 0x3FFFF, 0, 0⟩
  | .CTX_MARK => ⟨true, 0x408100, [(4, 16)], 0, 0, 0, 0, 0xFFFFFFFF, 0x7FFFFFFF, 0⟩
  | .DBG_CTRL => ⟨true, 0x408200, [], 0, 0, 0, 0, 0, 0, 0⟩
  | .DBG_STATUS => ⟨true, 0x408204, [], 0, 0xE, 0, 0, 0xFF01, 0, 0⟩
  | .BRK_COUNT => ⟨true, 0x408208, [], 0, 0, 0, 0xFFFF, 0, 0, 0⟩
  | .PLC_STATUS => ⟨false, 0x20000, [], 0, 0, 0, 0, 0x7FFFF03, 0, 0⟩
  | .PLC_ROT_PERIOD => ⟨false, 0x20004, [], 0xFFFFF, 0, 0, 0, 0, 0x2710, 0⟩
  | .PLC_SPLIT => ⟨false, 0x20008, [], 0, 0, 0, 0, 0x3FFFF, 0x10810, 0⟩
  | .PLC_RPT_SEL => ⟨false, 0x20010, [], 0xFFF, 0, 0, 0, 0, 0, 0⟩
  | .PLC_RPT_LOC => ⟨false, 0x20014, [], 0, 0, 0, 0, 0x3FFF, 0, 0⟩
  | .PLC_RPT_CODE => ⟨false, 0x20018, [], 0, 0, 0, 0, 0x3FFFF, 0, 0⟩
  | .PLC_RPT_DATA => ⟨false, 0x2001C, [], 0, 0, 0, 0, 0x3FFFFF, 0, 0⟩
  | .PLC_RPT_WIN => ⟨false, 0x20020, [], 0, 0, 0, 0, 0xFFFFFFFF, 0, 0⟩
  | .PLC_RPT_LOAD => ⟨false, 0x20024, [], 0, 0, 0, 0, 0x7FFF03FF, 0, 0⟩
  | .PLC_BIND_SEL => ⟨false, 0x20028, [], 0x3FFF, 0, 0, 0, 0, 0, 0⟩
  | .PLC_BIND_IDX => ⟨false, 0x2002C, [], 0, 0, 0, 0, 0x803FFFFF, 0, 0⟩
  | .PLC_MIG_COUNT => ⟨false, 0x20030, [], 0, 0, 0, 0xFFFF, 0, 0, 0⟩
  | .PLC_ROT_DEFER => ⟨false, 0x20034, [], 0, 0, 0, 0xFFFF, 0, 0, 0⟩
  | .TASK_STATE => ⟨false, 0x21000, [(4, 4096)], 0, 0, 0, 0, 0xFFFFFFF7, 0, 0⟩
  | .SHT_ROLE => ⟨true, 0x400000, [], 0, 0, 0, 0, 0x737, 0x707, 0⟩
  | .SHT_LOAD => ⟨true, 0x400010, [(4, 5)], 0, 0, 0, 0, 0x3F03FF, 0, 0⟩
  | .SHT_LAST_BIST => ⟨true, 0x400030, [(4, 5)], 0, 0, 0, 0, 0xFFFF, 0xFFFF, 0⟩
  | .SHT_ROT_COUNT => ⟨true, 0x400050, [], 0, 0, 0, 0xFFFF, 0, 0, 0⟩
  | .PIN_CTRL => ⟨true, 0x600000, [(0x100, 64)], 0x7FF7F, 0, 0, 0, 0, 2, 0⟩
  | .PIN_OWNER => ⟨true, 0x600004, [(0x100, 64)], 0, 0, 0, 0, 0x17FFF7, 0, 0⟩
  | .PIN_STATUS => ⟨true, 0x600008, [(0x100, 64)], 0, 0x3000000, 0, 0, 0x3F3FFF, 0x18, 0⟩
  | .PIN_CMD => ⟨true, 0x60000C, [(0x100, 64)], 0, 0, 0, 0, 0, 0, 0⟩
  | .PIN_CAP_SEL => ⟨true, 0x600010, [(0x100, 64)], 0x1F, 0, 0, 0, 0, 0, 0⟩
  | .PIN_CAP_INFO => ⟨true, 0x600014, [(0x100, 64)], 0, 0, 0, 0, 3, 0, 0⟩
  | .PIN_CAP_STAMP_LO => ⟨true, 0x600018, [(0x100, 64)], 0, 0, 0, 0, 0xFFFFFFFF, 0, 1⟩
  | .PIN_CAP_STAMP_HI => ⟨true, 0x60001C, [(0x100, 64)], 0, 0, 0, 0, 0xFFFFFFFF, 0, 2⟩
  | .PIN_NEXT_LO => ⟨true, 0x600020, [(0x100, 64)], 0, 0, 0, 0, 0xFFFFFFFF, 0, 1⟩
  | .PIN_NEXT_HI => ⟨true, 0x600024, [(0x100, 64)], 0, 0, 0, 0, 0xFFFFFFFF, 0, 2⟩
  | .PIN_NEXT_INFO => ⟨true, 0x600028, [(0x100, 64)], 0, 0, 0, 0, 7, 0, 0⟩
  | .PIN_MERGE_COUNT => ⟨true, 0x60002C, [(0x100, 64)], 0, 0, 0, 0xFFFF, 0, 0, 0⟩
  | .PIN_DROP_COUNT => ⟨true, 0x600030, [(0x100, 64)], 0, 0, 0, 0xFFFF, 0, 0, 0⟩
  | .PIN_REFUSE_COUNT => ⟨true, 0x600034, [(0x100, 64)], 0, 0, 0, 0xFFFF, 0, 0, 0⟩
  | .PIN_CLAMP_COUNT => ⟨true, 0x600038, [(0x100, 64)], 0, 0, 0, 0xFFFF, 0, 0, 0⟩
  | .PIN_CAL => ⟨true, 0x60003C, [(0x100, 64)], 0, 0, 0, 0, 0xFFFFFFFF, 0, 0⟩
  | .PIN_CAP_COUNT => ⟨true, 0x600040, [(0x100, 64)], 0, 0, 0, 0xFFFF0000, 0xFFFF, 0, 0⟩
  | .PINS_RELEASED_LO => ⟨true, 0x67F000, [], 0, 0, 0, 0, 0xFFFFFFFF, 0xFFFFFFFF, 1⟩
  | .PINS_RELEASED_HI => ⟨true, 0x67F004, [], 0, 0, 0, 0, 0xFFFFFFFF, 0xFFFFFFFF, 2⟩
  | .PINS_FAILED_LO => ⟨true, 0x67F008, [], 0, 0, 0, 0, 0xFFFFFFFF, 0, 1⟩
  | .PINS_FAILED_HI => ⟨true, 0x67F00C, [], 0, 0, 0, 0, 0xFFFFFFFF, 0, 2⟩
  | .CAR_CTRL => ⟨true, 0x680000, [(0x100, 16)], 1, 0, 0, 0, 0, 0, 0⟩
  | .CAR_STATUS => ⟨true, 0x680004, [(0x100, 16)], 0, 0x300, 0, 0, 0x7F, 0, 0⟩
  | .CAR_HALF_PERIOD => ⟨true, 0x680008, [(0x100, 16)], 0x1FFFFFF, 0, 0, 0, 0, 0x61A8, 0⟩
  | .CAR_PHASE => ⟨true, 0x68000C, [(0x100, 16)], 0x7FFFFFFF, 0, 0, 0, 0, 0, 0⟩
  | .CAR_LAST_BOUNDARY_LO => ⟨true, 0x680010, [(0x100, 16)], 0, 0, 0, 0, 0xFFFFFFFF, 0, 1⟩
  | .CAR_LAST_BOUNDARY_HI => ⟨true, 0x680014, [(0x100, 16)], 0, 0, 0, 0, 0xFFFFFFFF, 0, 2⟩
  | .CAR_POS => ⟨true, 0x680018, [(0x100, 16)], 0, 0, 0, 0, 0x81FFFFFF, 0, 0⟩
  | .CAR_REJECT_COUNT => ⟨true, 0x68001C, [(0x100, 16)], 0, 0, 0, 0xFFFF, 0, 0, 0⟩
  | .PAIR_CFG => ⟨true, 0x680040, [(0x100, 16), (0x20, 4)], 0x3F3FFF, 0, 0, 0, 0, 0x7A, 0⟩
  | .PAIR_DT => ⟨true, 0x680044, [(0x100, 16), (0x20, 4)], 0x3F1FFF, 0, 0, 0, 0, 0, 0⟩
  | .PAIR_MINPULSE => ⟨true, 0x680048, [(0x100, 16), (0x20, 4)], 0x7FF, 0, 0, 0, 0, 0, 0⟩
  | .PAIR_COMPARE => ⟨true, 0x68004C, [(0x100, 16), (0x20, 4)], 0xFFFFFFFF, 0, 0, 0, 0, 0, 0⟩
  | .PAIR_DITHER => ⟨true, 0x680050, [(0x100, 16), (0x20, 4)], 0xF, 0, 0, 0, 0, 0, 0⟩
  | .PAIR_STATE => ⟨true, 0x680054, [(0x100, 16), (0x20, 4)], 0, 0, 0, 0, 0x3F, 0x20, 0⟩
  | .PAIR_DROP_COUNT => ⟨true, 0x680058, [(0x100, 16), (0x20, 4)], 0, 0, 0, 0xFFFF, 0, 0, 0⟩
  | .PAIR_STRETCH_COUNT => ⟨true, 0x68005C, [(0x100, 16), (0x20, 4)], 0, 0, 0, 0xFFFF, 0, 0, 0⟩
  | .TRIP_CTRL => ⟨true, 0x6C0000, [(0x40, 8)], 0x7FFF7, 0, 0, 0, 0, 0, 0⟩
  | .TRIP_BLANK => ⟨true, 0x6C0004, [(0x40, 8)], 0x7FF, 0, 0, 0, 0, 0, 0⟩
  | .TRIP_ROUTE_LO => ⟨true, 0x6C0008, [(0x40, 8)], 0xFFFFFFFF, 0, 0, 0, 0, 0, 1⟩
  | .TRIP_ROUTE_HI => ⟨true, 0x6C000C, [(0x40, 8)], 0xFFFFFFFF, 0, 0, 0, 0, 0, 2⟩
  | .TRIP_STATUS => ⟨true, 0x6C0010, [(0x40, 8)], 0, 0x300, 0, 0, 0xF, 0, 0⟩
  | .TRIP_CMD => ⟨true, 0x6C0014, [(0x40, 8)], 0, 0, 0, 0, 0, 0, 0⟩
  | .TRIP_LAST_LO => ⟨true, 0x6C0018, [(0x40, 8)], 0, 0, 0, 0, 0xFFFFFFFF, 0, 1⟩
  | .TRIP_LAST_HI => ⟨true, 0x6C001C, [(0x40, 8)], 0, 0, 0, 0, 0xFFFFFFFF, 0, 2⟩
  | .TRIP_FIRE_COUNT => ⟨true, 0x6C0020, [(0x40, 8)], 0, 0, 0, 0xFFFF, 0, 0, 0⟩
  | .TRIP_BLANKED_COUNT => ⟨true, 0x6C0024, [(0x40, 8)], 0, 0, 0, 0xFFFF, 0, 0, 0⟩
  | .TRIP_REFUSE_COUNT => ⟨true, 0x6C0028, [(0x40, 8)], 0, 0, 0, 0xFFFF, 0, 0, 0⟩
  | .TRIPS_LATCHED => ⟨true, 0x6C0200, [], 0, 0, 0, 0, 0xFF, 0, 0⟩
  | .FB_CTRL => ⟨true, 0x700000, [(0x400, 8)], 0xF7FF1F, 0, 0, 0, 0, 0, 0⟩
  | .FB_STATUS => ⟨true, 0x700004, [(0x400, 8)], 0, 0x1C00, 0, 0, 0x3FF, 2, 0⟩
  | .FB_POS_LO => ⟨true, 0x700008, [(0x400, 8)], 0, 0, 0, 0, 0xFFFFFFFF, 0, 1⟩
  | .FB_POS_HI => ⟨true, 0x70000C, [(0x400, 8)], 0, 0, 0, 0, 0xFFFFFFFF, 0, 2⟩
  | .FB_SPEED_LO => ⟨true, 0x700010, [(0x400, 8)], 0, 0, 0, 0, 0xFFFFFFFF, 0, 1⟩
  | .FB_SPEED_HI => ⟨true, 0x700014, [(0x400, 8)], 0, 0, 0, 0, 0xFFFFFFFF, 0, 2⟩
  | .FB_LAST_EVENT_LO => ⟨true, 0x700018, [(0x400, 8)], 0, 0, 0, 0, 0xFFFFFFFF, 0, 1⟩
  | .FB_LAST_EVENT_HI => ⟨true, 0x70001C, [(0x400, 8)], 0, 0, 0, 0, 0xFFFFFFFF, 0, 2⟩
  | .FB_SPD_CFG => ⟨true, 0x700020, [(0x400, 8)], 0xFFFFF0F, 0, 0, 0, 0, 0x271004, 0⟩
  | .FB_IDX_CFG => ⟨true, 0x700024, [(0x400, 8)], 0xFFFF003F, 0, 0, 0, 0, 0, 0⟩
  | .FB_CPR => ⟨true, 0x700028, [(0x400, 8)], 0x1FFFFFF, 0, 0, 0, 0, 0x1000, 0⟩
  | .FB_IDX_VALUE_LO => ⟨true, 0x70002C, [(0x400, 8)], 0xFFFFFFFF, 0, 0, 0, 0, 0, 1⟩
  | .FB_IDX_VALUE_HI => ⟨true, 0x700030, [(0x400, 8)], 0xFFFF, 0, 0, 0, 0, 0, 2⟩
  | .FB_IDX_POS_LO => ⟨true, 0x700034, [(0x400, 8)], 0, 0, 0, 0, 0xFFFFFFFF, 0, 1⟩
  | .FB_IDX_POS_HI => ⟨true, 0x700038, [(0x400, 8)], 0, 0, 0, 0, 0xFFFF, 0, 2⟩
  | .FB_IDX_DEV => ⟨true, 0x70003C, [(0x400, 8)], 0, 0, 0, 0, 0xFFFFFFFF, 0, 0⟩
  | .FB_COMM_CFG => ⟨true, 0x700040, [(0x400, 8)], 0x3F3F01, 0, 0, 0, 0, 0, 0⟩
  | .FB_COMM_SEQ => ⟨true, 0x700044, [(0x400, 8)], 0x3FFFF, 0, 0, 0, 0, 0x2CC99, 0⟩
  | .FB_COMM_STATE => ⟨true, 0x700048, [(0x400, 8)], 0, 0, 0, 0, 0x77, 0x70, 0⟩
  | .FB_SER_CLK => ⟨true, 0x700050, [(0x400, 8)], 0x7FFFFFF, 0, 0, 0, 0, 0x1803E8, 0⟩
  | .FB_SER_FRAME => ⟨true, 0x700054, [(0x400, 8)], 0xFFFFFFFF, 0, 0, 0, 0, 0x30D00819, 0⟩
  | .FB_SER_CRC => ⟨true, 0x700058, [(0x400, 8)], 0x1FFFFF, 0, 0, 0, 0, 0, 0⟩
  | .FB_SER_CRC_INIT => ⟨true, 0x70005C, [(0x400, 8)], 0xFFFFFFFF, 0, 0, 0, 0, 0, 0⟩
  | .FB_SER_TIMING => ⟨true, 0x700060, [(0x400, 8)], 0xFFFFFFFF, 0, 0, 0, 0, 0x4E200000, 0⟩
  | .FB_SER_PERIOD => ⟨true, 0x700064, [(0x400, 8)], 0xFFFFFF, 0, 0, 0, 0, 0xF424, 0⟩
  | .FB_SER_LD_MEAS => ⟨true, 0x700068, [(0x400, 8)], 0, 0, 0, 0, 0xFFFF, 0, 0⟩
  | .FB_SER_RAW_LO => ⟨true, 0x70006C, [(0x400, 8)], 0, 0, 0, 0, 0xFFFFFFFF, 0, 1⟩
  | .FB_SER_RAW_HI => ⟨true, 0x700070, [(0x400, 8)], 0, 0, 0, 0, 0xFFFFFFFF, 0, 2⟩
  | .FB_CMP_VALUE_LO => ⟨true, 0x700080, [(0x400, 8)], 0, 0, 0, 0, 0xFFFFFFFF, 0, 1⟩
  | .FB_CMP_VALUE_HI => ⟨true, 0x700084, [(0x400, 8)], 0, 0, 0, 0, 0xFFFFFFFF, 0, 2⟩
  | .FB_CMP_SPACING => ⟨true, 0x700088, [(0x400, 8)], 0, 0, 0, 0, 0xFFFFFFFF, 0, 0⟩
  | .FB_CMP_STATUS => ⟨true, 0x70008C, [(0x400, 8)], 0, 0, 0, 0, 0xFFF3FF, 0, 0⟩
  | .FB_CMP_COUNT => ⟨true, 0x700090, [(0x400, 8)], 0, 0, 0, 0xFFFFFFFF, 0, 0, 0⟩
  | .FB_PROBE_CTRL => ⟨true, 0x7000A0, [(0x400, 8)], 0x7FF, 0, 0, 0, 0, 0, 0⟩
  | .FB_PROBE_CMD => ⟨true, 0x7000A4, [(0x400, 8)], 0, 0, 0, 0, 0, 0, 0⟩
  | .FB_PROBE_STATUS => ⟨true, 0x7000A8, [(0x400, 8)], 0, 2, 0, 0, 1, 0, 0⟩
  | .FB_PROBE_POS_LO => ⟨true, 0x7000AC, [(0x400, 8)], 0, 0, 0, 0, 0xFFFFFFFF, 0, 1⟩
  | .FB_PROBE_POS_HI => ⟨true, 0x7000B0, [(0x400, 8)], 0, 0, 0, 0, 0xFFFFFFFF, 0, 2⟩
  | .FB_PROBE_STAMP_LO => ⟨true, 0x7000B4, [(0x400, 8)], 0, 0, 0, 0, 0xFFFFFFFF, 0, 1⟩
  | .FB_PROBE_STAMP_HI => ⟨true, 0x7000B8, [(0x400, 8)], 0, 0, 0, 0, 0xFFFFFFFF, 0, 2⟩
  | .FB_OUT_CTRL => ⟨true, 0x7000C0, [(0x400, 8)], 0x3F, 0, 0, 0, 0, 0, 0⟩
  | .FB_PT_PINS => ⟨true, 0x7000C4, [(0x400, 8)], 0x3F3F3F, 0, 0, 0, 0, 0, 0⟩
  | .FB_DIV_PINS => ⟨true, 0x7000C8, [(0x400, 8)], 0x3F3F3F, 0, 0, 0, 0, 0, 0⟩
  | .FB_DIV_RATIO => ⟨true, 0x7000CC, [(0x400, 8)], 0xFFFFFFFF, 0, 0, 0, 0, 0x10001, 0⟩
  | .FB_DIV_ZCOUNT => ⟨true, 0x7000D0, [(0x400, 8)], 0x1FFFFFF, 0, 0, 0, 0, 0x400, 0⟩
  | .FB_ERR_COUNT_0 => ⟨true, 0x7000E0, [(0x400, 8)], 0, 0, 0, 0xFFFFFFFF, 0, 0, 0⟩
  | .FB_ERR_COUNT_1 => ⟨true, 0x7000E4, [(0x400, 8)], 0, 0, 0, 0xFFFFFFFF, 0, 0, 0⟩
  | .FB_ERR_COUNT_2 => ⟨true, 0x7000E8, [(0x400, 8)], 0, 0, 0, 0xFFFFFFFF, 0, 0, 0⟩
  | .FB_IDX_COUNT => ⟨true, 0x7000EC, [(0x400, 8)], 0, 0, 0, 0xFFFFFFFF, 0, 0, 0⟩
  | .HOOP_CTRL => ⟨true, 0x780000, [(0x1000, 4)], 0xF3FF, 0, 0, 0, 0, 0, 0⟩
  | .HOOP_SRC => ⟨true, 0x780004, [(0x1000, 4)], 0x3F03FF, 0, 0, 0, 0, 0, 0⟩
  | .HOOP_WHEEL => ⟨true, 0x780008, [(0x1000, 4)], 0xFFFF1FFF, 0, 0, 0, 0, 0x1103C, 0⟩
  | .HOOP_MICRO => ⟨true, 0x78000C, [(0x1000, 4)], 0xFFFF, 0, 0, 0, 0, 0x100, 0⟩
  | .HOOP_REF_ANGLE => ⟨true, 0x780010, [(0x1000, 4)], 0xFFFFFFFF, 0, 0, 0, 0, 0, 0⟩
  | .HOOP_DIR => ⟨true, 0x780014, [(0x1000, 4)], 0xFFFFF, 0, 0, 0, 0, 0, 0⟩
  | .HOOP_BAD_LIMIT => ⟨true, 0x780018, [(0x1000, 4)], 0xFFFFF, 0, 0, 0, 0, 0x2710, 0⟩
  | .HOOP_STALL => ⟨true, 0x78001C, [(0x1000, 4)], 0xFFFFFF, 0, 0, 0, 0, 0x186A0, 0⟩
  | .HOOP_COAST => ⟨true, 0x780020, [(0x1000, 4)], 0xFFFF, 0, 0, 0, 0, 0x14, 0⟩
  | .HOOP_STATUS => ⟨true, 0x780030, [(0x1000, 4)], 0, 0x30000, 0, 0, 0xFFFF, 0, 0⟩
  | .HOOP_ANGLE => ⟨true, 0x780034, [(0x1000, 4)], 0, 0, 0, 0, 0xFFFFFFFF, 0, 0⟩
  | .HOOP_REVS => ⟨true, 0x780038, [(0x1000, 4)], 0, 0, 0, 0, 0xFFFFFFFF, 0, 0⟩
  | .HOOP_PERIOD => ⟨true, 0x78003C, [(0x1000, 4)], 0, 0, 0, 0, 0xFFFFFFFF, 0, 0⟩
  | .HOOP_LAST_TOOTH_LO => ⟨true, 0x780040, [(0x1000, 4)], 0, 0, 0, 0, 0xFFFFFFFF, 0, 1⟩
  | .HOOP_LAST_TOOTH_HI => ⟨true, 0x780044, [(0x1000, 4)], 0, 0, 0, 0, 0xFFFFFFFF, 0, 2⟩
  | .HOOP_TOOTH_INFO => ⟨true, 0x780048, [(0x1000, 4)], 0, 0, 0, 0, 0xFFFFFFFF, 0, 0⟩
  | .HOOP_EVT_SEL => ⟨true, 0x780050, [(0x1000, 4)], 0x3F, 0, 0, 0, 0, 0, 0⟩
  | .HOOP_EVT_INFO => ⟨true, 0x780054, [(0x1000, 4)], 0, 0, 0, 0, 0xFFF007F, 0, 0⟩
  | .HOOP_EVT_START_LO => ⟨true, 0x780058, [(0x1000, 4)], 0, 0, 0, 0, 0xFFFFFFFF, 0, 1⟩
  | .HOOP_EVT_START_HI => ⟨true, 0x78005C, [(0x1000, 4)], 0, 0, 0, 0, 0xFFFFFFFF, 0, 2⟩
  | .HOOP_EVT_END_LO => ⟨true, 0x780060, [(0x1000, 4)], 0, 0, 0, 0, 0xFFFFFFFF, 0, 1⟩
  | .HOOP_EVT_END_HI => ⟨true, 0x780064, [(0x1000, 4)], 0, 0, 0, 0, 0xFFFFFFFF, 0, 2⟩
  | .HOOP_SLOTS_PENDING_LO => ⟨true, 0x780070, [(0x1000, 4)], 0, 0, 0, 0, 0xFFFFFFFF, 0, 1⟩
  | .HOOP_SLOTS_PENDING_HI => ⟨true, 0x780074, [(0x1000, 4)], 0, 0, 0, 0, 0xFFFFFFFF, 0, 2⟩
  | .HOOP_SLOTS_ACTIVE_LO => ⟨true, 0x780078, [(0x1000, 4)], 0, 0, 0, 0, 0xFFFFFFFF, 0, 1⟩
  | .HOOP_SLOTS_ACTIVE_HI => ⟨true, 0x78007C, [(0x1000, 4)], 0, 0, 0, 0, 0xFFFFFFFF, 0, 2⟩
  | .HOOP_BAD_COUNT => ⟨true, 0x780080, [(0x1000, 4)], 0, 0, 0, 0xFFFFFFFF, 0, 0, 0⟩
  | .HOOP_SYNC_COUNT => ⟨true, 0x780084, [(0x1000, 4)], 0, 0, 0, 0xFFFFFFFF, 0, 0, 0⟩
  | .HOOP_EVT_COUNT => ⟨true, 0x780088, [(0x1000, 4)], 0, 0, 0, 0xFFFFFFFF, 0, 0, 0⟩
  | .HOOP_LIMIT_COUNT => ⟨true, 0x78008C, [(0x1000, 4)], 0, 0, 0, 0xFFFFFFFF, 0, 0, 0⟩
  | .NET_CTRL => ⟨false, 0x140000, [(0x2000, 2)], 0x3FF, 0, 0, 0, 0, 0x374, 0⟩
  | .NET_STATUS => ⟨false, 0x140004, [(0x2000, 2)], 0, 0x100, 0, 0, 3, 0, 0⟩
  | .NET_MAC_LO => ⟨false, 0x140008, [(0x2000, 2)], 0xFFFFFFFF, 0, 0, 0, 0, 0, 1⟩
  | .NET_MAC_HI => ⟨false, 0x14000C, [(0x2000, 2)], 0xFFFF, 0, 0, 0, 0, 0, 2⟩
  | .NET_VLAN => ⟨false, 0x140010, [(0x2000, 2)], 0xFFF, 0, 0, 0, 0, 0, 0⟩
  | .NET_LAT => ⟨false, 0x140014, [(0x2000, 2)], 0xFFFFFFFF, 0, 0, 0, 0, 0, 0⟩
  | .NET_PDELAY => ⟨false, 0x140018, [(0x2000, 2)], 0, 0, 0, 0, 0xFFFFFFFF, 0, 0⟩
  | .NET_RX_COUNT => ⟨false, 0x140020, [(0x2000, 2)], 0, 0, 0, 0xFFFFFFFF, 0, 0, 0⟩
  | .NET_TX_COUNT => ⟨false, 0x140024, [(0x2000, 2)], 0, 0, 0, 0xFFFF0000, 0xFFFF, 0, 0⟩
  | .NET_GATE_CTRL => ⟨false, 0x140100, [(0x2000, 2)], 0x3FFFF01, 0, 0, 0, 0xA, 0x20100, 0⟩
  | .NET_GATE_BASE_LO => ⟨false, 0x140110, [(0x2000, 2), (0x10, 2)], 0xFFFFFFFF, 0, 0, 0, 0, 0, 1⟩
  | .NET_GATE_BASE_HI => ⟨false, 0x140114, [(0x2000, 2), (0x10, 2)], 0xFFFFFFFF, 0, 0, 0, 0, 0, 2⟩
  | .NET_GATE_CYCLE => ⟨false, 0x140118, [(0x2000, 2), (0x10, 2)], 0x3FFFFFFF, 0, 0, 0, 0, 0xF4240, 0⟩
  | .NET_GATE_ENTRY => ⟨false, 0x140800, [(0x2000, 2), (0x400, 2), (4, 256)], 0xFFFFFFFF, 0, 0, 0, 0, 0xFF, 0⟩
  | .NET_PTP_CTRL => ⟨false, 0x148000, [], 0xFFFFFF7F, 0, 0, 0, 0, 0xF8F6006C, 0⟩
  | .NET_PTP_INTERVALS => ⟨false, 0x148004, [], 0xFFFF, 0, 0, 0, 0, 0x300D, 0⟩
  | .NET_PTP_STATUS => ⟨false, 0x148008, [], 0, 0x10000, 0, 0, 0x1FF, 0, 0⟩
  | .NET_GM_ID_LO => ⟨false, 0x14800C, [], 0, 0, 0, 0, 0xFFFFFFFF, 0, 1⟩
  | .NET_GM_ID_HI => ⟨false, 0x148010, [], 0, 0, 0, 0, 0xFFFFFFFF, 0, 2⟩
  | .NET_OFFSET => ⟨false, 0x148014, [], 0, 0, 0, 0, 0xFFFFFFFF, 0, 0⟩
  | .NET_SERVO => ⟨false, 0x148018, [], 0xFFFFFFFF, 0, 0, 0, 0, 0xA7A120, 0⟩
  | .NET_SERVO_GAIN => ⟨false, 0x14801C, [], 0xFFFFFFFF, 0, 0, 0, 0, 0x13302CC, 0⟩
  | .NET_QUAL => ⟨false, 0x148020, [], 0xFFFFFF, 0, 0, 0, 0, 0x3E8, 0⟩
  | .NET_QUAL_COUNT => ⟨false, 0x148024, [], 0, 0, 0, 0xFFFFFFFF, 0, 0, 0⟩
  | .LS_CTRL => ⟨false, 0x180000, [], 0xFFFFFF, 0, 0, 0, 0, 0x88B5, 0⟩
  | .LS_NODE => ⟨false, 0x180004, [], 0xFFFFF, 0, 0, 0, 0, 0, 0⟩
  | .LS_LINE_DIGEST => ⟨false, 0x180008, [], 0xFFFFFFFF, 0, 0, 0, 0, 0, 0⟩
  | .LS_GROUP_MAC_LO => ⟨false, 0x18000C, [], 0xFFFFFFFF, 0, 0, 0, 0, 0, 1⟩
  | .LS_GROUP_MAC_HI => ⟨false, 0x180010, [], 0xFFFF, 0, 0, 0, 0, 0, 2⟩
  | .LS_STATUS => ⟨false, 0x180014, [], 0, 3, 0, 0, 0, 0, 0⟩
  | .LS_DROP_COUNT_0 => ⟨false, 0x180018, [], 0, 0, 0, 0xFFFFFFFF, 0, 0, 0⟩
  | .LS_DROP_COUNT_1 => ⟨false, 0x18001C, [], 0, 0, 0, 0xFFFF, 0, 0, 0⟩
  | .AXP_CFG => ⟨false, 0x181000, [(0x10, 64)], 0xFFF03FF, 0, 0, 0, 0, 0x2E0, 0⟩
  | .AXP_PERIOD => ⟨false, 0x181004, [(0x10, 64)], 0xFFFFFF, 0, 0, 0, 0, 0xF4240, 0⟩
  | .AXP_SEQ => ⟨false, 0x181008, [(0x10, 64)], 0, 0, 0, 0, 0xFFFFFFFF, 0, 0⟩
  | .AXP_COUNT => ⟨false, 0x18100C, [(0x10, 64)], 0, 0, 0, 0xFFFFFFFF, 0, 0, 0⟩
  | .AXS_CFG => ⟨false, 0x184000, [(0x40, 256)], 7, 0, 0, 0, 0, 2, 0⟩
  | .AXS_SRC => ⟨false, 0x184004, [(0x40, 256)], 0xFFFFFFFF, 0, 0, 0, 0, 0, 0⟩
  | .AXS_PERIOD => ⟨false, 0x184008, [(0x40, 256)], 0xFFFFFF, 0, 0, 0, 0, 0xF4240, 0⟩
  | .AXS_ALLOW => ⟨false, 0x18400C, [(0x40, 256)], 0xFFFFFF, 0, 0, 0, 0, 0x186A0, 0⟩
  | .AXS_STATUS => ⟨false, 0x184010, [(0x40, 256)], 0, 2, 0, 0, 5, 0, 0⟩
  | .AXS_LAST_SEQ => ⟨false, 0x184014, [(0x40, 256)], 0, 0, 0, 0, 0xFFFFFFFF, 0, 0⟩
  | .AXS_LAST_STAMP_LO => ⟨false, 0x184018, [(0x40, 256)], 0, 0, 0, 0, 0xFFFFFFFF, 0, 1⟩
  | .AXS_LAST_STAMP_HI => ⟨false, 0x18401C, [(0x40, 256)], 0, 0, 0, 0, 0xFFFFFFFF, 0, 2⟩
  | .AXS_COUNT => ⟨false, 0x184020, [(0x40, 256), (4, 4)], 0, 0, 0, 0xFFFFFFFF, 0, 0, 0⟩
  | .QUE_CFG => ⟨true, 0x800000, [(0x40, 256)], 0, 0, 0, 0, 0xFFF1F, 0, 0⟩
  | .QUE_BASE => ⟨true, 0x800004, [(0x40, 256)], 0, 0, 0, 0, 0x3FFFFF, 0, 0⟩
  | .QUE_STATUS => ⟨true, 0x800008, [(0x40, 256)], 0, 0x3000000, 0, 0, 0xFFFFF, 0, 0⟩
  | .QUE_FREE => ⟨true, 0x80000C, [(0x40, 256)], 0, 0, 0, 0, 0x1FFFF, 0, 0⟩
  | .QUE_GEN => ⟨true, 0x800010, [(0x40, 256)], 0, 0, 0, 0, 0xFFFF, 0, 0⟩
  | .QUE_IDLE => ⟨true, 0x800014, [(0x40, 256)], 0xFFFFFFFF, 0, 0, 0, 0, 0xFFFFFFFE, 0⟩
  | .QUE_MARK_HI => ⟨true, 0x800018, [(0x40, 256)], 0x1FFFF, 0, 0, 0, 0, 0, 0⟩
  | .QUE_MARK_LO => ⟨true, 0x80001C, [(0x40, 256)], 0x1FFFF, 0, 0, 0, 0, 0, 0⟩
  | .QUE_FLUSH => ⟨true, 0x800020, [(0x40, 256)], 0xFFFF, 0, 0, 0, 0, 0, 0⟩
  | .QUE_HOST_SRC => ⟨true, 0x800024, [(0x40, 256)], 0x1FFF, 0, 0, 0, 0, 0, 0⟩
  | .QUE_WR_PTR => ⟨true, 0x800028, [(0x40, 256)], 0, 0, 0, 0, 0xFFFF, 0, 0⟩
  | .QUE_RD_PTR => ⟨true, 0x80002C, [(0x40, 256)], 0, 0, 0, 0, 0xFFFF, 0, 0⟩
  | .QUE_HOST_REL => ⟨true, 0x800030, [(0x40, 256)], 0, 0, 0, 0, 0, 0, 0⟩
  | .QUE_PKT_COUNT => ⟨true, 0x800034, [(0x40, 256)], 0, 0, 0, 0xFFFF0000, 0xFFFF, 0, 0⟩
  | .QUE_IDLE_COUNT => ⟨true, 0x800038, [(0x40, 256)], 0, 0, 0, 0xFFFFFFFF, 0, 0, 0⟩
  | .DMA_CTRL => ⟨true, 0x880000, [(0x100, 8)], 0x1FF, 0, 0, 0, 0, 0x60, 0⟩
  | .DMA_STATUS => ⟨true, 0x880004, [(0x100, 8)], 0, 0x1F0000, 0, 0, 0x3FF, 0, 0⟩
  | .DMA_HEAD_LO => ⟨true, 0x880008, [(0x100, 8)], 0xFFFFFFC0, 0, 0, 0, 0, 0, 1⟩
  | .DMA_HEAD_HI => ⟨true, 0x88000C, [(0x100, 8)], 0xFFFFFFFF, 0, 0, 0, 0, 0, 2⟩
  | .DMA_CUR_LO => ⟨true, 0x880010, [(0x100, 8)], 0, 0, 0, 0, 0xFFFFFFFF, 0, 1⟩
  | .DMA_CUR_HI => ⟨true, 0x880014, [(0x100, 8)], 0, 0, 0, 0, 0xFFFFFFFF, 0, 2⟩
  | .DMA_CMD => ⟨true, 0x880018, [(0x100, 8)], 0, 0, 0, 0, 0, 0, 0⟩
  | .DMA_APPEND => ⟨true, 0x88001C, [(0x100, 8)], 0, 0, 0, 0, 0, 0, 0⟩
  | .DMA_APPEND_COUNT => ⟨true, 0x880020, [(0x100, 8)], 0, 0, 0, 0, 0xFFFFFFFF, 0, 0⟩
  | .DMA_SEEN => ⟨true, 0x880024, [(0x100, 8)], 0, 0, 0, 0, 0xFFFFFFFF, 0, 0⟩
  | .DMA_HWIN_BASE_LO => ⟨true, 0x880028, [(0x100, 8)], 0xFFFFF000, 0, 0, 0, 0, 0, 1⟩
  | .DMA_HWIN_BASE_HI => ⟨true, 0x88002C, [(0x100, 8)], 0xFFFFFFFF, 0, 0, 0, 0, 0, 2⟩
  | .DMA_HWIN_SIZE => ⟨true, 0x880030, [(0x100, 8)], 0xFFFFF, 0, 0, 0, 0, 0, 0⟩
  | .DMA_DONE_COUNT => ⟨true, 0x880034, [(0x100, 8)], 0, 0, 0, 0xFFFF, 0, 0, 0⟩
  | .DMA_RETRY_COUNT => ⟨true, 0x880038, [(0x100, 8)], 0, 0, 0, 0xFFFF, 0, 0, 0⟩
  | .DMA_ERR_ADDR_LO => ⟨true, 0x88003C, [(0x100, 8)], 0, 0, 0, 0, 0xFFFFFFFF, 0, 1⟩
  | .DMA_ERR_ADDR_HI => ⟨true, 0x880040, [(0x100, 8)], 0, 0, 0, 0, 0xFFFFFFFF, 0, 2⟩
  | .DMA_BYTES_LO => ⟨true, 0x880044, [(0x100, 8)], 0, 0, 0, 0, 0xFFFFFFFF, 0, 1⟩
  | .DMA_BYTES_HI => ⟨true, 0x880048, [(0x100, 8)], 0, 0, 0, 0, 0xFFFFFFFF, 0, 2⟩
  | .CQ_BASE_LO => ⟨false, 0x80000, [(0x40, 16)], 0xFFFFFFC0, 0, 0, 0, 0, 0, 1⟩
  | .CQ_BASE_HI => ⟨false, 0x80004, [(0x40, 16)], 0xFFFFFFFF, 0, 0, 0, 0, 0, 2⟩
  | .CQ_CFG => ⟨false, 0x80008, [(0x40, 16)], 0xF3F, 0, 0, 0, 0, 0x10, 0⟩
  | .CQ_STATUS => ⟨false, 0x8000C, [(0x40, 16)], 0, 0xC000000, 0, 0, 0x3FFFFFF, 0, 0⟩
  | .CQ_NEXT_SEQ => ⟨false, 0x80010, [(0x40, 16)], 0xFFFFFFFF, 0, 0, 0, 0, 0, 0⟩
  | .EQ_BASE_LO => ⟨false, 0x80800, [(0x40, 16)], 0xFFFFFFE0, 0, 0, 0, 0, 0, 1⟩
  | .EQ_BASE_HI => ⟨false, 0x80804, [(0x40, 16)], 0xFFFFFFFF, 0, 0, 0, 0, 0, 2⟩
  | .EQ_CFG => ⟨false, 0x80808, [(0x40, 16)], 0x1FFF, 0, 0, 0, 0, 0x10, 0⟩
  | .EQ_HEAD => ⟨false, 0x8080C, [(0x40, 16)], 0xFFFF, 0, 0, 0, 0, 0, 0⟩
  | .EQ_STATUS => ⟨false, 0x80810, [(0x40, 16)], 0, 0x40000, 0, 0, 0x3FFFF, 0x10000, 0⟩
  | .EQ_NEXT_SEQ => ⟨false, 0x80814, [(0x40, 16)], 0, 0, 0, 0, 0xFFFFFFFF, 0, 0⟩
  | .EQ_LOST_COUNT => ⟨false, 0x80818, [(0x40, 16)], 0, 0, 0, 0xFFFF, 0, 0, 0⟩
  | .REC_HORIZON_LO => ⟨false, 0x81000, [], 0, 0, 0, 0, 0xFFFFFFFF, 0, 1⟩
  | .REC_HORIZON_HI => ⟨false, 0x81004, [], 0, 0, 0, 0, 0xFFFFFFFF, 0, 2⟩
  | .REC_LAG => ⟨false, 0x81008, [], 0, 0, 0, 0, 0xFFFFFF, 0, 0⟩
  | .EQ_ROUTE => ⟨false, 0x8100C, [], 0xFF, 0, 0, 0, 0, 0, 0⟩
  | .RTR_CLAIM => ⟨false, 0x40000, [(0x1000, 18)], 0, 0, 0, 0, 0xFFF, 0, 0⟩
  | .RTR_COMPLETE => ⟨false, 0x40004, [(0x1000, 18)], 0, 0, 0, 0, 0, 0, 0⟩
  | .RTR_CTRL => ⟨false, 0x40008, [(0x1000, 18)], 0x3F0FF1, 0, 0, 0, 0, 0xF00, 0⟩
  | .RTR_IDLE => ⟨false, 0x4000C, [(0x1000, 18)], 1, 0, 0, 0, 0, 0, 0⟩
  | .RTR_STATUS => ⟨false, 0x40010, [(0x1000, 18)], 0, 0xC, 0, 0, 0xFFF0003, 1, 0⟩
  | .RTR_PRIV_EN_LO => ⟨false, 0x40018, [(0x1000, 18)], 0xFFFFFFFE, 0, 0, 0, 0, 0, 1⟩
  | .RTR_PRIV_EN_HI => ⟨false, 0x4001C, [(0x1000, 18)], 0xFFFFFFFF, 0, 0, 0, 0, 0, 2⟩
  | .RTR_PRIV_PEND_LO => ⟨false, 0x40020, [(0x1000, 18)], 0, 0, 0, 0, 0xFFFFFFFF, 0, 1⟩
  | .RTR_PRIV_PEND_HI => ⟨false, 0x40024, [(0x1000, 18)], 0, 0, 0, 0, 0xFFFFFFFF, 0, 2⟩
  | .RTR_PRIV_ACT_LO => ⟨false, 0x40028, [(0x1000, 18)], 0, 0, 0, 0, 0xFFFFFFFF, 0, 1⟩
  | .RTR_PRIV_ACT_HI => ⟨false, 0x4002C, [(0x1000, 18)], 0, 0, 0, 0, 0xFFFFFFFF, 0, 2⟩
  | .RTR_GROUP => ⟨false, 0x58000, [(4, 64)], 0x1FFFF, 0, 0, 0, 0x20000, 0, 0⟩
  | .RTR_DB_REJECT => ⟨false, 0x5F000, [], 0, 0, 0, 0xFFFF, 0, 0, 0⟩
  | .RTR_SRC => ⟨false, 0x60100, [(4, 4032)], 0x3F1F1F, 0, 0, 0, 0x6000, 0, 0⟩
  | .RTR_DOORBELL => ⟨false, 0x200000, [], 0, 0, 0, 0, 0, 0, 0⟩
  | .CQ_DOORBELL => ⟨false, 0x201000, [(8, 16)], 0, 0, 0, 0, 0, 0, 0⟩
  | .FLT_STATUS => ⟨false, 0xC0000, [], 0, 0xC, 0, 0, 3, 0, 0⟩
  | .FLT_PKG_CAUSE => ⟨false, 0xC0004, [], 0, 0, 0, 0, 3, 0, 0⟩
  | .FLT_FENCE_CAUSE => ⟨false, 0xC0008, [], 0, 0, 0, 0, 0xFFFFFFFF, 0, 0⟩
  | .FLT_CORR_COUNT_0 => ⟨false, 0xC000C, [], 0, 0, 0, 0xFFFFFFFF, 0, 0, 0⟩
  | .FLT_CORR_COUNT_1 => ⟨false, 0xC0010, [], 0, 0, 0, 0xFFFFFFFF, 0, 0, 0⟩
  | .FLT_TASK_COUNT => ⟨false, 0xC0014, [], 0, 0, 0, 0xFFFF, 0, 0, 0⟩
  | .FLT_UNIT_COUNT => ⟨false, 0xC0018, [], 0, 0, 0, 0xFFFFFFFF, 0, 0, 0⟩
  | .FLT_ACT_DROP => ⟨false, 0xC001C, [], 0, 0, 0, 0xFFFF, 0, 0, 0⟩
  | .DIE_HEALTH => ⟨true, 0x900000, [], 0, 0, 0, 0, 7, 4, 0⟩
  | .DIE_SHUTTLE_FAULT => ⟨true, 0x900004, [], 0, 0, 0, 0, 0x3F, 7, 0⟩
  | .DIE_ECC_COUNT => ⟨true, 0x900008, [], 0, 0, 0, 0xFFFFFFFF, 0, 0, 0⟩
  | .DIE_ECC_ADDR => ⟨true, 0x90000C, [], 0, 0, 0, 0, 0x7FFFFF, 0, 0⟩
  | .DIE_SCRUB_CFG => ⟨true, 0x900010, [], 0x7FF, 0, 0, 0, 0, 0x3C, 0⟩
  | .DIE_SCRUB_STATUS => ⟨true, 0x900014, [], 0, 0, 0, 0xFFFF0000, 0xFFFF, 0, 0⟩
  | .DIE_BIST_COUNT => ⟨true, 0x900018, [], 0, 0, 0, 0, 0xFFFFFFFF, 0, 0⟩
  | .DIE_TRIPCHK => ⟨true, 0x90001C, [], 0, 0, 0, 0, 0xFFFF, 0, 0⟩
  | .DIE_ORIGIN_COUNT => ⟨true, 0x900020, [], 0, 0, 0, 0, 0xFFFFFFFF, 0, 0⟩
  | .DIE_RELEASE => ⟨true, 0x900024, [], 0, 0, 0, 0, 1, 0, 0⟩
  | .RST_STATUS => ⟨false, 0x10000, [], 0, 0, 0, 0, 0xFFF, 0, 0⟩
  | .RST_CTRL => ⟨false, 0x10004, [], 0, 0, 0, 0, 0, 0, 0⟩
  | .PWR_STATUS => ⟨false, 0x10008, [], 0, 0, 0, 0, 0xFFFF1F, 0x1F, 0⟩
  | .CLK_STATUS => ⟨false, 0x1000C, [], 0, 0, 0, 0, 0xFFFFF, 0, 0⟩
  | .START_FAIL => ⟨false, 0x10010, [], 0, 0, 0, 0, 0xFFFFFFFF, 0, 0⟩
  | .BOOT_CTRL => ⟨false, 0x10014, [], 0, 0, 0, 0, 0, 0, 0⟩
  | .BOOT_STATUS => ⟨false, 0x10018, [], 0, 0x10000, 0, 0, 0xFFF3, 0, 0⟩
  | .FUSE_POLICY => ⟨false, 0x1001C, [], 0, 0, 0, 0, 0x3F3F, 0, 0⟩
  | .CLK_LOSS_COUNT => ⟨false, 0x10020, [], 0, 0, 0, 0xFFFF, 0, 0, 0⟩
  | .TASK_KEY_HASH => ⟨false, 0x10040, [(4, 12)], 0xFFFFFFFF, 0, 0, 0, 0, 0, 0⟩
  | .TASK_KEY_LOCK => ⟨false, 0x10070, [], 0, 0, 1, 0, 0, 0, 0⟩
  | .DBG_LOCK => ⟨false, 0x1001000, [], 0, 0x1000, 0, 0, 0xF31, 0, 0⟩
  | .DBG_PKG_CTRL => ⟨false, 0x1001004, [], 0, 0, 0, 0, 4, 0, 0⟩
  | .DBG_CHALLENGE => ⟨false, 0x1001010, [(4, 8)], 0, 0, 0, 0, 0xFFFFFFFF, 0, 0⟩
  | .DBG_RESPONSE => ⟨false, 0x1001040, [(4, 50)], 0xFFFFFFFF, 0, 0, 0, 0, 0, 0⟩
  | .MBOX_WORD => ⟨false, 0x1000000, [(0x40, 18), (4, 15)], 0, 0, 0, 0, 0xFFFFFFFF, 0, 0⟩
  | .MBOX_FULL => ⟨false, 0x100003C, [(0x40, 18)], 0, 1, 0, 0, 0, 0, 0⟩

/-- Every register. -/
def regList0 : List Reg :=
  [.ID_DEVICE, .ID_REVISION, .ID_SERIAL_LO, .ID_SERIAL_HI, .FW_VERSION, .CAP_DIES_PRESENT, .CAP_DIES_LIVE,
    .CAP_DIES_FENCED, .CAP_GENERATION, .MGMT_ROLE, .NET_PORTS, .GROUND_TOPOLOGY, .GROUND_LINKS_UP,
    .CAP_SHUTTLES, .CAP_CONTEXTS_LIVE, .CAP_THROUGHPUT, .ABSENT_ACCESS_COUNT, .MEM_WRITE_REJECT_COUNT,
    .GT_NOW_LO, .GT_NOW_HI, .GT_SET_LO, .GT_SET_HI, .GT_SLEW, .TIME_CTRL, .PLANT_OFFSET_LO, .PLANT_OFFSET_HI,
    .PLANT_NOW_LO, .PLANT_NOW_HI, .TIME_STATUS, .CONFIG_DIGEST, .DET_STATUS, .BREACH_COUNT, .LOG_CTRL,
    .LOG_LOST_COUNT, .CTX_SEL, .CTX_STATUS, .CTX_PC_FLAGS, .CTX_STEP_SEQ_LO, .CTX_STEP_SEQ_HI, .CTX_TN_LO,
    .CTX_TN_HI, .CTX_TL_LO, .CTX_TL_HI, .CTX_A_LO, .CTX_A_HI, .CTX_G, .CTX_T_LO, .CTX_T_HI, .CTX_RSTACK,
    .CTX_MARK, .DBG_CTRL, .DBG_STATUS, .BRK_COUNT, .PLC_STATUS, .PLC_ROT_PERIOD, .PLC_SPLIT, .PLC_RPT_SEL,
    .PLC_RPT_LOC, .PLC_RPT_CODE, .PLC_RPT_DATA]

/-- Every register, continued. -/
def regList1 : List Reg :=
  [.PLC_RPT_WIN, .PLC_RPT_LOAD, .PLC_BIND_SEL, .PLC_BIND_IDX, .PLC_MIG_COUNT, .PLC_ROT_DEFER, .TASK_STATE,
    .SHT_ROLE, .SHT_LOAD, .SHT_LAST_BIST, .SHT_ROT_COUNT, .PIN_CTRL, .PIN_OWNER, .PIN_STATUS, .PIN_CMD,
    .PIN_CAP_SEL, .PIN_CAP_INFO, .PIN_CAP_STAMP_LO, .PIN_CAP_STAMP_HI, .PIN_NEXT_LO, .PIN_NEXT_HI,
    .PIN_NEXT_INFO, .PIN_MERGE_COUNT, .PIN_DROP_COUNT, .PIN_REFUSE_COUNT, .PIN_CLAMP_COUNT, .PIN_CAL,
    .PIN_CAP_COUNT, .PINS_RELEASED_LO, .PINS_RELEASED_HI, .PINS_FAILED_LO, .PINS_FAILED_HI, .CAR_CTRL,
    .CAR_STATUS, .CAR_HALF_PERIOD, .CAR_PHASE, .CAR_LAST_BOUNDARY_LO, .CAR_LAST_BOUNDARY_HI, .CAR_POS,
    .CAR_REJECT_COUNT, .PAIR_CFG, .PAIR_DT, .PAIR_MINPULSE, .PAIR_COMPARE, .PAIR_DITHER, .PAIR_STATE,
    .PAIR_DROP_COUNT, .PAIR_STRETCH_COUNT, .TRIP_CTRL, .TRIP_BLANK, .TRIP_ROUTE_LO, .TRIP_ROUTE_HI,
    .TRIP_STATUS, .TRIP_CMD, .TRIP_LAST_LO, .TRIP_LAST_HI, .TRIP_FIRE_COUNT, .TRIP_BLANKED_COUNT,
    .TRIP_REFUSE_COUNT, .TRIPS_LATCHED]

/-- Every register, continued. -/
def regList2 : List Reg :=
  [.FB_CTRL, .FB_STATUS, .FB_POS_LO, .FB_POS_HI, .FB_SPEED_LO, .FB_SPEED_HI, .FB_LAST_EVENT_LO,
    .FB_LAST_EVENT_HI, .FB_SPD_CFG, .FB_IDX_CFG, .FB_CPR, .FB_IDX_VALUE_LO, .FB_IDX_VALUE_HI, .FB_IDX_POS_LO,
    .FB_IDX_POS_HI, .FB_IDX_DEV, .FB_COMM_CFG, .FB_COMM_SEQ, .FB_COMM_STATE, .FB_SER_CLK, .FB_SER_FRAME,
    .FB_SER_CRC, .FB_SER_CRC_INIT, .FB_SER_TIMING, .FB_SER_PERIOD, .FB_SER_LD_MEAS, .FB_SER_RAW_LO,
    .FB_SER_RAW_HI, .FB_CMP_VALUE_LO, .FB_CMP_VALUE_HI, .FB_CMP_SPACING, .FB_CMP_STATUS, .FB_CMP_COUNT,
    .FB_PROBE_CTRL, .FB_PROBE_CMD, .FB_PROBE_STATUS, .FB_PROBE_POS_LO, .FB_PROBE_POS_HI, .FB_PROBE_STAMP_LO,
    .FB_PROBE_STAMP_HI, .FB_OUT_CTRL, .FB_PT_PINS, .FB_DIV_PINS, .FB_DIV_RATIO, .FB_DIV_ZCOUNT,
    .FB_ERR_COUNT_0, .FB_ERR_COUNT_1, .FB_ERR_COUNT_2, .FB_IDX_COUNT, .HOOP_CTRL, .HOOP_SRC, .HOOP_WHEEL,
    .HOOP_MICRO, .HOOP_REF_ANGLE, .HOOP_DIR, .HOOP_BAD_LIMIT, .HOOP_STALL, .HOOP_COAST, .HOOP_STATUS,
    .HOOP_ANGLE]

/-- Every register, continued. -/
def regList3 : List Reg :=
  [.HOOP_REVS, .HOOP_PERIOD, .HOOP_LAST_TOOTH_LO, .HOOP_LAST_TOOTH_HI, .HOOP_TOOTH_INFO, .HOOP_EVT_SEL,
    .HOOP_EVT_INFO, .HOOP_EVT_START_LO, .HOOP_EVT_START_HI, .HOOP_EVT_END_LO, .HOOP_EVT_END_HI,
    .HOOP_SLOTS_PENDING_LO, .HOOP_SLOTS_PENDING_HI, .HOOP_SLOTS_ACTIVE_LO, .HOOP_SLOTS_ACTIVE_HI,
    .HOOP_BAD_COUNT, .HOOP_SYNC_COUNT, .HOOP_EVT_COUNT, .HOOP_LIMIT_COUNT, .NET_CTRL, .NET_STATUS, .NET_MAC_LO,
    .NET_MAC_HI, .NET_VLAN, .NET_LAT, .NET_PDELAY, .NET_RX_COUNT, .NET_TX_COUNT, .NET_GATE_CTRL,
    .NET_GATE_BASE_LO, .NET_GATE_BASE_HI, .NET_GATE_CYCLE, .NET_GATE_ENTRY, .NET_PTP_CTRL, .NET_PTP_INTERVALS,
    .NET_PTP_STATUS, .NET_GM_ID_LO, .NET_GM_ID_HI, .NET_OFFSET, .NET_SERVO, .NET_SERVO_GAIN, .NET_QUAL,
    .NET_QUAL_COUNT, .LS_CTRL, .LS_NODE, .LS_LINE_DIGEST, .LS_GROUP_MAC_LO, .LS_GROUP_MAC_HI, .LS_STATUS,
    .LS_DROP_COUNT_0, .LS_DROP_COUNT_1, .AXP_CFG, .AXP_PERIOD, .AXP_SEQ, .AXP_COUNT, .AXS_CFG, .AXS_SRC,
    .AXS_PERIOD, .AXS_ALLOW, .AXS_STATUS]

/-- Every register, continued. -/
def regList4 : List Reg :=
  [.AXS_LAST_SEQ, .AXS_LAST_STAMP_LO, .AXS_LAST_STAMP_HI, .AXS_COUNT, .QUE_CFG, .QUE_BASE, .QUE_STATUS,
    .QUE_FREE, .QUE_GEN, .QUE_IDLE, .QUE_MARK_HI, .QUE_MARK_LO, .QUE_FLUSH, .QUE_HOST_SRC, .QUE_WR_PTR,
    .QUE_RD_PTR, .QUE_HOST_REL, .QUE_PKT_COUNT, .QUE_IDLE_COUNT, .DMA_CTRL, .DMA_STATUS, .DMA_HEAD_LO,
    .DMA_HEAD_HI, .DMA_CUR_LO, .DMA_CUR_HI, .DMA_CMD, .DMA_APPEND, .DMA_APPEND_COUNT, .DMA_SEEN,
    .DMA_HWIN_BASE_LO, .DMA_HWIN_BASE_HI, .DMA_HWIN_SIZE, .DMA_DONE_COUNT, .DMA_RETRY_COUNT, .DMA_ERR_ADDR_LO,
    .DMA_ERR_ADDR_HI, .DMA_BYTES_LO, .DMA_BYTES_HI, .CQ_BASE_LO, .CQ_BASE_HI, .CQ_CFG, .CQ_STATUS,
    .CQ_NEXT_SEQ, .EQ_BASE_LO, .EQ_BASE_HI, .EQ_CFG, .EQ_HEAD, .EQ_STATUS, .EQ_NEXT_SEQ, .EQ_LOST_COUNT,
    .REC_HORIZON_LO, .REC_HORIZON_HI, .REC_LAG, .EQ_ROUTE, .RTR_CLAIM, .RTR_COMPLETE, .RTR_CTRL, .RTR_IDLE,
    .RTR_STATUS, .RTR_PRIV_EN_LO]

/-- Every register, continued. -/
def regList5 : List Reg :=
  [.RTR_PRIV_EN_HI, .RTR_PRIV_PEND_LO, .RTR_PRIV_PEND_HI, .RTR_PRIV_ACT_LO, .RTR_PRIV_ACT_HI, .RTR_GROUP,
    .RTR_DB_REJECT, .RTR_SRC, .RTR_DOORBELL, .CQ_DOORBELL, .FLT_STATUS, .FLT_PKG_CAUSE, .FLT_FENCE_CAUSE,
    .FLT_CORR_COUNT_0, .FLT_CORR_COUNT_1, .FLT_TASK_COUNT, .FLT_UNIT_COUNT, .FLT_ACT_DROP, .DIE_HEALTH,
    .DIE_SHUTTLE_FAULT, .DIE_ECC_COUNT, .DIE_ECC_ADDR, .DIE_SCRUB_CFG, .DIE_SCRUB_STATUS, .DIE_BIST_COUNT,
    .DIE_TRIPCHK, .DIE_ORIGIN_COUNT, .DIE_RELEASE, .RST_STATUS, .RST_CTRL, .PWR_STATUS, .CLK_STATUS,
    .START_FAIL, .BOOT_CTRL, .BOOT_STATUS, .FUSE_POLICY, .CLK_LOSS_COUNT, .TASK_KEY_HASH, .TASK_KEY_LOCK,
    .DBG_LOCK, .DBG_PKG_CTRL, .DBG_CHALLENGE, .DBG_RESPONSE, .MBOX_WORD, .MBOX_FULL]

/-- Every register. -/
def allRegs : List Reg := regList0 ++ regList1 ++ regList2 ++ regList3 ++ regList4 ++ regList5

/-- The byte offset in BAR0 of a copy of a register (R52, R53). -/
def regAddr (k : RKey) : Nat :=
  let f := k.1.info
  let s := match f.dims with
    | [] => 0
    | [(a, _)] => a * k.2.i
    | [(a, _), (b, _)] => a * k.2.i + b * k.2.j
    | (a, _) :: (b, _) :: (c, _) :: _ => a * k.2.i + b * k.2.j + c * k.2.k
  (if f.win then 0x08000000 + 0x01000000 * k.2.d else 0) + f.off + s

/-- Which indices of `dims` put an offset `o` at a copy, if any do. -/
def findIx (o : Nat) : List (Nat × Nat) → Option (List Nat)
  | [] => if o = 0 then some [] else none
  | (s, n) :: r =>
    let i := o / s
    if i < n then (findIx (o - i * s) r).map (fun t => i :: t) else none

/-- Which copy of register `r` lies at offset `a` of BAR0, if one does. -/
def regAtOff (r : Reg) (d : Nat) (o : Nat) : Option RKey :=
  let f := r.info
  if o < f.off then none
  else match findIx (o - f.off) f.dims with
    | none => none
    | some l => some (r, ⟨d, l.getD 0 0, l.getD 1 0, l.getD 2 0⟩)

/-- The first register of a list that lies at a place. -/
def regSearch (win : Bool) (d o : Nat) : List Reg → Option RKey
  | [] => none
  | r :: t =>
    if r.info.win = win then
      match regAtOff r d o with
      | some k => some k
      | none => regSearch win d o t
    else regSearch win d o t

/-- The register at a byte offset of BAR0; none where the offset is unassigned (R18). -/
def regAt (a : Nat) : Option RKey :=
  if a < 0x08000000 then regSearch false 0 a allRegs
  else if a < 0x10000000 then regSearch true ((a - 0x08000000) / 0x01000000) (a % 0x01000000) allRegs
  else none

end Sys2Proof.Machine
end

