-- ==== Sys2Proof/Machine/Fields.lean ====
section
/-! DEFINITION. The named fields of the registers (the Bits and Field columns of the spec's register tables). -/

namespace Sys2Proof.Machine

/-- A field: its register, its lowest bit, its width (R7). -/
structure Fld where
  reg : Reg
  lo : Nat
  w : Nat
  deriving DecidableEq, Repr

namespace F

def CAP_DIES_LIVE_live : Fld := ⟨.CAP_DIES_LIVE, 0, 8⟩
def CAP_DIES_FENCED_fenced : Fld := ⟨.CAP_DIES_FENCED, 0, 8⟩
def ABSENT_ACCESS_COUNT_count : Fld := ⟨.ABSENT_ACCESS_COUNT, 0, 16⟩
def MEM_WRITE_REJECT_COUNT_count : Fld := ⟨.MEM_WRITE_REJECT_COUNT, 0, 16⟩
def GT_SLEW_slew_ppb : Fld := ⟨.GT_SLEW, 0, 20⟩
def TIME_CTRL_servo_en : Fld := ⟨.TIME_CTRL, 0, 1⟩
def TIME_STATUS_first_step_done : Fld := ⟨.TIME_STATUS, 0, 1⟩
def TIME_STATUS_time_unqualified : Fld := ⟨.TIME_STATUS, 2, 1⟩
def TIME_STATUS_set_reject : Fld := ⟨.TIME_STATUS, 3, 1⟩
def TIME_STATUS_slew_reject : Fld := ⟨.TIME_STATUS, 4, 1⟩
def TIME_STATUS_offset_reject : Fld := ⟨.TIME_STATUS, 5, 1⟩
def TIME_STATUS_log_reject : Fld := ⟨.TIME_STATUS, 6, 1⟩
def BREACH_COUNT_count : Fld := ⟨.BREACH_COUNT, 0, 16⟩
def LOG_CTRL_enable : Fld := ⟨.LOG_CTRL, 0, 1⟩
def CTX_SEL_task_id : Fld := ⟨.CTX_SEL, 0, 12⟩
def DBG_STATUS_unlocked : Fld := ⟨.DBG_STATUS, 0, 1⟩
def DBG_STATUS_locked_reject : Fld := ⟨.DBG_STATUS, 1, 1⟩
def DBG_STATUS_not_here_reject : Fld := ⟨.DBG_STATUS, 2, 1⟩
def DBG_STATUS_state_reject : Fld := ⟨.DBG_STATUS, 3, 1⟩
def BRK_COUNT_count : Fld := ⟨.BRK_COUNT, 0, 16⟩
def PLC_STATUS_up : Fld := ⟨.PLC_STATUS, 0, 1⟩
def PLC_STATUS_last_reason : Fld := ⟨.PLC_STATUS, 8, 8⟩
def PLC_ROT_PERIOD_period_ms : Fld := ⟨.PLC_ROT_PERIOD, 0, 20⟩
def PLC_SPLIT_code_granules : Fld := ⟨.PLC_SPLIT, 0, 6⟩
def PLC_SPLIT_data_granules : Fld := ⟨.PLC_SPLIT, 6, 6⟩
def PLC_SPLIT_queue_granules : Fld := ⟨.PLC_SPLIT, 12, 6⟩
def PLC_RPT_SEL_task_id : Fld := ⟨.PLC_RPT_SEL, 0, 12⟩
def PLC_MIG_COUNT_count : Fld := ⟨.PLC_MIG_COUNT, 0, 16⟩
def PLC_ROT_DEFER_count : Fld := ⟨.PLC_ROT_DEFER, 0, 16⟩
def SHT_ROLE_spare_slot : Fld := ⟨.SHT_ROLE, 0, 3⟩
def SHT_ROLE_rot_phase : Fld := ⟨.SHT_ROLE, 4, 2⟩
def SHT_ROLE_vacating_slot : Fld := ⟨.SHT_ROLE, 8, 3⟩
def SHT_ROT_COUNT_count : Fld := ⟨.SHT_ROT_COUNT, 0, 16⟩
def PIN_CTRL_fallback : Fld := ⟨.PIN_CTRL, 0, 2⟩
def PIN_CTRL_cap_edge : Fld := ⟨.PIN_CTRL, 2, 2⟩
def PIN_CTRL_cap_en : Fld := ⟨.PIN_CTRL, 4, 1⟩
def PIN_CTRL_static_en : Fld := ⟨.PIN_CTRL, 5, 1⟩
def PIN_CTRL_static_level : Fld := ⟨.PIN_CTRL, 6, 1⟩
def PIN_CTRL_filt_n : Fld := ⟨.PIN_CTRL, 8, 8⟩
def PIN_CTRL_filt_prescale : Fld := ⟨.PIN_CTRL, 16, 3⟩
def PIN_STATUS_write_reject : Fld := ⟨.PIN_STATUS, 24, 1⟩
def PIN_STATUS_cmd_reject : Fld := ⟨.PIN_STATUS, 25, 1⟩
def PIN_MERGE_COUNT_count : Fld := ⟨.PIN_MERGE_COUNT, 0, 16⟩
def PIN_DROP_COUNT_count : Fld := ⟨.PIN_DROP_COUNT, 0, 16⟩
def PIN_REFUSE_COUNT_count : Fld := ⟨.PIN_REFUSE_COUNT, 0, 16⟩
def PIN_CLAMP_COUNT_count : Fld := ⟨.PIN_CLAMP_COUNT, 0, 16⟩
def PIN_CAP_COUNT_accepted : Fld := ⟨.PIN_CAP_COUNT, 0, 16⟩
def PIN_CAP_COUNT_narrow : Fld := ⟨.PIN_CAP_COUNT, 16, 16⟩
def CAR_CTRL_upd_mode : Fld := ⟨.CAR_CTRL, 0, 1⟩
def CAR_STATUS_write_reject : Fld := ⟨.CAR_STATUS, 8, 1⟩
def CAR_STATUS_cfg_reject : Fld := ⟨.CAR_STATUS, 9, 1⟩
def CAR_HALF_PERIOD_half_period : Fld := ⟨.CAR_HALF_PERIOD, 0, 25⟩
def CAR_PHASE_phase : Fld := ⟨.CAR_PHASE, 0, 31⟩
def CAR_REJECT_COUNT_count : Fld := ⟨.CAR_REJECT_COUNT, 0, 16⟩
def PAIR_CFG_en : Fld := ⟨.PAIR_CFG, 0, 1⟩
def PAIR_CFG_fail_trip : Fld := ⟨.PAIR_CFG, 1, 1⟩
def PAIR_CFG_policy : Fld := ⟨.PAIR_CFG, 2, 1⟩
def PAIR_CFG_hi_pol : Fld := ⟨.PAIR_CFG, 3, 1⟩
def PAIR_CFG_lo_pol : Fld := ⟨.PAIR_CFG, 4, 1⟩
def PAIR_CFG_fallback : Fld := ⟨.PAIR_CFG, 5, 1⟩
def PAIR_CFG_trip_state : Fld := ⟨.PAIR_CFG, 6, 2⟩
def PAIR_CFG_pin_hi : Fld := ⟨.PAIR_CFG, 8, 6⟩
def PAIR_CFG_pin_lo : Fld := ⟨.PAIR_CFG, 16, 6⟩
def PAIR_DT_dt_ns : Fld := ⟨.PAIR_DT, 0, 13⟩
def PAIR_DT_dt_fine : Fld := ⟨.PAIR_DT, 16, 6⟩
def PAIR_MINPULSE_mp_ns : Fld := ⟨.PAIR_MINPULSE, 0, 11⟩
def PAIR_DITHER_dither : Fld := ⟨.PAIR_DITHER, 0, 4⟩
def PAIR_DROP_COUNT_count : Fld := ⟨.PAIR_DROP_COUNT, 0, 16⟩
def PAIR_STRETCH_COUNT_count : Fld := ⟨.PAIR_STRETCH_COUNT, 0, 16⟩
def TRIP_CTRL_active_level : Fld := ⟨.TRIP_CTRL, 0, 1⟩
def TRIP_CTRL_unblankable : Fld := ⟨.TRIP_CTRL, 1, 1⟩
def TRIP_CTRL_rec_en : Fld := ⟨.TRIP_CTRL, 2, 1⟩
def TRIP_CTRL_eq : Fld := ⟨.TRIP_CTRL, 4, 4⟩
def TRIP_CTRL_filt_n : Fld := ⟨.TRIP_CTRL, 8, 8⟩
def TRIP_CTRL_filt_prescale : Fld := ⟨.TRIP_CTRL, 16, 3⟩
def TRIP_BLANK_blank_ns : Fld := ⟨.TRIP_BLANK, 0, 11⟩
def TRIP_STATUS_clear_refused : Fld := ⟨.TRIP_STATUS, 8, 1⟩
def TRIP_STATUS_write_reject : Fld := ⟨.TRIP_STATUS, 9, 1⟩
def TRIP_FIRE_COUNT_count : Fld := ⟨.TRIP_FIRE_COUNT, 0, 16⟩
def TRIP_BLANKED_COUNT_count : Fld := ⟨.TRIP_BLANKED_COUNT, 0, 16⟩
def TRIP_REFUSE_COUNT_count : Fld := ⟨.TRIP_REFUSE_COUNT, 0, 16⟩
def FB_CTRL_mode : Fld := ⟨.FB_CTRL, 0, 3⟩
def FB_CTRL_dir_invert : Fld := ⟨.FB_CTRL, 3, 1⟩
def FB_CTRL_rec_en : Fld := ⟨.FB_CTRL, 4, 1⟩
def FB_CTRL_filt_n : Fld := ⟨.FB_CTRL, 8, 8⟩
def FB_CTRL_filt_prescale : Fld := ⟨.FB_CTRL, 16, 3⟩
def FB_CTRL_eq : Fld := ⟨.FB_CTRL, 20, 4⟩
def FB_STATUS_standstill : Fld := ⟨.FB_STATUS, 1, 1⟩
def FB_STATUS_valid : Fld := ⟨.FB_STATUS, 2, 1⟩
def FB_STATUS_dir : Fld := ⟨.FB_STATUS, 3, 1⟩
def FB_STATUS_idx_mismatch : Fld := ⟨.FB_STATUS, 4, 1⟩
def FB_STATUS_referenced : Fld := ⟨.FB_STATUS, 5, 1⟩
def FB_STATUS_comm_invalid : Fld := ⟨.FB_STATUS, 6, 1⟩
def FB_STATUS_frame_lost : Fld := ⟨.FB_STATUS, 8, 1⟩
def FB_STATUS_ld_warn : Fld := ⟨.FB_STATUS, 9, 1⟩
def FB_STATUS_overspeed : Fld := ⟨.FB_STATUS, 10, 1⟩
def FB_STATUS_write_reject : Fld := ⟨.FB_STATUS, 11, 1⟩
def FB_STATUS_cfg_reject : Fld := ⟨.FB_STATUS, 12, 1⟩
def FB_SPD_CFG_spd_n : Fld := ⟨.FB_SPD_CFG, 0, 4⟩
def FB_SPD_CFG_timeout_us : Fld := ⟨.FB_SPD_CFG, 8, 20⟩
def FB_IDX_CFG_idx_mode : Fld := ⟨.FB_IDX_CFG, 0, 2⟩
def FB_IDX_CFG_ref : Fld := ⟨.FB_IDX_CFG, 2, 1⟩
def FB_IDX_CFG_idx_dir : Fld := ⟨.FB_IDX_CFG, 3, 2⟩
def FB_IDX_CFG_z_edge : Fld := ⟨.FB_IDX_CFG, 5, 1⟩
def FB_IDX_CFG_idx_tol : Fld := ⟨.FB_IDX_CFG, 16, 16⟩
def FB_CPR_cpr : Fld := ⟨.FB_CPR, 0, 25⟩
def FB_COMM_CFG_src : Fld := ⟨.FB_COMM_CFG, 0, 1⟩
def FB_COMM_CFG_pin_v : Fld := ⟨.FB_COMM_CFG, 8, 6⟩
def FB_COMM_CFG_pin_w : Fld := ⟨.FB_COMM_CFG, 16, 6⟩
def FB_COMM_STATE_sector : Fld := ⟨.FB_COMM_STATE, 4, 3⟩
def FB_SER_CLK_period_qns : Fld := ⟨.FB_SER_CLK, 0, 18⟩
def FB_SER_CLK_ret_clk : Fld := ⟨.FB_SER_CLK, 18, 1⟩
def FB_SER_CLK_fail_limit : Fld := ⟨.FB_SER_CLK, 19, 8⟩
def FB_SER_FRAME_nbits : Fld := ⟨.FB_SER_FRAME, 0, 7⟩
def FB_SER_FRAME_gray : Fld := ⟨.FB_SER_FRAME, 7, 1⟩
def FB_SER_FRAME_start_max : Fld := ⟨.FB_SER_FRAME, 8, 5⟩
def FB_SER_FRAME_start_level : Fld := ⟨.FB_SER_FRAME, 13, 1⟩
def FB_SER_FRAME_pos_lsb : Fld := ⟨.FB_SER_FRAME, 14, 6⟩
def FB_SER_FRAME_st_bits : Fld := ⟨.FB_SER_FRAME, 20, 6⟩
def FB_SER_FRAME_mt_bits : Fld := ⟨.FB_SER_FRAME, 26, 6⟩
def FB_SER_CRC_poly : Fld := ⟨.FB_SER_CRC, 0, 16⟩
def FB_SER_CRC_crc_width : Fld := ⟨.FB_SER_CRC, 16, 5⟩
def FB_SER_CRC_INIT_crc_init : Fld := ⟨.FB_SER_CRC_INIT, 0, 16⟩
def FB_SER_CRC_INIT_crc_xorout : Fld := ⟨.FB_SER_CRC_INIT, 16, 16⟩
def FB_SER_TIMING_line_delay_ns : Fld := ⟨.FB_SER_TIMING, 0, 16⟩
def FB_SER_TIMING_gap_ns : Fld := ⟨.FB_SER_TIMING, 16, 16⟩
def FB_SER_PERIOD_period_ns : Fld := ⟨.FB_SER_PERIOD, 0, 24⟩
def FB_CMP_STATUS_armed : Fld := ⟨.FB_CMP_STATUS, 0, 1⟩
def FB_CMP_COUNT_hits : Fld := ⟨.FB_CMP_COUNT, 0, 16⟩
def FB_CMP_COUNT_misses : Fld := ⟨.FB_CMP_COUNT, 16, 16⟩
def FB_PROBE_CTRL_src : Fld := ⟨.FB_PROBE_CTRL, 0, 2⟩
def FB_PROBE_CTRL_idx : Fld := ⟨.FB_PROBE_CTRL, 2, 6⟩
def FB_PROBE_CTRL_edge : Fld := ⟨.FB_PROBE_CTRL, 8, 2⟩
def FB_PROBE_CTRL_one_shot : Fld := ⟨.FB_PROBE_CTRL, 10, 1⟩
def FB_PROBE_STATUS_latched : Fld := ⟨.FB_PROBE_STATUS, 1, 1⟩
def FB_OUT_CTRL_pt_a : Fld := ⟨.FB_OUT_CTRL, 0, 1⟩
def FB_OUT_CTRL_pt_b : Fld := ⟨.FB_OUT_CTRL, 1, 1⟩
def FB_OUT_CTRL_pt_z : Fld := ⟨.FB_OUT_CTRL, 2, 1⟩
def FB_OUT_CTRL_div_en : Fld := ⟨.FB_OUT_CTRL, 3, 1⟩
def FB_OUT_CTRL_div_z : Fld := ⟨.FB_OUT_CTRL, 4, 1⟩
def FB_OUT_CTRL_div_z_out : Fld := ⟨.FB_OUT_CTRL, 5, 1⟩
def FB_PT_PINS_pin_a : Fld := ⟨.FB_PT_PINS, 0, 6⟩
def FB_PT_PINS_pin_b : Fld := ⟨.FB_PT_PINS, 8, 6⟩
def FB_PT_PINS_pin_z : Fld := ⟨.FB_PT_PINS, 16, 6⟩
def FB_DIV_PINS_pin_a : Fld := ⟨.FB_DIV_PINS, 0, 6⟩
def FB_DIV_PINS_pin_b : Fld := ⟨.FB_DIV_PINS, 8, 6⟩
def FB_DIV_PINS_pin_z : Fld := ⟨.FB_DIV_PINS, 16, 6⟩
def FB_DIV_RATIO_n : Fld := ⟨.FB_DIV_RATIO, 0, 16⟩
def FB_DIV_RATIO_m : Fld := ⟨.FB_DIV_RATIO, 16, 16⟩
def FB_DIV_ZCOUNT_zcount : Fld := ⟨.FB_DIV_ZCOUNT, 0, 25⟩
def FB_ERR_COUNT_0_quad_err : Fld := ⟨.FB_ERR_COUNT_0, 0, 16⟩
def FB_ERR_COUNT_0_overspeed : Fld := ⟨.FB_ERR_COUNT_0, 16, 16⟩
def FB_ERR_COUNT_1_frame_fail : Fld := ⟨.FB_ERR_COUNT_1, 0, 16⟩
def FB_ERR_COUNT_1_late_frame : Fld := ⟨.FB_ERR_COUNT_1, 16, 16⟩
def FB_ERR_COUNT_2_comm_invalid : Fld := ⟨.FB_ERR_COUNT_2, 0, 16⟩
def FB_ERR_COUNT_2_comm_skip : Fld := ⟨.FB_ERR_COUNT_2, 16, 16⟩
def FB_IDX_COUNT_corrected : Fld := ⟨.FB_IDX_COUNT, 0, 16⟩
def FB_IDX_COUNT_mismatched : Fld := ⟨.FB_IDX_COUNT, 16, 16⟩
def HOOP_CTRL_en : Fld := ⟨.HOOP_CTRL, 0, 1⟩
def HOOP_CTRL_src : Fld := ⟨.HOOP_CTRL, 1, 3⟩
def HOOP_CTRL_ref : Fld := ⟨.HOOP_CTRL, 4, 1⟩
def HOOP_CTRL_early_mode : Fld := ⟨.HOOP_CTRL, 5, 1⟩
def HOOP_CTRL_dir_en : Fld := ⟨.HOOP_CTRL, 6, 1⟩
def HOOP_CTRL_edge : Fld := ⟨.HOOP_CTRL, 7, 1⟩
def HOOP_CTRL_rec_en : Fld := ⟨.HOOP_CTRL, 8, 1⟩
def HOOP_CTRL_evt_rec : Fld := ⟨.HOOP_CTRL, 9, 1⟩
def HOOP_CTRL_eq : Fld := ⟨.HOOP_CTRL, 12, 4⟩
def HOOP_SRC_index : Fld := ⟨.HOOP_SRC, 0, 10⟩
def HOOP_SRC_idx_pin : Fld := ⟨.HOOP_SRC, 16, 6⟩
def HOOP_WHEEL_teeth : Fld := ⟨.HOOP_WHEEL, 0, 11⟩
def HOOP_WHEEL_gap : Fld := ⟨.HOOP_WHEEL, 11, 2⟩
def HOOP_WHEEL_cpt : Fld := ⟨.HOOP_WHEEL, 16, 16⟩
def HOOP_MICRO_m : Fld := ⟨.HOOP_MICRO, 0, 16⟩
def HOOP_DIR_thresh_ns : Fld := ⟨.HOOP_DIR, 0, 20⟩
def HOOP_BAD_LIMIT_max_period_us : Fld := ⟨.HOOP_BAD_LIMIT, 0, 20⟩
def HOOP_STALL_stall_us : Fld := ⟨.HOOP_STALL, 0, 24⟩
def HOOP_COAST_coast_ms : Fld := ⟨.HOOP_COAST, 0, 16⟩
def HOOP_STATUS_dir : Fld := ⟨.HOOP_STATUS, 3, 1⟩
def HOOP_STATUS_synthetic : Fld := ⟨.HOOP_STATUS, 4, 1⟩
def HOOP_STATUS_last_cause : Fld := ⟨.HOOP_STATUS, 8, 8⟩
def HOOP_STATUS_write_reject : Fld := ⟨.HOOP_STATUS, 16, 1⟩
def HOOP_STATUS_cfg_reject : Fld := ⟨.HOOP_STATUS, 17, 1⟩
def HOOP_BAD_COUNT_synthetic : Fld := ⟨.HOOP_BAD_COUNT, 0, 16⟩
def HOOP_BAD_COUNT_noise : Fld := ⟨.HOOP_BAD_COUNT, 16, 16⟩
def HOOP_SYNC_COUNT_lost : Fld := ⟨.HOOP_SYNC_COUNT, 0, 16⟩
def HOOP_SYNC_COUNT_stall : Fld := ⟨.HOOP_SYNC_COUNT, 16, 16⟩
def HOOP_EVT_COUNT_refused : Fld := ⟨.HOOP_EVT_COUNT, 0, 16⟩
def HOOP_EVT_COUNT_cancelled : Fld := ⟨.HOOP_EVT_COUNT, 16, 16⟩
def HOOP_LIMIT_COUNT_clamped : Fld := ⟨.HOOP_LIMIT_COUNT, 0, 16⟩
def HOOP_LIMIT_COUNT_time_limit : Fld := ⟨.HOOP_LIMIT_COUNT, 16, 16⟩
def NET_CTRL_en : Fld := ⟨.NET_CTRL, 0, 1⟩
def NET_CTRL_an_en : Fld := ⟨.NET_CTRL, 2, 1⟩
def NET_CTRL_ptp_tag : Fld := ⟨.NET_CTRL, 3, 1⟩
def NET_CTRL_ptp_queue : Fld := ⟨.NET_CTRL, 4, 3⟩
def NET_CTRL_ptp_pcp : Fld := ⟨.NET_CTRL, 7, 3⟩
def NET_STATUS_link_up : Fld := ⟨.NET_STATUS, 0, 1⟩
def NET_STATUS_an_done : Fld := ⟨.NET_STATUS, 1, 1⟩
def NET_STATUS_cfg_reject : Fld := ⟨.NET_STATUS, 8, 1⟩
def NET_VLAN_vid : Fld := ⟨.NET_VLAN, 0, 12⟩
def NET_LAT_tx_lat : Fld := ⟨.NET_LAT, 0, 16⟩
def NET_LAT_rx_lat : Fld := ⟨.NET_LAT, 16, 16⟩
def NET_PDELAY_delay_ns : Fld := ⟨.NET_PDELAY, 0, 32⟩
def NET_RX_COUNT_fcs_err : Fld := ⟨.NET_RX_COUNT, 0, 16⟩
def NET_RX_COUNT_dropped : Fld := ⟨.NET_RX_COUNT, 16, 16⟩
def NET_TX_COUNT_frames : Fld := ⟨.NET_TX_COUNT, 0, 16⟩
def NET_TX_COUNT_gate_drop : Fld := ⟨.NET_TX_COUNT, 16, 16⟩
def NET_GATE_CTRL_gate_en : Fld := ⟨.NET_GATE_CTRL, 0, 1⟩
def NET_GATE_CTRL_active : Fld := ⟨.NET_GATE_CTRL, 1, 1⟩
def NET_GATE_CTRL_pending : Fld := ⟨.NET_GATE_CTRL, 3, 1⟩
def NET_GATE_CTRL_len_0 : Fld := ⟨.NET_GATE_CTRL, 8, 9⟩
def NET_GATE_CTRL_len_1 : Fld := ⟨.NET_GATE_CTRL, 17, 9⟩
def NET_GATE_CYCLE_cycle_ns : Fld := ⟨.NET_GATE_CYCLE, 0, 30⟩
def NET_GATE_ENTRY_mask : Fld := ⟨.NET_GATE_ENTRY, 0, 8⟩
def NET_GATE_ENTRY_interval_ns : Fld := ⟨.NET_GATE_ENTRY, 8, 24⟩
def NET_PTP_CTRL_en : Fld := ⟨.NET_PTP_CTRL, 0, 1⟩
def NET_PTP_CTRL_profile : Fld := ⟨.NET_PTP_CTRL, 1, 2⟩
def NET_PTP_CTRL_ports : Fld := ⟨.NET_PTP_CTRL, 3, 2⟩
def NET_PTP_CTRL_two_step : Fld := ⟨.NET_PTP_CTRL, 5, 1⟩
def NET_PTP_CTRL_slave_only : Fld := ⟨.NET_PTP_CTRL, 6, 1⟩
def NET_PTP_CTRL_ptp_domain : Fld := ⟨.NET_PTP_CTRL, 8, 8⟩
def NET_PTP_CTRL_priority1 : Fld := ⟨.NET_PTP_CTRL, 16, 8⟩
def NET_PTP_CTRL_priority2 : Fld := ⟨.NET_PTP_CTRL, 24, 8⟩
def NET_PTP_INTERVALS_log_sync : Fld := ⟨.NET_PTP_INTERVALS, 0, 4⟩
def NET_PTP_INTERVALS_log_announce : Fld := ⟨.NET_PTP_INTERVALS, 4, 4⟩
def NET_PTP_INTERVALS_log_pdelay : Fld := ⟨.NET_PTP_INTERVALS, 8, 4⟩
def NET_PTP_INTERVALS_announce_timeout : Fld := ⟨.NET_PTP_INTERVALS, 12, 4⟩
def NET_PTP_STATUS_state_a : Fld := ⟨.NET_PTP_STATUS, 0, 4⟩
def NET_PTP_STATUS_state_b : Fld := ⟨.NET_PTP_STATUS, 4, 4⟩
def NET_PTP_STATUS_gm_self : Fld := ⟨.NET_PTP_STATUS, 8, 1⟩
def NET_PTP_STATUS_cfg_reject : Fld := ⟨.NET_PTP_STATUS, 16, 1⟩
def NET_SERVO_max_ppb : Fld := ⟨.NET_SERVO, 0, 20⟩
def NET_SERVO_step_us : Fld := ⟨.NET_SERVO, 20, 12⟩
def NET_SERVO_GAIN_kp : Fld := ⟨.NET_SERVO_GAIN, 0, 16⟩
def NET_SERVO_GAIN_ki : Fld := ⟨.NET_SERVO_GAIN, 16, 16⟩
def NET_QUAL_bound_ns : Fld := ⟨.NET_QUAL, 0, 20⟩
def NET_QUAL_eq : Fld := ⟨.NET_QUAL, 20, 4⟩
def NET_QUAL_COUNT_unqualified : Fld := ⟨.NET_QUAL_COUNT, 0, 16⟩
def NET_QUAL_COUNT_gm_change : Fld := ⟨.NET_QUAL_COUNT, 16, 16⟩
def LS_CTRL_ethertype : Fld := ⟨.LS_CTRL, 0, 16⟩
def LS_CTRL_domain : Fld := ⟨.LS_CTRL, 16, 8⟩
def LS_NODE_node_id : Fld := ⟨.LS_NODE, 0, 20⟩
def LS_STATUS_write_reject : Fld := ⟨.LS_STATUS, 0, 1⟩
def LS_STATUS_cfg_reject : Fld := ⟨.LS_STATUS, 1, 1⟩
def LS_DROP_COUNT_0_domain : Fld := ⟨.LS_DROP_COUNT_0, 0, 16⟩
def LS_DROP_COUNT_0_own : Fld := ⟨.LS_DROP_COUNT_0, 16, 16⟩
def LS_DROP_COUNT_1_unmatched : Fld := ⟨.LS_DROP_COUNT_1, 0, 16⟩
def AXP_CFG_en : Fld := ⟨.AXP_CFG, 0, 1⟩
def AXP_CFG_ports : Fld := ⟨.AXP_CFG, 1, 2⟩
def AXP_CFG_tag : Fld := ⟨.AXP_CFG, 3, 1⟩
def AXP_CFG_queue : Fld := ⟨.AXP_CFG, 4, 3⟩
def AXP_CFG_pcp : Fld := ⟨.AXP_CFG, 7, 3⟩
def AXP_CFG_axis_id : Fld := ⟨.AXP_CFG, 16, 12⟩
def AXP_PERIOD_period_ns : Fld := ⟨.AXP_PERIOD, 0, 24⟩
def AXP_COUNT_suppressed : Fld := ⟨.AXP_COUNT, 0, 16⟩
def AXP_COUNT_replaced : Fld := ⟨.AXP_COUNT, 16, 16⟩
def AXS_CFG_en : Fld := ⟨.AXS_CFG, 0, 1⟩
def AXS_CFG_ports : Fld := ⟨.AXS_CFG, 1, 2⟩
def AXS_SRC_axis_id : Fld := ⟨.AXS_SRC, 0, 12⟩
def AXS_SRC_node_id : Fld := ⟨.AXS_SRC, 12, 20⟩
def AXS_PERIOD_period_ns : Fld := ⟨.AXS_PERIOD, 0, 24⟩
def AXS_ALLOW_allow_ns : Fld := ⟨.AXS_ALLOW, 0, 24⟩
def AXS_STATUS_have_sample : Fld := ⟨.AXS_STATUS, 0, 1⟩
def AXS_STATUS_restarted : Fld := ⟨.AXS_STATUS, 1, 1⟩
def AXS_COUNT_count_lo : Fld := ⟨.AXS_COUNT, 0, 16⟩
def AXS_COUNT_count_hi : Fld := ⟨.AXS_COUNT, 16, 16⟩
def QUE_STATUS_write_reject : Fld := ⟨.QUE_STATUS, 24, 1⟩
def QUE_STATUS_cfg_reject : Fld := ⟨.QUE_STATUS, 25, 1⟩
def QUE_MARK_HI_mark_hi : Fld := ⟨.QUE_MARK_HI, 0, 17⟩
def QUE_MARK_LO_mark_lo : Fld := ⟨.QUE_MARK_LO, 0, 17⟩
def QUE_FLUSH_flush_us : Fld := ⟨.QUE_FLUSH, 0, 16⟩
def QUE_HOST_SRC_src : Fld := ⟨.QUE_HOST_SRC, 0, 12⟩
def QUE_HOST_SRC_notice_en : Fld := ⟨.QUE_HOST_SRC, 12, 1⟩
def QUE_PKT_COUNT_published : Fld := ⟨.QUE_PKT_COUNT, 0, 16⟩
def QUE_PKT_COUNT_full_fail : Fld := ⟨.QUE_PKT_COUNT, 16, 16⟩
def QUE_IDLE_COUNT_idle_reads : Fld := ⟨.QUE_IDLE_COUNT, 0, 16⟩
def QUE_IDLE_COUNT_ptr_fault : Fld := ⟨.QUE_IDLE_COUNT, 16, 16⟩
def DMA_CTRL_desc_space : Fld := ⟨.DMA_CTRL, 0, 1⟩
def DMA_CTRL_prio : Fld := ⟨.DMA_CTRL, 1, 3⟩
def DMA_CTRL_paced : Fld := ⟨.DMA_CTRL, 4, 1⟩
def DMA_CTRL_retry_max : Fld := ⟨.DMA_CTRL, 5, 4⟩
def DMA_STATUS_state : Fld := ⟨.DMA_STATUS, 0, 3⟩
def DMA_STATUS_bound : Fld := ⟨.DMA_STATUS, 4, 1⟩
def DMA_STATUS_last_error : Fld := ⟨.DMA_STATUS, 5, 4⟩
def DMA_STATUS_wb_fail : Fld := ⟨.DMA_STATUS, 9, 1⟩
def DMA_STATUS_done : Fld := ⟨.DMA_STATUS, 16, 1⟩
def DMA_STATUS_halted : Fld := ⟨.DMA_STATUS, 17, 1⟩
def DMA_STATUS_aborted : Fld := ⟨.DMA_STATUS, 18, 1⟩
def DMA_STATUS_cmd_reject : Fld := ⟨.DMA_STATUS, 19, 1⟩
def DMA_STATUS_write_reject : Fld := ⟨.DMA_STATUS, 20, 1⟩
def DMA_HWIN_SIZE_pages : Fld := ⟨.DMA_HWIN_SIZE, 0, 20⟩
def DMA_DONE_COUNT_count : Fld := ⟨.DMA_DONE_COUNT, 0, 16⟩
def DMA_RETRY_COUNT_count : Fld := ⟨.DMA_RETRY_COUNT, 0, 16⟩
def CQ_CFG_en : Fld := ⟨.CQ_CFG, 0, 1⟩
def CQ_CFG_space : Fld := ⟨.CQ_CFG, 1, 1⟩
def CQ_CFG_log_size : Fld := ⟨.CQ_CFG, 2, 4⟩
def CQ_CFG_eq : Fld := ⟨.CQ_CFG, 8, 4⟩
def CQ_STATUS_head : Fld := ⟨.CQ_STATUS, 0, 12⟩
def CQ_STATUS_tail : Fld := ⟨.CQ_STATUS, 12, 12⟩
def CQ_STATUS_stopped : Fld := ⟨.CQ_STATUS, 24, 1⟩
def CQ_STATUS_busy : Fld := ⟨.CQ_STATUS, 25, 1⟩
def CQ_STATUS_db_reject : Fld := ⟨.CQ_STATUS, 26, 1⟩
def CQ_STATUS_write_reject : Fld := ⟨.CQ_STATUS, 27, 1⟩
def EQ_CFG_en : Fld := ⟨.EQ_CFG, 0, 1⟩
def EQ_CFG_space : Fld := ⟨.EQ_CFG, 1, 1⟩
def EQ_CFG_log_size : Fld := ⟨.EQ_CFG, 2, 5⟩
def EQ_CFG_irq_en : Fld := ⟨.EQ_CFG, 7, 1⟩
def EQ_CFG_target : Fld := ⟨.EQ_CFG, 8, 5⟩
def EQ_HEAD_head : Fld := ⟨.EQ_HEAD, 0, 16⟩
def EQ_STATUS_write_index : Fld := ⟨.EQ_STATUS, 0, 16⟩
def EQ_STATUS_phase : Fld := ⟨.EQ_STATUS, 16, 1⟩
def EQ_STATUS_holding : Fld := ⟨.EQ_STATUS, 17, 1⟩
def EQ_STATUS_write_reject : Fld := ⟨.EQ_STATUS, 18, 1⟩
def EQ_LOST_COUNT_lost : Fld := ⟨.EQ_LOST_COUNT, 0, 16⟩
def REC_LAG_lag_ns : Fld := ⟨.REC_LAG, 0, 24⟩
def EQ_ROUTE_det_eq : Fld := ⟨.EQ_ROUTE, 0, 4⟩
def EQ_ROUTE_fault_eq : Fld := ⟨.EQ_ROUTE, 4, 4⟩
def RTR_CTRL_gdis : Fld := ⟨.RTR_CTRL, 0, 1⟩
def RTR_CTRL_threshold : Fld := ⟨.RTR_CTRL, 4, 4⟩
def RTR_CTRL_priv_prio : Fld := ⟨.RTR_CTRL, 8, 4⟩
def RTR_CTRL_priv_group : Fld := ⟨.RTR_CTRL, 16, 6⟩
def RTR_IDLE_idle : Fld := ⟨.RTR_IDLE, 0, 1⟩
def RTR_STATUS_armed : Fld := ⟨.RTR_STATUS, 0, 1⟩
def RTR_STATUS_complete_err : Fld := ⟨.RTR_STATUS, 2, 1⟩
def RTR_STATUS_write_reject : Fld := ⟨.RTR_STATUS, 3, 1⟩
def RTR_GROUP_holdoff_us : Fld := ⟨.RTR_GROUP, 0, 16⟩
def RTR_GROUP_bypass : Fld := ⟨.RTR_GROUP, 16, 1⟩
def RTR_GROUP_running : Fld := ⟨.RTR_GROUP, 17, 1⟩
def RTR_DB_REJECT_count : Fld := ⟨.RTR_DB_REJECT, 0, 16⟩
def RTR_SRC_pending : Fld := ⟨.RTR_SRC, 13, 1⟩
def RTR_SRC_active : Fld := ⟨.RTR_SRC, 14, 1⟩
def RTR_SRC_group : Fld := ⟨.RTR_SRC, 16, 6⟩
def FLT_STATUS_package_fault : Fld := ⟨.FLT_STATUS, 0, 1⟩
def FLT_STATUS_gap_written : Fld := ⟨.FLT_STATUS, 2, 1⟩
def FLT_STATUS_no_capacity : Fld := ⟨.FLT_STATUS, 3, 1⟩
def FLT_PKG_CAUSE_cause : Fld := ⟨.FLT_PKG_CAUSE, 0, 2⟩
def FLT_CORR_COUNT_0_ecc : Fld := ⟨.FLT_CORR_COUNT_0, 0, 16⟩
def FLT_CORR_COUNT_0_link : Fld := ⟨.FLT_CORR_COUNT_0, 16, 16⟩
def FLT_CORR_COUNT_1_dma_retry : Fld := ⟨.FLT_CORR_COUNT_1, 0, 16⟩
def FLT_CORR_COUNT_1_pcie : Fld := ⟨.FLT_CORR_COUNT_1, 16, 16⟩
def FLT_TASK_COUNT_task : Fld := ⟨.FLT_TASK_COUNT, 0, 16⟩
def FLT_UNIT_COUNT_shuttle : Fld := ⟨.FLT_UNIT_COUNT, 0, 16⟩
def FLT_UNIT_COUNT_other : Fld := ⟨.FLT_UNIT_COUNT, 16, 16⟩
def FLT_ACT_DROP_dropped : Fld := ⟨.FLT_ACT_DROP, 0, 16⟩
def DIE_ECC_COUNT_corrected : Fld := ⟨.DIE_ECC_COUNT, 0, 16⟩
def DIE_ECC_COUNT_uncorrectable : Fld := ⟨.DIE_ECC_COUNT, 16, 16⟩
def DIE_SCRUB_STATUS_zeroed : Fld := ⟨.DIE_SCRUB_STATUS, 16, 16⟩
def DIE_BIST_COUNT_passed : Fld := ⟨.DIE_BIST_COUNT, 0, 16⟩
def DIE_BIST_COUNT_failed : Fld := ⟨.DIE_BIST_COUNT, 16, 16⟩
def DIE_TRIPCHK_failed : Fld := ⟨.DIE_TRIPCHK, 0, 8⟩
def DIE_TRIPCHK_checked : Fld := ⟨.DIE_TRIPCHK, 8, 8⟩
def DIE_RELEASE_pass : Fld := ⟨.DIE_RELEASE, 0, 1⟩
def RST_STATUS_ready : Fld := ⟨.RST_STATUS, 0, 1⟩
def RST_STATUS_boot_state : Fld := ⟨.RST_STATUS, 1, 3⟩
def RST_STATUS_last_cause : Fld := ⟨.RST_STATUS, 4, 4⟩
def RST_STATUS_refclk_sel : Fld := ⟨.RST_STATUS, 8, 1⟩
def RST_STATUS_boot_sel : Fld := ⟨.RST_STATUS, 9, 2⟩
def RST_STATUS_perst_sel : Fld := ⟨.RST_STATUS, 11, 1⟩
def CLK_STATUS_pcie_refclk_ok : Fld := ⟨.CLK_STATUS, 18, 1⟩
def CLK_STATUS_sgmii_refclk_ok : Fld := ⟨.CLK_STATUS, 19, 1⟩
def BOOT_STATUS_source : Fld := ⟨.BOOT_STATUS, 0, 2⟩
def BOOT_STATUS_error : Fld := ⟨.BOOT_STATUS, 4, 4⟩
def BOOT_STATUS_attempts : Fld := ⟨.BOOT_STATUS, 8, 8⟩
def BOOT_STATUS_go_reject : Fld := ⟨.BOOT_STATUS, 16, 1⟩
def CLK_LOSS_COUNT_count : Fld := ⟨.CLK_LOSS_COUNT, 0, 16⟩
def TASK_KEY_LOCK_locked : Fld := ⟨.TASK_KEY_LOCK, 0, 1⟩
def DBG_LOCK_unlocked : Fld := ⟨.DBG_LOCK, 0, 1⟩
def DBG_LOCK_busy : Fld := ⟨.DBG_LOCK, 4, 1⟩
def DBG_LOCK_refused : Fld := ⟨.DBG_LOCK, 5, 1⟩
def DBG_LOCK_failures : Fld := ⟨.DBG_LOCK, 8, 4⟩
def DBG_LOCK_cmd_reject : Fld := ⟨.DBG_LOCK, 12, 1⟩
def DBG_PKG_CTRL_halted : Fld := ⟨.DBG_PKG_CTRL, 2, 1⟩
def MBOX_FULL_full : Fld := ⟨.MBOX_FULL, 0, 1⟩

end F

end Sys2Proof.Machine
end

