-- ==== Sys2Proof/Machine/Maps.lean ====
section
/-! DEFINITION. Sparse maps as lists of key and value, and byte memory in one canonical form: addresses strictly rising,
no entry equal to the byte an unlisted address reads as. -/

namespace Sys2Proof.Machine

/-- The value a sparse map holds at `k`; `d` where it lists none. -/
def amGet {κ α : Type} [DecidableEq κ] (m : List (κ × α)) (k : κ) (d : α) : α :=
  match m with
  | [] => d
  | (k', v) :: r => if k' = k then v else amGet r k d

/-- The map with `v` at `k`, placed before the first larger key. -/
def amPut {κ α : Type} [DecidableEq κ] (lt : κ → κ → Bool) (m : List (κ × α)) (k : κ) (v : α) : List (κ × α) :=
  match m with
  | [] => [(k, v)]
  | (k', v') :: r =>
    if k' = k then (k, v) :: r
    else if lt k k' then (k, v) :: (k', v') :: r
    else (k', v') :: amPut lt r k v

/-- The value at a number. -/
def nmGet {α : Type} (m : List (Nat × α)) (k : Nat) (d : α) : α := amGet m k d

/-- The value at a number, if the map lists one. -/
def nmGet? {α : Type} (m : List (Nat × α)) (k : Nat) : Option α :=
  match m with
  | [] => none
  | (k', v) :: r => if k' = k then some v else nmGet? r k

/-- The map with `v` at the number `k`, in rising order of the numbers. -/
def nmPut {α : Type} (m : List (Nat × α)) (k : Nat) (v : α) : List (Nat × α) :=
  amPut (fun a b => a < b) m k v

/-- The map without the number `k`. -/
def nmDel {α : Type} (m : List (Nat × α)) (k : Nat) : List (Nat × α) := m.filter (fun e => e.1 != k)

/-- What a byte that nothing has written reads as (log entry 5). -/
def memDefault : Byte := 0

/-- One byte of a memory. -/
def memRead (m : List Host.Cell) (a : Nat) : Byte := amGet m a memDefault

/-- A memory with byte `v` at address `a`; writing the default removes the entry. -/
def memWrite (m : List Host.Cell) (a : Nat) (v : Byte) : List Host.Cell :=
  if v = memDefault then m.filter (fun e => e.1 != a) else nmPut m a v

/-- The bytes at `a`, `a + 1`, … -/
def memReadList (m : List Host.Cell) (a : Nat) : Nat → List Byte
  | 0 => []
  | n + 1 => memRead m a :: memReadList m (a + 1) n

/-- A memory with a byte list written from `a` upward. -/
def memWriteList (m : List Host.Cell) (a : Nat) : List Byte → List Host.Cell
  | [] => m
  | b :: r => memWriteList (memWrite m a b) (a + 1) r

/-- A little-endian number from bytes (R7). -/
def leNat : List Byte → Nat
  | [] => 0
  | b :: r => b.toNat + 256 * leNat r

/-- `n` bytes of a number, little-endian (R7). -/
def leBytes (v : Nat) : Nat → List Byte
  | 0 => []
  | n + 1 => BitVec.ofNat 8 v :: leBytes (v / 256) n

/-- The 32-bit word at `a`. -/
def memWord (m : List Host.Cell) (a : Nat) : Word :=
  memRead m (a + 3) ++ memRead m (a + 2) ++ memRead m (a + 1) ++ memRead m a

/-- A memory with a 32-bit word written at `a`. -/
def memPutWord (m : List Host.Cell) (a : Nat) (v : Word) : List Host.Cell :=
  memWrite (memWrite (memWrite (memWrite m a (v.extractLsb' 0 8)) (a + 1) (v.extractLsb' 8 8))
    (a + 2) (v.extractLsb' 16 8)) (a + 3) (v.extractLsb' 24 8)

/-- `n` words from `a`. -/
def memWords (m : List Host.Cell) (a : Nat) : Nat → List Word
  | 0 => []
  | n + 1 => memWord m a :: memWords m (a + 4) n

/-- A memory with a word list written from `a` upward. -/
def memPutWords (m : List Host.Cell) (a : Nat) : List Word → List Host.Cell
  | [] => m
  | w :: r => memPutWords (memPutWord m a w) (a + 4) r

/-- A memory with `n` bytes from `lo` set to 0 (the default). -/
def memClear (m : List Host.Cell) (lo n : Nat) : List Host.Cell :=
  m.filter (fun e => e.1 < lo || lo + n ≤ e.1)

/-- The addresses of a list of cells rise strictly from above `lo`. -/
def risingFrom (lo : Nat) : List Host.Cell → Bool
  | [] => true
  | (a, _) :: r => lo < a && risingFrom a r

/-- The canonical form of a memory: addresses strictly rising, no entry equal to the default. -/
def Memory.wf (m : List Host.Cell) : Bool :=
  (match m with
   | [] => true
   | (a, _) :: r => risingFrom a r) && m.all (fun e => e.2 != memDefault)

/-- The bytes of a word, lowest first. -/
def wordBytes (w : Word) : List Byte :=
  [w.extractLsb' 0 8, w.extractLsb' 8 8, w.extractLsb' 16 8, w.extractLsb' 24 8]

/-- Words from bytes, lowest byte first; a short last group is filled with 0. -/
def bytesWords : List Byte → List Word
  | [] => []
  | [a] => [(0 : BitVec 24) ++ a]
  | [a, b] => [(0 : BitVec 16) ++ b ++ a]
  | [a, b, c] => [(0 : BitVec 8) ++ c ++ b ++ a]
  | a :: b :: c :: d :: r => (d ++ c ++ b ++ a) :: bytesWords r

end Sys2Proof.Machine
end

