-- ==== Sys2Proof/Machine/State.lean ====
section
/-! DEFINITION. The state of the part: the registers (one sparse map over the spec's register tables, an unlisted register
holding its reset value), the memories, the tasks, every unit, and the queue of waiting commands. -/

namespace Sys2Proof.Machine

/-- Why the machine stops with a fault. Nothing raises it: every command of the spec has an effect on the state. -/
inductive Fault where
  deriving DecidableEq, Repr

/-- Why a command has no meaning. -/
inductive Refusal where
  /-- Raised by an arm of exec whose command is not modelled yet (none is). Safe: nothing runs. -/
  | notModelled (mnemonic : String)
  deriving DecidableEq, Repr

/-- The three variants of R1. -/
inductive Variant where
  | d2 | d4 | d8
  deriving DecidableEq, Repr

/-- The flags of R127. -/
structure Flags where
  z : Bool
  n : Bool
  c : Bool
  v : Bool
  deriving DecidableEq, Repr

/-- One copy of a context's state (R110, R111). `rstack` lists the newest entry first. -/
structure Ctx where
  g : Vector Word 16
  t : Vector Time 4
  a : BitVec 64
  fl : Flags
  rstack : List (BitVec 18)
  pc : Nat
  deriving DecidableEq, Repr

/-- How the next step starts (R113): at its source's entry offset, after a WAIT, or after a WAITE that writes `rd`. -/
inductive Resume where
  | entry
  | afterWait (pc : Nat)
  | afterWaite (pc : Nat) (rd : GReg)
  deriving DecidableEq, Repr

/-- A pending activation (R71): its T, its source code and slot (R162), and what orders equal T (R74). -/
structure Act where
  t : Time
  src : Nat
  slot : Nat
  event : Nat
  edge : Bool
  k1 : Nat
  k2 : Nat
  k3 : Nat
  payload : List Word
  deriving DecidableEq, Repr

/-- What a hoop event is set to (R181): angles, target pin or activation, hold, level, time limit in µs. -/
structure HoopDesc where
  start : Word
  stop : Word
  pin : Option Nat
  hold : Bool
  level : Bool
  limitUs : Nat
  deriving DecidableEq, Repr

/-- What an effect does (R87). Units and queues are named by their logical indices. -/
inductive EffKind where
  | stitch (pin : Nat) (level repl : Bool) (old : Option Time)
  | pwmw (car pair field dither : Nat) (v : Word)
  | pwmc (car pair cmd : Nat)
  | tripClear (trip : Nat)
  | fbArm (fb : Nat) (pos spacing : Int) (pin : Option (Nat × Nat)) (slot : Nat)
  | fbDisarm (fb : Nat)
  | hevt (hoop slot : Nat) (desc : HoopDesc) (srcSlot : Nat)
  | hcan (hoop : Nat) (slot : Option Nat)
  | send (dst port : Nat) (payload : List Word)
  | sample (entry : Nat) (pos vel : BitVec 64)
  | packet (queue : Nat) (words : List Word)
  | release (queue upTo gen : Nat)
  | event (eq src ty : Nat) (payload : List Byte)
  | ring (src : Nat)
  deriving DecidableEq, Repr

/-- An effect with what orders it (R92): stamp, task rank, step sequence, effect index; the task and its run; the die it is
sent from and its place among all that the dies have sent (R40). -/
structure Eff where
  stamp : Time
  rank : Nat
  seq : Nat
  idx : Nat
  task : Nat
  run : Nat
  kind : EffKind
  die : Nat
  ord : Nat
  deriving DecidableEq, Repr

/-- A packet a step has open on a producer handle (R188, R189): its queue, reserved payload words, words so far; a void
one stores nothing. -/
structure OpenPkt where
  slot : Nat
  queue : Nat
  size : Nat
  words : List Word
  isVoid : Bool
  deriving DecidableEq, Repr

/-- A task's read point of a consumer queue (R155, R191, R192): read point, mark and release point as word counts since
the generation began, and the generation at its latest QGET. -/
structure ReadPoint where
  rp : Nat
  mark : Nat
  rel : Nat
  gen : Nat
  deriving DecidableEq, Repr

/-- The latest FBCMP of a task on an interface (R178): its stamp T + L, its place in the order of R92 (step sequence, effect
index), whether it arms, the pin it targets, and whether its spacing is 0. -/
structure Cmp where
  stamp : Time
  seq : Nat
  idx : Nat
  arm : Bool
  pin : Option Nat
  once : Bool
  deriving DecidableEq, Repr

/-- A step of a task (R79, R86, R87, R111): its activation, T + L, its commit reserve, the working copy, the write buffer
(word of the private segment, value), write buffer entries that queue words took, the effects in issue order, its copies of
the task's stitches, compares, capture points and read points (R155, R165), its open packets, the failed reservations
(queue, words, kept for R190), the late samples it has used (R406), cut off while halted (R143), a single-step requested (R144),
and that its activation has passed the interval test of R75 (it then runs again without one, R495). -/
structure Step where
  act : Act
  tl : Time
  reserve : Nat
  running : Bool
  w : Ctx
  wbuf : List (Nat × Word)
  extra : Nat
  effs : List Eff
  stitches : List (Nat × Time × Bool)
  cmps : List (Nat × Cmp)
  capts : List (Nat × Time)
  pkts : List OpenPkt
  rps : List (Nat × ReadPoint)
  fullRecs : List (Nat × Nat)
  lates : List (Nat × Time)
  cutOff : Bool
  single : Bool
  tested : Bool
  deriving DecidableEq, Repr

/-- A SOURCE record of a task image (R202). -/
structure Source where
  code : Nat
  slot : Nat
  entry : Nat
  cycles : Nat
  minNs : Nat
  maxPending : Nat
  deriving DecidableEq, Repr

/-- A RESOURCE record of a task image (R204): kind, first identification number (of a queue: the hardware queue bound to it,
65,536 while none is, R215), then the further ones of its kind (in-port; queue capacity and peer kind; hoop of a hoop-event
pin; source number), its flag bit 0, and the key of a queue (R205). -/
structure Res where
  kind : Nat
  a : Nat
  b : Nat
  c : Nat
  flag : Bool
  key : Nat
  deriving DecidableEq, Repr

/-- A read-only table of a task (R201, R214): number, content digest, length in bytes, place of its copy. -/
structure Table where
  k : Nat
  digest : Word
  len : Nat
  off : Nat
  deriving DecidableEq, Repr

/-- The states of TASK_STATE_n (R208, R228); an absent task is in no list. -/
inductive TaskState where
  | loaded | running | stopped | faulted
  deriving DecidableEq, Repr

/-- A migration in progress: where to (die, slot, context, code base, data base), the settle time there, and the command
queue of the SET_AFFINITY that asked for it, with the mask it carries. -/
structure Mig where
  die : Nat
  slot : Nat
  ctx : Nat
  codeBase : Nat
  dataBase : Nat
  tables : List Table
  cmd : Option (Nat × Nat)
  deriving DecidableEq, Repr

/-- What a stopped or faulted run still has to do to its outputs at an instant (R209, R491); of a fault the code, the further
information of its record and T (R490). -/
structure Fallback where
  time : Time
  run : Nat
  fault : Option (Nat × Nat × Time)
  deriving DecidableEq, Repr

/-- A resident task: its image (R200 to R204), its place (R211 to R216), whether it is cross-die with the earlier values newest
first, each with the T from which it held no more (R78, R567), its committed state (R111, R94), its activations
and timer (R74, R160), since when its context is halted (R141), and what the placer and the units remember of it. -/
structure Task where
  rank : Nat
  stopPolicy : Bool
  deferrable : Bool
  privileged : Bool
  lead : Nat
  codeWords : Nat
  dataBytes : Nat
  digest : Word
  sources : List Source
  res : List Res
  tables : List Table
  dataInit : List Byte
  affinity : Nat
  die : Nat
  slot : Nat
  ctx : Nat
  codeBase : Nat
  dataBase : Nat
  held : Bool
  memHeld : Bool
  cross : Bool
  crossHist : List (Time × Bool)
  mig : Option Mig
  state : TaskState
  faultCode : Nat
  faultPc : Nat
  run : Nat
  startStamp : Time
  c : Ctx
  resume : Resume
  seq : BitVec 64
  lastT : Time
  lastTl : Time
  step : Option Step
  pend : List Act
  timer : Option Time
  served : List ((Nat × Nat) × Time)
  dropped : Nat
  marks : List (Nat × Word)
  brk : Bool
  halt : Option Time
  stopAt : Option Time
  falls : List Fallback
  stitches : List (Nat × Time × Bool)
  cmps : List (Nat × Cmp)
  capts : List (Nat × Time)
  rps : List (Nat × ReadPoint)
  lateSeen : List (Nat × Time)
  deriving DecidableEq, Repr

/-- A record on its way to an event queue (R467, R470): stamp, source number, origin order, type, payload (15 bytes),
event queue, and the die that produced it. -/
structure Rec where
  stamp : Time
  src : Nat
  o1 : Nat
  o2 : Nat
  o3 : Nat
  ty : Nat
  payload : List Byte
  eq : Nat
  die : Nat
  deriving DecidableEq, Repr

/-- One shuttle slot of a die: healthy, enabled at start-up, when it last passed BIST (R225, R228). -/
structure Slot where
  healthy : Bool
  enabled : Bool
  lastBist : Option Time
  deriving DecidableEq, Repr

/-- A die: core clock on (R526), live and fenced (R59), its shuttle slots, links in service (R41), last horizon report (R469),
records on their way to die 0 and how many die 0 has received (R501), event queues that have received its records, run of lost
log entries (stamp of the first, when it was lost, how many, R103), its copy of the configuration digest (R207), fence-time snapshot of its health block (R55), when its clock was lost and whether it came back within
10 µs (R51, R498), release path test passed (R528), clear passed (R526); of a rotation (R225, R226) the former spare (7 = none)
and since when its next move waits; the failed shuttle and the one that loads its contexts (R495); a cause of R498 that die 0
does not know of yet; the cause and instant of a fence for which it is open whether the state can be read (R498). -/
structure Die where
  core : Bool
  live : Bool
  fenced : Bool
  slots : List Slot
  links : List Bool
  report : Option Time
  outbox : List Rec
  received : Nat
  eqSeen : List Nat
  logLost : Option (Time × Time × Nat)
  digest : Word
  snapshot : List (Nat × Word)
  clockLost : Option Time
  clockBack : Bool
  selfTest : Bool
  sramOk : Bool
  rotFrom : Nat
  rotSince : Time
  replay : Option (Nat × Nat)
  fenceDue : Option Nat
  fenceOpen : Option (Nat × Time)
  deriving DecidableEq, Repr

/-- An access port's 64-bit capture, write staging and last read data, with the upper half of a 64-bit read (R19 to R23). -/
structure PortSt where
  capture : Word
  staged : Option (Nat × Word)
  rd : Word
  rdHi : Word
  pinInfo : Word
  toothInfo : Word
  deriving DecidableEq, Repr

/-- A message on its way to a task's in-port (R185), with the die it is sent from and its place among all that is sent (R40). -/
structure Msg where
  stamp : Time
  rank : Nat
  seq : Nat
  idx : Nat
  src : Nat
  dst : Nat
  port : Nat
  payload : List Word
  die : Nat
  ord : Nat
  deriving DecidableEq, Repr

/-- The command a command queue has accepted (R460): its entry (16 words), acceptance stamp, status once executed, and
since when it waits for a migration to start. -/
structure CqCmd where
  entry : List Word
  accept : Time
  accepted : Bool
  status : Option Nat
  waiting : Option Time
  deriving DecidableEq, Repr

/-- An event queue's hold (R472): records that wait with their sequences, the run of lost records (first and last sequence,
stamp of the last). -/
structure EqSt where
  hold : List (Rec × Word)
  losing : Option (Word × Word × Time)
  deriving DecidableEq, Repr

/-- The fuses (R58, R531, R538, R539, R451). -/
structure Fuses where
  serial : BitVec 64
  grade : Nat
  signRequired : Bool
  debugDisabled : Bool
  fwRevoked : Nat
  taskKeyFused : Bool
  debugKeyFused : Bool
  fwSecMin : Nat
  fwKey0 : BitVec 384
  fwKey1 : BitVec 384
  taskKey : BitVec 384
  debugKey : BitVec 384
  macA : BitVec 48
  macB : BitVec 48
  subsystem : Nat
  deriving DecidableEq, Repr

/-- The strap balls (R521). -/
structure Straps where
  refclk25 : Bool
  bootSel : Nat
  perstSel : Bool
  deriving DecidableEq, Repr

/-- Boot and management (R503, R516 to R519, R533 to R535): the firmware image and its source, whether it is being checked
and has verified, the management pairs (0 on die 0, 1 on die 1) and whether pair 1 has its image, the takeover, the fuse
load, the package reset and whether its cause still holds, PERST#, the supply rails, the cause of the last failure of the active pair. -/
structure Boot where
  image : List Byte
  source : Nat
  busy : Bool
  verified : Bool
  pair0 : Bool
  pair1 : Bool
  pair1Ok : Bool
  takeover : Bool
  fusesOk : Bool
  inReset : Bool
  causeOn : Bool
  perst : Bool
  rails : List Bool
  failCause : Nat
  deriving DecidableEq, Repr

/-- The debug port and the package halt (R539, R540), and whether a response is being checked. -/
structure Dbg where
  challengeValid : Bool
  checking : Bool
  halt : Option Time
  deriving DecidableEq, Repr

/-- The PCIe function (R450 to R453): Bus Master Enable, D3hot, MSI-X mask bits, pending bits and table words of the 64
entries, how many messages each entry has sent, and messages that wait for the bus. -/
structure Pcie where
  bme : Bool
  d3hot : Bool
  msixMask : BitVec 64
  pba : BitVec 64
  table : List (Nat × Word)
  sent : List (Nat × Nat)
  waiting : List Nat
  deriving DecidableEq, Repr

/-! ### Units -/

/-- A digital filter (R244, R245): the level at the ball, the stamp of its latest transition, the filtered output. -/
structure Filt where
  raw : Bool
  since : Time
  out : Bool
  deriving DecidableEq, Repr

/-- The owner of a timing pin (R229). A carrier names its pair and side; an interface its use (0 pass-through, 1 divider,
2 commutation input); a hoop its use (0 event output, 1 tooth input) and, for use 0, the task that declares the pin. -/
inductive POwner where
  | free
  | task (t : Nat)
  | car (c n : Nat) (low : Bool)
  | fb (n use : Nat)
  | hoop (h use t : Nat)
  deriving DecidableEq, Repr

/-- An edge waiting at a pin cell (R233, R234). `cls` and `k1` to `k3` order equal stamps: 0 a stitch of a task's step (rank,
step sequence, effect index) or of a hoop (slot, 0 end or 1 start), 1 a stitch of a feedback compare (order of hits),
2 an edge of a carrier or an interface, which takes no queue entry. -/
structure Stitch where
  stamp : Time
  level : Bool
  cls : Nat
  k1 : Nat
  k2 : Nat
  k3 : Nat
  repl : Bool
  locked : Bool
  task : Nat
  run : Nat
  deriving DecidableEq, Repr

/-- A timing pin (R229 to R261): its input filter, owner, whether the owner has taken it from its fallback state (R232), the
level the engines drive, failed, waiting edges in the order of R234, captures since capture was enabled (newest first; the
hardware holds 32), the level at enable, the level of the latest stitch of the task's run (R334), and the stamp of the latest edge
driven with the level before it (R236). -/
structure PinSt where
  filt : Filt
  owner : POwner
  started : Bool
  lvl : Bool
  failed : Bool
  queue : List Stitch
  caps : List (Time × Bool)
  capInit : Bool
  lastLvl : Option Bool
  edge : Option (Time × Bool)
  deriving DecidableEq, Repr

/-- The counter states of R266 (frozen follows from the package halt). -/
inductive CarMode where
  | stopped | armed | running
  deriving DecidableEq, Repr

/-- One switch of a pair (R275, R276): on, called on by the reference and since when, when it last turned off, when its
latest pulse began, the turn-on it waits for, the end of a stretched pulse, and that this pulse has been counted. -/
structure SwSt where
  on : Bool
  called : Bool
  calledAt : Time
  lastOff : Option Time
  onAt : Time
  due : Option Time
  holdTo : Option Time
  counted : Bool
  deriving DecidableEq, Repr

/-- A pair (R264 to R288): the high-side reference, its switches, PAIR_OFF, held by a latched trip or R286, and in its
fallback state. -/
structure PairSt where
  ref : Bool
  hi : SwSt
  lo : SwSt
  off : Bool
  tripped : Bool
  fallback : Bool
  deriving DecidableEq, Repr

/-- A carrier (R263 to R277): mode; the coming first boundary while armed, else the latest boundary; the hold after it; the
period number of the dither cycle; the mid-period point passed; writes and commands that wait, in the order of R92. -/
structure CarSt where
  mode : CarMode
  bnd : Time
  hold : Nat
  idx : Nat
  mid : Bool
  pairs : List PairSt
  fx : List Eff
  deriving DecidableEq, Repr

/-- A blanking window (R280): the pin whose edge opened it, the stamp of that edge, the end. -/
structure BlankWin where
  pin : Nat
  stamp : Time
  fin : Time
  deriving DecidableEq, Repr

/-- A trip (R278 to R286): its filter, the filtered transitions newest first (the hardware holds 8), the latch and its
changes newest first, the blanking windows, whether an active input waits for their end and since when, the stamp of a level
that counts as an active transition and fires after the filter delay (R566), clears that wait. -/
structure TripSt where
  filt : Filt
  hist : List (Time × Bool)
  latched : Bool
  latches : List (Time × Bool)
  wins : List BlankWin
  waits : Option Time
  owed : Option Time
  fx : List Eff
  deriving DecidableEq, Repr

/-- One line of a feedback interface: its filter, the stamps of its accepted edges (R303), and in modes 4 and 5 the edges at the
ball, from which a frame is sampled (R314), newest first. -/
structure LineSt where
  filt : Filt
  edges : List Time
  raws : List (Time × Bool)
  deriving DecidableEq, Repr

/-- A change of position (R301, R326): stamp, the instant from which reads see it, position after it, step; an index
correction or a first position is no counting event. -/
structure FbEv where
  stamp : Time
  vis : Time
  pos : Int
  step : Int
  counts : Bool
  deriving DecidableEq, Repr

/-- A qualified index edge (R303, R329): stamp, p_Z, deviation, IDX_MISMATCH after it. -/
structure FbIdx where
  stamp : Time
  pz : Int
  dev : Int
  bad : Bool
  deriving DecidableEq, Repr

/-- A serial frame (R303, R320): its stamp, when it becomes visible, good or failed. -/
structure FbFrame where
  stamp : Time
  vis : Time
  good : Bool
  deriving DecidableEq, Repr

/-- An input edge that an interface has accepted and not yet used. `line`: 0 A (or U), 1 B, 2 Z, 3 V, 4 W, 5 its probe. -/
structure FbIn where
  stamp : Time
  line : Nat
  level : Bool
  deriving DecidableEq, Repr

/-- The armed compare (R331 to R334): arm stamp, CV, spacing, target pin with action, the task, its run, its slot. -/
structure FbCmp where
  armAt : Time
  cv : Int
  s : Int
  pin : Option (Nat × Nat)
  task : Nat
  run : Nat
  slot : Nat
  deriving DecidableEq, Repr

/-- What a compare did for a task that R166 and R178 look at: it ended (a hit with spacing 0, or displaced) at a stamp, or
it made a stitch on a pin from a hit at a stamp. -/
inductive CmpNote where
  | ended (task : Nat) (armAt stamp : Time)
  | stitch (task run pin : Nat) (hit stamp : Time)
  deriving DecidableEq, Repr

/-- A feedback interface (R296 to R343). -/
structure FbSt where
  a : LineSt
  b : LineSt
  z : LineSt
  inbox : List FbIn
  qa : Bool
  qb : Bool
  lastEdge : Option Time
  pos : Int
  evs : List FbEv
  idx : List FbIdx
  probes : List (Time × Int)
  arm : Option Time
  frames : List FbFrame
  serQ : List Time
  lastStart : Option Time
  lastSt : Option Nat
  fails : Nat
  hv : Bool
  hw : Bool
  vEdges : List Time
  wEdges : List Time
  sector : Option Nat
  divAcc : Nat
  divOut : Int
  divZ : Bool
  cmp : Option FbCmp
  notes : List CmpNote
  hits : Nat
  fx : List Eff
  deriving DecidableEq, Repr

/-- An input of a hoop that waits: a tooth edge with its acceptance instant, width (R349) and direction, or the position of
a virtual tooth or sample. -/
structure HoopIn where
  stamp : Time
  tt : Time
  width : Nat
  back : Bool
  pos : Option Int
  deriving DecidableEq, Repr

/-- A point (R346, R354, R359, R360): accumulated angle, stamp, arrival, synthetic, reverse, slot, pulse width; the first
micro-tick of its tooth, K, tp and the predicted interval to one pitch on, and the count at its arrival where it
catches up. -/
structure HoopPt where
  a : Int
  t : Time
  tt : Time
  synth : Bool
  back : Bool
  slot : Nat
  width : Nat
  tick : Int
  k : Nat
  tp : Option Time
  per : Option Int
  cu : Option Int
  deriving DecidableEq, Repr

/-- An angle event (R366 to R373): its task, run and handle slot, descriptor, target angles, stamps, whether its start has
fired, whether its start or end was last refreshed from a synthetic point or one was detected while it ran (R370), ended by
its time limit, by a loss, start clamped, ended by HCAN. -/
structure HoopEv where
  task : Nat
  run : Nat
  srcSlot : Nat
  desc : HoopDesc
  tgt : Option (Int × Int)
  start : Option Time
  stop : Option Time
  fired : Bool
  startSynth : Bool
  endSynth : Bool
  sticky : Bool
  limited : Bool
  forced : Bool
  clamped : Bool
  byHcan : Bool
  deriving DecidableEq, Repr

/-- A hoop (R346 to R377): state code and its changes newest first; points newest first (the hardware holds 16) and how many
predictions may use; waiting inputs and index edges; the begin of a pulse; slot, revolution, teeth and edge stamps of a
search; index edge seen since the previous tooth, and at a wrong tooth; bad run, forward run; coast end; events by slot;
effects that wait. -/
structure HoopSt where
  st : Nat
  states : List (Time × Nat)
  pts : List HoopPt
  usable : Nat
  inbox : List HoopIn
  idxIn : List (Time × Time)
  pulse : Option Time
  slot : Option Nat
  rev : Int
  found : Nat
  lastEdges : List Time
  idxSeen : Bool
  idxStray : Bool
  bad : Nat
  fwd : Nat
  lastReal : Time
  coastEnd : Option Time
  evs : List (Nat × HoopEv)
  fx : List Eff
  deriving DecidableEq, Repr

/-- A packet in a queue (R413, R414): its place counted in words since the generation began, payload words, stamp, and
whether it has been published. -/
structure Pkt where
  start : Nat
  n : Nat
  stamp : Time
  vis : Bool
  deriving DecidableEq, Repr

/-- A queue (R411 to R423). Kinds as in QUE_CFG. Places and release points are word counts since the generation began; the write point,
the release point and the length-slot position are held a second time, complemented (R422). -/
structure QueSt where
  bound : Bool
  prodKind : Nat
  prodTask : Nat
  consKind : Nat
  consTask : Nat
  dma : Option Nat
  cap : Nat
  base : Nat
  wp : Nat
  rel : Nat
  slot : Nat
  wpN : Word
  relN : Word
  slotN : Word
  pkts : List Pkt
  rels : List (Time × Nat)
  relFx : List Eff
  gen : Nat
  gens : List (Time × Nat)
  reserved : Nat
  dmaOpen : Bool
  req : Bool
  lastPut : Option Time
  deriving DecidableEq, Repr

/-- Where a DMA channel stands in the chain of R433. -/
inductive DmaPhase where
  | idle | fetch | pacing | moving | lengthHold | tailRead | parked | halted
  deriving DecidableEq, Repr

/-- A piece of a descriptor's data still to move: source address, destination address, bytes. -/
structure DmaSeg where
  src : Nat
  dst : Nat
  len : Nat
  deriving DecidableEq, Repr

/-- A DMA channel (R427 to R447): phase, descriptor words, segments left, how many bytes of the first have been moved and
whether it runs backward (R436), bytes moved in source order (R437), retries of the descriptor and of the beat in hand, the
sampled append count, the ends of the queue packets moved whole (R432), the bound package queue, when it began to wait,
whether it holds the grant among the channels of its priority (R438), and the error code of a descriptor that has ended and whose
writeback waits for the bus (R440, R453). -/
structure DmaSt where
  phase : DmaPhase
  desc : List Word
  segs : List DmaSeg
  segDone : Nat
  back : Bool
  moved : List Byte
  retries : Nat
  beatTries : Nat
  count : Word
  pktEnds : List Nat
  queue : Option Nat
  waitSince : Time
  hold : Bool
  wb : Option Nat
  deriving DecidableEq, Repr

/-- A frame that waits in an egress queue or is on the wire. Times are ground times; `corr` is the correctionField of the request that
is answered, in units of 2^-16 ns. -/
inductive TxBody where
  | axis (entry : Nat) (seq : Word) (restart : Bool) (stampNs : Nat) (pos vel : BitVec 64)
  | sync (seq : Nat)
  | followUp (seq : Nat) (tx : Time)
  | delayReq (seq : Nat)
  | delayResp (seq : Nat) (rx : Time) (corr : Int)
  | pdelayReq (seq : Nat)
  | pdelayResp (seq : Nat) (rx : Time) (corr : Int)
  | pdelayRespFollowUp (seq : Nat) (tx : Time) (corr : Int)
  | announce (seq : Nat)
  deriving DecidableEq, Repr

/-- An egress frame: its queue, length in bytes, C-tag (PCP and VID, R382), body, and since when it waits without fitting its gate
(R386). -/
structure TxFrame where
  queue : Nat
  len : Nat
  tag : Option (Nat × Nat)
  body : TxBody
  since : Time
  deriving DecidableEq, Repr

/-- What a sent PTP message carries (R383, R389): domainNumber, sequence, twoStepFlag, the whole ns of its timestamp and its
correctionField. -/
structure PtpOut where
  domain : Nat
  seq : Nat
  twoStep : Bool
  ns : Nat
  corr : Int
  deriving DecidableEq, Repr

/-- A frame as it was sent: with its stamp, and the message of PTP or the bytes of an axis frame (R395). -/
structure TxSent where
  frame : TxFrame
  stamp : Time
  ptp : Option PtpOut
  bytes : List Byte
  deriving DecidableEq, Repr

/-- A network port (R380 to R387): frames in the egress queues in order, the frame on the wire with its end, the starts of the
gate cycle in force and of the next one, when an armed swap applies, the entry running and its end (all in plant picots), and
the latest frame sent. -/
structure NetSt where
  frames : List TxFrame
  wire : Option (TxFrame × Time)
  cycle : Option Time
  next : Option Time
  swapAt : Option Time
  entry : Nat
  entryEnd : Time
  last : Option TxSent
  deriving DecidableEq, Repr

/-- A port of the PTP instance (R389): the latest Announce and when it came, a two-step Sync that waits for its Follow_Up
(sequence, receive stamp, correction), the Delay_Req or Pdelay_Req in flight (sequence, transmit stamp), the first half of a
peer exchange (sequence, t2 in ns, t4, correction), the latest Sync, since when the port is SLAVE, the sequence of its own
messages, the intervals that a Signaling asked for (Sync, Announce, peer delay), when each message was last sent, and the
master-to-slave difference of the latest Sync in picots (for the delay request mechanism). -/
structure PtpPort where
  ann : Option (Announce × Time)
  sync : Option (Nat × Time × Int)
  req : Option (Nat × Time)
  resp : Option (Nat × Int × Time × Int)
  lastSync : Option Time
  slaveSince : Option Time
  seq : Nat
  logSync : Option Int
  logAnn : Option Int
  logPd : Option Int
  txAt : List (Nat × Time)
  ms : Option Int
  deriving DecidableEq, Repr

/-- The PTP instance and the servo (R389 to R392): integrator, the latest eight offsets, the latest one of all, no Sync for three intervals (cause 2),
and the grandmaster identity followed. -/
structure PtpSt where
  sum : Int
  offs : List Int
  latest : Int
  lost : Bool
  gm : Option (BitVec 64)
  deriving DecidableEq, Repr

/-- A sample of an axis (R85, R397, R400): ground stamp, position, velocity. -/
structure AxSample where
  t : Time
  pos : BitVec 64
  vel : BitVec 64
  deriving DecidableEq, Repr

/-- A publish entry (R398 to R400): the stamp of the last accepted sample of the publishing run, and the samples posted,
newest first. -/
structure AxpSt where
  last : Option Time
  run : Nat
  samples : List AxSample
  deriving DecidableEq, Repr

/-- A subscription entry (R402 to R406): whether no frame has come since enable, its in-time samples newest first (the
hardware holds 8), and the expected stamps counted late. -/
structure AxsSt where
  first : Bool
  hist : List AxSample
  late : List Time
  deriving DecidableEq, Repr

/-- A filter whose ball is at a level. -/
def Filt.init (raw : Bool) : Filt := { raw := raw, since := 0, out := raw }

/-- A timing pin after reset. -/
def PinSt.reset : PinSt :=
  { filt := Filt.init false, owner := .free, started := false, lvl := false, failed := false, queue := [], caps := [],
    capInit := false, lastLvl := none, edge := none }

/-- A switch that is off and has never been on. -/
def SwSt.reset : SwSt :=
  { on := false, called := false, calledAt := 0, lastOff := none, onAt := 0, due := none, holdTo := none, counted := false }

/-- A pair after reset: in its fallback state. -/
def PairSt.reset : PairSt :=
  { ref := false, hi := SwSt.reset, lo := SwSt.reset, off := false, tripped := false, fallback := true }

/-- A carrier after reset: stopped. -/
def CarSt.reset : CarSt :=
  { mode := .stopped, bnd := 0, hold := 0, idx := 0, mid := false, pairs := List.replicate 4 PairSt.reset, fx := [] }

/-- A trip after reset; its ball stands at the inactive level 1 until an edge says otherwise (DESIGN CHOICE, log entry 14). -/
def TripSt.reset : TripSt :=
  { filt := Filt.init true, hist := [], latched := false, latches := [], wins := [], waits := none, owed := none, fx := [] }

/-- A feedback line at a level, with no edge. -/
def LineSt.init (raw : Bool) : LineSt := { filt := Filt.init raw, edges := [], raws := [] }

/-- A feedback interface after reset. -/
def FbSt.reset : FbSt :=
  { a := LineSt.init false, b := LineSt.init false, z := LineSt.init false, inbox := [], qa := false, qb := false,
    lastEdge := none, pos := 0, evs := [], idx := [], probes := [], arm := none, frames := [], serQ := [],
    lastStart := none, lastSt := none, fails := 0, hv := false, hw := false, vEdges := [], wEdges := [], sector := none, divAcc := 0, divOut := 0,
    divZ := false, cmp := none, notes := [], hits := 0, fx := [] }

/-- A hoop after reset: OFF. -/
def HoopSt.reset : HoopSt :=
  { st := 0, states := [], pts := [], usable := 0, inbox := [], idxIn := [], pulse := none, slot := none, rev := 0,
    found := 0, lastEdges := [], idxSeen := false, idxStray := false, bad := 0, fwd := 0, lastReal := 0, coastEnd := none,
    evs := [], fx := [] }

/-- An unbound queue. -/
def QueSt.reset : QueSt :=
  { bound := false, prodKind := 0, prodTask := 0, consKind := 0, consTask := 0, dma := none, cap := 0, base := 0, wp := 0,
    rel := 0, slot := 0, wpN := 0xFFFFFFFF, relN := 0xFFFFFFFF, slotN := 0xFFFFFFFF, pkts := [], rels := [], relFx := [], gen := 0, gens := [], reserved := 0, dmaOpen := false, req := false,
    lastPut := none }

/-- A DMA channel after reset: idle. -/
def DmaSt.reset : DmaSt :=
  { phase := .idle, desc := [], segs := [], segDone := 0, back := false, moved := [], retries := 0, beatTries := 0, count := 0,
    pktEnds := [], queue := none, waitSince := 0, hold := false, wb := none }

/-- A network port after reset. -/
def NetSt.reset : NetSt :=
  { frames := [], wire := none, cycle := none, next := none, swapAt := none, entry := 0, entryEnd := 0, last := none }

/-- A PTP port after reset. -/
def PtpPort.reset : PtpPort :=
  { ann := none, sync := none, req := none, resp := none, lastSync := none, slaveSince := none, seq := 0, logSync := none,
    logAnn := none, logPd := none, txAt := [], ms := none }

/-- The PTP instance after reset. -/
def PtpSt.reset : PtpSt := { sum := 0, offs := [], latest := 0, lost := false, gm := none }

/-- A publish entry after reset. -/
def AxpSt.reset : AxpSt := { last := none, run := 0, samples := [] }

/-- A subscription entry after reset. -/
def AxsSt.reset : AxsSt := { first := true, hist := [], late := [] }


/-- The whole part. `pending` is the queue of waiting commands, first in, first out. -/
structure State where
  pending : List Instr
  -- the part
  variant : Variant
  fuses : Fuses
  straps : Straps
  regs : List (RKey × Word)
  ports : List (Nat × PortSt)
  -- ground time (R65, R67)
  now : Time
  slew : Int
  slewFrac : Int
  slewPend : Option (Time × Int)
  -- memories (R33, R457, R458)
  dieMem : List Host.Cell
  ring : List Host.Cell
  hostMem : List Host.Cell
  ecc : List Nat
  weak : List Nat
  -- tasks, effects and messages under way
  tasks : List (Nat × Task)
  flight : List Eff
  msgs : List Msg
  sent : Nat
  -- dies, management, debug, host link
  dies : List (Nat × Die)
  boot : Boot
  dbg : Dbg
  pcie : Pcie
  -- records and router
  recs : List Rec
  posts : List (Time × Nat)
  cqs : List (Nat × CqCmd)
  cqLast : Nat
  cqTime : Option Time
  eqs : List (Nat × EqSt)
  groups : List (Nat × Time)
  claims : List (Nat × Nat)
  coreIrq : List Nat
  asleep : List Nat
  prods : Nat
  -- pins, carriers, trips, feedback, hoops, queues, DMA
  pins : List (Nat × PinSt)
  cars : List (Nat × CarSt)
  trips : List (Nat × TripSt)
  fbs : List (Nat × FbSt)
  hoops : List (Nat × HoopSt)
  ques : List (Nat × QueSt)
  dmas : List (Nat × DmaSt)
  -- network, plant time, axis tables
  nets : List (Nat × NetSt)
  ptpPorts : List (Nat × PtpPort)
  ptp : PtpSt
  axps : List (Nat × AxpSt)
  axss : List (Nat × AxsSt)
  -- the model's own
  freeCount : Nat
  deriving DecidableEq, Repr

/-- A context with everything 0 and an empty return stack (R112). -/
def Ctx.zero : Ctx :=
  { g := Vector.replicate 16 0, t := Vector.replicate 4 0, a := 0, fl := ⟨false, false, false, false⟩, rstack := [], pc := 0 }

/-- A shuttle slot after reset: not enabled yet, not tested. -/
def Slot.reset : Slot := { healthy := false, enabled := false, lastBist := none }

/-- A die after reset (R519). -/
def Die.reset : Die :=
  { core := false, live := false, fenced := false, slots := List.replicate 5 Slot.reset, links := [false, false, false, false],
    report := none, outbox := [], received := 0, eqSeen := [], logLost := none, digest := 0, snapshot := [],
    clockLost := none, clockBack := false, selfTest := false, sramOk := false, rotFrom := 7, rotSince := 0,
    replay := none, fenceDue := none, fenceOpen := none }

/-- An access port after reset (R19: a `_HI` read before any `_LO` read returns 0). -/
def PortSt.reset : PortSt := { capture := 0, staged := none, rd := 0, rdHi := 0, pinInfo := 0, toothInfo := 0 }

/-- An event queue after reset. -/
def EqSt.reset : EqSt := { hold := [], losing := none }

/-- The fuses of State.reset: DESIGN CHOICE all 0 (log entry 3); the MAC addresses and the serial number too. -/
def Fuses.reset : Fuses :=
  { serial := 0, grade := 0, signRequired := false, debugDisabled := false, fwRevoked := 0, taskKeyFused := false,
    debugKeyFused := false, fwSecMin := 0, fwKey0 := 0, fwKey1 := 0, taskKey := 0, debugKey := 0, macA := 0, macB := 0,
    subsystem := 0 }

/-- Boot and management after reset. -/
def Boot.reset : Boot :=
  { image := [], source := 0, busy := false, verified := false, pair0 := false, pair1 := false, pair1Ok := false,
    takeover := false, fusesOk := false, inReset := true, causeOn := true, perst := true, rails := [true, true, true, true, true],
    failCause := 0 }

/-- The PCIe function after reset: Bus Master Enable clear, every MSI-X entry masked (R520). -/
def Pcie.reset : Pcie :=
  { bme := false, d3hot := false, msixMask := BitVec.allOnes 64, pba := 0, table := [], sent := [], waiting := [] }

/-- The part right after reset: the TSY8-8D (DESIGN CHOICE, log entry 2), every register at its reset value, ground time 0
(R519), memories unlisted, no task, no die started, the package reset not yet released; its cause is
power-on (DESIGN CHOICE, log entry 4). -/
def State.reset : State :=
  { pending := [], variant := .d8, fuses := Fuses.reset, straps := { refclk25 := false, bootSel := 0, perstSel := false },
    regs := [((.RST_STATUS, ⟨0, 0, 0, 0⟩), 0x10)], ports := [], now := 0, slew := 0, slewFrac := 0, slewPend := none,
    dieMem := [], ring := [], hostMem := [], ecc := [], weak := [], tasks := [], flight := [], msgs := [], sent := 0,
    dies := [],
    boot := Boot.reset, dbg := { challengeValid := false, checking := false, halt := none }, pcie := Pcie.reset,
    recs := [], posts := [], cqs := [], cqLast := 15, cqTime := none, eqs := [], groups := [], claims := [], coreIrq := [], asleep := [],
    prods := 0,
    pins := [], cars := [], trips := [], fbs := [], hoops := [], ques := [], dmas := [], nets := [], ptpPorts := [],
    ptp := PtpSt.reset, axps := [], axss := [],
    freeCount := 0 }

end Sys2Proof.Machine
end

