-- ==== Sys2Proof/Machine/Ops.lean ====
section
/-! DEFINITION. The named operations over registers, dies, memories, ground time, records and router sources that every
meaning is built from. -/

namespace Sys2Proof.Machine

/-! ## Which copy of a register -/

/-- A register of the package block. -/
def pkg : Ix := ⟨0, 0, 0, 0⟩
/-- Copy `n` of a register of the package block. -/
def pkg1 (n : Nat) : Ix := ⟨0, n, 0, 0⟩
/-- Copy `n`, `m` of a register of the package block. -/
def pkg2 (n m : Nat) : Ix := ⟨0, n, m, 0⟩
/-- A register of a die window. -/
def dieIx (d : Nat) : Ix := ⟨d, 0, 0, 0⟩
/-- Copy `n` of a register of a die window. -/
def die1 (d n : Nat) : Ix := ⟨d, n, 0, 0⟩
/-- The registers of timing pin `p`, by R33. -/
def pinIx (p : Nat) : Ix := ⟨p / 64, p % 64, 0, 0⟩
/-- The registers of carrier `c`. -/
def carIx (c : Nat) : Ix := ⟨c / 16, c % 16, 0, 0⟩
/-- The registers of pair `n` of carrier `c`. -/
def pairIx (c n : Nat) : Ix := ⟨c / 16, c % 16, n, 0⟩
/-- The registers of trip `j`. -/
def tripIx (j : Nat) : Ix := ⟨j / 8, j % 8, 0, 0⟩
/-- The registers of feedback interface `n`. -/
def fbIx (n : Nat) : Ix := ⟨n / 8, n % 8, 0, 0⟩
/-- The registers of hoop `h`. -/
def hoopIx (h : Nat) : Ix := ⟨h / 4, h % 4, 0, 0⟩
/-- The registers of queue `q`. -/
def queIx (q : Nat) : Ix := ⟨q / 256, q % 256, 0, 0⟩
/-- The registers of DMA channel `c`. -/
def dmaIx (c : Nat) : Ix := ⟨c / 8, c % 8, 0, 0⟩

/-! ## Registers -/

/-- Half `k` (32 bits) of a 48-bit MAC address. -/
def macHalf (m : BitVec 48) (hi : Bool) : Word :=
  if hi then (0 : BitVec 16) ++ m.extractLsb' 32 16 else m.extractLsb' 0 32

/-- The reset value of a register (R13); those of R448, R408 and R541 that differ by copy or come from the fuses are told
apart here. -/
def State.regInit (s : State) (k : RKey) : Word :=
  match k.1 with
  | .DMA_STATUS => if k.2.i < 2 then 0x8 else 0
  | .NET_MAC_LO => macHalf (if k.2.i = 0 then s.fuses.macA else s.fuses.macB) false
  | .NET_MAC_HI => macHalf (if k.2.i = 0 then s.fuses.macA else s.fuses.macB) true
  | r => BitVec.ofNat 32 r.info.reset

/-- The value a register holds. -/
def State.reg (s : State) (r : Reg) (ix : Ix) : Word := amGet s.regs (r, ix) (s.regInit (r, ix))

/-- The state with a register set, whatever its access type. -/
def State.setReg (s : State) (r : Reg) (ix : Ix) (v : Word) : State :=
  { s with regs := amPut rkeyLt s.regs (r, ix) v }

/-- A field of a register. -/
def State.fld (s : State) (f : Fld) (ix : Ix) : Nat := bitsOf (s.reg f.reg ix) f.lo f.w

/-- The state with a field of a register set. -/
def State.setFld (s : State) (f : Fld) (ix : Ix) (v : Nat) : State :=
  s.setReg f.reg ix (putBits (s.reg f.reg ix) f.lo f.w v)

/-- A one-bit field. -/
def State.bit (s : State) (f : Fld) (ix : Ix) : Bool := bitOf (s.reg f.reg ix) f.lo

/-- The state with a one-bit field set to `b`. -/
def State.setBit (s : State) (f : Fld) (ix : Ix) (b : Bool) : State := s.setFld f ix (b2n b)

/-- Add `n` to a count that saturates at the largest value of its field. -/
def State.bumpBy (s : State) (f : Fld) (ix : Ix) (n : Nat) : State :=
  s.setFld f ix (min (s.fld f ix + n) (2 ^ f.w - 1))

/-- Add 1 to a count that saturates. -/
def State.bump (s : State) (f : Fld) (ix : Ix) : State := s.bumpBy f ix 1

/-- Add 1 to a count that wraps. -/
def State.bumpMod (s : State) (f : Fld) (ix : Ix) : State := s.setFld f ix ((s.fld f ix + 1) % 2 ^ f.w)

/-- A 64-bit value held in two registers. -/
def State.reg64 (s : State) (lo hi : Reg) (ix : Ix) : BitVec 64 := joinHalves (s.reg hi ix) (s.reg lo ix)

/-- The state with a 64-bit value in two registers. -/
def State.setReg64 (s : State) (lo hi : Reg) (ix : Ix) (v : BitVec 64) : State :=
  (s.setReg lo ix (loHalf v)).setReg hi ix (hiHalf v)

/-- The plain effect of a write on a register (R14): RW bits take the value, W1C bits written 1 clear, W1S bits written 1
set, the others stay. -/
def writeMask (r : Reg) (old v : Word) : Word :=
  let f := r.info
  let rw := BitVec.ofNat 32 f.rw
  let w1c := BitVec.ofNat 32 f.w1c
  let w1s := BitVec.ofNat 32 f.w1s
  (((old &&& ~~~rw) ||| (v &&& rw)) &&& ~~~(v &&& w1c)) ||| (v &&& w1s)

/-- The state with the plain effect of a write on a register. -/
def State.plainWrite (s : State) (r : Reg) (ix : Ix) (v : Word) : State :=
  s.setReg r ix (writeMask r (s.reg r ix) v)

/-! ## Ground time -/

/-- Ground time brought forward to the instant of an event; it never goes back (R67). -/
def State.at (s : State) (t : Time) : State := if before s.now t then { s with now := t } else s

/-- Plant time minus ground time (R10). -/
def State.plantOffset (s : State) : BitVec 64 := s.reg64 .PLANT_OFFSET_LO .PLANT_OFFSET_HI pkg

/-! ## Dies -/

/-- The number of dies of a variant (R1). -/
def Variant.dies : Variant → Nat
  | .d2 => 2
  | .d4 => 4
  | .d8 => 8

/-- Die `d` is in the package. -/
def State.present (s : State) (d : Nat) : Bool := d < s.variant.dies

/-- A die. -/
def State.die (s : State) (d : Nat) : Die := nmGet s.dies d Die.reset

/-- The state with die `d` set. -/
def State.setDie (s : State) (d : Nat) (x : Die) : State := { s with dies := nmPut s.dies d x }

/-- The state with die `d` changed. -/
def State.modDie (s : State) (d : Nat) (f : Die → Die) : State := s.setDie d (f (s.die d))

/-- The dies of the package. -/
def State.dieList (s : State) : List Nat := List.range s.variant.dies

/-- The live dies. -/
def State.liveDies (s : State) : List Nat := s.dieList.filter (fun d => (s.die d).live)

/-- A package fault is in force (R504). -/
def State.pkgFault (s : State) : Bool := s.bit F.FLT_STATUS_package_fault pkg

/-- READY is set (R535). -/
def State.ready (s : State) : Bool := s.bit F.RST_STATUS_ready pkg

/-- The core of die `d` runs: its clock is on and has not been lost, it is not fenced, and the package is not in reset (R293,
R499, R504, R519). -/
def State.dieRuns (s : State) (d : Nat) : Bool :=
  (s.die d).core && (s.die d).clockLost.isNone && !(s.die d).fenced && !s.boot.inReset && s.present d

/-- The die on which a shuttle or unit acts on its own: it runs and no package fault stops it (R504). -/
def State.dieActs (s : State) (d : Nat) : Bool := s.dieRuns d && !s.pkgFault

/-- A ground link of a die that has started is out of service (R42), also once the die is fenced. -/
def State.linkDown (s : State) : Bool :=
  s.dieList.any (fun d => ((s.die d).live || (s.die d).fenced) && !(s.die d).links.all id)

/-- The other end of link `k` of die `d` (R36): links 0 and 1 go to the row partner, links 2 and 3 to the column neighbours
(DESIGN CHOICE of the numbers and of the link that is the other end, log entry 88); on the TSY8-2D all go to the other die. -/
def Variant.linkEnd (v : Variant) (d k : Nat) : Nat × Nat :=
  match v with
  | .d2 => (1 - d, k)
  | .d4 => if k < 2 then ((d + 2) % 4, k) else (2 * (d / 2) + (1 - d % 2), k)
  | .d8 =>
    if k < 2 then ((d + 4) % 8, k)
    else if k = 2 then (4 * (d / 4) + (d % 4 + 1) % 4, 3)
    else (4 * (d / 4) + (d % 4 + 3) % 4, 2)

/-- One end of a link leaves service. -/
def State.dropEnd (s : State) (d k : Nat) : State := s.modDie d (fun x => { x with links := x.links.set k false })

/-- A link leaves service at both its ends (R41). -/
def State.dropLink (s : State) (d k : Nat) : State :=
  (s.dropEnd d k).dropEnd (s.variant.linkEnd d k).1 (s.variant.linkEnd d k).2

/-- The healthy slots of a die as a bit mask (CAP_SHUTTLES). -/
def Die.healthMask (x : Die) : Nat :=
  (List.range 5).foldl (fun a i => if (x.slots.getD i Slot.reset).healthy then a + 2 ^ i else a) 0

/-- The healthy slots of a die, counted. -/
def Die.healthyCount (x : Die) : Nat := (x.slots.filter (fun q => q.healthy)).length

/-- The links of a die as a bit mask. -/
def Die.linkMask (x : Die) : Nat :=
  (List.range 4).foldl (fun a i => if x.links.getD i false then a + 2 ^ i else a) 0

/-- Active shuttles of a die: the smaller of 4 and its healthy slots; 0 unless it is live (R63). -/
def Die.activeCount (x : Die) : Nat := if x.live then min 4 x.healthyCount else 0

/-! ## Memories -/

/-- The address of byte `off` of die `d` in the one map of die memory. -/
def dieAddr (d off : Nat) : Nat := d * 0x400000 + off

/-- The word of die memory that holds a byte has an uncorrectable error (R120). -/
def State.badWord (s : State) (a : Nat) : Bool := s.ecc.contains (a / 4 * 4)

/-- The state with bytes written to die memory; a word wholly written has no error any more. -/
def State.writeDie (s : State) (d off : Nat) (bs : List Byte) : State :=
  let a := dieAddr d off
  { s with dieMem := memWriteList s.dieMem a bs,
           ecc := s.ecc.filter (fun w => !(a ≤ w && w + 4 ≤ a + bs.length)),
           weak := s.weak.filter (fun w => !(a ≤ w && w + 4 ≤ a + bs.length)) }

/-- The state with a word written to die memory. -/
def State.writeDieWord (s : State) (d off : Nat) (v : Word) : State :=
  { s with dieMem := memPutWord s.dieMem (dieAddr d off) v,
           ecc := s.ecc.filter (fun w => w != dieAddr d off),
           weak := s.weak.filter (fun w => w != dieAddr d off) }

/-- An access to the word of die `d` at byte `off`: a single-bit error found in it is corrected and counted (R120, R489). -/
def State.correctWord (s : State) (d off : Nat) : State :=
  if s.weak.contains (dieAddr d (off / 4 * 4)) then
    (({ s with weak := s.weak.filter (fun w => w != dieAddr d (off / 4 * 4)) }).bump F.DIE_ECC_COUNT_corrected (dieIx d)).bump
      F.FLT_CORR_COUNT_0_ecc pkg
  else s

/-- The accesses of a fetch or load to words of die `d` (R120). -/
def State.corrected (s : State) (d : Nat) (offs : List Nat) : State := offs.foldl (fun s o => s.correctWord d o) s

/-- An uncorrectable word at byte `off` of die `d` is found: counted and located (R514). -/
def State.sawBad (s : State) (d off : Nat) (shadow : Bool) : State :=
  (s.bump F.DIE_ECC_COUNT_uncorrectable (dieIx d)).setReg .DIE_ECC_ADDR (dieIx d)
    (BitVec.ofNat 32 (off / 4 * 4 + b2n shadow * 2 ^ 22))

/-- Bytes of host memory (space 0) or ring memory (space 1) from an address. -/
def State.spaceRead (s : State) (ring : Bool) (a n : Nat) : List Byte :=
  if ring then memReadList s.ring (a % 0x80000) n else memReadList s.hostMem a n

/-- The state with bytes written to host memory or ring memory. -/
def State.spaceWrite (s : State) (ring : Bool) (a : Nat) (bs : List Byte) : State :=
  if ring then { s with ring := memWriteList s.ring (a % 0x80000) bs }
  else { s with hostMem := memWriteList s.hostMem a bs }

/-- The Saryth may issue requests on PCIe (R453). -/
def State.pcieUp (s : State) : Bool := s.pcie.bme && !s.pcie.d3hot

/-! ## CRC-32C -/

/-- One bit of the reflected CRC-32C, polynomial 0x82F6_3B78 (R198). -/
def crcBit (c : Word) : Word := if c.getLsbD 0 then (c >>> 1) ^^^ 0x82F63B78 else c >>> 1

/-- The running value updated with one byte (R198). -/
def crcByte (c : Word) (b : Byte) : Word :=
  let x := c ^^^ ((0 : BitVec 24) ++ b)
  crcBit (crcBit (crcBit (crcBit (crcBit (crcBit (crcBit (crcBit x)))))))

/-- The running value updated with a byte list. -/
def crcBytes (c : Word) (bs : List Byte) : Word := bs.foldl crcByte c

/-- CRC-32C started at 0xFFFF_FFFF and inverted at the end (R198, R200, R206). -/
def crc32c (bs : List Byte) : Word := ~~~(crcBytes 0xFFFFFFFF bs)

/-! ## Records (R469, R470, R501) -/

/-- Fifteen payload bytes: the list filled with 0 (R467). -/
def pay (bs : List Byte) : List Byte := (bs ++ List.replicate 15 0).take 15

/-- A die numbers one more record (R501). -/
def State.numberRec (s : State) (d : Nat) : State :=
  s.setReg .DIE_ORIGIN_COUNT (dieIx d) (s.reg .DIE_ORIGIN_COUNT (dieIx d) + 1)

/-- A record is numbered and sent from its die; die 0 has it with the next horizon report, which comes behind it (R469); after a package fault none is written
(R504). A record of a fenced die is none that die could still produce (R502). -/
def State.emit (s : State) (r : Rec) : State :=
  if s.pkgFault || (s.die r.die).fenced then s
  else (s.numberRec r.die).modDie r.die (fun x => { x with outbox := x.outbox ++ [r] })

/-- A record of a unit or of the management of die `d`, in production order (R470). -/
def State.emitUnit (s : State) (d src ty : Nat) (stamp : Time) (eq : Nat) (payload : List Byte) : State :=
  { s with prods := s.prods + 1 }.emit
    { stamp, src, o1 := s.prods, o2 := 0, o3 := 0, ty, payload := pay payload, eq, die := d }

/-- A fault record (R474, R490). -/
def State.faultRec (s : State) (d src ty : Nat) (stamp : Time) (payload : List Byte) : State :=
  s.emitUnit d src ty stamp (s.fld F.EQ_ROUTE_fault_eq pkg) payload

/-- A determinism record (R100, R474). -/
def State.detRec (s : State) (d src ty : Nat) (stamp : Time) (payload : List Byte) : State :=
  s.emitUnit d src ty stamp (s.fld F.EQ_ROUTE_det_eq pkg) payload

/-- A breach of condition `k` of R99: its DET_STATUS bit and its counter (R100). -/
def State.breach (s : State) (k : Nat) : State :=
  (s.setReg .DET_STATUS pkg (s.reg .DET_STATUS pkg ||| BitVec.ofNat 32 (2 ^ k))).bump F.BREACH_COUNT_count (pkg1 k)

/-- A stamp as 8 bytes. -/
def timeBytes (t : Time) : List Byte := leBytes t.toNat 8

/-! ## Router sources (R475, R476) -/

/-- Post a shared source (64 to 4,095): it becomes pending. -/
def State.postShared (s : State) (n : Nat) : State :=
  if 64 ≤ n ∧ n < 4096 then s.setBit F.RTR_SRC_pending (pkg1 (n - 64)) true else s

/-- Bit `p` of a 64-bit register of target `t`. -/
def State.privBit (s : State) (lo hi : Reg) (t p : Nat) : Bool := (s.reg64 lo hi (pkg1 t)).getLsbD p

/-- Set or clear bit `p` of a 64-bit register of target `t`. -/
def State.setPriv (s : State) (lo hi : Reg) (t p : Nat) (b : Bool) : State :=
  let m : BitVec 64 := BitVec.ofNat 64 (2 ^ p)
  let v := s.reg64 lo hi (pkg1 t)
  s.setReg64 lo hi (pkg1 t) (if b then v ||| m else v &&& ~~~m)

/-- Post private source `p` of target `t`. -/
def State.postPriv (s : State) (t p : Nat) : State := s.setPriv .RTR_PRIV_PEND_LO .RTR_PRIV_PEND_HI t p true

/-- Wake the sleeping management cores that have a pending and enabled source (R483). -/
def State.wake (s : State) : State :=
  { s with asleep := s.asleep.filter (fun t =>
      !((s.reg64 .RTR_PRIV_PEND_LO .RTR_PRIV_PEND_HI (pkg1 t) &&& s.reg64 .RTR_PRIV_EN_LO .RTR_PRIV_EN_HI (pkg1 t)) != 0
        || s.regs.any (fun e => e.1.1 == .RTR_SRC && bitOf e.2 13 && bitOf e.2 12 && bitsOf e.2 0 5 == t))) }

/-! ## The capability block (R58 to R63) -/

/-- The live fields of CAP_SHUTTLES_d. -/
def Die.capWord (x : Die) : Word :=
  if x.live then
    BitVec.ofNat 32 (x.healthMask + x.activeCount * 4096 + b2n (x.healthyCount == 5) * 32768)
  else 0

/-- The bit mask of the dies that satisfy `p`. -/
def State.dieMask (s : State) (p : Nat → Bool) : Nat :=
  s.dieList.foldl (fun a d => if p d then a + 2 ^ d else a) 0

/-- The sum of the active shuttles. -/
def State.activeSum (s : State) : Nat := s.dieList.foldl (fun a d => a + (s.die d).activeCount) 0

/-- MGMT_ROLE as the management state gives it. -/
def State.mgmtRole (s : State) : Word :=
  BitVec.ofNat 32 (b2n s.boot.takeover + 2 * b2n (!s.boot.takeover && s.boot.pair1Ok) + 4 * b2n s.boot.takeover)

/-- A management pair with verified firmware is in control; none is during a takeover (R503). -/
def State.mgmtUp (s : State) : Bool := s.boot.verified && (s.boot.pair0 || s.boot.takeover)

/-- Ports enabled whose die is live (NET_PORTS). -/
def State.netLive (s : State) : Nat :=
  16 * b2n (s.bit F.NET_CTRL_en (pkg1 0) && (s.die 0).live) + 32 * b2n (s.bit F.NET_CTRL_en (pkg1 1) && (s.die 1).live)

/-- One update of the live fields: they are written, generation grows by 2 and source 64 is posted (R60, R62). The
firmware makes no update before READY's own (R535). -/
def State.capWrite (s : State) : State :=
  let s := s.setFld F.CAP_DIES_LIVE_live pkg (s.dieMask (fun d => (s.die d).live))
  let s := s.setFld F.CAP_DIES_FENCED_fenced pkg (s.dieMask (fun d => (s.die d).fenced))
  let s := s.setReg .MGMT_ROLE pkg s.mgmtRole
  let s := s.setReg .NET_PORTS pkg (BitVec.ofNat 32 (3 + s.netLive))
  let s := s.setReg .GROUND_LINKS_UP pkg
    (BitVec.ofNat 32 (s.dieList.foldl (fun a d => a + 16 ^ d * (s.die d).linkMask) 0))
  let s := s.setReg .GROUND_TOPOLOGY pkg (BitVec.ofNat 32 ((if s.linkDown then 260 else 180) * 65536))
  let s := s.dieList.foldl (fun s d => s.setReg .CAP_SHUTTLES (pkg1 d) (s.die d).capWord) s
  let s := s.setReg .CAP_CONTEXTS_LIVE pkg (BitVec.ofNat 32 (32 * s.activeSum))
  let s := s.setReg .CAP_THROUGHPUT pkg (BitVec.ofNat 32 (1000 * s.activeSum))
  let s := s.setReg .CAP_GENERATION pkg (s.reg .CAP_GENERATION pkg + 2)
  (s.postShared 64).wake

/-- The update, once the firmware has brought the part up. -/
def State.capUpdate (s : State) : State := if s.ready then s.capWrite else s

/-- A free value: the word, and the state with the count advanced (log entry 6). -/
def State.fresh (s : State) : Word × State := (Config.freeWord s.freeCount, { s with freeCount := s.freeCount + 1 })

end Sys2Proof.Machine
end

