-- ==== Sys2Proof/Machine/Operands.lean ====
section
/-! DEFINITION. The operand forms of the shuttle instructions: general registers, time registers, immediates, and addresses
(R110, R121 to R123, R137). -/

namespace Sys2Proof.Machine

/-- General register `n`; g0 reads as 0 (R110). -/
def Ctx.rg (c : Ctx) (n : GReg) : Word := if n = 0 then 0 else c.g[n]

/-- The context with general register `n` written; a write to g0 is discarded (R110). -/
def Ctx.wg (c : Ctx) (n : GReg) (v : Word) : Ctx := if n = 0 then c else { c with g := c.g.set n v }

/-- Time register `n` of a step: t0 to t3 of the working copy, then tn and tl (R110, R122). -/
def Step.rt (st : Step) (n : TReg) : Time :=
  if n = 4 then st.act.t else if n = 5 then st.tl else st.w.t.toArray.getD n.val 0

/-- The context with time register `n` (t0 to t3) written. -/
def Ctx.wt (c : Ctx) (n : TDst) (v : Time) : Ctx := { c with t := c.t.set n v }

/-- The step with general register `n` of the working copy written. -/
def Step.wg (st : Step) (n : GReg) (v : Word) : Step := { st with w := st.w.wg n v }

/-- The step with a time register of the working copy written. -/
def Step.wt (st : Step) (n : TDst) (v : Time) : Step := { st with w := st.w.wt n v }

/-- The step with the flags of the working copy written. -/
def Step.wf (st : Step) (f : Flags) : Step := { st with w := { st.w with fl := f } }

/-- An 18-bit immediate, sign-extended to 32 bits. -/
def sext18 (m : BitVec 18) : Word := m.signExtend 32

/-- An 18-bit immediate, zero-extended to 32 bits. -/
def zext18 (m : BitVec 18) : Word := m.zeroExtend 32

/-- The address of a load or store: ra + sext(offset) × size modulo 2^32 (R137). -/
def effAddr (ra : Word) (off : BitVec 18) (size : Nat) : Word := ra + sext18 off * BitVec.ofNat 32 size

/-- The picots of a unit: ps = 1, ns = 64, µs = 64,000 (R138). -/
def unitPicots : TUnit → Nat
  | .ps => 1
  | .ns => 64
  | .us => 64000

/-- The kind of a handle (R150). -/
def hKind (h : Handle) : Nat := (h.extractLsb' 10 4).toNat

/-- The slot of a handle (R150). -/
def hSlot (h : Handle) : Nat := (h.extractLsb' 0 10).toNat

end Sys2Proof.Machine
end

