-- ==== Sys2Proof/Machine/Flags.lean ====
section
/-! DEFINITION. The flag computations (R127, R132 to R134, R138). -/

namespace Sys2Proof.Machine

/-- Z and N of a 32-bit result with C and V given (R127). -/
def flagsZN (r : Word) (c v : Bool) : Flags := ⟨r == 0, r.msb, c, v⟩

/-- Z and N of a 64-bit result with C and V given (R127). -/
def flagsZN64 (r : BitVec 64) (c v : Bool) : Flags := ⟨r == 0, r.msb, c, v⟩

/-- The flags of a + b: C = carry out of bit 31, V = signed overflow (R127). -/
def flagsAdd (a b : Word) : Flags :=
  flagsZN (a + b) (decide (2 ^ 32 ≤ a.toNat + b.toNat))
    (decide (a.toInt + b.toInt < -2147483648 ∨ 2147483647 < a.toInt + b.toInt))

/-- The flags of a − b: C = unsigned borrow, V = signed overflow (R127). -/
def flagsSub (a b : Word) : Flags :=
  flagsZN (a - b) (decide (a.toNat < b.toNat))
    (decide (a.toInt - b.toInt < -2147483648 ∨ 2147483647 < a.toInt - b.toInt))

/-- The flags of a logical result: Z and N; C = V = 0 (R132). -/
def flagsLogic (r : Word) : Flags := flagsZN r false false

/-- The flags of a saturated result: Z and N; C = 0; V = saturated (R132, R133). -/
def flagsSat (r : Word) (sat : Bool) : Flags := flagsZN r false sat

/-- The last bit shifted out by a left shift of `n` (0 to 31), or 0 for an amount of 0 (R132). -/
def shlCarry (a : Word) (n : Nat) : Bool := if n = 0 then false else a.getLsbD (32 - n)

/-- The last bit shifted out by a right shift of `n` (0 to 31), or 0 for an amount of 0 (R132). -/
def shrCarry (a : Word) (n : Nat) : Bool := if n = 0 then false else a.getLsbD (n - 1)

/-- Is a signed number outside the range of a signed 32-bit number? -/
def outside32 (x : Int) : Bool := decide (x < -2147483648 ∨ 2147483647 < x)

/-- Is a signed number outside the range of a signed 64-bit number? -/
def outside64 (x : Int) : Bool := decide (x < -9223372036854775808 ∨ 9223372036854775807 < x)

end Sys2Proof.Machine
end

