-- ==== Sys2Proof/Machine/Tasks.lean ====
section
/-! DEFINITION. Tasks: their activations (R71 to R75, R217), window (R77 to R79), handles (R150 to R153), task faults (R128,
R491) and cut-off (R96). -/

namespace Sys2Proof.Machine

/-! ## The table of tasks -/

/-- A resident task. -/
def State.task? (s : State) (t : Nat) : Option Task := nmGet? s.tasks t

/-- The state with task `t` set. -/
def State.setTask (s : State) (t : Nat) (k : Task) : State := { s with tasks := nmPut s.tasks t k }

/-- The state with task `t` changed, if it is resident. -/
def State.modTask (s : State) (t : Nat) (f : Task → Task) : State :=
  match s.task? t with
  | some k => s.setTask t (f k)
  | none => s

/-- A task is running (R208). -/
def Task.isRunning (k : Task) : Bool := k.state == .running

/-- The steps of a task's run may still run: it is running, or stopped with activations before the STOP (R209). -/
def Task.mayStep (k : Task) : Bool := k.state == .running || (k.state == .stopped && k.stopAt.isSome)

/-- The context of a task is halted: by its own halt, or with the package (R141, R540). -/
def State.haltedTask (s : State) (k : Task) : Bool := k.halt.isSome || s.dbg.halt.isSome

/-- The die that an effect goes to: that of its unit or queue (R33). -/
def EffKind.die : EffKind → Nat
  | .stitch p _ _ _ => p / 64
  | .pwmw c _ _ _ _ => c / 16
  | .pwmc c _ _ => c / 16
  | .tripClear j => j / 8
  | .fbArm n _ _ _ _ => n / 8
  | .fbDisarm n => n / 8
  | .hevt h _ _ _ => h / 4
  | .hcan h _ => h / 4
  | .packet q _ => q / 256
  | .release q _ _ => q / 256
  | _ => 0

/-- An axis sample, which goes to its publish entry at its stamp (R400). -/
def EffKind.isSample : EffKind → Bool
  | .sample _ _ _ => true
  | _ => false

/-- The die that a message goes to: that of its destination task. -/
def State.msgTo (s : State) (m : Msg) : Nat := match s.task? m.dst with | some k => k.die | none => m.die

/-- Nothing that die `a` has sent to die `b` before the `ord`-th packet is still on its way (R40). -/
def State.mayArrive (s : State) (a b ord : Nat) : Bool :=
  !s.flight.any (fun e => !e.kind.isSample && e.die == a && e.kind.die == b && decide (e.ord < ord)) &&
    !s.msgs.any (fun m => m.die == a && s.msgTo m == b && decide (m.ord < ord))

/-- Some task is running (R69, R101). -/
def State.anyRunning (s : State) : Bool := s.tasks.any (fun e => e.2.isRunning)

/-- The number of the dies of a logical index, by resource kind (R33, R150); none for a kind with no die of its own. -/
def unitDie (kind idx : Nat) : Option Nat :=
  match kind with
  | 1 => some (idx / 64)
  | 2 => some (idx / 8)
  | 3 => some (idx / 16)
  | 4 => some (idx / 8)
  | 5 => some (idx / 4)
  | _ => none

/-- Does the task declare unit `idx` of `kind`? -/
def Task.owns (k : Task) (kind idx : Nat) : Bool := k.res.any (fun r => r.kind == kind && r.a == idx)

/-- The records of a kind, in slot order (R204). -/
def Task.resOf (k : Task) (kind : Nat) : List Res := k.res.filter (fun r => r.kind == kind)

/-- The resource at a slot of a kind. -/
def Task.resAt (k : Task) (kind slot : Nat) : Option Res := (k.resOf kind)[slot]?

/-- The slot of resource `idx` of `kind`. -/
def Task.slotOf (k : Task) (kind idx : Nat) : Option Nat := (k.resOf kind).findIdx? (fun r => r.a == idx)

/-- The resource a handle names, for an instruction that accepts `kinds`; none is BAD_HANDLE (R151). -/
def Task.handle (k : Task) (kinds : List Nat) (h : Handle) : Option Res :=
  if kinds.contains (hKind h) then k.resAt (hKind h) (hSlot h) else none

/-! ## The window (R77 to R79) -/

/-- The delay of a filter, in ns: filt_n ticks of 2^filt_prescale ns (R244). -/
def filterNs (n pre : Nat) : Nat := n * 2 ^ pre

/-- The filter delay of a timing pin in ns (R244). -/
def State.pinDelay (s : State) (p : Nat) : Nat :=
  filterNs (s.fld F.PIN_CTRL_filt_n (pinIx p)) (s.fld F.PIN_CTRL_filt_prescale (pinIx p))

/-- The filter delay of a trip in ns (R278). -/
def State.tripDelay (s : State) (j : Nat) : Nat :=
  filterNs (s.fld F.TRIP_CTRL_filt_n (tripIx j)) (s.fld F.TRIP_CTRL_filt_prescale (tripIx j))

/-- Was a task cross-die for its steps with logical time T (R567)? The earliest change after T tells what held before it. -/
def Task.crossAt (k : Task) (t : Time) : Bool :=
  match (k.crossHist.filter (fun e => before t e.1)).getLast? with
  | some e => e.2
  | none => k.cross

/-- The commit reserve in picots of a step with logical time T (R78, R567): 280 ns while the task is cross-die. -/
def Task.reserve (k : Task) (t : Time) : Nat := if k.crossAt t then ns 280 else ns 20

/-- T + L (R76). -/
def Task.deadline (k : Task) (t : Time) : Time := t + picots k.lead

/-- T + L − R, the cut-off (R79). -/
def Task.cutoff (k : Task) (t : Time) : Time := k.deadline t - picots (k.reserve t)

/-! ## Activations -/

/-- The order in which a task's pending activations are served (R74). -/
def Act.first (a b : Act) : Bool :=
  if a.t = b.t then
    if a.src = b.src then
      if a.k1 = b.k1 then (if a.k2 = b.k2 then a.k3 < b.k3 else a.k2 < b.k2) else a.k1 < b.k1
    else a.src < b.src
  else before a.t b.t

/-- The list of pending activations with one more in its place. -/
def actInsert (a : Act) : List Act → List Act
  | [] => [a]
  | b :: r => if a.first b then a :: b :: r else b :: actInsert a r

/-- The SOURCE record of an activation's source (R202): host command and timer have slot 0. -/
def Task.source? (k : Task) (code slot : Nat) : Option Source :=
  k.sources.find? (fun x => x.code == code && (code == 1 || code == 7 || x.slot == slot))

/-- Sources whose early activations are dropped rather than faulting (R75): capture, compare hit, hoop event. -/
def dropsEarly (code : Nat) : Bool := code == 4 || code == 5 || code == 6

/-- Pending activations of one source. -/
def Task.pendingOf (k : Task) (code slot : Nat) : Nat :=
  (k.pend.filter (fun a => a.src == code && (code == 1 || code == 7 || a.slot == slot))).length

/-! ## Task faults (R128, R490, R491) -/

/-- Task `t` faults on the activation with logical time `tAct`: its step, timer and pending activations go, it is faulted,
its outputs have until T + L, when the TASK_FAULT record is written too (R490, R491). `info` fills bytes 28 to 30 of that
record (code offset, or the task's own code). `keep` keeps a halted step that was cut off (R143). -/
def State.taskFault (s : State) (t code pc info : Nat) (tAct : Time) (keep : Bool) : State :=
  match s.task? t with
  | none => s
  | some k =>
    let fin := k.deadline tAct
    let k' := { k with state := .faulted, faultCode := code, faultPc := pc, timer := none, pend := [],
                       step := if keep then k.step else none, stopAt := none,
                       falls := k.falls ++ [⟨fin, k.run, some (code, info, tAct)⟩] }
    (s.setTask t k').bump F.FLT_TASK_COUNT_task pkg

/-- A task fault that arises outside any step, at tD (R492): tD takes the place of T. -/
def State.taskFaultAt (s : State) (t code : Nat) (tD : Time) : State := s.taskFault t code 0 0 tD false

/-- The HISTORY_LOST record and breach (R83, R100): `unit` = kind in [15:12], logical index in [11:0]. -/
def State.historyLost (s : State) (t d unit : Nat) (tAct fin : Time) : State :=
  (s.breach 1).detRec d (0x0A48 + d) 0x21 fin (leBytes t 2 ++ leBytes unit 2 ++ timeBytes tAct)

/-- A stopped run still drains while a START of the task has been accepted (R209). -/
def Task.restarting (k : Task) : Bool := k.state == .running && k.stopAt.isSome

/-- Does a run of the task take an activation with logical time `t` (R209)? The run that a STOP at Ts ends takes those before
Ts; a run takes those from its START's acceptance stamp on. -/
def Task.takes (k : Task) (t : Time) : Bool :=
  let old := match k.stopAt with | some ts => before t ts | none => false
  match k.state with
  | .running => upTo k.startStamp t || old
  | .stopped => upTo k.startStamp t && old
  | _ => false

/-- A new run of task `t` begins: context 0, step sequence 0, the private segment from DATA_INIT and zeros, the capture points
at the START's acceptance stamp, no stitch yet on its pins (R94, R112, R170, R209, R334). -/
def State.beginRun (s : State) (t : Nat) (k : Task) : State :=
  let a := dieAddr k.die k.dataBase
  let s := { s with dieMem := memClear s.dieMem a k.dataBytes,
                    ecc := s.ecc.filter (fun w => w < a || a + k.dataBytes ≤ w),
                    weak := s.weak.filter (fun w => w < a || a + k.dataBytes ≤ w),
                    pins := s.pins.map (fun (e : Nat × PinSt) =>
                      if e.2.owner = POwner.task t then (e.1, { e.2 with lastLvl := none }) else e) }
  (s.writeDie k.die k.dataBase (k.dataInit.take k.dataBytes)).setTask t
    { k with run := k.run + 1, c := Ctx.zero, resume := .entry, seq := 0, timer := none, stopAt := none, step := none,
             stitches := [], cmps := [], capts := (k.resOf 1).map (fun (r : Res) => (r.a, k.startStamp)), rps := [], served := [],
             marks := [], lateSeen := [] }

/-- Enter an activation into the pricking of its task (R71, R202, R217, R491): without a SOURCE record it activates nothing;
a faulted task discards and counts it, one that no run takes is discarded; beyond max_pending it is dropped or faults the
task as R75 says. -/
def State.activate (s : State) (t : Nat) (a : Act) : State :=
  match s.task? t with
  | none => s.bump F.FLT_ACT_DROP_dropped pkg
  | some k =>
    if k.state = .faulted then s.bump F.FLT_ACT_DROP_dropped pkg
    else if !k.takes a.t then s
    else
      match k.source? a.src a.slot with
      | none => s
      | some src =>
        if src.maxPending ≤ k.pendingOf a.src a.slot then
          if dropsEarly a.src then s.setTask t { k with dropped := k.dropped + 1 }
          else s.taskFault t 0x0B k.c.pc 0 a.t false
        else s.setTask t { k with pend := actInsert a k.pend }

/-- The step of a task is cut off at T + L − R (R79, R96): an OVERRUN record, then SKIP goes on with the next activation and
STOP faults the task; the pc that is shown is the committed one (log entry 91). -/
def State.overrun (s : State) (t : Nat) (k : Task) (tAct : Time) (keep : Bool) : State :=
  let s := s.breach 0
  let s := s.detRec k.die (0x0A48 + k.die) 0x20 (k.cutoff tAct)
    (leBytes t 2 ++ leBytes (b2n k.stopPolicy) 2 ++ timeBytes tAct)
  if k.stopPolicy then s.taskFault t 0x0E k.c.pc 0 tAct keep
  else if keep then s
  else s.modTask t (fun k => { k with step := none })

end Sys2Proof.Machine
end

