-- ==== Sys2Proof/Machine/Issue.lean ====
section
/-! DEFINITION. How a shuttle issues one instruction of a step (R95, R105, R113, R116, R120, R124, R129 to R131, R140 to
R144): fetch, the instruction's own effect, then the next offset, a task fault, or the commit (R88). -/

namespace Sys2Proof.Machine

/-- What an instruction does to its step: go on; fault with a code and further information (the unit of a lost history, the byte
offset of a bad word on the die, or the own code of SOFTWARE); or commit, with how the next step starts and the timer it sets. -/
inductive IRes where
  | go (s : State) (st : Step)
  | trap (s : State) (code info : Nat)
  | commit (s : State) (st : Step) (next : Resume) (timer : Option Time)

/-- The byte offset in die memory of code word `n` of a task: code memory is the region from offset 0 (R115, log entry 9). -/
def Task.codeAt (k : Task) (n : Nat) : Nat := (k.codeBase + n) * 4

/-- Code word `n` of a task on its die. -/
def State.codeWord (s : State) (k : Task) (n : Nat) : Word := memWord s.dieMem (dieAddr k.die (k.codeAt n))

/-- What a fetch at offset `n` finds: an instruction and its length in words, or the fault code (R116, R120, R124). An extension
word beyond the code is SEGMENT_VIOLATION at the instruction's own offset (log entry 111). -/
def State.fetch (s : State) (t : Nat) (k : Task) (n : Nat) : Nat ⊕ (Instr × Nat) :=
  if k.codeWords ≤ n then .inl 0x02
  else if s.badWord (dieAddr k.die (k.codeAt n)) then .inl 0x06
  else
    let w := s.codeWord k n
    if isX w then
      if (decodeWord t w 0).isNone then .inl 0x01
      else if k.codeWords ≤ n + 1 then .inl 0x02
      else if s.badWord (dieAddr k.die (k.codeAt (n + 1))) then .inl 0x06
      else match decodeWord t w (s.codeWord k (n + 1)) with
        | some i => .inr (i, 2)
        | none => .inl 0x01
    else match decodeWord t w 0 with
      | some i => .inr (i, 1)
      | none => .inl 0x01

/-- The byte offsets in die memory of `n` code words of a task from word `pc`. -/
def Task.codeOffs (k : Task) (pc n : Nat) : List Nat := (List.range n).map (fun i => k.codeAt (pc + i))

/-- The byte offset of the word whose uncorrectable error stops a fetch at offset `n` (R120). -/
def State.fetchBad (s : State) (k : Task) (n : Nat) : Nat :=
  if s.badWord (dieAddr k.die (k.codeAt n)) then k.codeAt n else k.codeAt (n + 1)

/-- May the shuttle issue the next instruction of this step now? Its die and slot act, the step runs, neither its context nor the
package is halted (R141, R540), a single-step apart (R144), and it is not past its cut-off (R79), a single-step of a step that
was cut off while halted apart (R144). -/
def State.mayIssue (s : State) (k : Task) (st : Step) : Bool :=
  s.dieActs k.die && ((s.die k.die).slots.getD k.slot Slot.reset).healthy && k.held && k.mig.isNone &&
  st.running && (k.halt.isNone || st.single) && s.dbg.halt.isNone &&
  (if st.cutOff then k.halt.isSome else upTo s.now (k.cutoff st.act.t))

/-- The step with the working PC at offset `n`. -/
def Step.goto (st : Step) (n : Nat) : Step := { st with w := { st.w with pc := n } }

/-- After an instruction of a single-stepped context, the context halts again (R144). -/
def Step.settle (st : Step) : Step := { st with single := false }

/-- One effect of a step becomes visible to no one yet but is on its way (R91): a record to the queue of its die, a router
source to the horizon, a message to its receiver, everything else to its unit, each behind what was sent before it (R40). -/
def State.launch (s : State) (d : Nat) (e : Eff) : State :=
  match e.kind with
  | .event eq src ty payload =>
    s.emit { stamp := e.stamp, src, o1 := e.rank, o2 := e.seq, o3 := e.idx, ty, payload := pay payload, eq, die := d }
  | .ring src => { s with posts := s.posts ++ [(e.stamp, src)] }
  | .send dst port payload =>
    { s with msgs := s.msgs ++ [⟨e.stamp, e.rank, e.seq, e.idx, e.task, dst, port, payload, d, s.sent⟩], sent := s.sent + 1 }
  | _ => { s with flight := s.flight ++ [{ e with die := d, ord := s.sent }], sent := s.sent + 1 }

/-! ## Late samples (R406) -/

/-- A subscription entry. -/
def State.axs (s : State) (e : Nat) : AxsSt := nmGet s.axss e AxsSt.reset
/-- The state with a subscription entry set. -/
def State.setAxs (s : State) (e : Nat) (x : AxsSt) : State := { s with axss := nmPut s.axss e x }

/-- One missed stamp is counted once in the package and recorded once by each reading task (R406, R100). -/
def State.axsLate (s : State) (t e : Nat) (tRead : Time) (x : Time) : State :=
  let ix := pkg2 e 1
  let s := if (s.axs e).late.contains x then s
    else (s.setAxs e { s.axs e with late := x :: (s.axs e).late }).bump F.AXS_COUNT_count_lo ix
  match s.task? t with
  | none => s
  | some k =>
    if k.lateSeen.contains (e, x) then s
    else
      let s := s.setTask t { k with lateSeen := (e, x) :: k.lateSeen }
      (s.breach 2).detRec k.die (0x0A48 + k.die) 0x22 tRead (leBytes t 2 ++ leBytes e 2 ++ timeBytes x)

/-- The QUEUE_FULL record and breach of a failed reservation on a queue that a DMA channel or the host drains (R190). -/
def State.queueFull (s : State) (t d q words : Nat) (tAct fin : Time) : State :=
  (s.breach 3).detRec d (0x0A48 + d) 0x23 fin (leBytes t 2 ++ leBytes q 2 ++ timeBytes tAct ++ leBytes words 3)

/-- The stores of a step reach the private segment (R86, R109). -/
def State.drain (s : State) (k : Task) (wbuf : List (Nat × Word)) : State :=
  wbuf.foldl (fun s e => s.writeDieWord k.die (k.dataBase + 4 * e.1) e.2) s

/-- The whole step commits as one action (R88, R90, R94, R111, R155). -/
def State.commit (s : State) (t : Nat) (k : Task) (st : Step) (next : Resume) (timer : Option Time) : State :=
  let pend := if timer.isSome then k.pend.filter (fun a => a.src != 7) else k.pend
  let k' := { k with c := st.w, resume := next, seq := k.seq + 1, step := none, pend := pend,
                     timer := if timer.isSome then timer else k.timer,
                     stitches := st.stitches, cmps := st.cmps, capts := st.capts, rps := st.rps }
  let s := s.setTask t k'
  let s := s.drain k st.wbuf
  let s := st.effs.foldl (fun s e => s.launch k.die e) s
  let s := st.lates.foldl (fun s e => s.axsLate t e.1 st.act.t e.2) s
  st.fullRecs.foldl (fun s e =>
    if e.2 = 0 then s.bump F.QUE_PKT_COUNT_full_fail (queIx e.1)
    else (s.bump F.QUE_PKT_COUNT_full_fail (queIx e.1)).queueFull t k.die e.1 e.2 st.act.t st.tl) s

/-- The step of a halted context is cut off: its working copy stays until the resume (R143). -/
def State.cutHalted (s : State) (t : Nat) (k : Task) (st : Step) : State :=
  (s.setTask t { k with step := some { st with cutOff := true, single := false } }).overrun t k st.act.t true

/-- A fault of an instruction at offset `pc` (R128 to R131): an uncorrectable word is counted and located (R120); in the cycle of
the cut-off the overrun policy applies instead of the fault. -/
def State.instrFault (s : State) (t : Nat) (k : Task) (st : Step) (pc code info : Nat) : State :=
  let s := if code = 0x06 then s.sawBad k.die info false else s
  if s.now = k.cutoff st.act.t then
    (if k.halt.isSome then s.cutHalted t k st else s.overrun t k st.act.t false)
  else
    let s := if code = 0x0A then s.historyLost t k.die info st.act.t st.tl else s
    s.taskFault t code pc (if code = 0x0F then info else pc) st.act.t false

/-- What follows an instruction. Of a step that was cut off while halted only the working copy goes on: it raises no fault and
commits nothing (R144; log entry 89). -/
def IRes.finish (r : IRes) (t : Nat) (k : Task) (st : Step) (pc : Nat) : State :=
  match r with
  | .go s' st' => s'.modTask t (fun k => { k with step := some st'.settle })
  | .trap s' code info =>
    if st.cutOff then s'.modTask t (fun k => { k with step := some st.settle }) else s'.instrFault t k st pc code info
  | .commit s' st' next timer =>
    match s'.task? t with
    | some k' => if st.cutOff then s'.setTask t { k' with step := some st.settle } else s'.commit t k' st' next timer
    | none => s'

/-- The body of instruction `i` at its context: it gets the state, the task, the step with the PC already at the next
offset. -/
abbrev Body := State → Task → Step → IRes

/-- Task `t` issues instruction `i`, if that is the one its code holds at its PC; a fetch that faults faults the task; in
every other case nothing issues. -/
def State.issue (s : State) (t : Nat) (i : Instr) (body : Body) : State :=
  match s.task? t with
  | none => s
  | some k =>
    match k.step with
    | none => s
    | some st =>
      if s.mayIssue k st then
        match s.fetch t k st.w.pc with
        | .inl code => (IRes.trap s code (s.fetchBad k st.w.pc)).finish t k st st.w.pc
        | .inr (j, n) =>
          if j = i then
            (body (s.corrected k.die (k.codeOffs st.w.pc n)) k (st.goto (st.w.pc + n))).finish t k st st.w.pc
          else s
      else s

/-- An effect of the step (R87, R89): the 129th is EFFECT_LIMIT, a stamp before T + L is EARLY_STAMP. `none` = no fault. -/
def Step.effFault (st : Step) (stamp : Time) : Option Nat :=
  if 128 ≤ st.effs.length then some 0x08
  else if before stamp st.tl then some 0x09
  else none

/-- The step with one effect more. -/
def Step.addEff (st : Step) (t : Nat) (k : Task) (stamp : Time) (kind : EffKind) : Step :=
  { st with effs := st.effs ++
      [{ stamp, rank := k.rank, seq := k.seq.toNat, idx := st.effs.length, task := t, run := k.run, kind,
         die := k.die, ord := 0 }] }

/-- The lowest fault code of several causes (R129, R158). -/
def lowest (l : List (Option Nat)) : Option Nat :=
  l.foldl (fun a x => match a, x with
    | none, y => y
    | some a, some b => some (min a b)
    | some a, none => some a) none

/-- A fault code if a condition holds. -/
def failIf (b : Bool) (code : Nat) : Option Nat := if b then some code else none

/-- Go on, or trap on the lowest of several causes. -/
def guardAll (s : State) (causes : List (Option Nat)) (k : Unit → IRes) : IRes :=
  match lowest causes with
  | some c => .trap s c 0
  | none => k ()

/-- The same for an instruction that reads words of memory: `offs` are their byte offsets on die `d`. A single-bit error in one of
them is corrected; of an uncorrectable one the fault tells the place (R120). -/
def guardMem (s : State) (d : Nat) (offs : List Nat) (causes : List (Option Nat)) (k : State → IRes) : IRes :=
  match lowest causes with
  | some c => .trap s c ((offs.find? (fun o => s.badWord (dieAddr d o))).getD 0)
  | none => k (s.corrected d offs)

end Sys2Proof.Machine
end

