-- ==== Sys2Proof/Machine/Alu.lean ====
section
/-! DEFINITION. The ALU instructions (R132) and CRC (R198). -/

namespace Sys2Proof.Machine

/-- Write rd and the flags, and go on. -/
def goRd (s : State) (st : Step) (rd : GReg) (v : Word) (f : Flags) : IRes := .go s ((st.wg rd v).wf f)

/-- A three-register ALU instruction: its result and flags from the two operands. -/
def alu3 (op : Word → Word → Word) (fl : Word → Word → Flags) (rd ra rb : GReg) : Body := fun s _ st =>
  let a := st.w.rg ra
  let b := st.w.rg rb
  goRd s st rd (op a b) (fl a b)

/-- An ALU instruction with an immediate. -/
def aluI (op : Word → Word → Word) (fl : Word → Word → Flags) (rd ra : GReg) (imm : Word) : Body := fun s _ st =>
  let a := st.w.rg ra
  goRd s st rd (op a imm) (fl a imm)

/-- The amount of a shift: rb[4:0]. -/
def shAmt (b : Word) : Nat := b.toNat % 32

/-- Signed minimum. -/
def minS (a b : Word) : Word := if a.slt b then a else b
/-- Signed maximum. -/
def maxS (a b : Word) : Word := if a.slt b then b else a
/-- Signed sum, saturated. -/
def addSat (a b : Word) : Word := BitVec.ofInt 32 (sat32 (a.toInt + b.toInt))
/-- Signed difference, saturated. -/
def subSat (a b : Word) : Word := BitVec.ofInt 32 (sat32 (a.toInt - b.toInt))

/-- ADD. -/
def bodyAdd (rd ra rb : GReg) : Body := alu3 (· + ·) flagsAdd rd ra rb
/-- SUB. -/
def bodySub (rd ra rb : GReg) : Body := alu3 (· - ·) flagsSub rd ra rb
/-- AND. -/
def bodyAnd (rd ra rb : GReg) : Body := alu3 (· &&& ·) (fun a b => flagsLogic (a &&& b)) rd ra rb
/-- OR. -/
def bodyOr (rd ra rb : GReg) : Body := alu3 (· ||| ·) (fun a b => flagsLogic (a ||| b)) rd ra rb
/-- XOR. -/
def bodyXor (rd ra rb : GReg) : Body := alu3 (· ^^^ ·) (fun a b => flagsLogic (a ^^^ b)) rd ra rb
/-- SHL. -/
def bodyShl (rd ra rb : GReg) : Body :=
  alu3 (fun a b => a <<< shAmt b) (fun a b => flagsZN (a <<< shAmt b) (shlCarry a (shAmt b)) false) rd ra rb
/-- SHR. -/
def bodyShr (rd ra rb : GReg) : Body :=
  alu3 (fun a b => a >>> shAmt b) (fun a b => flagsZN (a >>> shAmt b) (shrCarry a (shAmt b)) false) rd ra rb
/-- SRA. -/
def bodySra (rd ra rb : GReg) : Body :=
  alu3 (fun a b => a.sshiftRight (shAmt b))
    (fun a b => flagsZN (a.sshiftRight (shAmt b)) (shrCarry a (shAmt b)) false) rd ra rb
/-- MIN. -/
def bodyMin (rd ra rb : GReg) : Body := alu3 minS (fun a b => flagsLogic (minS a b)) rd ra rb
/-- MAX. -/
def bodyMax (rd ra rb : GReg) : Body := alu3 maxS (fun a b => flagsLogic (maxS a b)) rd ra rb
/-- ADDS. -/
def bodyAdds (rd ra rb : GReg) : Body :=
  alu3 addSat (fun a b => flagsSat (addSat a b) (outside32 (a.toInt + b.toInt))) rd ra rb
/-- SUBS. -/
def bodySubs (rd ra rb : GReg) : Body :=
  alu3 subSat (fun a b => flagsSat (subSat a b) (outside32 (a.toInt - b.toInt))) rd ra rb
/-- CMP. -/
def bodyCmp (ra rb : GReg) : Body := fun s _ st => .go s (st.wf (flagsSub (st.w.rg ra) (st.w.rg rb)))
/-- ADDI. -/
def bodyAddi (rd ra : GReg) (m : BitVec 18) : Body := aluI (· + ·) flagsAdd rd ra (sext18 m)
/-- ANDI. -/
def bodyAndi (rd ra : GReg) (m : BitVec 18) : Body := aluI (· &&& ·) (fun a b => flagsLogic (a &&& b)) rd ra (zext18 m)
/-- ORI. -/
def bodyOri (rd ra : GReg) (m : BitVec 18) : Body := aluI (· ||| ·) (fun a b => flagsLogic (a ||| b)) rd ra (zext18 m)
/-- XORI. -/
def bodyXori (rd ra : GReg) (m : BitVec 18) : Body := aluI (· ^^^ ·) (fun a b => flagsLogic (a ^^^ b)) rd ra (zext18 m)
/-- LUI: imm18 << 14; no flags. -/
def bodyLui (rd : GReg) (m : BitVec 18) : Body := fun s _ st => .go s (st.wg rd (m ++ (0 : BitVec 14)))
/-- LIMM: the extension word; no flags. -/
def bodyLimm (rd : GReg) (e : Word) : Body := fun s _ st => .go s (st.wg rd e)

/-- The bytes of rb that CRC takes, from rb[7:0] upward (R198). -/
def crcOperand (n : CrcLen) (b : Word) : List Byte :=
  match n with
  | .four => wordBytes b
  | .one => (wordBytes b).take 1
  | .two => (wordBytes b).take 2

/-- CRC (R198): Z and N; C and V cleared. -/
def bodyCrc (rd ra rb : GReg) (n : CrcLen) : Body := fun s _ st =>
  let r := crcBytes (st.w.rg ra) (crcOperand n (st.w.rg rb))
  goRd s st rd r (flagsLogic r)

/-- ADD (R132). -/
def execAdd (t : Nat) (rd ra rb : GReg) (s : State) : Host.Outcome State Fault Refusal :=
  .next (s.issue t (.add t rd ra rb) (bodyAdd rd ra rb))

/-- SUB (R132). -/
def execSub (t : Nat) (rd ra rb : GReg) (s : State) : Host.Outcome State Fault Refusal :=
  .next (s.issue t (.sub t rd ra rb) (bodySub rd ra rb))

/-- AND (R132). -/
def execAnd (t : Nat) (rd ra rb : GReg) (s : State) : Host.Outcome State Fault Refusal :=
  .next (s.issue t (.and t rd ra rb) (bodyAnd rd ra rb))

/-- OR (R132). -/
def execOr (t : Nat) (rd ra rb : GReg) (s : State) : Host.Outcome State Fault Refusal :=
  .next (s.issue t (.or t rd ra rb) (bodyOr rd ra rb))

/-- XOR (R132). -/
def execXor (t : Nat) (rd ra rb : GReg) (s : State) : Host.Outcome State Fault Refusal :=
  .next (s.issue t (.xor t rd ra rb) (bodyXor rd ra rb))

/-- SHL (R132). -/
def execShl (t : Nat) (rd ra rb : GReg) (s : State) : Host.Outcome State Fault Refusal :=
  .next (s.issue t (.shl t rd ra rb) (bodyShl rd ra rb))

/-- SHR (R132). -/
def execShr (t : Nat) (rd ra rb : GReg) (s : State) : Host.Outcome State Fault Refusal :=
  .next (s.issue t (.shr t rd ra rb) (bodyShr rd ra rb))

/-- SRA (R132). -/
def execSra (t : Nat) (rd ra rb : GReg) (s : State) : Host.Outcome State Fault Refusal :=
  .next (s.issue t (.sra t rd ra rb) (bodySra rd ra rb))

/-- MIN (R132). -/
def execMin (t : Nat) (rd ra rb : GReg) (s : State) : Host.Outcome State Fault Refusal :=
  .next (s.issue t (.min t rd ra rb) (bodyMin rd ra rb))

/-- MAX (R132). -/
def execMax (t : Nat) (rd ra rb : GReg) (s : State) : Host.Outcome State Fault Refusal :=
  .next (s.issue t (.max t rd ra rb) (bodyMax rd ra rb))

/-- ADDS (R132). -/
def execAdds (t : Nat) (rd ra rb : GReg) (s : State) : Host.Outcome State Fault Refusal :=
  .next (s.issue t (.adds t rd ra rb) (bodyAdds rd ra rb))

/-- SUBS (R132). -/
def execSubs (t : Nat) (rd ra rb : GReg) (s : State) : Host.Outcome State Fault Refusal :=
  .next (s.issue t (.subs t rd ra rb) (bodySubs rd ra rb))

/-- CMP (R132). -/
def execCmp (t : Nat) (ra rb : GReg) (s : State) : Host.Outcome State Fault Refusal :=
  .next (s.issue t (.cmp t ra rb) (bodyCmp ra rb))

/-- ADDI (R132). -/
def execAddi (t : Nat) (rd ra : GReg) (m : BitVec 18) (s : State) : Host.Outcome State Fault Refusal :=
  .next (s.issue t (.addi t rd ra m) (bodyAddi rd ra m))

/-- ANDI (R132). -/
def execAndi (t : Nat) (rd ra : GReg) (m : BitVec 18) (s : State) : Host.Outcome State Fault Refusal :=
  .next (s.issue t (.andi t rd ra m) (bodyAndi rd ra m))

/-- ORI (R132). -/
def execOri (t : Nat) (rd ra : GReg) (m : BitVec 18) (s : State) : Host.Outcome State Fault Refusal :=
  .next (s.issue t (.ori t rd ra m) (bodyOri rd ra m))

/-- XORI (R132). -/
def execXori (t : Nat) (rd ra : GReg) (m : BitVec 18) (s : State) : Host.Outcome State Fault Refusal :=
  .next (s.issue t (.xori t rd ra m) (bodyXori rd ra m))

/-- LUI (R132). -/
def execLui (t : Nat) (rd : GReg) (m : BitVec 18) (s : State) : Host.Outcome State Fault Refusal :=
  .next (s.issue t (.lui t rd m) (bodyLui rd m))

/-- LIMM (R132). -/
def execLimm (t : Nat) (rd : GReg) (e : Word) (s : State) : Host.Outcome State Fault Refusal :=
  .next (s.issue t (.limm t rd e) (bodyLimm rd e))

/-- CRC (R198). -/
def execCrc (t : Nat) (rd ra rb : GReg) (n : CrcLen) (s : State) : Host.Outcome State Fault Refusal :=
  .next (s.issue t (.crc t rd ra rb n) (bodyCrc rd ra rb n))

end Sys2Proof.Machine
end

