-- ==== Sys2Proof/Machine/MulDiv.lean ====
section
/-! DEFINITION. Multiply, accumulate and divide (R133, R134). -/

namespace Sys2Proof.Machine

/-- The exact signed product. -/
def prodS (a b : Word) : Int := a.toInt * b.toInt

/-- MUL: the low half; V = the product lies outside the int32 range. -/
def bodyMul (rd ra rb : GReg) : Body :=
  alu3 (fun a b => BitVec.ofInt 32 (prodS a b))
    (fun a b => flagsZN (BitVec.ofInt 32 (prodS a b)) false (outside32 (prodS a b))) rd ra rb

/-- The high half of the signed product. -/
def mulHi (a b : Word) : Word := hiHalf (BitVec.ofInt 64 (prodS a b))

/-- MULH. -/
def bodyMulh (rd ra rb : GReg) : Body := alu3 mulHi (fun a b => flagsLogic (mulHi a b)) rd ra rb

/-- The high half of the unsigned product. -/
def mulHiU (a b : Word) : Word := hiHalf (BitVec.ofNat 64 (a.toNat * b.toNat))

/-- MULHU. -/
def bodyMulhu (rd ra rb : GReg) : Body := alu3 mulHiU (fun a b => flagsLogic (mulHiU a b)) rd ra rb

/-- MAC: the accumulator saturates to 64 bits; V is set when it did, otherwise unchanged. -/
def bodyMac (ra rb : GReg) : Body := fun s _ st =>
  let x := st.w.a.toInt + prodS (st.w.rg ra) (st.w.rg rb)
  let w := { st.w with a := BitVec.ofInt 64 (sat64 x) }
  .go s { st with w := if outside64 x then { w with fl := { w.fl with v := true } } else w }

/-- The accumulator rounded and shifted right by `sh` (R133). -/
def macrVal (a : BitVec 64) (sh : Nat) : Int :=
  if sh = 0 then a.toInt else (a.toInt + 2 ^ (sh - 1)) / 2 ^ sh

/-- MACR: rounds, shifts, saturates to 32 bits, and clears the accumulator. -/
def bodyMacr (rd ra : GReg) : Body := fun s _ st =>
  let r := macrVal st.w.a ((st.w.rg ra).toNat % 64)
  let v := BitVec.ofInt 32 (sat32 r)
  goRd s { st with w := { st.w with a := 0 } } rd v (flagsSat v (outside32 r))

/-- The Q16.16 product rounded, before saturation (R133). -/
def qmulVal (a b : Word) : Int := (prodS a b + 0x8000) / 65536

/-- QMUL. -/
def bodyQmul (rd ra rb : GReg) : Body :=
  alu3 (fun a b => BitVec.ofInt 32 (sat32 (qmulVal a b)))
    (fun a b => flagsSat (BitVec.ofInt 32 (sat32 (qmulVal a b))) (outside32 (qmulVal a b))) rd ra rb

/-- The quotient of DIVU; a divisor of 0 gives 0xFFFF_FFFF. -/
def divU (a b : Word) : Word := if b = 0 then 0xFFFFFFFF else a / b

/-- DIVU. -/
def bodyDivu (rd ra rb : GReg) : Body := alu3 divU (fun a b => flagsZN (divU a b) false (b == 0)) rd ra rb

/-- The two cases in which DIVS sets V. -/
def divsBad (a b : Word) : Bool := b == 0 || (a == 0x80000000 && b == 0xFFFFFFFF)

/-- The quotient of DIVS, truncated toward zero. -/
def divS (a b : Word) : Word :=
  if b = 0 then 0xFFFFFFFF
  else if a = 0x80000000 ∧ b = 0xFFFFFFFF then 0x7FFFFFFF
  else BitVec.ofInt 32 (a.toInt.tdiv b.toInt)

/-- DIVS. -/
def bodyDivs (rd ra rb : GReg) : Body := alu3 divS (fun a b => flagsZN (divS a b) false (divsBad a b)) rd ra rb

/-- The remainder of REMU; a divisor of 0 gives 0xFFFF_FFFF. -/
def remU (a b : Word) : Word := if b = 0 then 0xFFFFFFFF else a % b

/-- REMU. -/
def bodyRemu (rd ra rb : GReg) : Body := alu3 remU (fun a b => flagsZN (remU a b) false (b == 0)) rd ra rb

/-- MUL (R133, R134). -/
def execMul (t : Nat) (rd ra rb : GReg) (s : State) : Host.Outcome State Fault Refusal :=
  .next (s.issue t (.mul t rd ra rb) (bodyMul rd ra rb))

/-- MULH (R133, R134). -/
def execMulh (t : Nat) (rd ra rb : GReg) (s : State) : Host.Outcome State Fault Refusal :=
  .next (s.issue t (.mulh t rd ra rb) (bodyMulh rd ra rb))

/-- MULHU (R133, R134). -/
def execMulhu (t : Nat) (rd ra rb : GReg) (s : State) : Host.Outcome State Fault Refusal :=
  .next (s.issue t (.mulhu t rd ra rb) (bodyMulhu rd ra rb))

/-- QMUL (R133, R134). -/
def execQmul (t : Nat) (rd ra rb : GReg) (s : State) : Host.Outcome State Fault Refusal :=
  .next (s.issue t (.qmul t rd ra rb) (bodyQmul rd ra rb))

/-- DIVU (R133, R134). -/
def execDivu (t : Nat) (rd ra rb : GReg) (s : State) : Host.Outcome State Fault Refusal :=
  .next (s.issue t (.divu t rd ra rb) (bodyDivu rd ra rb))

/-- DIVS (R133, R134). -/
def execDivs (t : Nat) (rd ra rb : GReg) (s : State) : Host.Outcome State Fault Refusal :=
  .next (s.issue t (.divs t rd ra rb) (bodyDivs rd ra rb))

/-- REMU (R133, R134). -/
def execRemu (t : Nat) (rd ra rb : GReg) (s : State) : Host.Outcome State Fault Refusal :=
  .next (s.issue t (.remu t rd ra rb) (bodyRemu rd ra rb))

/-- MAC (R133). -/
def execMac (t : Nat) (ra rb : GReg) (s : State) : Host.Outcome State Fault Refusal :=
  .next (s.issue t (.mac t ra rb) (bodyMac ra rb))

/-- MACR (R133). -/
def execMacr (t : Nat) (rd ra : GReg) (s : State) : Host.Outcome State Fault Refusal :=
  .next (s.issue t (.macr t rd ra) (bodyMacr rd ra))

end Sys2Proof.Machine
end

