-- ==== Sys2Proof/Machine/Branch.lean ====
section
/-! DEFINITION. Branches, jumps, calls and returns (R116, R135, R136). -/

namespace Sys2Proof.Machine

/-- Go to offset `x` (taken modulo 2^32, log entry 10): at or beyond the code size it is SEGMENT_VIOLATION (R116). -/
def targetOf (base : Nat) (off : BitVec 18) : Nat := ((BitVec.ofNat 32 base) + sext18 off).toNat

/-- Transfer control to an offset, or fault (R116). -/
def jumpTo (s : State) (k : Task) (st : Step) (x : Nat) : IRes :=
  if k.codeWords ≤ x then .trap s 0x02 0 else .go s (st.goto x)

/-- A conditional branch: on registers, or on the flags when both register fields are 0 (R135). -/
def branch (onRegs : Word → Word → Bool) (onFlags : Flags → Bool) (ra rb : GReg) (off : BitVec 18) : Body := fun s k st =>
  let taken := if ra = 0 ∧ rb = 0 then onFlags st.w.fl else onRegs (st.w.rg ra) (st.w.rg rb)
  if taken then jumpTo s k st (targetOf st.w.pc off) else .go s st

/-- BEQ. -/
def bodyBeq := branch (fun a b => a == b) (fun f => f.z)
/-- BNE. -/
def bodyBne := branch (fun a b => a != b) (fun f => !f.z)
/-- BLT, signed. -/
def bodyBlt := branch (fun a b => a.slt b) (fun f => f.n != f.v)
/-- BGE, signed. -/
def bodyBge := branch (fun a b => !a.slt b) (fun f => f.n == f.v)
/-- BLTU, unsigned. -/
def bodyBltu := branch (fun a b => a.ult b) (fun f => f.c)
/-- BGEU, unsigned. -/
def bodyBgeu := branch (fun a b => !a.ult b) (fun f => !f.c)

/-- The base of JMP and CALL: ra, or the next instruction's offset when the ra field is 0 (R136). -/
def jumpBase (st : Step) (ra : GReg) : Nat := if ra = 0 then st.w.pc else (st.w.rg ra).toNat

/-- JMP. -/
def bodyJmp (ra : GReg) (off : BitVec 18) : Body := fun s k st => jumpTo s k st (targetOf (jumpBase st ra) off)

/-- CALL: pushes the next offset; with 8 entries RSTACK_OVERFLOW; the lowest code is raised (R129, R136). The offset pushed is taken
modulo 2^18 (log entry 111). -/
def bodyCall (ra : GReg) (off : BitVec 18) : Body := fun s k st =>
  let x := targetOf (jumpBase st ra) off
  guardAll s [failIf (decide (k.codeWords ≤ x)) 0x02, failIf (decide (8 ≤ st.w.rstack.length)) 0x04] fun _ =>
    .go s ({ st with w := { st.w with rstack := BitVec.ofNat 18 st.w.pc :: st.w.rstack } }.goto x)

/-- RET: pops the newest entry; with none RSTACK_UNDERFLOW (R136). -/
def bodyRet : Body := fun s k st =>
  match st.w.rstack with
  | [] => .trap s 0x05 0
  | x :: r => jumpTo s k { st with w := { st.w with rstack := r } } x.toNat

/-- BEQ (R135). -/
def execBeq (t : Nat) (ra rb : GReg) (off : BitVec 18) (s : State) : Host.Outcome State Fault Refusal :=
  .next (s.issue t (.beq t ra rb off) (bodyBeq ra rb off))

/-- BNE (R135). -/
def execBne (t : Nat) (ra rb : GReg) (off : BitVec 18) (s : State) : Host.Outcome State Fault Refusal :=
  .next (s.issue t (.bne t ra rb off) (bodyBne ra rb off))

/-- BLT (R135). -/
def execBlt (t : Nat) (ra rb : GReg) (off : BitVec 18) (s : State) : Host.Outcome State Fault Refusal :=
  .next (s.issue t (.blt t ra rb off) (bodyBlt ra rb off))

/-- BGE (R135). -/
def execBge (t : Nat) (ra rb : GReg) (off : BitVec 18) (s : State) : Host.Outcome State Fault Refusal :=
  .next (s.issue t (.bge t ra rb off) (bodyBge ra rb off))

/-- BLTU (R135). -/
def execBltu (t : Nat) (ra rb : GReg) (off : BitVec 18) (s : State) : Host.Outcome State Fault Refusal :=
  .next (s.issue t (.bltu t ra rb off) (bodyBltu ra rb off))

/-- BGEU (R135). -/
def execBgeu (t : Nat) (ra rb : GReg) (off : BitVec 18) (s : State) : Host.Outcome State Fault Refusal :=
  .next (s.issue t (.bgeu t ra rb off) (bodyBgeu ra rb off))

/-- JMP (R136). -/
def execJmp (t : Nat) (ra : GReg) (off : BitVec 18) (s : State) : Host.Outcome State Fault Refusal :=
  .next (s.issue t (.jmp t ra off) (bodyJmp ra off))

/-- CALL (R136). -/
def execCall (t : Nat) (ra : GReg) (off : BitVec 18) (s : State) : Host.Outcome State Fault Refusal :=
  .next (s.issue t (.call t ra off) (bodyCall ra off))

/-- RET (R136). -/
def execRet (t : Nat) (s : State) : Host.Outcome State Fault Refusal :=
  .next (s.issue t (.ret t) (bodyRet))

end Sys2Proof.Machine
end

