-- ==== Sys2Proof/Machine/Window.lean ====
section
/-! DEFINITION. Filter delays, the settle time S and crossness (R77, R78, R244, R304, R315, R348, R399, R567). -/

namespace Sys2Proof.Machine

/-- The delay of an interface's own filter in ns (R303). -/
def State.fbFilterNs (s : State) (n : Nat) : Nat :=
  filterNs (s.fld F.FB_CTRL_filt_n (fbIx n)) (s.fld F.FB_CTRL_filt_prescale (fbIx n))

/-- The mode of an interface (R296). -/
def State.fbMode (s : State) (n : Nat) : Nat := s.fld F.FB_CTRL_mode (fbIx n)

/-- The clock period of an interface in serial mode, in picots: quarter ns × 16 (R313). -/
def State.serPeriod (s : State) (n : Nat) : Nat := s.fld F.FB_SER_CLK_period_qns (fbIx n) * 16

/-- The frame time of an interface in modes 4 and 5, in picots (R315): bit count × p + LD. -/
def State.frameTime (s : State) (n : Nat) : Nat :=
  let bits := s.fld F.FB_SER_FRAME_nbits (fbIx n) + 3 +
    (if s.fbMode n = 5 then s.fld F.FB_SER_FRAME_start_max (fbIx n) else 0)
  bits * s.serPeriod n + ns (s.fld F.FB_SER_TIMING_line_delay_ns (fbIx n))

/-- The filter delay of an interface in picots (R304). -/
def State.fbDelay (s : State) (n : Nat) : Nat :=
  let own := ns (s.fbFilterNs n)
  let base := 64 * (n / 8)
  let own := if s.fbMode n = 3 ∧ s.fld F.FB_COMM_CFG_src (fbIx n) = 1 then
      max own (max (ns (s.pinDelay (base + s.fld F.FB_COMM_CFG_pin_v (fbIx n))))
        (ns (s.pinDelay (base + s.fld F.FB_COMM_CFG_pin_w (fbIx n))))) else own
  if s.fbMode n = 4 ∨ s.fbMode n = 5 then max own (s.frameTime n) else own

/-- The filter delay of a hoop in picots (R348). -/
def State.hoopDelay (s : State) (h : Nat) : Nat :=
  let ix := hoopIx h
  let d := h / 4
  let src := s.fld F.HOOP_CTRL_src ix
  let i := s.fld F.HOOP_SRC_index ix
  let dir := if s.bit F.HOOP_CTRL_dir_en ix then ns (s.fld F.HOOP_DIR_thresh_ns ix) else 0
  if src = 0 then
    max (ns (s.pinDelay (64 * d + i % 64)))
      (if s.bit F.HOOP_CTRL_ref ix then ns (s.pinDelay (64 * d + s.fld F.HOOP_SRC_idx_pin ix)) else 0) + dir
  else if src = 1 then ns (s.fbFilterNs (8 * d + i % 8)) + dir
  else if src = 2 then s.fbDelay (8 * d + i % 8)
  else 0

/-- The filter delay of a declared input in picots (R77). -/
def State.inputDelay (s : State) (r : Res) : Nat :=
  match r.kind with
  | 1 => if r.flag then 0 else ns (s.pinDelay r.a)
  | 2 => ns (s.tripDelay r.a)
  | 4 => s.fbDelay r.a
  | 5 => s.hoopDelay r.a
  | _ => 0

/-- Is a declared resource an input: pin, trip, interface or hoop? -/
def Res.isInput (r : Res) : Bool := (r.kind == 1 && !r.flag) || r.kind == 2 || r.kind == 4 || r.kind == 5

/-- The settle time in picots of a list of declared resources for a task on die `d` (R77). -/
def State.settleOf (s : State) (res : List Res) (d : Nat) : Nat :=
  let m := res.foldl (fun a r => max a (s.inputDelay r)) 0
  let far := res.any (fun r => r.isInput && (match unitDie r.kind r.a with | some e => e != d | none => false))
  ns 50 + m + (if far then ns 260 else 0)

/-- S of a task where it runs. -/
def State.settle (s : State) (k : Task) : Nat := s.settleOf k.res k.die

/-! ## Crossness (R78, R399, R567) -/

/-- An enabled hoop on another die than `d` takes publish entry `e` as its source (R399; log entry 93). -/
def State.hoopFar (s : State) (e d : Nat) : Bool :=
  (List.range (4 * s.variant.dies)).any (fun h =>
    h / 4 != d && s.bit F.HOOP_CTRL_en (hoopIx h) && s.fld F.HOOP_CTRL_src (hoopIx h) == 4 &&
      s.fld F.HOOP_SRC_index (hoopIx h) == e)

/-- A task that runs on die `d` is cross-die: it owns a unit elsewhere, publishes to a hoop elsewhere, sends to a task placed
elsewhere, or puts into a queue elsewhere. -/
def State.crossOn (s : State) (t : Nat) (k : Task) (d : Nat) : Bool :=
  k.res.any (fun r =>
    match unitDie r.kind r.a with
    | some e => e != d
    | none =>
      if r.kind = 7 then s.hoopFar r.a d
      else if r.kind = 8 then
        (if r.a = t then false
         else match s.task? r.a with | some y => y.held && y.die != d | none => false)
      else r.kind == 0xA && r.a != 65536 && r.a / 256 != d)

/-- Crossness of every placed task anew; a change holds for steps with T at or after `from_` (R567). -/
def State.recross (s : State) (from_ : Time) : State :=
  { s with tasks := s.tasks.map (fun (e : Nat × Task) =>
      let c := s.crossOn e.1 e.2 e.2.die
      if e.2.held && c != e.2.cross then
        (e.1, { e.2 with cross := c, crossHist := (from_, e.2.cross) :: e.2.crossHist })
      else e) }

end Sys2Proof.Machine
end

