-- ==== Sys2Proof/Machine/QueueOps.lean ====
section
/-! DEFINITION. The operations on hardware queues (R411 to R424) and the input log (R101 to R103). -/

namespace Sys2Proof.Machine

/-! ## Queues -/

/-- A queue, by its package queue ID. -/
def State.que (s : State) (q : Nat) : QueSt := nmGet s.ques q QueSt.reset

/-- The state with a queue set. -/
def State.setQue (s : State) (q : Nat) (x : QueSt) : State := { s with ques := nmPut s.ques q x }

/-- The state with a queue changed. -/
def State.modQue (s : State) (q : Nat) (f : QueSt → QueSt) : State := s.setQue q (f (s.que q))

/-- The end of a packet: its length word and its payload (R413). -/
def Pkt.fin (p : Pkt) : Nat := p.start + 1 + p.n

/-- The end of the visible words; the release point where there are none (R414). -/
def QueSt.visEnd (x : QueSt) : Nat := x.pkts.foldl (fun a p => if p.vis then max a p.fin else a) x.rel

/-- The stored words: visible, from the release point (QUE_STATUS.stored). -/
def QueSt.stored (x : QueSt) : Nat := x.visEnd - x.rel

/-- The free words now, without what is still on its way (QUE_FREE). -/
def QueSt.freeNow (x : QueSt) : Nat := x.cap - (x.wp - x.rel) - x.reserved

/-- Words of committed packets on their way to a queue, length words included (R188). -/
def State.queFlight (s : State) (q : Nat) : Nat :=
  s.flight.foldl (fun a e => match e.kind with
    | .packet k ws => if k = q then a + ws.length + 1 else a
    | _ => a) 0

/-- The release point as of T: the furthest release stamped at or before T (R188, R192). -/
def QueSt.relAt (x : QueSt) (t : Time) : Nat :=
  x.rels.foldl (fun a r => if upTo r.1 t then max a r.2 else a) 0

/-- The producer's free words as of T, less nothing of its own step (R188). -/
def State.queFreeAt (s : State) (q : Nat) (t : Time) : Nat :=
  let x := s.que q
  x.cap + x.relAt t - x.wp - s.queFlight q - x.reserved

/-- The byte offset on its die of ring word `pos` of queue `q`. -/
def State.ringOff (s : State) (q pos : Nat) : Nat := (s.que q).base + 4 * (pos % (max (s.que q).cap 1))

/-- The byte address in die memory of ring word `pos` of queue `q`. -/
def State.ringAddr (s : State) (q pos : Nat) : Nat := dieAddr (q / 256) (s.ringOff q pos)

/-- Words written to consecutive ring positions (R413). -/
def State.ringWrite (s : State) (q pos : Nat) : List Word → State
  | [] => s
  | w :: r =>
    { s with dieMem := memPutWord s.dieMem (s.ringAddr q pos) w,
             ecc := s.ecc.filter (fun a => a != s.ringAddr q pos),
             weak := s.weak.filter (fun a => a != s.ringAddr q pos) }.ringWrite q (pos + 1) r

/-- A word of the ring. -/
def State.ringWord (s : State) (q pos : Nat) : Word := memWord s.dieMem (s.ringAddr q pos)

/-- The second copies of a queue's points follow the first, and the length-slot position the write point (R422). -/
def QueSt.twin (x : QueSt) : QueSt :=
  { x with slot := x.wp, wpN := ~~~BitVec.ofNat 32 x.wp, relN := ~~~BitVec.ofNat 32 x.rel, slotN := ~~~BitVec.ofNat 32 x.wp }

/-- The two copies of a queue's points agree (R422). -/
def QueSt.copiesAgree (x : QueSt) : Bool :=
  x.wpN == ~~~BitVec.ofNat 32 x.wp && x.relN == ~~~BitVec.ofNat 32 x.rel && x.slotN == ~~~BitVec.ofNat 32 x.slot

/-- A packet enters a queue, not yet visible. -/
def State.putPacket (s : State) (q : Nat) (stamp : Time) (ws : List Word) : State :=
  let x := s.que q
  let s := s.ringWrite q x.wp (BitVec.ofNat 32 ws.length :: ws)
  s.modQue q (fun x => QueSt.twin { x with wp := x.wp + ws.length + 1, pkts := x.pkts ++ [⟨x.wp, ws.length, stamp, false⟩] })

/-- The request state of a queue with a DMA peer, from its level and marks (R419); `flush` = the oldest stored packet has
reached flush_us. -/
def State.request (s : State) (q : Nat) (flush : Bool) : State :=
  let x := s.que q
  let hi := s.fld F.QUE_MARK_HI_mark_hi (queIx q)
  let lo := s.fld F.QUE_MARK_LO_mark_lo (queIx q)
  if x.bound && x.consKind == 1 then
    s.setQue q { x with req := (decide (hi ≤ x.stored) || flush || x.req) && decide (lo < x.stored) }
  else if x.bound && x.prodKind == 1 then
    s.setQue q { x with req := (decide (hi ≤ x.freeNow) || x.req) && decide (lo < x.freeNow) }
  else s

/-- The oldest stored packet has reached flush_us at ground time `g` (R419). -/
def State.flushDue (s : State) (q : Nat) (g : Time) : Bool :=
  let us := s.fld F.QUE_FLUSH_flush_us (queIx q)
  us != 0 && (match (s.que q).pkts.find? (fun p => p.vis) with
    | some p => upTo (p.stamp + nsT (us * 1000)) g
    | none => false)

/-- The release point of a queue moves up to `upto` at `t` (R417, R192): packets wholly before it leave. -/
def State.releaseTo (s : State) (q upto : Nat) (t : Time) : State :=
  let x := s.que q
  let r := max x.rel (min upto x.wp)
  let s := s.setQue q (QueSt.twin { x with rel := r, rels := (t, r) :: x.rels, pkts := x.pkts.filter (fun p => r < p.fin) })
  s.request q false

/-- The queue notice of a packet (R71, R415). -/
def Pkt.notice (p : Pkt) (q slot : Nat) : Act :=
  { t := p.stamp, src := 3, slot, event := 0, edge := false, k1 := q, k2 := p.start, k3 := 0, payload := [] }

/-- A packet becomes visible (R414): counted, and its consumer notified (R415). -/
def State.publish (s : State) (q : Nat) (p : Pkt) : State :=
  let s := s.modQue q (fun x => { x with pkts := x.pkts.map (fun y => if y.start = p.start then { y with vis := true } else y),
                                         lastPut := some p.stamp })
  let s := s.bumpMod F.QUE_PKT_COUNT_published (queIx q)
  let x := s.que q
  let s := s.request q false
  if x.consKind = 0 then
    match (s.task? x.consTask).bind (fun k => k.slotOf 11 q) with
    | some slot => s.activate x.consTask (p.notice q slot)
    | none => s
  else if x.consKind = 2 ∧ s.bit F.QUE_HOST_SRC_notice_en (queIx q) = true then
    { s with posts := s.posts ++ [(p.stamp, s.fld F.QUE_HOST_SRC_src (queIx q))] }
  else s

/-! ## The input log (R101 to R103) -/

/-- Logging is enabled. -/
def State.logging (s : State) : Bool := s.bit F.LOG_CTRL_enable pkg

/-- 1 ms. -/
def ms1 : Time := nsT 1000000

/-- The run of lost entries of a die closes at `g`, or 1 ms after its first loss where that comes before: one LOG_GAP record (R100,
R103). -/
def State.closeGap (s : State) (d : Nat) (g : Time) : State :=
  match (s.die d).logLost with
  | none => s
  | some (t, first, n) =>
    (s.modDie d (fun x => { x with logLost := none })).detRec d (0x0A58 + d) 0x25 (earlier g (first + ms1))
      (leBytes 0xFFFF 2 ++ leBytes d 2 ++ timeBytes t ++ leBytes (min n 0xFFFFFF) 3)

/-- At `g` the run of lost entries of a die, if there is one, is 1 ms old (R103). -/
def State.gapOver (s : State) (d : Nat) (g : Time) : Bool :=
  match (s.die d).logLost with
  | some (_, first, _) => upTo (first + ms1) g
  | none => false

/-- An entry goes to the log queue of die `d`, or is lost (R102, R103). The packet's stamp is the ground time of the put (log
entry 15). -/
def State.log (s : State) (d kind flags unit : Nat) (stamp : Time) (payload : List Word) : State :=
  if s.logging && (s.die d).live then
    let q := 256 * d + 255
    let ws := [BitVec.ofNat 32 (kind + flags * 256 + unit * 65536), loHalf stamp, hiHalf stamp] ++ payload
    if ws.length + 1 ≤ (s.que q).freeNow then (s.closeGap d s.now).putPacket q s.now ws
    else
      let s := s.setReg .LOG_LOST_COUNT pkg
        (if s.reg .LOG_LOST_COUNT pkg = 0xFFFFFFFF then 0xFFFFFFFF else s.reg .LOG_LOST_COUNT pkg + 1)
      let s := if s.gapOver d s.now then s.closeGap d s.now else s
      s.modDie d (fun x => { x with logLost := match x.logLost with
        | none => some (stamp, s.now, 1)
        | some (t, first, n) => some (t, first, n + 1) })
  else s

/-- LOG_GAP_CLOSE: 1 ms after its first loss a run of losses closes (R103). -/
def execLogGapClose (d : Nat) (g : Time) (s : State) : Host.Outcome State Fault Refusal :=
  .next (if s.gapOver d g then (s.at g).closeGap d g else s)

end Sys2Proof.Machine
end

