-- ==== Sys2Proof/Machine/Inputs.lean ====
section
/-! DEFINITION. The units as maps, who owns and locks them, the filters, and how an accepted edge reaches the hoops and
interfaces that use it (R25, R229, R244, R245, R249, R309, R335, R347, R349). -/

namespace Sys2Proof.Machine

/-! ## The units -/

/-- A timing pin. -/
def State.pin (s : State) (p : Nat) : PinSt := nmGet s.pins p PinSt.reset
/-- The state with a pin set. -/
def State.setPin (s : State) (p : Nat) (x : PinSt) : State := { s with pins := nmPut s.pins p x }
/-- The state with a pin changed. -/
def State.modPin (s : State) (p : Nat) (f : PinSt → PinSt) : State := s.setPin p (f (s.pin p))
/-- A carrier. -/
def State.car (s : State) (c : Nat) : CarSt := nmGet s.cars c CarSt.reset
/-- The state with a carrier set. -/
def State.setCar (s : State) (c : Nat) (x : CarSt) : State := { s with cars := nmPut s.cars c x }
/-- The state with a carrier changed. -/
def State.modCar (s : State) (c : Nat) (f : CarSt → CarSt) : State := s.setCar c (f (s.car c))
/-- A trip. -/
def State.trip (s : State) (j : Nat) : TripSt := nmGet s.trips j TripSt.reset
/-- The state with a trip set. -/
def State.setTrip (s : State) (j : Nat) (x : TripSt) : State := { s with trips := nmPut s.trips j x }
/-- The state with a trip changed. -/
def State.modTrip (s : State) (j : Nat) (f : TripSt → TripSt) : State := s.setTrip j (f (s.trip j))
/-- A feedback interface. -/
def State.fb (s : State) (n : Nat) : FbSt := nmGet s.fbs n FbSt.reset
/-- The state with an interface set. -/
def State.setFb (s : State) (n : Nat) (x : FbSt) : State := { s with fbs := nmPut s.fbs n x }
/-- The state with an interface changed. -/
def State.modFb (s : State) (n : Nat) (f : FbSt → FbSt) : State := s.setFb n (f (s.fb n))
/-- A hoop. -/
def State.hoop (s : State) (h : Nat) : HoopSt := nmGet s.hoops h HoopSt.reset
/-- The state with a hoop set. -/
def State.setHoop (s : State) (h : Nat) (x : HoopSt) : State := { s with hoops := nmPut s.hoops h x }
/-- The state with a hoop changed. -/
def State.modHoop (s : State) (h : Nat) (f : HoopSt → HoopSt) : State := s.setHoop h (f (s.hoop h))

/-! ## Ownership (R25, R229, R266, R298, R379) -/

/-- A running task declares unit `idx` of a kind. -/
def State.unitRuns (s : State) (kind idx : Nat) : Bool := s.tasks.any (fun e => e.2.isRunning && e.2.owns kind idx)

/-- The owner of a pin is a running task, or a unit that one declares (R25, PIN_OWNER.locked). -/
def State.ownerRuns (s : State) : POwner → Bool
  | .free => false
  | .task t => (match s.task? t with | some k => k.isRunning | none => false)
  | .car c _ _ => s.unitRuns 3 c
  | .fb n _ => s.unitRuns 4 n
  | .hoop h use t => if use = 0 then (match s.task? t with | some k => k.isRunning | none => false) else s.unitRuns 5 h

/-- A pin gets a new owner: it is in its fallback state until the first stitch (R229, R232). -/
def State.ownPin (s : State) (p : Nat) (o : POwner) : State :=
  s.modPin p (fun x => { x with owner := o, started := false, queue := [], lastLvl := none, edge := none })

/-- A pin is free, or its owner is `o` already. -/
def State.pinFreeFor (s : State) (p : Nat) (o : POwner) : Bool := (s.pin p).owner == .free || (s.pin p).owner == o

/-! ## Filters (R244, R245) -/

/-- A filter with an edge at its ball; an edge that ends a run shorter than the delay leaves nothing. -/
def Filt.edge (f : Filt) (stamp : Time) (level : Bool) : Filt :=
  if level = f.raw then f else { f with raw := level, since := stamp }

/-- A level waits to be accepted. -/
def Filt.waits (f : Filt) : Bool := f.raw != f.out

/-- The waiting level has been stable for `delay` picots at `t`. -/
def Filt.stable (f : Filt) (delay : Nat) (t : Time) : Bool := f.waits && upTo (f.since + picots delay) t

/-- The filter after the acceptance. -/
def Filt.accept (f : Filt) : Filt := { f with out := f.raw }

/-! ## Where an accepted edge goes -/

/-- The order in which an interface processes inputs with equal stamps: direction edges, counting lines, index, probe (R302). -/
def FbIn.rank (a : FbIn) : Nat := if a.line = 1 then 0 else if a.line = 0 then 1 else if a.line = 2 then 9 else a.line + 5

/-- The waiting inputs with one more in its place (R302). -/
def fbInsert (a : FbIn) : List FbIn → List FbIn
  | [] => [a]
  | b :: r =>
    if (if a.stamp = b.stamp then a.rank < b.rank else before a.stamp b.stamp) then a :: b :: r else b :: fbInsert a r

/-- An interface gets an accepted edge; the edges of V and W enter its own history, as deep as that of a ball (R303, R309; log
entry 101). -/
def State.fbPush (s : State) (n : Nat) (stamp : Time) (line : Nat) (level : Bool) : State :=
  s.modFb n (fun x => { x with
    inbox := fbInsert ⟨stamp, line, level⟩ x.inbox,
    vEdges := if line = 3 then stamp :: x.vEdges else x.vEdges,
    wEdges := if line = 4 then stamp :: x.wEdges else x.wEdges })

/-- The tooth input of a hoop has an edge (R349): with dir_en a pulse is a tooth at its end. -/
def State.hoopEdge (s : State) (h : Nat) (stamp : Time) (level : Bool) (delay : Nat) : State :=
  let x := s.hoop h
  let start := level != s.bit F.HOOP_CTRL_edge (hoopIx h)
  let tt := stamp + picots delay
  if s.bit F.HOOP_CTRL_dir_en (hoopIx h) then
    if start then s.setHoop h { x with pulse := some stamp }
    else match x.pulse with
      | none => s
      | some b =>
        let w := (stamp - b).toNat
        let back := !decide (w < ns (s.fld F.HOOP_DIR_thresh_ns (hoopIx h)))
        s.setHoop h { x with pulse := none, inbox := x.inbox ++ [⟨stamp, tt, w / 64, back, none⟩] }
  else if start then s.setHoop h { x with inbox := x.inbox ++ [⟨stamp, tt, 0, false, none⟩] }
  else s

/-- The index input of a hoop has an edge: the kind that HOOP_CTRL.edge selects is an index edge (R350; log entry 16). -/
def State.hoopIndex (s : State) (h : Nat) (stamp : Time) (level : Bool) (delay : Nat) : State :=
  if level != s.bit F.HOOP_CTRL_edge (hoopIx h) then
    s.modHoop h (fun x => { x with idxIn := x.idxIn ++ [(stamp, stamp + picots delay)] })
  else s

/-- An accepted edge of a timing pin reaches the hoops and interfaces of its die that use the pin. -/
def State.pinToUnits (s : State) (p : Nat) (stamp : Time) (level : Bool) : State :=
  let d := p / 64
  let k := p % 64
  let delay := ns (s.pinDelay p)
  let s := (List.range 4).foldl (fun s i =>
    let h := 4 * d + i
    let ix := hoopIx h
    if s.bit F.HOOP_CTRL_en ix && s.fld F.HOOP_CTRL_src ix == 0 then
      let s := if s.fld F.HOOP_SRC_index ix = k then s.hoopEdge h stamp level delay else s
      if s.bit F.HOOP_CTRL_ref ix && s.fld F.HOOP_SRC_idx_pin ix == k then s.hoopIndex h stamp level delay else s
    else s) s
  (List.range 8).foldl (fun s i =>
    let n := 8 * d + i
    let ix := fbIx n
    let s :=
      if s.fbMode n = 3 ∧ s.fld F.FB_COMM_CFG_src ix = 1 then
        let s := if s.fld F.FB_COMM_CFG_pin_v ix = k then s.fbPush n stamp 3 level else s
        if s.fld F.FB_COMM_CFG_pin_w ix = k then s.fbPush n stamp 4 level else s
      else s
    if s.fld F.FB_PROBE_CTRL_src ix = 3 ∧ s.fld F.FB_PROBE_CTRL_idx ix = k then s.fbPush n stamp 5 level else s) s

/-- An accepted edge of an A ball (`line` 0), B ball (1) or Z ball (2) of interface `n` reaches who uses it: the interface in
modes 1 to 3, the interface it donates to (R309), hoops with src 1 (R347), probes (R335). -/
def State.ballToUnits (s : State) (n line : Nat) (stamp : Time) (level : Bool) : State :=
  let d := n / 8
  let k := n % 8
  let mode := s.fbMode n
  let s :=
    if (mode = 1 ∨ mode = 2) ∧ (line < 2 ∨ s.fld F.FB_IDX_CFG_idx_mode (fbIx n) ≠ 0) then s.fbPush n stamp line level
    else if mode = 3 ∧ line = 0 then s.fbPush n stamp 0 level
    else s
  let s :=
    if line = 0 ∧ mode = 0 then
      (List.range 2).foldl (fun s i =>
        if i + 1 ≤ k ∧ s.fbMode (n - (i + 1)) = 3 ∧ s.fld F.FB_COMM_CFG_src (fbIx (n - (i + 1))) = 0 then
          s.fbPush (n - (i + 1)) stamp (3 + i) level
        else s) s
    else s
  let s := (List.range 4).foldl (fun s i =>
    let h := 4 * d + i
    let ix := hoopIx h
    if s.bit F.HOOP_CTRL_en ix && s.fld F.HOOP_CTRL_src ix == 1 && s.fld F.HOOP_SRC_index ix % 8 == k then
      if line = 0 then s.hoopEdge h stamp level (ns (s.fbFilterNs n))
      else if line = 2 ∧ s.bit F.HOOP_CTRL_ref ix = true then s.hoopIndex h stamp level (ns (s.fbFilterNs n))
      else s
    else s) s
  if line = 2 then
    (List.range 8).foldl (fun s i =>
      let m := 8 * d + i
      let ix := fbIx m
      let src := s.fld F.FB_PROBE_CTRL_src ix
      if (src = 1 ∧ m = n) ∨ (src = 2 ∧ s.fld F.FB_PROBE_CTRL_idx ix = k) then s.fbPush m stamp 5 level else s) s
  else s

end Sys2Proof.Machine
end

