-- ==== Sys2Proof/Machine/Pins.lean ====
section
/-! DEFINITION. Timing pins: levels and release, capture, the stitch queue (R229 to R262). -/

namespace Sys2Proof.Machine

/-! ## Level and release -/

/-- The fallback field of a pin: 0 low, 1 high, 2 release (R256). -/
def State.pinFallback (s : State) (p : Nat) : Nat := s.fld F.PIN_CTRL_fallback (pinIx p)

/-- A pair that owns a pin releases it: by its trip state 1, or by its fallback (R281, R287, R288). -/
def State.pairReleases (s : State) (c n : Nat) : Bool :=
  let x := (s.car c).pairs.getD n PairSt.reset
  if x.tripped then s.fld F.PAIR_CFG_trip_state (pairIx c n) == 1
  else x.fallback && s.bit F.PAIR_CFG_fallback (pairIx c n)

/-- Does the owner leave the pin released (R257, code 2)? -/
def State.ownerReleases (s : State) (p : Nat) : Bool :=
  let x := s.pin p
  match x.owner with
  | .free => !s.bit F.PIN_CTRL_static_en (pinIx p)
  | .task _ => !x.started && s.pinFallback p == 2
  | .car c n _ => s.pairReleases c n
  | .fb _ use => use == 2
  | .hoop _ use _ => if use = 0 then !x.started && s.pinFallback p == 2 else true

/-- The cause of release of a pin, the highest of R257; 0 = not released. -/
def State.pinRelease (s : State) (p : Nat) : Nat :=
  let d := p / 64
  if s.pkgFault then 6
  else if (s.die d).fenced then 5
  else if (s.die d).clockLost.isSome then 4
  else if (s.pin p).failed then 3
  else if s.ownerReleases p then (if (s.die d).live then 2 else 1)
  else if (s.die d).live then 0 else 1

/-- The level the stitch engines drive (PIN_STATUS.driven_level): static, fallback, or the owner's. -/
def State.pinLevel (s : State) (p : Nat) : Bool :=
  let x := s.pin p
  let fall := if s.pinFallback p = 0 then false else if s.pinFallback p = 1 then true else x.lvl
  match x.owner with
  | .free => if s.bit F.PIN_CTRL_static_en (pinIx p) then s.bit F.PIN_CTRL_static_level (pinIx p) else x.lvl
  | .task _ => if x.started then x.lvl else fall
  | .hoop _ 0 _ => if x.started then x.lvl else fall
  | _ => x.lvl

/-! ## Capture (R243 to R249) -/

/-- PIN_CTRL.cap_edge takes an edge to this level. -/
def State.capTakes (s : State) (p : Nat) (level : Bool) : Bool :=
  let e := s.fld F.PIN_CTRL_cap_edge (pinIx p)
  e == 2 || (if level then e == 0 else e == 1)

/-- An accepted edge (R245): captured while cap_en = 1, logged, and an activation of the owning task (R71, R248). -/
def State.pinAccept (s : State) (p : Nat) : State :=
  let x := s.pin p
  let stamp := x.filt.since
  let level := x.filt.raw
  let s := s.setPin p { x with filt := x.filt.accept }
  let s := s.pinToUnits p stamp level
  if s.bit F.PIN_CTRL_cap_en (pinIx p) && s.capTakes p level then
    let s := s.modPin p (fun x => { x with caps := (stamp, level) :: x.caps })
    let s := s.bumpMod F.PIN_CAP_COUNT_accepted (pinIx p)
    let s := s.log (p / 64) 0x01 0 p stamp [BitVec.ofNat 32 (b2n level)]
    match x.owner with
    | .task t =>
      match (s.task? t).bind (fun k => k.slotOf 1 p) with
      | some slot => s.activate t { t := stamp, src := 4, slot, event := 0, edge := false, k1 := p, k2 := 0, k3 := 0, payload := [] }
      | none => s
    | _ => s
  else s

/-- PIN_INPUT_EDGE: the converter stamps an edge (R243). With filt_n = 0 a pulse below 2 ns leaves no capture (R246). -/
def pinInputEdge (s : State) (p : Nat) (stamp : Time) (level : Bool) : State :=
  let x := s.pin p
  if level = x.filt.raw then s
  else if !s.dieRuns (p / 64) then s.setPin p { x with filt := x.filt.edge stamp level }
  else
    let s := s.at stamp
    if x.filt.waits then
      if s.pinDelay p = 0 ∧ before stamp (x.filt.since + picots 128) = true then
        (s.setPin p { x with filt := x.filt.edge stamp level }).bump F.PIN_CAP_COUNT_narrow (pinIx p)
      else if x.filt.stable (ns (s.pinDelay p)) stamp then
        (s.pinAccept p).modPin p (fun x => { x with filt := x.filt.edge stamp level })
      else s.setPin p { x with filt := x.filt.edge stamp level }
    else s.setPin p { x with filt := x.filt.edge stamp level }

/-- PIN_INPUT_EDGE. -/
def execPinInputEdge (p : Nat) (stamp : Time) (level : Bool) (s : State) : Host.Outcome State Fault Refusal :=
  .next (pinInputEdge s p stamp level)

/-- How long a level must have stood before it is accepted: the filter delay, or 2 ns where there is none (R245, R246). -/
def State.pinGuard (s : State) (p : Nat) : Time := if s.pinDelay p = 0 then picots 128 else nsT (s.pinDelay p)

/-- PIN_FILTER_ACCEPT: a level has been stable for the filter delay (R245). With filt_n = 0 it is known 2 ns after its edge that the
pulse is not too narrow (R246). -/
def pinFilterAccept (s : State) (p : Nat) : State :=
  let x := s.pin p
  if s.dieRuns (p / 64) && x.filt.waits then (s.at (x.filt.since + s.pinGuard p)).pinAccept p else s

/-- PIN_FILTER_ACCEPT. -/
def execPinFilterAccept (p : Nat) (s : State) : Host.Outcome State Fault Refusal := .next (pinFilterAccept s p)

/-! ## The stitch queue (R233 to R241) -/

/-- The order in which a pin cell applies its edges (R234). -/
def Stitch.first (a b : Stitch) : Bool :=
  if a.stamp = b.stamp then
    if a.cls = b.cls then
      if a.k1 = b.k1 then (if a.k2 = b.k2 then a.k3 < b.k3 else a.k2 < b.k2) else a.k1 < b.k1
    else a.cls < b.cls
  else before a.stamp b.stamp

/-- A queue with one more edge in its place. -/
def stitchInsert (a : Stitch) : List Stitch → List Stitch
  | [] => [a]
  | b :: r => if a.first b then a :: b :: r else b :: stitchInsert a r

/-- The state with an edge in the queue of a pin. -/
def State.pushStitch (s : State) (p : Nat) (a : Stitch) : State :=
  s.modPin p (fun x => { x with queue := stitchInsert a x.queue })

/-- The output of a pin is watched: its output enable is on (R252). -/
def State.pinDriven (s : State) (p : Nat) : Bool := s.pinRelease p == 0

/-- The blanking windows that edges of pin `p` with one of these stamps opened: a merged pulse has no edge at the ball (R236,
R280). -/
def State.dropWins (s : State) (p : Nat) (stamps : List Time) : State :=
  { s with trips := s.trips.map (fun (e : Nat × TripSt) =>
      (e.1, { e.2 with wins := e.2.wins.filter (fun w => !(w.pin == p && stamps.contains w.stamp)) })) }

/-- An edge at `stamp` to `level` ends a pulse shorter than 2 ns that the latest edge of the pin began (R236). -/
def State.endsShort (s : State) (p : Nat) (stamp : Time) (level : Bool) : Bool :=
  match (s.pin p).queue, (s.pin p).edge with
  | [], some (t, old) => before stamp (t + picots 128) && level == old && level != (s.pin p).lvl
  | _, _ => false

/-- An edge of a carrier or of an interface: it uses no queue entry (R233). One that comes to be known only after the edge that it
forms a pulse shorter than 2 ns with takes that edge back (R236, R237; log entry 97). -/
def State.pushEdge (s : State) (p : Nat) (stamp : Time) (level : Bool) : State :=
  if s.endsShort p stamp level then
    let s := match (s.pin p).edge with | some (t, _) => s.dropWins p [t] | none => s
    (s.modPin p (fun x => { x with lvl := level, edge := none })).bump F.PIN_MERGE_COUNT_count (pinIx p)
  else
    let n := (s.pin p).queue.length
    s.pushStitch p { stamp, level, cls := 2, k1 := n, k2 := 0, k3 := 0, repl := false, locked := true, task := 0, run := 0 }

/-- Queue entries in use (R233, R242): stitches of a task, and one for each event that a hoop has set on the pin. -/
def State.pinDepth (s : State) (p : Nat) : Nat :=
  let x := s.pin p
  match x.owner with
  | .hoop h 0 _ => ((s.hoop h).evs.filter (fun e => e.2.desc.pin == some p)).length
  | _ => (x.queue.filter (fun a => a.cls != 2)).length

/-- The level of the latest stitch of the task's run after stitch `a` (R334): one of an earlier run leaves it. -/
def State.runLevel (s : State) (x : PinSt) (a : Stitch) : Option Bool :=
  let mine := match s.task? a.task with | some k => k.run == a.run | none => false
  if a.cls != 2 && mine then some a.level else x.lastLvl

/-- The pin takes an edge (R232, R235, R254). -/
def State.takeEdge (s : State) (p : Nat) (a : Stitch) : State :=
  let cur := s.pinLevel p
  let s := s.modPin p (fun x => { x with lvl := a.level, started := true, lastLvl := s.runLevel x a,
                                         edge := if a.level = cur then x.edge else some (a.stamp, cur) })
  if (s.pin p).failed ∧ a.cls ≠ 2 then s.bump F.PIN_DROP_COUNT_count (pinIx p) else s

/-- STITCH_APPLY: the next edge in the order of R234 takes effect at its stamp; a pulse shorter than 2 ns is merged (R235,
R236). -/
def stitchApply (s : State) (p : Nat) : State :=
  match (s.pin p).queue with
  | [] => s
  | a :: rest =>
    if !s.dieRuns (p / 64) then s
    else
      let s := s.at a.stamp
      let cur := s.pinLevel p
      match rest with
      | b :: rest' =>
        if a.level != cur && before b.stamp (a.stamp + picots 128) && b.level == cur then
          let s := s.modPin p (fun x => { x with queue := rest',
                                                 lastLvl := s.runLevel x b })
          (s.dropWins p [a.stamp, b.stamp]).bump F.PIN_MERGE_COUNT_count (pinIx p)
        else (s.modPin p (fun x => { x with queue := rest })).takeEdge p a
      | [] => (s.modPin p (fun x => { x with queue := rest })).takeEdge p a

/-- STITCH_APPLY. -/
def execStitchApply (p : Nat) (s : State) : Host.Outcome State Fault Refusal := .next (stitchApply s p)

/-- STITCH_LOCK: 100 ns before its stamp the first movable stitch of a pin becomes locked (R239). -/
def stitchLock (s : State) (p : Nat) : State :=
  let q := (s.pin p).queue
  match q.find? (fun a => a.repl && !a.locked) with
  | none => s
  | some a =>
    if s.dieRuns (p / 64) then
      (s.at (a.stamp - nsT 100)).modPin p (fun x => { x with queue := x.queue.map (fun b => if b = a then { b with locked := true } else b) })
    else s

/-- STITCH_LOCK. -/
def execStitchLock (p : Nat) (s : State) : Host.Outcome State Fault Refusal := .next (stitchLock s p)

/-- A stitch effect reaches its pin cell (R233, R240): the replacement takes the place of the stitch it names; a later stitch of
the task makes a replaceable one ordinary, whichever of them arrives first. -/
def State.stitchArrive (s : State) (e : Eff) (p : Nat) (level repl : Bool) (old : Option Time) : State :=
  let x := s.pin p
  let q : List Stitch := match old with
    | some t => x.queue.filter (fun a => !(a.repl && a.task == e.task && a.stamp == t))
    | none => x.queue
  let older := fun (a : Stitch) => a.task == e.task && a.cls == 0 && (if a.k2 = e.seq then a.k3 < e.idx else a.k2 < e.seq)
  let newer := fun (a : Stitch) => a.task == e.task && a.cls == 0 && (if a.k2 = e.seq then e.idx < a.k3 else e.seq < a.k2)
  let repl := repl && !x.queue.any newer
  let q := q.map (fun (a : Stitch) => if older a then { a with repl := false } else a)
  let a : Stitch := { stamp := e.stamp, level, cls := 0, k1 := e.rank, k2 := e.seq, k3 := e.idx, repl, locked := false,
                      task := e.task, run := e.run }
  s.setPin p { x with queue := stitchInsert a q }

/-- A pin of a task or hoop takes its fallback state at a stamp (R259): the stitches of a run left after it are discarded. -/
def State.pinToFallback (s : State) (p t run : Nat) : State :=
  let lvl := s.pinLevel p
  s.modPin p (fun x => { x with started := false, queue := x.queue.filter (fun a => !(a.task == t && a.run == run)),
                                lvl := if s.pinFallback p = 0 then false else if s.pinFallback p = 1 then true else lvl,
                                edge := none })

/-! ## Writes of the pin registers (R261, R262) -/

/-- A write of PIN_CTRL: rejected while the owner is a running task, or with fallback or cap_edge 0b11; cap_en from 0 to 1
clears the history (R247). -/
def pinCtrlWrite (s : State) (_ : Port) (p : Nat) (v : Word) : State :=
  let ix := pinIx p
  if s.ownerRuns (s.pin p).owner || bitsOf v 0 2 == 3 || bitsOf v 2 2 == 3 then s.setBit F.PIN_STATUS_write_reject ix true
  else
    let was := s.bit F.PIN_CTRL_cap_en ix
    let lvl := s.pinLevel p
    let s := s.plainWrite .PIN_CTRL ix v
    let s := s.modPin p (fun x => { x with lvl := lvl })
    if !was && bitOf v 4 then s.modPin p (fun x => { x with caps := [], capInit := x.filt.out }) else s

/-- A write of PIN_CAP_SEL: a snapshot of the age-th newest capture held (R261). -/
def pinCapSelWrite (s : State) (_ : Port) (p : Nat) (v : Word) : State :=
  let ix := pinIx p
  let s := s.plainWrite .PIN_CAP_SEL ix v
  match (s.pin p).caps[bitsOf v 0 5]? with
  | some (t, level) =>
    (s.setReg .PIN_CAP_INFO ix (BitVec.ofNat 32 (1 + 2 * b2n level))).setReg64 .PIN_CAP_STAMP_LO .PIN_CAP_STAMP_HI ix t
  | none => (s.setReg .PIN_CAP_INFO ix 0).setReg64 .PIN_CAP_STAMP_LO .PIN_CAP_STAMP_HI ix 0

end Sys2Proof.Machine
end

