-- ==== Sys2Proof/Machine/Carriers.lean ====
section
/-! DEFINITION. PWM carriers: counting, reference, dead time, minimum pulse, trip and fallback states of pairs (R263 to R289). -/

namespace Sys2Proof.Machine

/-! ## What the registers give -/

/-- The units of the die of carrier `c` act and no package halt freezes it (R266, R289, R499, R504). -/
def State.carActs (s : State) (c : Nat) : Bool := s.dieActs (c / 16) && s.dbg.halt.isNone

/-- HP in picots (R267). -/
def State.carHp (s : State) (c : Nat) : Nat := s.fld F.CAR_HALF_PERIOD_half_period (carIx c) * 64

/-- Pair `n` is enabled (R264). -/
def State.pairEn (s : State) (c n : Nat) : Bool := s.bit F.PAIR_CFG_en (pairIx c n)

/-- The number of enabled pairs, m of R264. -/
def State.pairCount (s : State) (c : Nat) : Nat := ((List.range 4).filter (s.pairEn c)).length

/-- DT in picots (R275). -/
def State.pairDt (s : State) (c n : Nat) : Nat := s.fld F.PAIR_DT_dt_ns (pairIx c n) * 64 + s.fld F.PAIR_DT_dt_fine (pairIx c n)

/-- MP in picots (R276). -/
def State.pairMp (s : State) (c n : Nat) : Nat := s.fld F.PAIR_MINPULSE_mp_ns (pairIx c n) * 64

/-- The logical pin of a switch. -/
def State.pairPin (s : State) (c n : Nat) (low : Bool) : Nat :=
  64 * (c / 16) + s.fld (if low then F.PAIR_CFG_pin_lo else F.PAIR_CFG_pin_hi) (pairIx c n)

/-- The pin level of a switch that is on. -/
def State.pairPol (s : State) (c n : Nat) (low : Bool) : Bool :=
  s.bit (if low then F.PAIR_CFG_lo_pol else F.PAIR_CFG_hi_pol) (pairIx c n)

/-- A pair. -/
def State.pair (s : State) (c n : Nat) : PairSt := (s.car c).pairs.getD n PairSt.reset

/-- The state with a pair set. -/
def State.setPair (s : State) (c n : Nat) (x : PairSt) : State := s.modCar c (fun k => { k with pairs := k.pairs.set n x })

/-- One switch of a pair. -/
def PairSt.sw (x : PairSt) (low : Bool) : SwSt := if low then x.lo else x.hi

/-- The pair with one switch set. -/
def PairSt.setSw (x : PairSt) (low : Bool) (w : SwSt) : PairSt := if low then { x with lo := w } else { x with hi := w }

/-- The state with one switch of a pair changed. -/
def State.modSw (s : State) (c n : Nat) (low : Bool) (f : SwSt → SwSt) : State :=
  s.setPair c n ((s.pair c n).setSw low (f ((s.pair c n).sw low)))

/-- HP × 64 is at least DT + MP of every enabled pair (R273). -/
def State.hpFits (s : State) (c hp : Nat) : Bool :=
  (List.range 4).all (fun n => !s.pairEn c n || decide (s.pairDt c n + s.pairMp c n ≤ hp))

/-! ## Counting (R267 to R270) -/

/-- The four bits of `i`, reversed (R270). -/
def bitrev4 (i : Nat) : Nat := i % 2 * 8 + i / 2 % 2 * 4 + i / 4 % 2 * 2 + i / 8 % 2

/-- The effective compare of pair `n` in period `i` (R269, R270). -/
def State.effCompare (s : State) (c n i : Nat) : Nat :=
  let d := s.fld F.PAIR_DITHER_dither (pairIx c n)
  min ((s.reg .PAIR_COMPARE (pairIx c n)).toNat + (if bitrev4 (i % 16) < d then 1 else 0)) (s.carHp c)

/-- Where the count of the running period starts: its boundary, after a hold. -/
def CarSt.start (x : CarSt) : Time := x.bnd + picots x.hold

/-- The next boundary (R267, R268, R272). -/
def State.nextBoundary (s : State) (c : Nat) : Time :=
  let x := s.car c
  match x.mode with
  | .running => x.start + picots (2 * s.carHp c)
  | _ => x.bnd

/-- The mid-period point of the running period. -/
def State.midPoint (s : State) (c : Nat) : Time := (s.car c).start + picots (s.carHp c)

/-! ## Switches (R275 to R277, R280) -/

/-- The trips whose route selects pair `n` of carrier `c` (R279). -/
def State.routes (s : State) (j c n : Nat) : Bool :=
  decide (j / 8 = c / 16) && (s.reg64 .TRIP_ROUTE_LO .TRIP_ROUTE_HI (tripIx j)).getLsbD (4 * (c % 16) + n)

/-- The trips of a die. -/
def tripsOf (d : Nat) : List Nat := (List.range 8).map (fun j => 8 * d + j)

/-- The edge by which a switch turns on (`on`) or off opens the blanking windows of the trips routed to its pair, if it is produced
at the ball: the pin is driven and the edge ends no pulse shorter than 2 ns (R236, R280). -/
def State.openWindows (s : State) (c n : Nat) (low on : Bool) (t : Time) : State :=
  let p := s.pairPin c n low
  if !s.pinDriven p || s.endsShort p t (s.pairPol c n low == on) then s
  else
    (tripsOf (c / 16)).foldl (fun s j =>
      let w := s.fld F.TRIP_BLANK_blank_ns (tripIx j)
      if s.routes j c n && decide (0 < w) then
        s.modTrip j (fun x => { x with wins := ⟨p, t, t + nsT w⟩ :: x.wins.filter (fun y => before t y.fin) })
      else s) s

/-- A switch turns on at `t`. -/
def State.swOn (s : State) (c n : Nat) (low : Bool) (t : Time) : State :=
  let s := s.modSw c n low (fun w => { w with on := true, onAt := t, due := none, holdTo := none, counted := false })
  s.pushEdge (s.pairPin c n low) t (s.pairPol c n low)

/-- A switch that is on turns off at `t`; its partner, if it is called on, turns on DT after it (R275). -/
def State.swOff (s : State) (c n : Nat) (low : Bool) (t : Time) : State :=
  if ((s.pair c n).sw low).on then
    let s := s.modSw c n low (fun w => { w with on := false, lastOff := some t, due := none, holdTo := none })
    let dt := picots (s.pairDt c n)
    let s := s.modSw c n (!low) (fun w => if w.called && !w.on then { w with due := some (later w.calledAt t + dt) } else w)
    s.pushEdge (s.pairPin c n low) t (!s.pairPol c n low)
  else s

/-- A switch is no longer called on and no longer waits to turn on. -/
def State.swUncall (s : State) (c n : Nat) (low : Bool) : State :=
  s.modSw c n low (fun w => { w with called := false, due := none })

/-- Both switches turn off at `t` and neither is called on: STOP, PAIR_OFF, a fallback or a trip state; `window` = the edges
open blanking windows (R274, R280, R287). -/
def State.bothOff (s : State) (c n : Nat) (t : Time) (window : Bool) : State :=
  let x := s.pair c n
  let s := (s.swUncall c n false).swUncall c n true
  let s := if window && x.hi.on then s.openWindows c n false false t else s
  let s := if window && x.lo.on then s.openWindows c n true false t else s
  (s.swOff c n false t).swOff c n true t

/-- The reference calls a switch on at `t`: it turns on DT after that and after its partner turned off (R275); one still on
from a held pulse stays on. -/
def State.swCall (s : State) (c n : Nat) (low : Bool) (t : Time) : State :=
  let x := s.pair c n
  let dt := picots (s.pairDt c n)
  s.modSw c n low (fun w =>
    if w.on then { w with called := true, calledAt := t, holdTo := none }
    else
      let other := x.sw (!low)
      let due := if other.on then none else some ((match other.lastOff with | some o => later t o | none => t) + dt)
      { w with called := true, calledAt := t, due := due })

/-- The reference stops calling a switch at `t`: it turns off, but no pulse ends before t_on + MP (R276). -/
def State.swRelease (s : State) (c n : Nat) (low : Bool) (t : Time) : State :=
  let s := s.swUncall c n low
  let w := (s.pair c n).sw low
  let fin := w.onAt + picots (s.pairMp c n)
  if !w.on then s
  else if before t fin then
    let s := if w.counted then s else s.bump F.PAIR_STRETCH_COUNT_count (pairIx c n)
    s.modSw c n low (fun w => { w with holdTo := some fin, counted := true })
  else (s.openWindows c n low false t).swOff c n low t

/-- Does pair `n` follow its reference: enabled, carrier running, and nothing of R288 above (R266, R288)? -/
def State.pairNormal (s : State) (c n : Nat) : Bool :=
  let x := s.pair c n
  s.pairEn c n && (s.car c).mode == .running && !x.off && !x.tripped && !x.fallback

/-- The high-side reference of a pair is `on` from `t` (R269): the pair follows it where it switches normally. -/
def State.setRef (s : State) (c n : Nat) (on : Bool) (t : Time) : State :=
  let x := s.pair c n
  if x.ref = on then s
  else
    let s := s.setPair c n { x with ref := on }
    if s.pairNormal c n then (s.swRelease c n on t).swCall c n (!on) t else s

/-- A pair returns to normal switching at a boundary: both switches start off, the one called on follows R275 (R284). -/
def State.pairResume (s : State) (c n : Nat) (t : Time) : State :=
  s.swCall c n (!(s.pair c n).ref) t

/-! ## Expected turn-off (R276) -/

/-- The instants, from the running period on, at which the reference turns on (`true`) or off, with the compares in force:
counted from the start of its count; the dither cycle repeats
after 16 periods. -/
def State.refEdges (s : State) (c n : Nat) : List (Bool × Nat) :=
  let i := (s.car c).idx
  let hp := s.carHp c
  (List.range 18).foldl (fun l j =>
    let cj := s.effCompare c n (i + j)
    let cn := s.effCompare c n (i + j + 1)
    let z := 2 * hp * j
    l ++ (if 0 < cj ∧ cj < hp then [(true, z + hp - cj), (false, z + hp + cj)] else [])
      ++ (if cj < hp ∧ cn = hp then [(true, z + 2 * hp)] else if cj = hp ∧ cn < hp then [(false, z + 2 * hp)] else [])) []

/-- When the reference next stops calling a switch after `t`; none where it never does (R276). -/
def State.expectedOff (s : State) (c n : Nat) (low : Bool) (t : Time) : Option Time :=
  ((s.refEdges c n).map (fun e => (e.1, (s.car c).start + picots e.2))).find? (fun e => e.1 == low && before t e.2)
    |>.map (fun e => e.2)

/-- The reference is turned away at or before `t`, by the compares in force: then there is no pulse (R276). -/
def State.turnedAway (s : State) (c n : Nat) (low : Bool) (t : Time) : Bool :=
  (s.refEdges c n).any (fun e =>
    let x := (s.car c).start + picots e.2
    e.1 == low && upTo x t && before ((s.pair c n).sw low).calledAt x)

/-! ## Trip state and fallback (R279 to R288) -/

/-- A pair is held: a latched trip is routed to it, or with fail_trip one of its pins is failed (R281, R286). -/
def State.pairHeld (s : State) (c n : Nat) : Bool :=
  s.pairEn c n &&
  ((tripsOf (c / 16)).any (fun j => (s.trip j).latched && s.routes j c n) ||
   (s.bit F.PAIR_CFG_fail_trip (pairIx c n) &&
    ((s.pin (s.pairPin c n false)).failed || (s.pin (s.pairPin c n true)).failed)))

/-- A pair takes its trip state at `t` (R281, R282): what it turns off goes off at once, what it turns on comes DT after its
partner last turned off; no window opens. -/
def State.pairTrip (s : State) (c n : Nat) (t : Time) : State :=
  let x := s.pair c n
  if x.tripped then s
  else
    let code := s.fld F.PAIR_CFG_trip_state (pairIx c n)
    let s := s.setPair c n { x with tripped := true }
    if code < 2 then s.bothOff c n t false
    else
      let low := code == 2
      let s := ((s.swUncall c n false).swUncall c n true).swOff c n (!low) t
      let dt := picots (s.pairDt c n)
      let from_ := match ((s.pair c n).sw (!low)).lastOff with | some o => later t (o + dt) | none => t
      s.modSw c n low (fun w => if w.on then { w with called := true, calledAt := t, holdTo := none }
                                else { w with called := true, calledAt := t, due := some from_ })

/-- A pair leaves its trip state at `t`: both switches start off (R284). -/
def State.pairUntrip (s : State) (c n : Nat) (t : Time) : State :=
  let s := s.bothOff c n t false
  s.setPair c n { s.pair c n with tripped := false }

/-- After a change of latches, routes or failed pins: a pair newly held takes its trip state; a pair of a stopped carrier no
longer held leaves it at once (R279, R281, R284). -/
def State.retrip (s : State) (d : Nat) (t : Time) : State :=
  (List.range 64).foldl (fun s b =>
    let c := 16 * d + b / 4
    let n := b % 4
    if s.pairHeld c n then s.pairTrip c n t
    else if (s.pair c n).tripped && (s.car c).mode == .stopped then s.pairUntrip c n t
    else s) s

/-- The carrier of an owner that stops or faults enters the stopped state at `t`: every enabled pair takes its fallback,
what the run still had waiting is discarded (R287). -/
def State.carFallback (s : State) (c t run : Nat) (at_ : Time) : State :=
  let s := s.modCar c (fun x => { x with mode := .stopped, mid := false, hold := 0,
                                         fx := x.fx.filter (fun e => !(e.task == t && e.run == run)) })
  (List.range 4).foldl (fun s n =>
    let x := s.pair c n
    let s := if x.tripped then s else s.bothOff c n at_ false
    s.setPair c n { s.pair c n with fallback := true, ref := false }) s

/-! ## Effects that wait -/

/-- The order of R92 among the effects that wait at a unit. -/
def Eff.first (a b : Eff) : Bool :=
  if a.stamp = b.stamp then
    if a.rank = b.rank then (if a.seq = b.seq then a.idx < b.idx else a.seq < b.seq) else a.rank < b.rank
  else before a.stamp b.stamp

/-- A list of waiting effects with one more in its place. -/
def effInsert (a : Eff) : List Eff → List Eff
  | [] => [a]
  | b :: r => if a.first b then a :: b :: r else b :: effInsert a r

/-- A stamped write or command that is discarded is counted (R272 to R274). -/
def State.carReject (s : State) (c : Nat) : State := s.bump F.CAR_REJECT_COUNT_count (carIx c)

/-- A COMPARE write takes effect. -/
def State.applyCompare (s : State) (c : Nat) (e : Eff) : State :=
  match e.kind with
  | .pwmw _ n 0 dither v => (s.setReg .PAIR_COMPARE (pairIx c n) v).setFld F.PAIR_DITHER_dither (pairIx c n) dither
  | _ => s

/-- The last write of a list to HALF_PERIOD (1) or PHASE (2). -/
def lastField (l : List Eff) (field : Nat) : Option Nat :=
  l.foldl (fun a e => match e.kind with
    | .pwmw _ _ f _ v => if f = field then some v.toNat else a
    | _ => a) none

/-- HALF_PERIOD and PHASE apply together at a boundary (R272, R273): the state, and the hold. -/
def State.applyPeriod (s : State) (c : Nat) (hp ph : Option Nat) : State × Nat :=
  let ix := carIx c
  let old := s.fld F.CAR_HALF_PERIOD_half_period ix
  let phase := s.fld F.CAR_PHASE_phase ix
  let (hp, s) : Option Nat × State := match hp with
    | some x => if s.hpFits c (x * 64) then (some x, s) else (none, s.carReject c)
    | none => (none, s)
  let hp' := hp.getD old
  let (ph, s) : Option Nat × State := match ph with
    | some x => if 2 * hp' * 64 ≤ x then (none, s.carReject c) else (some x, s)
    | none => (none, s)
  let phase' := ph.getD phase
  let (hp', s) : Nat × State :=
    if 2 * hp' * 64 ≤ phase' ∧ hp' ≠ old then (old, s.carReject c) else (hp', s)
  let s := (s.setFld F.CAR_HALF_PERIOD_half_period ix hp').setFld F.CAR_PHASE_phase ix phase'
  let per : Int := 2 * hp' * 64
  (s, (((phase' : Int) - phase) % per).toNat)

/-- PAIR_OFF (2) or PAIR_ON (3) applies to a pair (R274); a PAIR_OFF of the running owner ends its fallback state (R288). -/
def State.applyPairCmd (s : State) (c : Nat) (e : Eff) (t : Time) : State :=
  match e.kind with
  | .pwmc _ n 2 =>
    let s := if (s.pair c n).tripped || !(s.car c).mode == .running then s else s.bothOff c n t true
    s.setPair c n { s.pair c n with off := true, fallback := false }
  | .pwmc _ n 3 => s.setPair c n { s.pair c n with off := false }
  | _ => s

/-- An effect is a PWMC command of the given code. -/
def Eff.isCmd (e : Eff) (cmd : Nat) : Bool := match e.kind with | .pwmc _ _ c => c == cmd | _ => false

/-- An effect is a COMPARE write. -/
def Eff.isCompare (e : Eff) : Bool := match e.kind with | .pwmw _ _ f _ _ => f == 0 | _ => false

/-- An effect is a PAIR_OFF of pair `n`. -/
def Eff.offs (e : Eff) (n : Nat) : Bool := match e.kind with | .pwmc _ k 2 => k == n | _ => false

/-- The pairs that switch normally up to a boundary and go on so there: a PAIR_OFF that applies there cuts a pair, even where a
PAIR_ON returns it to normal switching from the same boundary (R274). -/
def State.normals (s : State) (c : Nat) (due : List Eff) : List Bool :=
  (List.range 4).map (fun n => s.pairNormal c n && !due.any (fun e => e.offs n))

/-! ## Events -/

/-- CARRIER_START_APPLY: a START arms a stopped carrier at its stamp; on any other it is discarded and counted (R268, R274). -/
def carrierStartApply (s : State) (c : Nat) : State :=
  match (s.car c).fx.find? (fun e => e.isCmd 0) with
  | none => s
  | some e =>
    if !s.carActs c then s
    else
      let s := (s.at e.stamp).modCar c (fun x => { x with fx := x.fx.erase e })
      if (s.car c).mode == .stopped then
        s.modCar c (fun x => { x with mode := .armed, bnd := e.stamp + picots (s.fld F.CAR_PHASE_phase (carIx c)),
                                      hold := 0, idx := 0, mid := false,
                                      pairs := x.pairs.map (fun p => { p with fallback := false, ref := false }) })
      else s.carReject c

/-- CARRIER_START_APPLY. -/
def execCarrierStartApply (c : Nat) (s : State) : Host.Outcome State Fault Refusal := .next (carrierStartApply s c)

/-- The reference of every enabled pair at a boundary (R269, R272) and what each pair does there. `was` = the pairs that
switched normally before it. -/
def State.boundaryPairs (s : State) (c : Nat) (t : Time) (was : List Bool) : State :=
  (List.range 4).foldl (fun s n =>
    if s.pairEn c n then
      let s := if (s.pair c n).tripped && !s.pairHeld c n then s.pairUntrip c n t else s
      let on := s.effCompare c n (s.car c).idx == s.carHp c
      if was.getD n false && s.pairNormal c n then s.setRef c n on t
      else
        let s := s.setPair c n { s.pair c n with ref := on }
        if s.pairNormal c n then s.pairResume c n t else s
    else s) s

/-- CARRIER_BOUNDARY: everything stamped at or before it applies (R268, R271 to R274, R284). -/
def carrierBoundary (s : State) (c : Nat) : State :=
  let x := s.car c
  if !s.carActs c || x.mode == .stopped then s
  else
    let t := s.nextBoundary c
    let first := x.mode == .armed
    let due := x.fx.filter (fun e => upTo e.stamp t && !e.isCmd 0)
    let s := (s.at t).modCar c (fun x => { x with fx := x.fx.filter (fun e => !(upTo e.stamp t && !e.isCmd 0)) })
    let was := s.normals c due
    let s := due.foldl (fun s e => s.applyCompare c e) s
    let (s, hold) := s.applyPeriod c (lastField due 1) (lastField due 2)
    let s := due.foldl (fun s e => s.applyPairCmd c e t) s
    let s := s.setReg64 .CAR_LAST_BOUNDARY_LO .CAR_LAST_BOUNDARY_HI (carIx c) t
    if due.any (fun e => e.isCmd 1) then
      let s := (List.range 4).foldl (fun s n =>
        let s := if (s.pair c n).tripped then (if s.pairHeld c n then s else s.pairUntrip c n t) else s.bothOff c n t true
        s.setPair c n { s.pair c n with ref := false }) s
      s.modCar c (fun x => { x with mode := .stopped, bnd := t, hold := 0, mid := false })
    else
      let s := s.modCar c (fun x => { x with mode := .running, bnd := t, hold := hold, mid := false,
                                             idx := if first then 0 else (x.idx + 1) % 16 })
      s.boundaryPairs c t was

/-- CARRIER_BOUNDARY. -/
def execCarrierBoundary (c : Nat) (s : State) : Host.Outcome State Fault Refusal := .next (carrierBoundary s c)

/-- CARRIER_MIDPOINT: with upd_mode = 1 COMPARE updates apply; the reference is on there iff c > 0 (R269, R271). -/
def carrierMidpoint (s : State) (c : Nat) : State :=
  let x := s.car c
  if !s.carActs c || !x.mode == .running || x.mid then s
  else
    let t := s.midPoint c
    let s := s.at t
    let upd := s.bit F.CAR_CTRL_upd_mode (carIx c)
    let due := if upd then x.fx.filter (fun e => upTo e.stamp t && e.isCompare) else []
    let s := s.modCar c (fun x => { x with mid := true, fx := x.fx.filter (fun e => !due.contains e) })
    let s := due.foldl (fun s e => s.applyCompare c e) s
    (List.range 4).foldl (fun s n =>
      if s.pairEn c n then s.setRef c n (decide (0 < s.effCompare c n (s.car c).idx)) t else s) s

/-- CARRIER_MIDPOINT. -/
def execCarrierMidpoint (c : Nat) (s : State) : Host.Outcome State Fault Refusal := .next (carrierMidpoint s c)

/-- PHASE_HOLD_END: Δ after its boundary the counter leaves 0 (R272); the reference is as the boundary left it. -/
def phaseHoldEnd (s : State) (c : Nat) : State :=
  if s.carActs c && (s.car c).mode == .running then s.at (s.car c).start else s

/-- PHASE_HOLD_END. -/
def execPhaseHoldEnd (c : Nat) (s : State) : Host.Outcome State Fault Refusal := .next (phaseHoldEnd s c)

/-- PWM_STOPPED_WRITE_APPLY: a write or pair command to a stopped carrier takes effect at its stamp (R271, R274); a
HALF_PERIOD or PHASE that does not fit is discarded and counted. -/
def pwmStoppedWriteApply (s : State) (c : Nat) : State :=
  match (s.car c).fx with
  | [] => s
  | e :: rest =>
    if !s.carActs c || !(s.car c).mode == .stopped || e.isCmd 0 then s
    else
      let s := (s.at e.stamp).modCar c (fun x => { x with fx := rest })
      let s := s.applyCompare c e
      let s := s.applyPairCmd c e e.stamp
      match e.kind with
      | .pwmw _ _ 1 _ v =>
        if s.hpFits c (v.toNat * 64) && decide (s.fld F.CAR_PHASE_phase (carIx c) < 2 * v.toNat * 64) then
          s.setFld F.CAR_HALF_PERIOD_half_period (carIx c) v.toNat
        else s.carReject c
      | .pwmw _ _ 2 _ v =>
        if v.toNat < 2 * s.carHp c then s.setFld F.CAR_PHASE_phase (carIx c) v.toNat else s.carReject c
      | _ => s

/-- PWM_STOPPED_WRITE_APPLY. -/
def execPwmStoppedWriteApply (c : Nat) (s : State) : Host.Outcome State Fault Refusal := .next (pwmStoppedWriteApply s c)

/-- REFERENCE_EDGE: the high-side reference of a pair turns on at the mid-period point − c, or off at it + c (R269). -/
def referenceEdge (s : State) (c n : Nat) : State :=
  let x := s.car c
  if !s.carActs c || !x.mode == .running || !s.pairEn c n then s
  else
    let ce := s.effCompare c n x.idx
    let hp := s.carHp c
    let ref := (s.pair c n).ref
    if !ref && !x.mid && decide (0 < ce) && decide (ce < hp) then
      let t := s.midPoint c - picots ce
      (s.at t).setRef c n true t
    else if ref && x.mid && decide (ce < hp) then
      let t := s.midPoint c + picots ce
      (s.at t).setRef c n false t
    else s

/-- REFERENCE_EDGE. -/
def execReferenceEdge (c n : Nat) (s : State) : Host.Outcome State Fault Refusal := .next (referenceEdge s c n)

/-- A switch may turn on at `t` (R276): dropped, stretched or turned on; in a trip state it just turns on (R281). -/
def State.pulse (s : State) (c n : Nat) (low : Bool) (t : Time) : State :=
  let s := s.at t
  let mp := s.pairMp c n
  if (s.pair c n).tripped then s.swOn c n low t
  else if s.turnedAway c n low t then s.modSw c n low (fun w => { w with due := none })
  else
    let short := match s.expectedOff c n low t with
      | some e => decide (dist e t < (mp : Int))
      | none => false
    if !short then (s.openWindows c n low true t).swOn c n low t
    else if s.bit F.PAIR_CFG_policy (pairIx c n) then
      let s := ((s.openWindows c n low true t).swOn c n low t).bump F.PAIR_STRETCH_COUNT_count (pairIx c n)
      s.modSw c n low (fun w => { w with counted := true })
    else (s.modSw c n low (fun w => { w with due := none })).bump F.PAIR_DROP_COUNT_count (pairIx c n)

/-- DEAD_TIME_EXPIRY: DT after the partner turned off, a called-on switch is decided (R275, R276). A package halt stops it
for a pair that is not in its trip state (R289, R290). -/
def deadTimeExpiry (s : State) (c n : Nat) : State :=
  let x := s.pair c n
  if !s.dieActs (c / 16) || (s.dbg.halt.isSome && !x.tripped) then s
  else match x.hi.due, x.lo.due with
    | some t, _ => s.pulse c n false t
    | none, some t => s.pulse c n true t
    | none, none => s

/-- DEAD_TIME_EXPIRY. -/
def execDeadTimeExpiry (c n : Nat) (s : State) : Host.Outcome State Fault Refusal := .next (deadTimeExpiry s c n)

/-- MIN_PULSE_EXPIRY: a held pulse ends at t_on + MP (R276). -/
def minPulseExpiry (s : State) (c n : Nat) : State :=
  let x := s.pair c n
  if !s.carActs c then s
  else match x.hi.holdTo, x.lo.holdTo with
    | some t, _ => ((s.at t).openWindows c n false false t).swOff c n false t
    | none, some t => ((s.at t).openWindows c n true false t).swOff c n true t
    | none, none => s

/-- MIN_PULSE_EXPIRY. -/
def execMinPulseExpiry (c n : Nat) (s : State) : Host.Outcome State Fault Refusal := .next (minPulseExpiry s c n)

/-! ## Writes of the carrier registers (R265, R273, R294) -/

/-- A pin of an enabled pair, its switch off. -/
def State.takePairPin (s : State) (c n : Nat) (low : Bool) (p : Nat) : State :=
  let o : POwner := .car c n low
  let s := if (s.pin p).owner == o then s else s.ownPin p o
  s.modPin p (fun x => { x with lvl := ((s.pair c n).sw low).on == s.pairPol c n low })

/-- A pin that pair `n` owns goes back to owner none. -/
def State.freePairPins (s : State) (c n : Nat) (keep : List Nat) : State :=
  s.pins.foldl (fun s e => match e.2.owner with
    | .car c' n' _ => if c' = c ∧ n' = n ∧ !keep.contains e.1 then s.ownPin e.1 .free else s
    | _ => s) s

/-- A write of PAIR_CFG (R264, R265), the owner not running; one that ends what holds the pair takes it out of its trip state
(R284, R288). -/
def pairCfgWrite (s : State) (_ : Port) (c n : Nat) (v : Word) : State :=
  let ix := pairIx c n
  let en := bitOf v 0
  let hi := 64 * (c / 16) + bitsOf v 8 6
  let lo := 64 * (c / 16) + bitsOf v 16 6
  let foreign (p : Nat) (low : Bool) : Bool := !s.pinFreeFor p (.car c n low) && !s.pinFreeFor p (.car c n (!low))
  let bad :=
    (en && (foreign hi false || foreign lo true)) || hi == lo ||
    (en && decide (0 < n) && !s.pairEn c (n - 1)) ||
    (!en && decide (n < 3) && s.pairEn c (n + 1)) ||
    (en && !decide (s.pairDt c n + s.pairMp c n ≤ s.carHp c))
  if bad then s.setBit F.CAR_STATUS_cfg_reject (carIx c) true
  else
    let was := s.pairEn c n
    let held := (s.plainWrite .PAIR_CFG ix v).pairHeld c n
    let s := if was && (s.pair c n).tripped && !held then s.pairUntrip c n s.now else s
    let s := s.plainWrite .PAIR_CFG ix v
    if en then
      let s := s.freePairPins c n [hi, lo]
      let s := if was then s else
        s.setPair c n { s.pair c n with hi := SwSt.reset, lo := SwSt.reset, ref := false, fallback := true }
      let s := s.setPair c n { s.pair c n with tripped := false }
      let s := (s.takePairPin c n false hi).takePairPin c n true lo
      s.retrip (c / 16) s.now
    else
      let s := s.freePairPins c n []
      s.setPair c n { PairSt.reset with off := (s.pair c n).off }

/-- A write of CAR_HALF_PERIOD (R273, R294). -/
def carHalfPeriodWrite (s : State) (_ : Port) (c : Nat) (v : Word) : State :=
  let hp := bitsOf v 0 25
  if hp = 0 ∨ 16777216 < hp ∨ s.hpFits c (hp * 64) = false ∨ 2 * hp * 64 ≤ s.fld F.CAR_PHASE_phase (carIx c) then
    s.setBit F.CAR_STATUS_cfg_reject (carIx c) true
  else s.plainWrite .CAR_HALF_PERIOD (carIx c) v

/-- A write of CAR_PHASE (R294). -/
def carPhaseWrite (s : State) (_ : Port) (c : Nat) (v : Word) : State :=
  if 2 * s.carHp c ≤ bitsOf v 0 31 then s.setBit F.CAR_STATUS_cfg_reject (carIx c) true
  else s.plainWrite .CAR_PHASE (carIx c) v

/-- A write of PAIR_DT or PAIR_MINPULSE: rejected where it would break R273. -/
def pairTimeWrite (s : State) (r : Reg) (c n : Nat) (v : Word) : State :=
  let s' := s.plainWrite r (pairIx c n) v
  if s'.pairEn c n && !decide (s'.pairDt c n + s'.pairMp c n ≤ s'.carHp c) then
    s.setBit F.CAR_STATUS_cfg_reject (carIx c) true
  else s'

end Sys2Proof.Machine
end

