-- ==== Sys2Proof/Machine/Router.lean ====
section
/-! DEFINITION. The event router (R475 to R486, R488), MSI-X (R452, R453) and the mailboxes (R475). -/

namespace Sys2Proof.Machine

/-- The debug port and the management cores reach every target (R476, R488). -/
def trustedPort : Port → Bool
  | .mgmt0 => true
  | .mgmt1 => true
  | .debug => true
  | _ => false

/-- Group `g` holds its sources off target `t` (R480): its timer runs, and the target is not idle with bypass on. A
management core is idle while it sleeps (R481). -/
def State.holdsOff (s : State) (g t : Nat) : Bool :=
  let idle := if t < 16 then s.bit F.RTR_IDLE_idle (pkg1 t) else s.asleep.contains t
  s.bit F.RTR_GROUP_running (pkg1 g) && !(idle && s.bit F.RTR_GROUP_bypass (pkg1 g))

/-- A source that target `t` could be given: priority, 1 for a private one, number. -/
abbrev Cand := Nat × Bool × Nat

/-- Candidate `a` beats candidate `b`: higher priority, then private before shared, then the lower number (R477). -/
def candBeats (a b : Cand) : Bool :=
  if a.1 = b.1 then
    if a.2.1 = b.2.1 then a.2.2 < b.2.2 else a.2.1
  else b.1 < a.1

/-- The deliverable private sources of target `t` (R477). -/
def State.privCands (s : State) (t : Nat) : List Cand :=
  let prio := s.fld F.RTR_CTRL_priv_prio (pkg1 t)
  if s.fld F.RTR_CTRL_threshold (pkg1 t) < prio && !s.holdsOff (s.fld F.RTR_CTRL_priv_group (pkg1 t)) t then
    let m := s.reg64 .RTR_PRIV_PEND_LO .RTR_PRIV_PEND_HI (pkg1 t) &&&
      s.reg64 .RTR_PRIV_EN_LO .RTR_PRIV_EN_HI (pkg1 t) &&& ~~~(s.reg64 .RTR_PRIV_ACT_LO .RTR_PRIV_ACT_HI (pkg1 t))
    ((List.range 64).filter (fun p => p != 0 && m.getLsbD p)).map (fun p => (prio, true, p))
  else []

/-- The deliverable shared sources of target `t` (R477): pending, not active, enabled, target = t, priority above the
threshold, group not holding off. -/
def State.sharedCands (s : State) (t : Nat) : List Cand :=
  s.regs.filterMap (fun e =>
    if e.1.1 = .RTR_SRC ∧ bitsOf e.2 0 5 = t ∧ bitOf e.2 12 = true ∧ bitOf e.2 13 = true ∧ bitOf e.2 14 = false ∧
       s.fld F.RTR_CTRL_threshold (pkg1 t) < bitsOf e.2 8 4 ∧ s.holdsOff (bitsOf e.2 16 6) t = false
    then some (bitsOf e.2 8 4, false, e.1.2.i + 64) else none)

/-- The winner of target `t` (R477). -/
def State.winner (s : State) (t : Nat) : Option Cand :=
  (s.privCands t ++ s.sharedCands t).foldl (fun best c => match best with
    | none => some c
    | some b => if candBeats c b then some c else some b) none

/-- The MSI-X message of entry `t` (R452): a masked entry keeps it as its pending bit; while the function may issue no
request it waits (R453). -/
def State.msix (s : State) (t : Nat) : State :=
  if s.pcie.msixMask.getLsbD t then { s with pcie := { s.pcie with pba := s.pcie.pba ||| BitVec.ofNat 64 (2 ^ t) } }
  else if s.pcieUp then { s with pcie := { s.pcie with sent := nmPut s.pcie.sent t (nmGet s.pcie.sent t 0 + 1) } }
  else { s with pcie := { s.pcie with waiting := s.pcie.waiting ++ [t] } }

/-- The messages that waited are sent (R453). -/
def State.msixFlush (s : State) : State :=
  if s.pcieUp then
    let w := s.pcie.waiting
    w.foldl (fun s t => s.msix t) { s with pcie := { s.pcie with waiting := [] } }
  else s

/-- ROUTER_NOTIFY: an armed target with GDIS = 0 and a winner gets one notification and disarms (R478). -/
def routerNotify (s : State) (t : Nat) : State :=
  if t < 18 && s.bit F.RTR_STATUS_armed (pkg1 t) && !s.bit F.RTR_CTRL_gdis (pkg1 t) && (s.winner t).isSome then
    let s := s.setBit F.RTR_STATUS_armed (pkg1 t) false
    if t < 16 then s.msix t else { s with coreIrq := t :: s.coreIrq.filter (fun x => x != t) }
  else s

/-- ROUTER_NOTIFY. -/
def execRouterNotify (t : Nat) (s : State) : Host.Outcome State Fault Refusal := .next (routerNotify s t)

/-- A claimed source starts the hold-off of its group, restarting a running timer (R480). -/
def State.startHoldoff (s : State) (g : Nat) : State :=
  let us := s.fld F.RTR_GROUP_holdoff_us (pkg1 g)
  if us = 0 then s
  else { s.setBit F.RTR_GROUP_running (pkg1 g) true with groups := nmPut s.groups g (s.now + nsT (us * 1000)) }

/-- Target `t` takes its winner (R479): pending clears, active sets, the hold-off starts, idle clears (R481). -/
def State.take (s : State) (t : Nat) (c : Cand) : State :=
  let s :=
    if c.2.1 then
      ((s.setPriv .RTR_PRIV_PEND_LO .RTR_PRIV_PEND_HI t c.2.2 false).setPriv .RTR_PRIV_ACT_LO .RTR_PRIV_ACT_HI t c.2.2
        true).startHoldoff (s.fld F.RTR_CTRL_priv_group (pkg1 t))
    else
      let ix := pkg1 (c.2.2 - 64)
      let s' := (s.setBit F.RTR_SRC_pending ix false).setBit F.RTR_SRC_active ix true
      { s' with claims := nmPut s'.claims c.2.2 t }.startHoldoff (s.fld F.RTR_SRC_group ix)
  if t < 16 then s.setBit F.RTR_IDLE_idle (pkg1 t) false else s

/-- The interrupt line of a management core falls when a core reads the target's CLAIM (R478). -/
def State.coreClaims (s : State) (port : Port) (t : Nat) : State :=
  if port = .mgmt0 ∨ port = .mgmt1 then { s with coreIrq := s.coreIrq.filter (fun x => x != t) } else s

/-- A read of RTR_CLAIM of target `t` (R479): the answer and the state after. Through the debug port it changes nothing. -/
def rtrClaimRead (s : State) (port : Port) (t : Nat) : Word × State :=
  match s.winner t with
  | some c => (BitVec.ofNat 32 c.2.2, if port = .debug then s else (s.take t c).coreClaims port t)
  | none => (0, if port = .debug then s else (s.setBit F.RTR_STATUS_armed (pkg1 t) true).coreClaims port t)

/-- The per-target blocks of targets 16 and 17 reject writes through PCIe and the quad-SPI target (R488). -/
def targetGate (s : State) (port : Port) (t : Nat) (f : State → State) : State :=
  if 16 ≤ t && !trustedPort port then s.setBit F.RTR_STATUS_write_reject (pkg1 t) true else f s

/-- A write of RTR_COMPLETE of target `t` (R479): a source that t holds active ends; any other sets complete_err. -/
def rtrCompleteWrite (s : State) (port : Port) (t : Nat) (v : Word) : State :=
  targetGate s port t fun s =>
    let n := bitsOf v 0 12
    if n < 64 then
      if n ≠ 0 ∧ s.privBit .RTR_PRIV_ACT_LO .RTR_PRIV_ACT_HI t n = true then
        s.setPriv .RTR_PRIV_ACT_LO .RTR_PRIV_ACT_HI t n false
      else s.setBit F.RTR_STATUS_complete_err (pkg1 t) true
    else if s.bit F.RTR_SRC_active (pkg1 (n - 64)) && nmGet? s.claims n == some t then
      { s.setBit F.RTR_SRC_active (pkg1 (n - 64)) false with claims := nmDel s.claims n }
    else s.setBit F.RTR_STATUS_complete_err (pkg1 t) true

/-- Writes of RTR_CTRL, RTR_IDLE, RTR_STATUS and of RTR_PRIV_EN's halves (R488). -/
def rtrTargetWrite (s : State) (port : Port) (r : Reg) (t : Nat) (v : Word) : State :=
  targetGate s port t fun s => (s.plainWrite r (pkg1 t) v).wake

/-- A write of RTR_SRC_s (R485, R488). -/
def rtrSrcWrite (s : State) (port : Port) (n : Nat) (v : Word) : State :=
  let t := bitsOf v 0 5
  if 17 < t || (16 ≤ t && !trustedPort port) then s.bump F.RTR_DB_REJECT_count pkg
  else (s.plainWrite .RTR_SRC (pkg1 n) v).wake

/-- Source numbers that belong to the Saryth (R474). -/
def ownSource (n : Nat) : Bool := n == 64 || (0x800 ≤ n && n ≤ 0xBFF)

/-- A write of the router doorbell (R476): a post, or ignored and counted. -/
def rtrDoorbellWrite (s : State) (port : Port) (v : Word) : State :=
  let n := bitsOf v 0 12
  let t := bitsOf v 16 5
  let mgmt := port == .mgmt0 || port == .mgmt1
  let bad :=
    bitsOf v 12 4 != 0 || bitsOf v 21 11 != 0 || (!mgmt && ownSource n) ||
    (if n < 64 then (if trustedPort port then 17 < t else 15 < t) else t != 0)
  if bad then s.bump F.RTR_DB_REJECT_count pkg
  else if n < 64 then
    -- sources 0 and 34 to 63 of a bank are never posted (R475)
    if n = 0 ∨ 33 < n then s else (s.postPriv t n).wake
  else (s.postShared n).wake

/-- GROUP_HOLDOFF_EXPIRY: the timer of a group ends (R480). -/
def groupExpiry (s : State) (g : Nat) : State :=
  match nmGet? s.groups g with
  | none => s
  | some x => { (s.at x).setBit F.RTR_GROUP_running (pkg1 g) false with groups := nmDel s.groups g }

/-- GROUP_HOLDOFF_EXPIRY. -/
def execGroupHoldoffExpiry (g : Nat) (s : State) : Host.Outcome State Fault Refusal := .next (groupExpiry s g)

/-- MAILBOX_POST: the firmware places a message in a free mailbox and posts private source 33 (R475). -/
def mailboxPost (s : State) (t : Nat) (ws : List Word) : State :=
  if t < 18 && !s.bit F.MBOX_FULL_full (pkg1 t) then
    let s := (List.range 15).foldl (fun s i => s.setReg .MBOX_WORD (pkg2 t i) (ws.getD i 0)) s
    ((s.setBit F.MBOX_FULL_full (pkg1 t) true).postPriv t 33).wake
  else s

/-- MAILBOX_POST. -/
def execMailboxPost (t : Nat) (ws : List Word) (s : State) : Host.Outcome State Fault Refusal := .next (mailboxPost s t ws)

end Sys2Proof.Machine
end

