-- ==== Sys2Proof/Machine/Records.lean ====
section
/-! DEFINITION. The record horizon, the release of records and router posts, and the event queues (R467 to R474, R487). -/

namespace Sys2Proof.Machine

/-! ## Event queues -/

/-- The ring size of an event queue. -/
def State.eqSize (s : State) (n : Nat) : Nat := 2 ^ s.fld F.EQ_CFG_log_size (pkg1 n)

/-- An event queue. -/
def State.eq (s : State) (n : Nat) : EqSt := nmGet s.eqs n EqSt.reset

/-- The state with an event queue set, its holding bit with it (R472). -/
def State.setEq (s : State) (n : Nat) (x : EqSt) : State :=
  { s with eqs := nmPut s.eqs n x }.setBit F.EQ_STATUS_holding (pkg1 n) (!x.hold.isEmpty)

/-- The ring is full: the write index plus 1, modulo the size, equals EQ_HEAD (R468). -/
def State.eqFull (s : State) (n : Nat) : Bool :=
  (s.fld F.EQ_STATUS_write_index (pkg1 n) + 1) % s.eqSize n == s.fld F.EQ_HEAD_head (pkg1 n)

/-- A record may be written to the ring now: the queue is enabled, there is room, and a ring in host memory may be reached (R453,
R468). -/
def State.eqCanWrite (s : State) (n : Nat) : Bool :=
  s.bit F.EQ_CFG_en (pkg1 n) && !s.eqFull n && (s.bit F.EQ_CFG_space (pkg1 n) || s.pcieUp)

/-- The 32 bytes of a record (R467). -/
def recBytes (r : Rec) (seq : Word) (phase : Bool) : List Byte :=
  timeBytes r.stamp ++ wordBytes seq ++ leBytes r.src 2 ++ [BitVec.ofNat 8 r.ty, 0] ++ pay r.payload ++
    [BitVec.ofNat 8 (128 * b2n phase)]

/-- One record is written into the ring: the index moves on, the phase toggles at the wrap, and with irq_en private source
1 + n of the queue's target is posted (R467, R468, R473). -/
def State.eqWrite (s : State) (n : Nat) (r : Rec) (seq : Word) : State :=
  let ix := pkg1 n
  let w := s.fld F.EQ_STATUS_write_index ix
  let base := (s.reg64 .EQ_BASE_LO .EQ_BASE_HI ix).toNat
  let s := s.spaceWrite (s.bit F.EQ_CFG_space ix) (base + 32 * w) (recBytes r seq (s.bit F.EQ_STATUS_phase ix))
  let w' := (w + 1) % s.eqSize n
  let s := s.setFld F.EQ_STATUS_write_index ix w'
  let s := if w' = 0 then s.setBit F.EQ_STATUS_phase ix (!s.bit F.EQ_STATUS_phase ix) else s
  if s.bit F.EQ_CFG_irq_en ix then (s.postPriv (s.fld F.EQ_CFG_target ix) (1 + n)).wake else s

/-- Take the next sequence of a queue. -/
def State.eqTake (s : State) (n : Nat) : Word × State :=
  let q := s.reg .EQ_NEXT_SEQ (pkg1 n)
  (q, s.setReg .EQ_NEXT_SEQ (pkg1 n) (q + 1))

/-- The OVERFLOW record that ends a run of lost records (R472). -/
def overflowRec (n : Nat) (run : Word × Word × Time) : Rec :=
  { stamp := run.2.2, src := 0x0B10 + n, o1 := 0, o2 := 0, o3 := 0, ty := 0x02,
    payload := pay (wordBytes run.1 ++ wordBytes run.2.1), eq := n, die := 0 }

/-- Records of the hold are written as long as there is room; once it is empty an OVERFLOW record ends a run of losses
(R472). `fuel` bounds the records written. The hold of a queue that is not enabled waits (log entry 107). -/
def State.eqDrain (s : State) (n : Nat) : Nat → State
  | 0 => s
  | fuel + 1 =>
    if s.bit F.EQ_CFG_en (pkg1 n) = false then s else
    let q := s.eq n
    match q.hold with
    | (r, seq) :: rest =>
      if s.eqCanWrite n then ((s.setEq n { q with hold := rest }).eqWrite n r seq).eqDrain n fuel else s
    | [] =>
      match q.losing with
      | none => s
      | some run =>
        let (seq, s) := s.eqTake n
        if s.eqCanWrite n then (s.setEq n { hold := [], losing := none }).eqWrite n (overflowRec n run) seq
        else s.setEq n { hold := [(overflowRec n run, seq)], losing := none }

/-- A released record at its event queue (R470, R472): written, held, or lost. -/
def State.eqPut (s : State) (r : Rec) : State :=
  let n := r.eq
  let (seq, s) := s.eqTake n
  let q := s.eq n
  if !s.bit F.EQ_CFG_en (pkg1 n) then s.bump F.EQ_LOST_COUNT_lost (pkg1 n)
  else
    match q.losing with
    | some run => (s.bump F.EQ_LOST_COUNT_lost (pkg1 n)).setEq n { q with losing := some (run.1, seq, r.stamp) }
    | none =>
      if q.hold.isEmpty && s.eqCanWrite n then s.eqWrite n r seq
      else if q.hold.length < 512 then s.setEq n { q with hold := q.hold ++ [(r, seq)] }
      else (s.bump F.EQ_LOST_COUNT_lost (pkg1 n)).setEq n { q with losing := some (seq, seq, r.stamp) }

/-- Every queue's hold is drained as far as it can be. -/
def State.drainHolds (s : State) : State := (List.range 16).foldl (fun s n => s.eqDrain n 514) s

/-! ## The horizon -/

/-- Record `a` is released before record `b`: by stamp, source, origin order (R470). -/
def recFirst (a b : Rec) : Bool :=
  if a.stamp = b.stamp then
    if a.src = b.src then
      if a.o1 = b.o1 then (if a.o2 = b.o2 then a.o3 < b.o3 else a.o2 < b.o2) else a.o1 < b.o1
    else a.src < b.src
  else before a.stamp b.stamp

/-- A list of records with one more in its place. -/
def recInsert (r : Rec) : List Rec → List Rec
  | [] => [r]
  | x :: t => if recFirst r x then r :: x :: t else x :: recInsert r t

/-- Λ_d of a die, in picots (R469): the leads of its tasks, and the delays of its recording interfaces and hoops. -/
def State.lagOf (s : State) (d : Nat) : Nat :=
  let l := s.tasks.foldl (fun a e => if e.2.die = d ∧ e.2.memHeld = true then max a e.2.lead else a) 0
  let l := (List.range 8).foldl (fun a k =>
    let n := 8 * d + k
    if s.bit F.FB_CTRL_rec_en (fbIx n) then
      let a := if s.fbMode n = 4 ∨ s.fbMode n = 5 then max a (s.frameTime n) else a
      max a (s.fbDelay n + ns 40)
    else a) l
  (List.range 4).foldl (fun a k =>
    let h := 4 * d + k
    if s.bit F.HOOP_CTRL_rec_en (hoopIx h) then max a (s.hoopDelay h + ns 40) else a) l

/-- REC_LAG: the largest Λ_d of the live dies, in ns (R469). -/
def State.recLag (s : State) : Nat := min (s.liveDies.foldl (fun a d => max a (s.lagOf d)) 0 / 64) 0xFFFFFF

/-- The dies whose reports bound H: the live ones, and a fenced one until it is known what it lost (R471, R501, log entry 20). -/
def State.horizonDies (s : State) : List Nat := s.dieList.filter (fun d => (s.die d).live || (s.die d).fenceOpen.isSome)

/-- The record horizon from the latest reports of those dies; none while one has not reported (R469, R471). -/
def State.horizonOf (s : State) : Option Time :=
  s.horizonDies.foldl (fun acc d => match acc, (s.die d).report with
    | some none, some r => some (some r)
    | some (some h), some r => some (some (earlier h r))
    | _, none => none
    | none, _ => none) (some none : Option (Option Time)) |>.join

/-- H as REC_HORIZON shows it. -/
def State.horizon (s : State) : Time := s.reg64 .REC_HORIZON_LO .REC_HORIZON_HI pkg

/-- Records and router posts at or below H are released: records in (stamp, source, origin order), posts of RING and of
queue notices to the router (R470, R476). -/
def State.release (s : State) (h : Time) : State :=
  let due := s.recs.filter (fun r => upTo r.stamp h)
  let s := { s with recs := s.recs.filter (fun r => !upTo r.stamp h) }
  let s := due.foldl (fun s r => s.eqPut r) s
  let ring := s.posts.filter (fun p => upTo p.1 h)
  let s := { s with posts := s.posts.filter (fun p => !upTo p.1 h) }
  (ring.foldl (fun s p => s.postShared p.2) s).wake

/-- H is formed anew; it never goes back (R469, R470). -/
def State.newHorizon (s : State) : State :=
  match s.horizonOf with
  | none => s
  | some h =>
    let h := later h s.horizon
    let s := s.setReg64 .REC_HORIZON_LO .REC_HORIZON_HI pkg h
    s.release h

/-- Records of die `d` reach die 0 (R469, R501) and wait for the horizon. -/
def State.receive (s : State) (d : Nat) (rs : List Rec) : State :=
  let s := { s with recs := rs.foldl (fun l r => recInsert r l) s.recs }
  s.modDie d (fun x => { x with received := x.received + rs.length, eqSeen := (x.eqSeen ++ rs.map (fun r => r.eq)).eraseDups })

/-- Ground time has been set (R68): what each die would report now takes the place of its latest report, and H follows (log entry
23). -/
def State.rebaseReports (s : State) : State :=
  let s := s.dieList.foldl (fun s d => s.modDie d (fun x =>
    { x with report := x.report.map (fun _ => s.now - picots (s.lagOf d) - nsT 500) })) s
  match s.horizonOf with
  | some h => s.setReg64 .REC_HORIZON_LO .REC_HORIZON_HI pkg h
  | none => s

/-- HORIZON_REPORT: a live die reports H_d = g_d − Λ_d − 500 ns, behind the records it has sent; H is formed anew and records
are released (R469, R470). -/
def horizonReport (s : State) (d : Nat) (g : Time) : State :=
  let s := s.at g
  if (s.die d).live && s.dieActs d then
    let hd := g - picots (s.lagOf d) - nsT 500
    let x := s.die d
    let hd := match x.report with | some r => later r hd | none => hd
    let s := s.setDie d { x with report := some hd, outbox := [] }
    ((s.receive d x.outbox).newHorizon).drainHolds
  else s

/-! ## Writes of the event queue registers (R468, R487) -/

/-- A write of EQ_CFG_n: while en = 1 only en and irq_en may change; a log_size outside 4 to 16 or a target above 17 is
rejected; en = 1 after 0 starts the ring anew, and records still held from before it are lost and counted (log entry 107). -/
def eqCfgWrite (s : State) (_ : Port) (n : Nat) (v : Word) : State :=
  let ix := pkg1 n
  let old := s.reg .EQ_CFG ix
  let m : Word := 0x7E
  let m2 : Word := 0x1F00
  let bad := bitsOf v 2 5 < 4 || 16 < bitsOf v 2 5 || 17 < bitsOf v 8 5
  if bad || (bitOf old 0 && (v &&& (m ||| m2)) != (old &&& (m ||| m2))) then
    s.setBit F.EQ_STATUS_write_reject ix true
  else
    let s := s.plainWrite .EQ_CFG ix v
    if bitOf v 0 && !bitOf old 0 then
      let s := s.setFld F.EQ_STATUS_write_index ix 0
      let s := s.setBit F.EQ_STATUS_phase ix true
      let s := s.setFld F.EQ_HEAD_head ix 0
      let s := s.setReg .EQ_NEXT_SEQ ix 0
      (s.bumpBy F.EQ_LOST_COUNT_lost ix (s.eq n).hold.length).setEq n EqSt.reset
    else s

/-- A write of EQ_BASE_n (64 bits, R21): rejected while en = 1, or with bits [4:0] other than 0. -/
def eqBaseWrite (s : State) (_ : Port) (n : Nat) (lo hi : Word) : State :=
  let ix := pkg1 n
  if s.bit F.EQ_CFG_en ix || bitsOf lo 0 5 != 0 then s.setBit F.EQ_STATUS_write_reject ix true
  else (s.setReg .EQ_BASE_LO ix lo).setReg .EQ_BASE_HI ix hi

/-- A write of EQ_HEAD_n: a value at or above the size is rejected; room it makes lets the hold drain (R468, R472). -/
def eqHeadWriteReg (s : State) (_ : Port) (n : Nat) (v : Word) : State :=
  let ix := pkg1 n
  let h := bitsOf v 0 16
  if s.eqSize n ≤ h then s.setBit F.EQ_STATUS_write_reject ix true
  else (s.setFld F.EQ_HEAD_head ix h).eqDrain n 514

end Sys2Proof.Machine
end

