-- ==== Sys2Proof/Machine/Cq.lean ====
section
/-! DEFINITION. The command queues: doorbells, decode, acceptance, completion (R458 to R466, R487), and the commands NOP and
TASK (R462, R463). -/

namespace Sys2Proof.Machine

/-! ## Queues and entries -/

/-- The command that a queue has accepted or turned away and not yet completed. -/
def State.cq (s : State) (q : Nat) : Option CqCmd := nmGet? s.cqs q

/-- The state with that command set. -/
def State.setCq (s : State) (q : Nat) (c : CqCmd) : State := { s with cqs := nmPut s.cqs q c }

/-- The ring size of a command queue. -/
def State.cqSize (s : State) (q : Nat) : Nat := 2 ^ s.fld F.CQ_CFG_log_size (pkg1 q)

/-- A word of an entry (R458): 0 sequence, 1 opcode and length, 2 to 7 P0 to P5, 8 to 15 payload. -/
def CqCmd.word (c : CqCmd) (i : Nat) : Word := c.entry.getD i 0

/-- The opcode of an entry. -/
def CqCmd.op (c : CqCmd) : Nat := bitsOf (c.word 1) 0 8

/-- The payload length of an entry. -/
def CqCmd.len (c : CqCmd) : Nat := bitsOf (c.word 1) 8 4

/-- The payload of an entry, of the stated length. -/
def CqCmd.payload (c : CqCmd) : List Word := (c.entry.drop 8).take c.len

/-- P0 to P5. -/
def CqCmd.param (c : CqCmd) (i : Nat) : Word := c.word (2 + i)

/-- The opcodes of R462. -/
def isOpcode (op : Nat) : Bool := op == 0 || op == 1 || (0x10 ≤ op && op ≤ 0x15)

/-- The placer commands (R208). -/
def isPlacerOp (op : Nat) : Bool := 0x10 ≤ op && op ≤ 0x15

/-- The status an accepted entry has before it executes (R458, R462): BAD_OPCODE, then BAD_ENTRY, or none. -/
def CqCmd.broken (c : CqCmd) : Option Nat :=
  if !isOpcode c.op then some 0x82
  else if bitsOf (c.word 1) 12 20 ≠ 0 ∨ 8 < c.len then some 0x83
  else none

/-! ## Doorbell and ring -/

/-- A write of CQ_DOORBELL_q (R459): the tail, unless it lies outside the ring. -/
def cqDoorbellWrite (s : State) (_ : Port) (q : Nat) (v : Word) : State :=
  let t := bitsOf v 0 12
  if s.cqSize q ≤ t then s.setBit F.CQ_STATUS_db_reject (pkg1 q) true else s.setFld F.CQ_STATUS_tail (pkg1 q) t

/-- The ring of a queue can be read now (R453). -/
def State.cqReach (s : State) (q : Nat) : Bool := s.bit F.CQ_CFG_space (pkg1 q) || s.pcieUp

/-- A queue holds an entry that die 0 may read: it is enabled, not stopped, and its previous command has completed (R461). -/
def State.cqHolds (s : State) (q : Nat) : Bool :=
  s.bit F.CQ_CFG_en (pkg1 q) && !s.bit F.CQ_STATUS_stopped (pkg1 q) && (s.cq q).isNone && s.cqReach q &&
    s.fld F.CQ_STATUS_head (pkg1 q) != s.fld F.CQ_STATUS_tail (pkg1 q)

/-- The queue whose turn it is: the next in ascending order after the one served last (R461). -/
def State.cqTurn (s : State) : Option Nat :=
  ((List.range 16).map (fun i => (s.cqLast + 1 + i) % 16)).find? s.cqHolds

/-- The 16 words of the entry at the head of a queue. -/
def State.cqEntry (s : State) (q : Nat) : List Word :=
  let base := (s.reg64 .CQ_BASE_LO .CQ_BASE_HI (pkg1 q)).toNat + 64 * s.fld F.CQ_STATUS_head (pkg1 q)
  bytesWords (s.spaceRead (s.bit F.CQ_CFG_space (pkg1 q)) base 64)

/-- How far an entry's sequence lies from the expected one (R460). -/
def State.cqDist (s : State) (q : Nat) (seq : Word) : Int := (seq - s.reg .CQ_NEXT_SEQ (pkg1 q)).toInt

/-- CQ_ENTRY_DECODE: die 0 decodes the entry at the head of the queue whose turn it is, at most one per 4 ns (R460, R461): an
accepted entry gets its acceptance stamp and is logged. -/
def cqEntryDecode (s : State) (q : Nat) (g : Time) : State :=
  let inTime := match s.cqTime with | some t => upTo (t + nsT 4) g | none => true
  if s.dieActs 0 && s.cqTurn == some q && inTime then
    let s := s.at g
    let es := s.cqEntry q
    let s := s.setFld F.CQ_STATUS_head (pkg1 q) ((s.fld F.CQ_STATUS_head (pkg1 q) + 1) % s.cqSize q)
    let s := { s with cqLast := q, cqTime := some g }.setBit F.CQ_STATUS_busy (pkg1 q) true
    let d := s.cqDist q (es.getD 0 0)
    if d = 0 then
      let a := g + picots 20480
      let c : CqCmd := { entry := es, accept := a, accepted := true, status := none, waiting := none }
      let s := s.setReg .CQ_NEXT_SEQ (pkg1 q) (s.reg .CQ_NEXT_SEQ (pkg1 q) + 1)
      (s.setCq q { c with status := c.broken }).log 0 0x09 0 q a es
    else
      let st := if -4096 ≤ d ∧ d < 0 then 0x80 else 0x81
      s.setCq q { entry := es, accept := 0, accepted := false, status := some st, waiting := none }
  else s

/-- CQ_ENTRY_DECODE. -/
def execCqEntryDecode (q : Nat) (g : Time) (s : State) : Host.Outcome State Fault Refusal := .next (cqEntryDecode s q g)

/-- CQ_RING_READ_FAIL: a ring read fails and consumes nothing; the queue stops (R466). -/
def execCqRingReadFail (q : Nat) (s : State) : Host.Outcome State Fault Refusal :=
  .next (if s.dieActs 0 && s.cqHolds q then
      let eq := s.fld F.CQ_CFG_eq (pkg1 q)
      ((s.setBit F.CQ_STATUS_stopped (pkg1 q) true).postPriv (s.fld F.EQ_CFG_target (pkg1 eq)) (17 + q)).wake
    else s)

/-- The COMPLETION record (R464). -/
def State.completion (s : State) (q : Nat) (c : CqCmd) (status : Nat) : State :=
  s.emitUnit 0 (0x0B00 + q) 0x01 s.now (s.fld F.CQ_CFG_eq (pkg1 q))
    (wordBytes (c.word 0) ++ [BitVec.ofNat 8 status, BitVec.ofNat 8 c.op] ++ timeBytes c.accept ++ [BitVec.ofNat 8 q])

/-- COMMAND_COMPLETE: a command whose status stands completes (R464); of a placer command PLC_STATUS keeps the reason. -/
def commandComplete (s : State) (q : Nat) (g : Time) : State :=
  match s.cq q with
  | none => s
  | some c =>
    match c.status with
    | none => s
    | some st =>
      if s.dieActs 0 then
        let s := (s.at g).completion q c st
        let s := { s with cqs := nmDel s.cqs q }.setBit F.CQ_STATUS_busy (pkg1 q) false
        if isPlacerOp c.op && c.accepted && st < 0x80 then s.setFld F.PLC_STATUS_last_reason pkg st else s
      else s

/-- COMMAND_COMPLETE. -/
def execCommandComplete (q : Nat) (g : Time) (s : State) : Host.Outcome State Fault Refusal := .next (commandComplete s q g)

/-! ## Register writes (R466, R487) -/

/-- A write of CQ_CFG_q: while en = 1, space and log_size stay; log_size is 4 to 12; en = 1 after 0 resumes a stopped queue at
its head. -/
def cqCfgWrite (s : State) (_ : Port) (q : Nat) (v : Word) : State :=
  let ix := pkg1 q
  let old := s.reg .CQ_CFG ix
  let m : Word := 0x3E
  if bitsOf v 2 4 < 4 || 12 < bitsOf v 2 4 || (bitOf old 0 && (v &&& m) != (old &&& m)) then
    s.setBit F.CQ_STATUS_write_reject ix true
  else
    let s := s.plainWrite .CQ_CFG ix v
    if bitOf v 0 && !bitOf old 0 then s.setBit F.CQ_STATUS_stopped ix false else s

/-- A write of CQ_BASE_q (64 bits, R21): head and tail go to 0; rejected while en = 1, or with bits [5:0] other than 0. -/
def cqBaseWrite (s : State) (_ : Port) (q : Nat) (lo hi : Word) : State :=
  let ix := pkg1 q
  if s.bit F.CQ_CFG_en ix || bitsOf lo 0 6 != 0 then s.setBit F.CQ_STATUS_write_reject ix true
  else
    let s := (s.setReg .CQ_BASE_LO ix lo).setReg .CQ_BASE_HI ix hi
    (s.setFld F.CQ_STATUS_head ix 0).setFld F.CQ_STATUS_tail ix 0

/-- A write of CQ_NEXT_SEQ_q: rejected while en = 1. -/
def cqNextSeqWrite (s : State) (_ : Port) (q : Nat) (v : Word) : State :=
  if s.bit F.CQ_CFG_en (pkg1 q) then s.setBit F.CQ_STATUS_write_reject (pkg1 q) true else s.setReg .CQ_NEXT_SEQ (pkg1 q) v

/-! ## NOP and TASK -/

/-- The accepted command of queue `q` that waits to execute, if it has this opcode. -/
def State.cqRuns (s : State) (q op : Nat) : Option CqCmd :=
  match s.cq q with
  | some c => if c.accepted && c.status.isNone && c.op == op && s.dieActs 0 then some c else none
  | none => none

/-- The command of a queue ends with a status. -/
def State.cqEnd (s : State) (q : Nat) (c : CqCmd) (status : Nat) : State := s.setCq q { c with status := some status }

/-- CMD_NOP: OK. -/
def execCmdNop (q : Nat) (s : State) : Host.Outcome State Fault Refusal :=
  .next (match s.cqRuns q 0x00 with
    | some c => s.cqEnd q c 0x00
    | none => s)

/-- The activation of a host command of queue `q` (R71, R74, R162, R463). -/
def hostAct (q : Nat) (c : CqCmd) : Act :=
  { t := c.accept, src := 1, slot := q, event := 0, edge := false, k1 := (c.word 0).toNat, k2 := 0, k3 := 0, payload := c.payload }

/-- The latest host command activation of the task's run lies closer than its minimum interval before `t` (R75). -/
def Task.hostSoon (k : Task) (t : Time) : Bool :=
  match k.source? 1 0 with
  | none => false
  | some x =>
    k.pend.any (fun a => a.src == 1 && upTo k.startStamp a.t && before t (a.t + nsT x.minNs)) ||
      (!k.restarting && k.served.any (fun e => e.1 == (1, x.slot) && before t (e.2 + nsT x.minNs)))

/-- A host command activation for a task (R463): NOT_RUNNING, ACT_FAULT where R75 or R217 is broken, else OK. Where it breaks R75
the task faults when the activation is served, behind those that come before it (R74, R75; log entry 57). -/
def State.hostTask (s : State) (t : Nat) (a : Act) : Nat × State :=
  match s.task? t with
  | none => (0x84, s)
  | some k =>
    if !k.takes a.t then (0x84, s)
    else
      let s' := s.activate t a
      (match s'.task? t with
       | some k' => if k'.state == .faulted || k.hostSoon a.t then (0x85, s') else (0x00, s')
       | none => (0x00, s'))

/-- TASK: one host command activation with T equal to the acceptance stamp (R463). -/
def execTask (q : Nat) (s : State) : Host.Outcome State Fault Refusal :=
  .next (match s.cqRuns q 0x01 with
    | some c =>
      let r := s.hostTask (c.param 0).toNat (hostAct q c)
      r.2.cqEnd q c r.1
    | none => s)

end Sys2Proof.Machine
end

