-- ==== Sys2Proof/Machine/LoadStore.lean ====
section
/-! DEFINITION. Loads and stores, and every access a step makes to its data address space (R86, R117 to R120, R137, R156). -/

namespace Sys2Proof.Machine

/-- Where a data address lies (R117): in the private segment at an offset, in a table copy at an offset of die memory, or
nowhere. -/
inductive Place where
  | priv (off : Nat)
  | table (off : Nat)
  | out
  deriving DecidableEq, Repr

/-- The place of an access of `n` bytes at an address of the task's data address space (R117). -/
def Task.place (k : Task) (a n : Nat) : Place :=
  if a + n ≤ k.dataBytes then .priv a
  else if 0x40000000 ≤ a ∧ a < 0x44000000 then
    let o := (a - 0x40000000) % 0x400000
    match k.tables.find? (fun x => x.k == (a - 0x40000000) / 0x400000) with
    | some x => if o + n ≤ x.len then .table (x.off + o) else .out
    | none => .out
  else .out

/-- The place of the next word. -/
def Place.next : Place → Place
  | .priv o => .priv (o + 4)
  | .table o => .table (o + 4)
  | .out => .out

/-- The word of the private segment that holds offset `o`: the step's buffered store, otherwise the committed word (R86). -/
def State.privWord (s : State) (k : Task) (st : Step) (o : Nat) : Word :=
  match nmGet? st.wbuf (o / 4) with
  | some w => w
  | none => memWord s.dieMem (dieAddr k.die (k.dataBase + o / 4 * 4))

/-- A load of that word meets an uncorrectable error (R120): it is not buffered and its committed word is bad. -/
def State.privBad (s : State) (k : Task) (st : Step) (o : Nat) : Bool :=
  (nmGet? st.wbuf (o / 4)).isNone && s.badWord (dieAddr k.die (k.dataBase + o / 4 * 4))

/-- `n` words of the private segment from offset `o`. -/
def State.privWords (s : State) (k : Task) (st : Step) (o : Nat) : Nat → List Word
  | 0 => []
  | n + 1 => s.privWord k st o :: s.privWords k st (o + 4) n

/-- Some of `n` words of the private segment from offset `o` are bad. -/
def State.privBads (s : State) (k : Task) (st : Step) (o n : Nat) : Bool :=
  (List.range n).any (fun i => s.privBad k st (o + 4 * i))

/-- The byte offsets on the die of those of `n` words of the private segment from offset `o` that are read from memory. -/
def Task.privOffs (k : Task) (st : Step) (o n : Nat) : List Nat :=
  ((List.range n).filter (fun i => (nmGet? st.wbuf ((o + 4 * i) / 4)).isNone)).map
    (fun i => k.dataBase + (o + 4 * i) / 4 * 4)

/-- The byte offsets on the die of `n` words from a place that are read from memory. -/
def Task.placeOffs (k : Task) (st : Step) (n : Nat) : Place → List Nat
  | .priv o => k.privOffs st o n
  | .table o => (List.range n).map (fun i => o / 4 * 4 + 4 * i)
  | .out => []

/-- The word of a place that holds its byte, and whether it is bad. -/
def State.placeWord (s : State) (k : Task) (st : Step) : Place → Word × Bool
  | .priv o => (s.privWord k st o, s.privBad k st o)
  | .table o => (memWord s.dieMem (dieAddr k.die (o / 4 * 4)), s.badWord (dieAddr k.die o))
  | .out => (0, false)

/-- The causes of a load of `n` bytes from a place (R117, R118, R120). -/
def State.loadFaults (s : State) (k : Task) (st : Step) (a : Word) (n : Nat) : List (Option Nat) :=
  let p := k.place a.toNat n
  [failIf (p == .out) 0x02, failIf (a.toNat % n != 0) 0x03,
   failIf ((s.placeWord k st p).2 || (n == 8 && (s.placeWord k st p.next).2)) 0x06]

/-- The value of a load of `n` bytes (1, 2, 4), zero-extended (R137). -/
def State.loadVal (s : State) (k : Task) (st : Step) (a : Word) (n : Nat) : Word :=
  ((s.placeWord k st (k.place a.toNat n)).1 >>> (8 * (a.toNat % 4))) &&& BitVec.ofNat 32 (256 ^ n - 1)

/-- The value of a load of a doubleword. -/
def State.loadValD (s : State) (k : Task) (st : Step) (a : Word) : BitVec 64 :=
  let p := k.place a.toNat 8
  (s.placeWord k st p.next).1 ++ (s.placeWord k st p).1

/-- A load of `n` bytes (1, 2, 4): the value, or the lowest fault code (R129). -/
def State.load (s : State) (k : Task) (st : Step) (a : Word) (n : Nat) : Nat ⊕ Word :=
  match lowest (s.loadFaults k st a n) with
  | some c => .inl c
  | none => .inr (s.loadVal k st a n)

/-- A load of a doubleword. -/
def State.loadD (s : State) (k : Task) (st : Step) (a : Word) : Nat ⊕ BitVec 64 :=
  match lowest (s.loadFaults k st a 8) with
  | some c => .inl c
  | none => .inr (s.loadValD k st a)

/-- A word with the low `n` bytes of `v` in place of its bytes from byte `b` (R119). -/
def mergeWord (w v : Word) (b n : Nat) : Word :=
  let m : Word := BitVec.ofNat 32 ((256 ^ n - 1) * 256 ^ b)
  (w &&& ~~~m) ||| ((v <<< (8 * b)) &&& m)

/-- Write buffer entries in use (R86, R119). -/
def Step.entries (st : Step) : Nat := st.wbuf.length + st.extra

/-- The entries that stores to words `ws` of the private segment would add (R119). -/
def Step.newEntries (st : Step) (ws : List Nat) : Nat :=
  (ws.eraseDups.filter (fun w => (nmGet? st.wbuf w).isNone)).length

/-- Does a store to these words need a 257th entry (R86)? -/
def Step.storeLimit (st : Step) (ws : List Nat) : Bool := 256 < st.entries + st.newEntries ws

/-- The step with word `i` of the private segment buffered. -/
def Step.putWord (st : Step) (i : Nat) (v : Word) : Step := { st with wbuf := nmPut st.wbuf i v }

/-- The step with words buffered from word `i` upward. -/
def Step.putWords (st : Step) (i : Nat) : List Word → Step
  | [] => st
  | w :: r => (st.putWord i w).putWords (i + 1) r

/-- The offset of an address that must lie in the private segment for a store of `n` bytes. -/
def Task.privOff (k : Task) (a n : Nat) : Option Nat := if a + n ≤ k.dataBytes then some a else none

/-- A store of `n` bytes (1, 2, 4). A part of a word merges into it, also where the word has an uncorrectable error: a store
faults for none (R120; log entry 90). -/
def storeN (n : Nat) (ra rb : GReg) (off : BitVec 18) : Body := fun s k st =>
  let a := (effAddr (st.w.rg ra) off n).toNat
  guardAll s [failIf (k.privOff a n).isNone 0x02, failIf (a % n != 0) 0x03, failIf (st.storeLimit [a / 4]) 0x07] fun _ =>
    .go s (st.putWord (a / 4) (mergeWord (s.privWord k st a) (st.w.rg rb) (a % 4) n))

/-- A load of `n` bytes into a general register. -/
def loadN (n : Nat) (rd ra : GReg) (off : BitVec 18) : Body := fun s k st =>
  let a := effAddr (st.w.rg ra) off n
  guardMem s k.die (k.placeOffs st 1 (k.place a.toNat n)) (s.loadFaults k st a n) fun s =>
    .go s (st.wg rd (s.loadVal k st a n))

/-- LDB. -/
def bodyLdb (rd ra : GReg) (off : BitVec 18) : Body := loadN 1 rd ra off
/-- LDH. -/
def bodyLdh (rd ra : GReg) (off : BitVec 18) : Body := loadN 2 rd ra off
/-- LDW. -/
def bodyLdw (rd ra : GReg) (off : BitVec 18) : Body := loadN 4 rd ra off
/-- LDD. -/
def bodyLdd (x : TDst) (ra : GReg) (off : BitVec 18) : Body := fun s k st =>
  let a := effAddr (st.w.rg ra) off 8
  guardMem s k.die (k.placeOffs st 2 (k.place a.toNat 8)) (s.loadFaults k st a 8) fun s =>
    .go s (st.wt x (s.loadValD k st a))
/-- STB. -/
def bodyStb (ra rb : GReg) (off : BitVec 18) : Body := storeN 1 ra rb off
/-- STH. -/
def bodySth (ra rb : GReg) (off : BitVec 18) : Body := storeN 2 ra rb off
/-- STW. -/
def bodyStw (ra rb : GReg) (off : BitVec 18) : Body := storeN 4 ra rb off
/-- STD: two words (R119). -/
def bodyStd (ra : GReg) (tb : TReg) (off : BitVec 18) : Body := fun s k st =>
  let a := (effAddr (st.w.rg ra) off 8).toNat
  guardAll s [failIf (k.privOff a 8).isNone 0x02, failIf (a % 8 != 0) 0x03,
      failIf (st.storeLimit [a / 4, a / 4 + 1]) 0x07] fun _ =>
    .go s (st.putWords (a / 4) [loHalf (st.rt tb), hiHalf (st.rt tb)])

/-- LDB (R137). -/
def execLdb (t : Nat) (rd ra : GReg) (off : BitVec 18) (s : State) : Host.Outcome State Fault Refusal :=
  .next (s.issue t (.ldb t rd ra off) (bodyLdb rd ra off))

/-- LDH (R137). -/
def execLdh (t : Nat) (rd ra : GReg) (off : BitVec 18) (s : State) : Host.Outcome State Fault Refusal :=
  .next (s.issue t (.ldh t rd ra off) (bodyLdh rd ra off))

/-- LDW (R137). -/
def execLdw (t : Nat) (rd ra : GReg) (off : BitVec 18) (s : State) : Host.Outcome State Fault Refusal :=
  .next (s.issue t (.ldw t rd ra off) (bodyLdw rd ra off))

/-- LDD (R137). -/
def execLdd (t : Nat) (x : TDst) (ra : GReg) (off : BitVec 18) (s : State) : Host.Outcome State Fault Refusal :=
  .next (s.issue t (.ldd t x ra off) (bodyLdd x ra off))

/-- STB (R137). -/
def execStb (t : Nat) (ra rb : GReg) (off : BitVec 18) (s : State) : Host.Outcome State Fault Refusal :=
  .next (s.issue t (.stb t ra rb off) (bodyStb ra rb off))

/-- STH (R137). -/
def execSth (t : Nat) (ra rb : GReg) (off : BitVec 18) (s : State) : Host.Outcome State Fault Refusal :=
  .next (s.issue t (.sth t ra rb off) (bodySth ra rb off))

/-- STW (R137). -/
def execStw (t : Nat) (ra rb : GReg) (off : BitVec 18) (s : State) : Host.Outcome State Fault Refusal :=
  .next (s.issue t (.stw t ra rb off) (bodyStw ra rb off))

/-- STD (R137). -/
def execStd (t : Nat) (ra : GReg) (tb : TReg) (off : BitVec 18) (s : State) : Host.Outcome State Fault Refusal :=
  .next (s.issue t (.std t ra tb off) (bodyStd ra tb off))

end Sys2Proof.Machine
end

