-- ==== Sys2Proof/Machine/TimeInstr.lean ====
section
/-! DEFINITION. The time instructions and TNOW (R138, R139), BRK and NOP (R126, R140), and the instructions that end a step
(R159 to R162) or fault (R199). -/

namespace Sys2Proof.Machine

/-- TMOV, in its four forms: no flags. -/
def bodyTmov : TmovForm → Body
  | .move x a => fun s _ st => .go s (st.wt x (st.rt a))
  | .lo rd a => fun s _ st => .go s (st.wg rd (loHalf (st.rt a)))
  | .hi rd a => fun s _ st => .go s (st.wg rd (hiHalf (st.rt a)))
  | .pair x a b => fun s _ st => .go s (st.wt x (joinHalves (st.w.rg b) (st.w.rg a)))

/-- TADD: td = ta + sext64(gb); no flags. -/
def bodyTadd (x : TDst) (a : TReg) (b : GReg) : Body := fun s _ st =>
  .go s (st.wt x (st.rt a + (st.w.rg b).signExtend 64))

/-- TADDI: td = ta + sext64(extension word) × u; no flags. -/
def bodyTaddi (x : TDst) (a : TReg) (u : TUnit) (e : Word) : Body := fun s _ st =>
  .go s (st.wt x (st.rt a + e.signExtend 64 * BitVec.ofNat 64 (unitPicots u)))

/-- TSUB: Z and N from the signed result; C = V = 0. -/
def bodyTsub (x : TDst) (a b : TReg) : Body := fun s _ st =>
  let r := st.rt a - st.rt b
  .go s ((st.wt x r).wf (flagsZN64 r false false))

/-- TCMP: Z = (d = 0); N = C = (d < 0); V = 0. -/
def bodyTcmp (a b : TReg) : Body := fun s _ st =>
  let r := st.rt a - st.rt b
  .go s (st.wf ⟨r == 0, r.msb, r.msb, false⟩)

/-- TLEAD: tl if ta lies before it, else ta; C = clamped. -/
def bodyTlead (x : TDst) (a : TReg) : Body := fun s _ st =>
  let early := before (st.rt a) st.tl
  .go s ((st.wt x (if early then st.tl else st.rt a)).wf { st.w.fl with c := early })

/-- TCVT: floor of the signed difference over the unit, saturated; Z N; C = 0; V = saturated. -/
def bodyTcvt (rd : GReg) (a b : TReg) (u : TUnit) : Body := fun s _ st =>
  let q := dist (st.rt a) (st.rt b) / (unitPicots u : Int)
  let v := BitVec.ofInt 32 (sat32 q)
  goRd s st rd v (flagsSat v (outside32 q))

/-- The slack of a step at ground time g, in ns, saturated to 32 bits (R139). -/
def Task.slackNs (k : Task) (tAct g : Time) : Int := sat32 (dist (k.cutoff tAct) g / 64)

/-- The least slack probe `m` of a task has seen; 0x7FFF_FFFF where it has not run (R148). -/
def Task.mark (k : Task) (m : Nat) : Word := nmGet k.marks m 0x7FFFFFFF

/-- TNOW: the smaller of the slack and the stored value goes to CTX_MARK_m, whether or not the step commits (R90, R139). -/
def bodyTnow (t : Nat) (m : GReg) : Body := fun s k st =>
  let x := BitVec.ofInt 32 (k.slackNs st.act.t s.now)
  let v := if x.slt (k.mark m.val) then x else k.mark m.val
  .go (s.setTask t { k with marks := nmPut k.marks m.val v }) st

/-- NOP. -/
def bodyNop : Body := fun s _ st => .go s st

/-- The debug port is unlocked (R539). -/
def State.unlocked (s : State) : Bool := s.bit F.DBG_LOCK_unlocked pkg

/-- BRK: a NOP that counts, or a halt before the next instruction (R140). -/
def bodyBrk (t : Nat) : Body := fun s k st =>
  if s.unlocked && k.brk then .go (s.setTask t { k with halt := some (k.halt.getD s.now) }) st
  else .go (s.bump F.BRK_COUNT_count (dieIx k.die)) st

/-- PACKET_OPEN: END, WAIT or WAITE with a packet open (R158). -/
def Step.packetOpen (st : Step) : Option Nat := failIf (!st.pkts.isEmpty) 0x13

/-- The task has a SOURCE record for its timer (R161). -/
def Task.hasTimer (k : Task) : Bool := (k.source? 7 0).isSome

/-- END: commit; the next step starts at the entry offset of its activation's source (R159, R160). -/
def bodyEnd : Body := fun s _ st =>
  guardAll s [st.packetOpen] fun _ => .commit s st .entry none

/-- The causes for which WAIT and WAITE with a timer fault (R158, R161). -/
def timerFaults (k : Task) (st : Step) (ta : Time) : List (Option Nat) :=
  [st.packetOpen, failIf (before ta st.tl) 0x09, failIf (!k.hasTimer) 0x11]

/-- WAIT: set the timer, commit; the next step starts after the WAIT. -/
def bodyWait (a : TReg) : Body := fun s k st =>
  guardAll s (timerFaults k st (st.rt a)) fun _ => .commit s st (.afterWait st.w.pc) (some (st.rt a))

/-- WAITE: with a timer or without; the next step starts after it with rd written (R162). -/
def bodyWaite (rd : GReg) (a : Option TReg) : Body := fun s k st =>
  match a with
  | some a => guardAll s (timerFaults k st (st.rt a)) fun _ => .commit s st (.afterWaite st.w.pc rd) (some (st.rt a))
  | none => guardAll s [st.packetOpen] fun _ => .commit s st (.afterWaite st.w.pc rd) none

/-- FAULT: SOFTWARE with the task's own code (R199). -/
def bodyFault (code : BitVec 16) : Body := fun s _ _ => .trap s 0x0F code.toNat

/-- TMOV (R138). -/
def execTmov (t : Nat) (f : TmovForm) (s : State) : Host.Outcome State Fault Refusal :=
  .next (s.issue t (.tmov t f) (bodyTmov f))

/-- TADD (R138). -/
def execTadd (t : Nat) (x : TDst) (a : TReg) (b : GReg) (s : State) : Host.Outcome State Fault Refusal :=
  .next (s.issue t (.tadd t x a b) (bodyTadd x a b))

/-- TADDI (R138). -/
def execTaddi (t : Nat) (x : TDst) (a : TReg) (u : TUnit) (e : Word) (s : State) : Host.Outcome State Fault Refusal :=
  .next (s.issue t (.taddi t x a u e) (bodyTaddi x a u e))

/-- TSUB (R138). -/
def execTsub (t : Nat) (x : TDst) (a b : TReg) (s : State) : Host.Outcome State Fault Refusal :=
  .next (s.issue t (.tsub t x a b) (bodyTsub x a b))

/-- TCMP (R138). -/
def execTcmp (t : Nat) (a b : TReg) (s : State) : Host.Outcome State Fault Refusal :=
  .next (s.issue t (.tcmp t a b) (bodyTcmp a b))

/-- TLEAD (R138). -/
def execTlead (t : Nat) (x : TDst) (a : TReg) (s : State) : Host.Outcome State Fault Refusal :=
  .next (s.issue t (.tlead t x a) (bodyTlead x a))

/-- TCVT (R138). -/
def execTcvt (t : Nat) (rd : GReg) (a b : TReg) (u : TUnit) (s : State) : Host.Outcome State Fault Refusal :=
  .next (s.issue t (.tcvt t rd a b u) (bodyTcvt rd a b u))

/-- TNOW (R139). -/
def execTnow (t : Nat) (m : GReg) (s : State) : Host.Outcome State Fault Refusal :=
  .next (s.issue t (.tnow t m) (bodyTnow t m))

/-- BRK (R140). -/
def execBrk (t : Nat) (s : State) : Host.Outcome State Fault Refusal :=
  .next (s.issue t (.brk t) (bodyBrk t))

/-- NOP (R126). -/
def execNop (t : Nat) (s : State) : Host.Outcome State Fault Refusal :=
  .next (s.issue t (.nop t) (bodyNop))

/-- END (R159). -/
def execEndStep (t : Nat) (s : State) : Host.Outcome State Fault Refusal :=
  .next (s.issue t (.endStep t) (bodyEnd))

/-- WAIT (R159). -/
def execWait (t : Nat) (a : TReg) (s : State) : Host.Outcome State Fault Refusal :=
  .next (s.issue t (.wait t a) (bodyWait a))

/-- WAITE (R159). -/
def execWaite (t : Nat) (rd : GReg) (a : Option TReg) (s : State) : Host.Outcome State Fault Refusal :=
  .next (s.issue t (.waite t rd a) (bodyWaite rd a))

/-- FAULT (R199). -/
def execFault (t : Nat) (code : BitVec 16) (s : State) : Host.Outcome State Fault Refusal :=
  .next (s.issue t (.fault t code) (bodyFault code))

end Sys2Proof.Machine
end

