-- ==== Sys2Proof/Machine/QueueInstr.lean ====
section
/-! DEFINITION. The queue instructions (R187 to R193): a task reads and writes the queues it declares as of T. -/

namespace Sys2Proof.Machine

/-! ## The producer side -/

/-- The step's open packet on a handle slot of kind 0xA. -/
def Step.openAt (st : Step) (slot : Nat) : Option OpenPkt := st.pkts.find? (fun p => p.slot == slot)

/-- The step with an open packet replaced. -/
def Step.setPkt (st : Step) (p : OpenPkt) : Step :=
  { st with pkts := st.pkts.map (fun x => if x.slot = p.slot then p else x) }

/-- The words of the step's own packets on a queue, length slots included (R188). -/
def Step.ownWords (st : Step) (q : Nat) : Nat :=
  st.effs.foldl (fun a e => match e.kind with | .packet k ws => if k = q then a + ws.length + 1 else a | _ => a) 0 +
  st.pkts.foldl (fun a p => if p.queue = q ∧ p.isVoid = false then a + p.size + 1 else a) 0

/-- The producer's free words as of T (R188). -/
def State.queueFree (s : State) (st : Step) (q : Nat) : Nat := s.queFreeAt q st.act.t - st.ownWords q

/-- One write buffer entry for a queue word would be the 257th (R86, R154). -/
def Step.wordLimit (st : Step) : Bool := 256 < st.entries + 1

/-- The step with one write buffer entry more for a queue word. -/
def Step.addWord (st : Step) : Step := { st with extra := st.extra + 1 }

/-- A failed reservation: counted with the commit, and recorded with the words tested where a DMA channel or the host drains
the queue (R190); 0 words stand for a count alone. -/
def Step.addFull (s : State) (st : Step) (q words : Nat) : Step :=
  { st with fullRecs := st.fullRecs ++ [(q, if (s.que q).consKind = 0 then 0 else words)] }

/-- The step with flag C. -/
def Step.wc (st : Step) (c : Bool) : Step := st.wf { st.w.fl with c := c }

/-- QPUT (R189). -/
def bodyQput (t : Nat) (ga : GReg) (h : Handle) : Body := fun s k st =>
  match k.handle [10] h with
  | none => .trap s 0x0D 0
  | some r =>
    let v := st.w.rg ga
    match st.openAt (hSlot h) with
    | some p =>
      if p.isVoid then .go s st
      else guardAll s [failIf st.wordLimit 0x07, failIf (decide (p.size ≤ p.words.length)) 0x12] fun _ =>
        .go s ((st.setPkt { p with words := p.words ++ [v] }).addWord)
    | none =>
      if 2 ≤ s.queueFree st r.a then
        guardAll s [failIf st.wordLimit 0x07, st.effFault st.tl] fun _ =>
          .go s (((st.addEff t k st.tl (.packet r.a [v])).addWord).wc false)
      else .go s ((Step.addFull s st r.a 2).wc true)

/-- QRSV (R188). -/
def bodyQrsv (rd ga : GReg) (h : Handle) : Body := fun s k st =>
  let n := (st.w.rg ga).toNat
  match k.handle [10] h with
  | none => .trap s 0x0D 0
  | some r =>
    let free := s.queueFree st r.a
    let ok := decide (n + 1 ≤ free)
    guardAll s [failIf (ok && st.wordLimit) 0x07, failIf (decide (n = 0 ∨ 65535 < n)) 0x11,
        failIf (st.openAt (hSlot h)).isSome 0x13] fun _ =>
      let st' := { st with pkts := st.pkts ++ [⟨hSlot h, r.a, n, [], !ok⟩] }
      let st' := if ok then st'.addWord else Step.addFull s st' r.a (n + 1)
      let f := BitVec.ofNat 32 free
      goRd s st' rd f ⟨f == 0, f.msb, !ok, st.w.fl.v⟩

/-- QEND (R189): the packet is published at T + L; the unused reserved words return. -/
def bodyQend (t : Nat) (h : Handle) : Body := fun s k st =>
  match k.handle [10] h with
  | none => .trap s 0x0D 0
  | some r =>
    match st.openAt (hSlot h) with
    | none => .trap s 0x11 0
    | some p =>
      let st' := { st with pkts := st.pkts.filter (fun x => x.slot != p.slot) }
      if p.isVoid then .go s ((Step.addFull s st' r.a (p.size + 1)).wc true)
      else guardAll s [st.effFault st.tl] fun _ => .go s ((st'.addEff t k st.tl (.packet r.a p.words)).wc false)

/-! ## The consumer side -/

/-- The generation of a queue as of T (R191, R423). -/
def QueSt.genAt (x : QueSt) (t : Time) : Nat :=
  match x.gens.find? (fun e => upTo e.1 t), x.gens.getLast? with
  | some e, _ => e.2
  | none, some e => (e.2 + 65535) % 65536
  | none, none => x.gen

/-- The read point of the step on a queue; a task that has read nothing stands at the release point. -/
def State.readPoint (s : State) (st : Step) (q : Nat) : ReadPoint :=
  let x := s.que q
  nmGet st.rps q { rp := x.rel, mark := x.rel, rel := x.rel, gen := x.gen }

/-- The step with its read point on a queue set. -/
def Step.setRp (st : Step) (q : Nat) (p : ReadPoint) : Step := { st with rps := nmPut st.rps q p }

/-- The end of the words of packets committed at or before T (R191). -/
def QueSt.endAt (x : QueSt) (t : Time) : Nat :=
  x.pkts.foldl (fun a p => if upTo p.stamp t then max a p.fin else a) x.rel

/-- QGET (R191): the item at the read point, the length words included; else the idle item, counted as it executes (R90). -/
def bodyQget (rd : GReg) (h : Handle) : Body := fun s k st =>
  match k.handle [11] h with
  | none => .trap s 0x0D 0
  | some r =>
    let q := r.a
    let p := s.readPoint st q
    let g := (s.que q).genAt st.act.t
    let v := g != p.gen
    if p.rp < (s.que q).endAt st.act.t then
      guardMem s (q / 256) [s.ringOff q p.rp] [failIf (s.badWord (s.ringAddr q p.rp)) 0x06] fun s =>
        let w := s.ringWord q p.rp
        goRd s (st.setRp q { p with rp := p.rp + 1, gen := g }) rd w ⟨w == 0, w.msb, false, v⟩
    else
      let w := s.reg .QUE_IDLE (queIx q)
      goRd (s.bump F.QUE_IDLE_COUNT_idle_reads (queIx q)) (st.setRp q { p with gen := g }) rd w ⟨w == 0, w.msb, true, v⟩

/-- QMARK: mark := read point. -/
def bodyQmark (h : Handle) : Body := fun s k st =>
  match k.handle [11] h with
  | none => .trap s 0x0D 0
  | some r =>
    let p := s.readPoint st r.a
    .go s (st.setRp r.a { p with mark := p.rp })

/-- QREW: read point := mark, never below the release point (R192). -/
def bodyQrew (h : Handle) : Body := fun s k st =>
  match k.handle [11] h with
  | none => .trap s 0x0D 0
  | some r =>
    let p := s.readPoint st r.a
    .go s (st.setRp r.a { p with rp := max p.mark p.rel })

/-- QREL (R192): the release takes effect at T + L; it belongs to the generation in force (R423). -/
def bodyQrel (t : Nat) (h : Handle) : Body := fun s k st =>
  match k.handle [11] h with
  | none => guardAll s [some 0x0D, st.effFault st.tl] fun _ => .go s st
  | some r => guardAll s [st.effFault st.tl] fun _ =>
      let p := s.readPoint st r.a
      .go s ((st.addEff t k st.tl (.release r.a p.rp (s.que r.a).gen)).setRp r.a
        { p with rel := p.rp, mark := max p.mark p.rp })

/-- What QLVL reads (R193); none is BAD_OPERAND. -/
def State.qlevel (s : State) (st : Step) (kind q sel : Nat) : Option Nat :=
  let x := s.que q
  let p := s.readPoint st q
  if sel = 0 ∧ kind = 11 then some (x.endAt st.act.t - p.rp)
  else if sel = 1 ∧ kind = 11 then some (x.pkts.filter (fun y => upTo y.stamp st.act.t && decide (p.rp ≤ y.start))).length
  else if sel = 2 ∧ kind = 10 then some (s.queueFree st q)
  else if sel = 3 then some (x.genAt st.act.t)
  else none

/-- QLVL: Z and N from rd. -/
def bodyQlvl (rd ga : GReg) (h : Handle) : Body := fun s k st =>
  match k.handle [10, 11] h with
  | none => .trap s 0x0D 0
  | some r =>
    match s.qlevel st r.kind r.a (st.w.rg ga).toNat with
    | none => .trap s 0x11 0
    | some n =>
      let w := BitVec.ofNat 32 n
      goRd s st rd w { st.w.fl with z := w == 0, n := w.msb }

/-- QPUT (R187). -/
def execQput (t : Nat) (ga : GReg) (h : Handle) (s : State) : Host.Outcome State Fault Refusal :=
  .next (s.issue t (.qput t ga h) (bodyQput t ga h))

/-- QRSV (R187). -/
def execQrsv (t : Nat) (rd ga : GReg) (h : Handle) (s : State) : Host.Outcome State Fault Refusal :=
  .next (s.issue t (.qrsv t rd ga h) (bodyQrsv rd ga h))

/-- QEND (R187). -/
def execQend (t : Nat) (h : Handle) (s : State) : Host.Outcome State Fault Refusal :=
  .next (s.issue t (.qend t h) (bodyQend t h))

/-- QGET (R187). -/
def execQget (t : Nat) (rd : GReg) (h : Handle) (s : State) : Host.Outcome State Fault Refusal :=
  .next (s.issue t (.qget t rd h) (bodyQget rd h))

/-- QMARK (R187). -/
def execQmark (t : Nat) (h : Handle) (s : State) : Host.Outcome State Fault Refusal :=
  .next (s.issue t (.qmark t h) (bodyQmark h))

/-- QREW (R187). -/
def execQrew (t : Nat) (h : Handle) (s : State) : Host.Outcome State Fault Refusal :=
  .next (s.issue t (.qrew t h) (bodyQrew h))

/-- QREL (R187). -/
def execQrel (t : Nat) (h : Handle) (s : State) : Host.Outcome State Fault Refusal :=
  .next (s.issue t (.qrel t h) (bodyQrel t h))

/-- QLVL (R187). -/
def execQlvl (t : Nat) (rd ga : GReg) (h : Handle) (s : State) : Host.Outcome State Fault Refusal :=
  .next (s.issue t (.qlvl t rd ga h) (bodyQlvl rd ga h))

end Sys2Proof.Machine
end

