-- ==== Sys2Proof/Machine/Queues.lean ====
section
/-! DEFINITION. Hardware queues: publishes, releases, pacing, and their registers (R411 to R426); the granules of die memory
that tasks hold (R57, R213). -/

namespace Sys2Proof.Machine

/-! ## Granules (R57, R213) -/

/-- Bytes [lo, lo + n) of a die, taken in units of 256 bytes, touch granule `g` of 64 KiB. -/
def touches (lo n g : Nat) : Bool := n != 0 && lo / 65536 ≤ g && g ≤ (lo + (n + 255) / 256 * 256 - 1) / 65536

/-- A placement of a task on a die touches granule `g`: its code, its private segment, its table copies. -/
def placeTouches (codeBase codeWords dataBase dataBytes : Nat) (tables : List Table) (g : Nat) : Bool :=
  touches (4 * codeBase) (4 * codeWords) g || touches dataBase dataBytes g || tables.any (fun x => touches x.off x.len g)

/-- The placer has assigned granule `g` of die `d` to a task (R57, R213). -/
def State.granuleHeld (s : State) (d g : Nat) : Bool :=
  s.tasks.any (fun e =>
    let k := e.2
    (k.memHeld && k.die == d && placeTouches k.codeBase k.codeWords k.dataBase k.dataBytes k.tables g) ||
    (match k.mig with
     | some m => m.die == d && placeTouches m.codeBase k.codeWords m.dataBase k.dataBytes m.tables g
     | none => false))

/-- Some of the bytes at [off, off + n) of die `d` lie in a granule that a task holds. -/
def State.rangeHeld (s : State) (d off n : Nat) : Bool :=
  (List.range ((off + n - 1) / 65536 - off / 65536 + 1)).any (fun i => s.granuleHeld d (off / 65536 + i))

/-! ## Publish and release (R414 to R417) -/

/-- The oldest packet of a queue that is not visible yet. -/
def QueSt.nextPub (x : QueSt) : Option Pkt := x.pkts.find? (fun p => !p.vis)

/-- A release comes before a publish: at one stamp releases go first (R416). -/
def relFirst (r : Eff) (p : Pkt) : Bool := upTo r.stamp p.stamp

/-- QUEUE_PACKET_PUBLISH: the oldest unpublished packet of a queue becomes visible at its stamp (R414), unless a release comes before
it (R416). -/
def queuePublish (s : State) (q : Nat) : State :=
  match (s.que q).nextPub with
  | none => s
  | some p =>
    let waits := match (s.que q).relFx with | e :: _ => relFirst e p | [] => false
    if s.dieActs (q / 256) && !waits then (s.at p.stamp).publish q p else s

/-- QUEUE_PACKET_PUBLISH. -/
def execQueuePacketPublish (q : Nat) (s : State) : Host.Outcome State Fault Refusal := .next (queuePublish s q)

/-- A release of a task consumer takes effect at its stamp; one of an earlier generation frees nothing (R417, R423). -/
def State.applyRel (s : State) (q : Nat) (e : Eff) : State :=
  let s := (s.at e.stamp).modQue q (fun x => { x with relFx := x.relFx.erase e })
  match e.kind with
  | .release _ upTo gen => if gen = (s.que q).gen then s.releaseTo q upTo e.stamp else s
  | _ => s

/-- QREL_APPLY: the next release takes effect, unless a publish comes before it (R416). -/
def qrelApply (s : State) (q : Nat) : State :=
  match (s.que q).relFx with
  | [] => s
  | e :: _ =>
    let waits := match (s.que q).nextPub with | some p => !relFirst e p | none => false
    if s.dieActs (q / 256) && !waits then s.applyRel q e else s

/-- The releases and publishes of a queue stamped at or before `g` take effect in their order, at most `k` of them (R416). -/
def State.queEvents (s : State) (q : Nat) (g : Time) : Nat → State
  | 0 => s
  | k + 1 =>
    match (s.que q).relFx.head?.filter (fun e => upTo e.stamp g), (s.que q).nextPub.filter (fun p => upTo p.stamp g) with
    | some e, some p => (if relFirst e p then s.applyRel q e else (s.at p.stamp).publish q p).queEvents q g k
    | some e, none => (s.applyRel q e).queEvents q g k
    | none, some p => ((s.at p.stamp).publish q p).queEvents q g k
    | none, none => s

/-- QREL_APPLY. -/
def execQrelApply (q : Nat) (s : State) : Host.Outcome State Fault Refusal := .next (qrelApply s q)

/-- QUEUE_FLUSH_TIMEOUT: the oldest stored packet reaches flush_us and the request turns on (R419). -/
def queueFlush (s : State) (q : Nat) : State :=
  let us := s.fld F.QUE_FLUSH_flush_us (queIx q)
  match (s.que q).pkts.find? (fun p => p.vis) with
  | none => s
  | some p =>
    if us ≠ 0 ∧ (s.que q).consKind = 1 ∧ s.dieActs (q / 256) = true then
      (s.at (p.stamp + nsT (us * 1000))).request q true
    else s

/-- QUEUE_FLUSH_TIMEOUT. -/
def execQueueFlushTimeout (q : Nat) (s : State) : Host.Outcome State Fault Refusal := .next (queueFlush s q)

/-- A DMA or host release (R417): words up to a place are freed now; logged where the producer is a task (R98, R102). -/
def State.outRelease (s : State) (q upto : Nat) : State :=
  let n := upto - (s.que q).rel
  let s := if (s.que q).prodKind = 0 then s.log (q / 256) 0x08 0 q s.now [BitVec.ofNat 32 n] else s
  s.releaseTo q upto s.now

/-- A write of QUE_HOST_REL (R418). -/
def queHostRel (s : State) (_ : Port) (q : Nat) (v : Word) : State :=
  let x := s.que q
  let n := bitsOf v 0 17
  if x.bound && x.consKind == 2 && n != 0 && x.pkts.any (fun p => p.vis && p.fin == x.rel + n) then s.outRelease q (x.rel + n)
  else s.setBit F.QUE_STATUS_cfg_reject (queIx q) true

/-! ## The reset of a queue (R423) -/

/-- A read point at the start of a new generation (R423): the generation of the latest QGET stays, so that V is set. -/
def ReadPoint.restart (p : ReadPoint) : ReadPoint := { p with rp := 0, mark := 0, rel := 0 }

/-- The read points of a list with that of queue `q` restarted. -/
def restartRps (q : Nat) (l : List (Nat × ReadPoint)) : List (Nat × ReadPoint) :=
  l.map (fun e => if e.1 = q then (e.1, e.2.restart) else e)

/-- A task's read point on a queue restarts, in its committed state and in a step under way. -/
def Task.restartRp (k : Task) (q : Nat) : Task :=
  { k with rps := restartRps q k.rps, step := k.step.map (fun st => { st with rps := restartRps q st.rps }) }

/-- The words that a reset discards: stored, unpublished, on their way, and reserved by a DMA packet (R423, R424). -/
def State.queDiscard (s : State) (q : Nat) : Nat :=
  let x := s.que q
  x.wp - x.rel + s.queFlight q + x.reserved

/-- The notices that have been entered for packets that are not visible yet stay: each activates the task consumer at its T (R423). -/
def State.keepNotices (s : State) (q : Nat) : State :=
  let x := s.que q
  if x.consKind = 0 then
    match (s.task? x.consTask).bind (fun k => k.slotOf 11 q) with
    | some slot => (x.pkts.filter (fun p => !p.vis)).foldl (fun s p => s.activate x.consTask (p.notice q slot)) s
    | none => s
  else s

/-- A queue is reset at `g` (R423) and the fault recorded (R424): what it applies at or before `g` comes first (R416). The request turns
off, and on again where the level then asks for it (R419). -/
def State.queReset (s : State) (q : Nat) (g : Time) : State :=
  let s := (s.queEvents q g ((s.que q).relFx.length + (s.que q).pkts.length)).keepNotices q
  let x := s.que q
  let n := s.queDiscard q
  let gen := (x.gen + 1) % 65536
  let s := s.setQue q (QueSt.twin { x with
    wp := 0, rel := 0, pkts := [], rels := [], gen := gen, gens := (g, gen) :: x.gens, reserved := 0, dmaOpen := false, req := false })
  let s := { s with flight := s.flight.filter (fun e => match e.kind with | .packet k _ => k != q | _ => true) }
  let s := if x.consKind = 0 then s.modTask x.consTask (fun k => k.restartRp q) else s
  let s := (s.request q false).bump F.QUE_IDLE_COUNT_ptr_fault (queIx q)
  let s := s.bump F.FLT_UNIT_COUNT_other pkg
  s.faultRec (q / 256) (0x0A00 + q / 256) 0x36 g
    (leBytes q 2 ++ leBytes gen 2 ++ leBytes n 4 ++ [BitVec.ofNat 8 (b2n x.dmaOpen)])

/-! ## Writes of the queue registers (R419, R426) -/

/-- A side of the queue is a running task (QUE_STATUS.locked). -/
def State.queLocked (s : State) (q : Nat) : Bool :=
  let x := s.que q
  let runs := fun (t kind : Nat) => match s.task? t with | some k => k.isRunning && k.owns kind q | none => false
  x.bound && ((x.prodKind == 0 && runs x.prodTask 0xA) || (x.consKind == 0 && runs x.consTask 0xB))

/-- The value a write would leave in QUE_MARK_HI, QUE_MARK_LO or QUE_HOST_SRC is inside its range (R419, R426). -/
def State.queWriteOk (s : State) (r : Reg) (q : Nat) (v : Word) : Bool :=
  let x := s.que q
  let hi := if r = .QUE_MARK_HI then bitsOf v 0 17 else s.fld F.QUE_MARK_HI_mark_hi (queIx q)
  let lo := if r = .QUE_MARK_LO then bitsOf v 0 17 else s.fld F.QUE_MARK_LO_mark_lo (queIx q)
  match r with
  | .QUE_MARK_HI => lo < hi && hi ≤ x.cap
  | .QUE_MARK_LO => lo < hi && hi ≤ x.cap
  | .QUE_HOST_SRC => !bitOf v 12 || (64 ≤ bitsOf v 0 12 && !ownSource (bitsOf v 0 12))
  | _ => true

/-- A write of a RW register of a queue (R426). -/
def queCfgWrite (s : State) (_ : Port) (r : Reg) (q : Nat) (v : Word) : State :=
  let ix := queIx q
  if s.queLocked q then s.setBit F.QUE_STATUS_write_reject ix true
  else if !(s.que q).bound || !s.queWriteOk r q v then s.setBit F.QUE_STATUS_cfg_reject ix true
  else (s.plainWrite r ix v).request q (s.flushDue q s.now)

end Sys2Proof.Machine
end

