-- ==== Sys2Proof/Machine/Dma.lean ====
section
/-! DEFINITION. The DMA channels: descriptors, access checks, beats, writeback, parking and appending (R427 to R449). -/

namespace Sys2Proof.Machine

/-! ## Channels and descriptors -/

/-- A DMA channel. -/
def State.dma (s : State) (c : Nat) : DmaSt := nmGet s.dmas c DmaSt.reset

/-- DMA_STATUS.state of a phase (R448). -/
def DmaPhase.code : DmaPhase → Nat
  | .idle => 0
  | .fetch => 1
  | .pacing => 2
  | .moving => 1
  | .lengthHold => 2
  | .tailRead => 1
  | .parked => 3
  | .halted => 4

/-- The state with a channel set, its state field and bound bit with it. -/
def State.setDma (s : State) (c : Nat) (x : DmaSt) : State :=
  ({ s with dmas := nmPut s.dmas c x }.setFld F.DMA_STATUS_state (dmaIx c) x.phase.code).setBit F.DMA_STATUS_bound (dmaIx c)
    x.queue.isSome

/-- The state with a channel changed. -/
def State.modDma (s : State) (c : Nat) (f : DmaSt → DmaSt) : State := s.setDma c (f (s.dma c))

/-- Word `k` of the descriptor in hand. -/
def DmaSt.w (x : DmaSt) (k : Nat) : Word := x.desc.getD k 0

/-- The 64-bit value at words `k` and `k + 1` of the descriptor. -/
def DmaSt.w64 (x : DmaSt) (k : Nat) : Nat := (joinHalves (x.w (k + 1)) (x.w k)).toNat

/-- Source space, destination space, mode, length, count, size exponent (R429). -/
def DmaSt.srcSpace (x : DmaSt) : Nat := bitsOf (x.w 0) 26 2
/-- Destination space. -/
def DmaSt.dstSpace (x : DmaSt) : Nat := bitsOf (x.w 0) 24 2
/-- Mode. -/
def DmaSt.mode (x : DmaSt) : Nat := bitsOf (x.w 0) 21 3
/-- Length in bytes. -/
def DmaSt.length (x : DmaSt) : Nat := bitsOf (x.w 1) 0 24
/-- Elements or list entries. -/
def DmaSt.elems (x : DmaSt) : Nat := bitsOf (x.w 10) 0 16
/-- Bytes of an element. -/
def DmaSt.esize (x : DmaSt) : Nat := 2 ^ bitsOf (x.w 10) 16 3

/-- Local channels 0 and 1 are privileged (R427). -/
def dmaPriv (c : Nat) : Bool := c % 8 < 2

/-- DMA_CUR of a channel. -/
def State.dmaCur (s : State) (c : Nat) : Nat := (s.reg64 .DMA_CUR_LO .DMA_CUR_HI (dmaIx c)).toNat

/-- The state with DMA_CUR set. -/
def State.setCur (s : State) (c a : Nat) : State := s.setReg64 .DMA_CUR_LO .DMA_CUR_HI (dmaIx c) (BitVec.ofNat 64 a)

/-- The space code of a channel's descriptors (R428). -/
def State.descSpace (s : State) (c : Nat) : Nat := s.fld F.DMA_CTRL_desc_space (dmaIx c)

/-! ## What a channel may reach (R427) -/

/-- What an access finds: permitted, ACCESS, a bus error (a fenced die, R439), or not to be made now (R453). -/
inductive DmaAcc where
  | ok | access | bus | waits
  deriving DecidableEq, Repr

/-- An access of `n` bytes at offset `o` of die `d`. -/
def State.dmaDieAccess (s : State) (c d o n : Nat) (write : Bool) : DmaAcc :=
  if !s.present d then .access
  else if !dmaPriv c && (d != c / 8 || s.rangeHeld d o n) then .access
  else if dmaPriv c && write && s.rangeHeld d o n then .access
  else if (s.die d).fenced then .bus
  else if (s.die d).live then .ok else .access

/-- What two parts of an access find together. -/
def DmaAcc.and : DmaAcc → DmaAcc → DmaAcc
  | .access, _ => .access
  | _, .access => .access
  | .bus, _ => .bus
  | _, .bus => .bus
  | .waits, _ => .waits
  | _, .waits => .waits
  | .ok, .ok => .ok

/-- An access of `n` bytes at `a` of a space by channel `c`; in die memory, of each die that it touches. -/
def State.dmaAccess (s : State) (c space a n : Nat) (write : Bool) : DmaAcc :=
  if space = 0 then
    let base := (s.reg64 .DMA_HWIN_BASE_LO .DMA_HWIN_BASE_HI (dmaIx c)).toNat
    let size := s.fld F.DMA_HWIN_SIZE_pages (dmaIx c) * 4096
    if !dmaPriv c && !(base ≤ a && a + n ≤ base + size) then .access
    else if s.pcieUp then .ok else .waits
  else if space = 1 then
    (List.range ((a + n - 1) / 0x400000 - a / 0x400000 + 1)).foldl (fun r i =>
      let d := a / 0x400000 + i
      let lo := max a (d * 0x400000)
      let hi := min (a + n) ((d + 1) * 0x400000)
      r.and (s.dmaDieAccess c d (lo - d * 0x400000) (hi - lo) write)) .ok
  else .ok

/-- Bytes read from host memory or die memory. -/
def State.dmaRead (s : State) (space a n : Nat) : List Byte :=
  if space = 0 then memReadList s.hostMem a n else memReadList s.dieMem a n

/-- An uncorrectable error among bytes of die memory (R439). -/
def State.dmaEcc (s : State) (space a n : Nat) : Bool :=
  space == 1 && (List.range ((a + n - 1) / 4 - a / 4 + 1)).any (fun i => s.badWord (a / 4 * 4 + 4 * i))

/-- The state with bytes written to host memory or die memory. -/
def State.dmaWrite (s : State) (space a : Nat) (bs : List Byte) : State :=
  if space = 0 then { s with hostMem := memWriteList s.hostMem a bs }
  else s.writeDie (a / 0x400000) (a % 0x400000) bs

/-- The words of a byte list of whole words. -/
def State.dmaWords (s : State) (space a n : Nat) : List Word := bytesWords (s.dmaRead space a (4 * n))

/-! ## How a descriptor ends (R433, R440, R441) -/

/-- The channel's router source (R443). -/
def dmaSource (c : Nat) : Nat := 0x0900 + c

/-- Post the channel's source. -/
def State.dmaPost (s : State) (c : Nat) : State := (s.postShared (dmaSource c)).wake

/-- Bytes of the descriptor that count as moved: whole packets for a queue source (R432), else every byte. -/
def State.dmaDone (s : State) (c : Nat) : Nat :=
  let x := s.dma c
  if x.srcSpace = 2 then x.moved.length - x.segDone else x.moved.length

/-- The status word of a writeback (R429); an abort of a channel that holds a length word leaves the whole length (R441). -/
def State.dmaStatusWord (s : State) (c err : Nat) : Word :=
  let x := s.dma c
  let left := if err = 5 ∧ x.phase = .lengthHold then x.length else x.length - s.dmaDone c
  BitVec.ofNat 32 (left + err * 2 ^ 24 + min x.retries 15 * 2 ^ 28)

/-- The writeback of R433: words 15, 14 and 0, in this order; `none` where an access fails. -/
def State.writeback (s : State) (c err : Nat) (w0 : Word) : Option State :=
  let sp := s.descSpace c
  let cur := s.dmaCur c
  match s.dmaAccess c sp cur 64 true with
  | .ok =>
    let st := s.dmaStatusWord c err
    let crc := crc32c (s.dma c).moved
    let s := s.dmaWrite sp (cur + 60) (wordBytes crc)
    let s := s.dmaWrite sp (cur + 56) (wordBytes st)
    some (s.dmaWrite sp cur (wordBytes (w0 &&& 0x3FFFFFFF)))
  | _ => none

/-- A queue-source descriptor releases the packets moved whole (R417, R432); a queue-destination descriptor that has not
published returns its reservation (R431). -/
def State.dmaSettle (s : State) (c : Nat) : State :=
  let x := s.dma c
  match x.queue with
  | none => s
  | some q =>
    let s := if x.srcSpace = 2 ∧ x.pktEnds ≠ [] then s.outRelease q (x.pktEnds.foldl max 0) else s
    if x.dstSpace = 2 ∧ (s.que q).dmaOpen = true then
      (s.modQue q (fun y => { y with reserved := 0, dmaOpen := false })).request q false
    else s

/-- A channel forgets its descriptor. -/
def DmaSt.clear (x : DmaSt) (p : DmaPhase) : DmaSt :=
  { x with phase := p, desc := [], segs := [], segDone := 0, back := false, moved := [], retries := 0, beatTries := 0,
           pktEnds := [], hold := false, wb := none }

/-- The channel halts (R440, R444): halted, its source posted, a DMA_HALT record. -/
def State.dmaHalt (s : State) (c err : Nat) (wbFail : Bool) : State :=
  let ix := dmaIx c
  let s := s.modDma c (fun x => x.clear .halted)
  let s := s.setBit F.DMA_STATUS_halted ix true
  let s := if wbFail then s.setBit F.DMA_STATUS_wb_fail ix true else s
  let s := s.dmaPost c
  let s := s.bump F.FLT_UNIT_COUNT_other pkg
  s.faultRec (c / 8) (dmaSource c) 0x37 s.now
    (leBytes c 2 ++ [BitVec.ofNat 8 err, BitVec.ofNat 8 (b2n wbFail)] ++ leBytes (s.dmaCur c) 8)

/-- The channel holds its descriptor's words; one whose fetch did not end well takes them as they stand (R440). -/
def State.dmaHold (s : State) (c : Nat) : State :=
  if (s.dma c).desc = [] then s.modDma c (fun x => { x with desc := s.dmaWords (s.descSpace c) (s.dmaCur c) 16 }) else s

/-- After the writeback of a descriptor that did not complete: an aborted channel is idle, `aborted` set and its source posted (R441);
any other halts (R440). -/
def State.dmaStopped (s : State) (c err : Nat) (wbFail : Bool) : State :=
  if err = 5 then
    let s := s.modDma c (fun x => x.clear .idle)
    let s := if wbFail then s.setBit F.DMA_STATUS_wb_fail (dmaIx c) true else s
    (s.setBit F.DMA_STATUS_aborted (dmaIx c) true).dmaPost c
  else s.dmaHalt c err wbFail

/-- A descriptor ends without completing (R440, R441): its queue side settles and the writeback follows. A writeback to host space
waits while the function may issue no request (R453). -/
def State.dmaEnd (s : State) (c err : Nat) : State :=
  if s.dmaAccess c (s.descSpace c) (s.dmaCur c) 64 true = .waits then
    (s.dmaSettle c).modDma c (fun x => { x with pktEnds := [], wb := some err })
  else
    let s := s.dmaHold c
    match s.writeback c err ((s.dma c).w 0) with
    | some s => (s.dmaSettle c).dmaStopped c err false
    | none => (s.dmaSettle c).dmaStopped c err true

/-- A descriptor ends with an error (R440). `at_` is the address of the beat or descriptor. -/
def State.dmaFail (s : State) (c err at_ : Nat) : State :=
  ((s.setFld F.DMA_STATUS_last_error (dmaIx c) err).setReg64 .DMA_ERR_ADDR_LO .DMA_ERR_ADDR_HI (dmaIx c)
    (BitVec.ofNat 64 at_)).dmaEnd c err

/-! ## Checks of a fetched descriptor (R430, R434) -/

/-- Queue space stands only where the mode allows it, and on one side (R430). -/
def DmaSt.spacesOk (x : DmaSt) : Bool :=
  let s := x.srcSpace
  let d := x.dstSpace
  s != 3 && d != 3 &&
  (match x.mode with
   | 0 => !(s == 2 && d == 2)
   | 1 => s != 2
   | 3 => s != 2
   | _ => s != 2 && d != 2)

/-- The descriptor's own words are sound (R434). -/
def DmaSt.wordsOk (x : DmaSt) (c cur : Nat) : Bool :=
  let m := x.mode
  bitOf (x.w 0) 31 && x.length != 0 && !bitOf (x.w 0) 28 && bitsOf (x.w 0) 16 5 == 0 && bitsOf (x.w 1) 24 8 == 0 &&
  bitsOf (x.w 10) 19 13 == 0 && x.w 11 == 0 && decide (m ≤ 4) && x.spacesOk && (decide (m < 3) || dmaPriv c) &&
  cur % 64 == 0 &&
  (if m = 1 ∨ m = 2 then bitsOf (x.w 10) 16 3 != 7 && x.length == x.elems * x.esize && x.w64 8 % 4 == 0
   else if m = 3 ∨ m = 4 then x.elems != 0 && x.w64 8 % 16 == 0 else true) &&
  (if x.srcSpace = 2 ∨ x.dstSpace = 2 then x.length % 4 == 0 else true)

/-- The entries of a scatter-gather list: address, length, and whether word 3 and the reserved bits are 0. -/
def sgEntries : List Word → List (Nat × Nat × Bool)
  | a :: b :: l :: z :: r =>
    ((joinHalves b a).toNat, bitsOf l 0 24, bitsOf l 24 8 == 0 && z == 0 && bitsOf l 0 24 != 0) :: sgEntries r
  | _ => []

/-- The segments of the elements from an index table or list, the other side running linearly from `lin`. -/
def segsOf (gather : Bool) (lin : Nat) : List (Nat × Nat) → List DmaSeg
  | [] => []
  | (a, n) :: r => (if gather then ⟨a, lin, n⟩ else ⟨lin, a, n⟩) :: segsOf gather (lin + n) r

/-- What the checks of a descriptor find: an error and the address it concerns, not yet (R453), or its segments (empty for a
queue source, whose segments come packet by packet). Queue positions count bytes since the generation began. -/
inductive DmaPlan where
  | err (e at_ : Nat)
  | bus (at_ : Nat)
  | waits
  | run (segs : List DmaSeg)
  deriving DecidableEq, Repr

/-- The list part of a descriptor: addresses and lengths of its elements or entries (R430). -/
def State.dmaList (s : State) (c : Nat) (x : DmaSt) : Except DmaPlan (List (Nat × Nat)) :=
  let sp := s.descSpace c
  let a := x.w64 8
  let sg := decide (3 ≤ x.mode)
  let n := x.elems * (if sg then 16 else 4)
  match s.dmaAccess c sp a n false with
  | .access => .error (.err 2 a)
  | .bus => .error (.bus a)
  | .waits => .error .waits
  | .ok =>
    if s.dmaEcc sp a n then .error (.err 4 a)
    else
      let ws := s.dmaWords sp a (n / 4)
      if sg then
        let es := sgEntries ws
        if es.any (fun e => !e.2.2) || es.foldl (fun a e => a + e.2.1) 0 != x.length then .error (.err 1 (s.dmaCur c))
        else .ok (es.map (fun e => (e.1, e.2.1)))
      else .ok (ws.map (fun w => ((if x.mode = 1 then x.w64 2 else x.w64 4) + w.toNat, x.esize)))

/-- The plan of the descriptor in hand. -/
def State.dmaPlan (s : State) (c : Nat) : DmaPlan :=
  let x := s.dma c
  let cur := s.dmaCur c
  if !x.wordsOk c cur then .err 1 cur
  else
    let badQ := fun (q : Nat) (prod : Bool) => match x.queue with
      | none => true
      | some b => b != q || (if prod then (s.que b).prodKind != 1 else (s.que b).consKind != 1)
    if x.srcSpace = 2 then (if badQ (x.w64 2) false then .err 2 (x.w64 2) else .run [])
    else if x.dstSpace = 2 ∧ badQ (x.w64 4) true = true then .err 2 (x.w64 4)
    else if x.dstSpace = 2 ∧ (s.que (x.w64 4)).cap < x.length / 4 + 1 then .err 6 cur
    else
      let lin := if x.dstSpace = 2 then 4 * ((s.que (x.w64 4)).wp + 1) else x.w64 4
      match x.mode with
      | 0 => .run [⟨x.w64 2, lin, x.length⟩]
      | 1 => match s.dmaList c x with | .error e => e | .ok l => .run (segsOf true lin l)
      | 3 => match s.dmaList c x with | .error e => e | .ok l => .run (segsOf true lin l)
      | _ => match s.dmaList c x with | .error e => e | .ok l => .run (segsOf false (x.w64 2) l)

/-! ## Pacing and the start of the move (R420, R421, R431, R432) -/

/-- The queue that the descriptor in hand names, if it names one. -/
def DmaSt.named (x : DmaSt) : Option Nat := if x.srcSpace = 2 ∨ x.dstSpace = 2 then x.queue else none

/-- The oldest visible packet from word `pos` on. -/
def QueSt.visibleAt (x : QueSt) (pos : Nat) : Option Pkt := x.pkts.find? (fun p => p.vis && p.start == pos)

/-- A descriptor may start now. -/
def State.dmaPaced (s : State) (c : Nat) : Bool :=
  let x := s.dma c
  match x.named with
  | none => true
  | some q =>
    let y := s.que q
    (!s.bit F.DMA_CTRL_paced (dmaIx c) || y.req) &&
    (if x.dstSpace = 2 then decide (x.length / 4 + 1 ≤ y.freeNow) else y.pkts.any (fun p => p.vis))

/-- Does the segment run backward: its ranges overlap in one space and the destination is the higher (R436)? -/
def DmaSt.backward (x : DmaSt) (g : DmaSeg) : Bool :=
  x.srcSpace == x.dstSpace && x.srcSpace != 2 && decide (g.src < g.dst) && decide (g.dst < g.src + g.len)

/-- The channel begins its next segment. -/
def DmaSt.begin (x : DmaSt) : DmaSt :=
  { x with segDone := 0, back := match x.segs with | g :: _ => x.backward g | [] => false }

/-- The packet a queue-source descriptor takes next, as a segment, if one is visible and fits the bytes that remain. -/
def State.nextPkt (s : State) (c : Nat) : Option Pkt :=
  let x := s.dma c
  match x.queue with
  | none => none
  | some q =>
    let pos := x.pktEnds.foldl max (s.que q).rel
    (s.que q).visibleAt pos

/-- A packet fits the bytes that a queue-source descriptor has left (R432). -/
def State.pktFits (s : State) (c : Nat) (p : Pkt) : Bool := decide (4 * (p.n + 1) ≤ (s.dma c).length - s.dmaDone c)

/-- The segment of a packet. -/
def State.pktSeg (s : State) (c : Nat) (p : Pkt) : DmaSeg := ⟨4 * p.start, (s.dma c).w64 4 + s.dmaDone c, 4 * (p.n + 1)⟩

/-- Segments whose destinations follow one another from a byte position. -/
def lineUp (pos : Nat) : List DmaSeg → List DmaSeg
  | [] => []
  | g :: r => ⟨g.src, pos, g.len⟩ :: lineUp (pos + g.len) r

/-- The move begins: a queue destination reserves its words (R431), a queue source takes its first packet (R432). -/
def State.dmaBegin (s : State) (c : Nat) (segs : List DmaSeg) : State :=
  let x := s.dma c
  let s := s.setDma c { x with phase := .moving, segs := segs, waitSince := s.now }.begin
  match x.named with
  | none => s
  | some q =>
    if x.dstSpace = 2 then
      let pos := 4 * ((s.que q).wp + 1)
      let s := s.modDma c (fun x => { x with segs := lineUp pos x.segs }.begin)
      (s.modQue q (fun y => { y with reserved := x.length / 4 + 1, dmaOpen := true })).request q false
    else
      match s.nextPkt c with
      | none => s.dmaFail c 6 (s.dmaCur c)
      | some p =>
        if s.pktFits c p then s.modDma c (fun x => { x with segs := [s.pktSeg c p] }.begin)
        else s.dmaFail c 6 (s.dmaCur c)

/-- A failed beat at `a` is retried up to retry_max times; then the descriptor ends with BUS (R439). -/
def State.dmaBusError (s : State) (c a : Nat) : State :=
  let x := s.dma c
  if x.beatTries < s.fld F.DMA_CTRL_retry_max (dmaIx c) then
    (s.setDma c { x with beatTries := x.beatTries + 1, retries := x.retries + 1 }).bump F.DMA_RETRY_COUNT_count (dmaIx c)
  else s.dmaFail c 3 a

/-- A beat succeeds: on a retry it is a corrected fault (R439). -/
def State.dmaBeatOk (s : State) (c : Nat) : State :=
  if (s.dma c).beatTries = 0 then s
  else (s.modDma c (fun x => { x with beatTries := 0 })).bump F.FLT_CORR_COUNT_1_dma_retry pkg

/-- The engine reads `n` bytes of its descriptor at `a` and goes on, unless the access ends the descriptor, is retried, or waits (R427,
R439, R453). -/
def State.dmaOwnRead (s : State) (c a n : Nat) (f : State → State) : State :=
  let sp := s.descSpace c
  match s.dmaAccess c sp a n false with
  | .waits => s
  | .access => s.dmaFail c 2 a
  | .bus => s.dmaBusError c a
  | .ok => if s.dmaEcc sp a n then s.dmaFail c 4 a else f (s.dmaBeatOk c)

/-- A checked descriptor starts if its pacing lets it, else it waits. -/
def State.dmaGo (s : State) (c : Nat) : State :=
  match s.dmaPlan c with
  | .err e a => s.dmaFail c e a
  | .bus a => s.dmaBusError c a
  | .waits => s
  | .run segs => if s.dmaPaced c then s.dmaBegin c segs else s.modDma c (fun x => { x with phase := .pacing, waitSince := s.now })

/-! ## Commands and events -/

/-- A channel acts: its die runs, and no writeback of it waits (R453). -/
def State.dmaActs (s : State) (c : Nat) : Bool := s.dieActs (c / 8) && (s.dma c).wb.isNone

/-- The writebacks that waited for the bus are made (R453). -/
def State.dmaResume (s : State) : State :=
  (List.range 64).foldl (fun s c => match (s.dma c).wb with
    | some err => if s.pcieUp && s.dieActs (c / 8) then s.dmaEnd c err else s
    | none => s) s

/-- A write of DMA_CMD (R433, R441). -/
def dmaCmdWrite (s : State) (_ : Port) (c : Nat) (v : Word) : State :=
  let ix := dmaIx c
  let x := s.dma c
  let start := bitOf v 0
  let abort := bitOf v 1
  let stopped := x.phase == .idle || x.phase == .halted
  if start && abort then s.setBit F.DMA_STATUS_cmd_reject ix true
  else if start then
    if stopped then
      let s := s.setReg64 .DMA_CUR_LO .DMA_CUR_HI ix (s.reg64 .DMA_HEAD_LO .DMA_HEAD_HI ix)
      (s.setBit F.DMA_STATUS_wb_fail ix false).setDma c (x.clear .fetch)
    else s.setBit F.DMA_STATUS_cmd_reject ix true
  else if abort then
    if stopped then s.setBit F.DMA_STATUS_cmd_reject ix true
    else
      if x.phase = .parked ∧ x.wb = none then s.dmaStopped c 5 false
      else (s.setFld F.DMA_STATUS_last_error ix 5).dmaEnd c 5
  else s

/-- A write of DMA_APPEND, whatever its value (R447). -/
def dmaAppendWrite (s : State) (_ : Port) (c : Nat) (_ : Word) : State :=
  s.setReg .DMA_APPEND_COUNT (dmaIx c) (s.reg .DMA_APPEND_COUNT (dmaIx c) + 1)

/-- Writes of DMA_CTRL, DMA_HEAD and DMA_HWIN: only while idle or halted (R449). -/
def dmaCfgWrite (s : State) (c : Nat) (f : State → State) : State :=
  let p := (s.dma c).phase
  if p = .idle ∨ p = .halted then f s else s.setBit F.DMA_STATUS_write_reject (dmaIx c) true

/-- DMA_DESC_FETCH_DONE: the descriptor is in hand and is checked (R433, R434). -/
def dmaFetchDone (s : State) (c : Nat) : State :=
  let x := s.dma c
  let cur := s.dmaCur c
  let sp := s.descSpace c
  if x.phase = .fetch ∧ s.dmaActs c = true then
    if cur % 64 ≠ 0 then s.dmaFail c 1 cur
    else s.dmaOwnRead c cur 64 fun s => (s.modDma c (fun x => { x with desc := s.dmaWords sp cur 16 })).dmaGo c
  else s

/-- DMA_DESC_FETCH_DONE. -/
def execDmaDescFetchDone (c : Nat) (s : State) : Host.Outcome State Fault Refusal := .next (dmaFetchDone s c)

/-- DMA_PACING_MET: a descriptor that waited starts (R420, R431, R432). -/
def dmaPacingMet (s : State) (c : Nat) (g : Time) : State :=
  if (s.dma c).phase = .pacing ∧ s.dmaActs c = true ∧ s.dmaPaced c = true then
    let s := s.at g
    match s.dmaPlan c with
    | .err e a => s.dmaFail c e a
    | .bus a => s.dmaBusError c a
    | .waits => s
    | .run segs => s.dmaBegin c segs
  else s

/-- DMA_PACING_MET. -/
def execDmaPacingMet (c : Nat) (g : Time) (s : State) : Host.Outcome State Fault Refusal := .next (dmaPacingMet s c g)

/-- The next beat of a channel: source address, destination address, bytes, and its place in the segment (R435). -/
def DmaSt.beat (x : DmaSt) : Option (Nat × Nat × Nat) :=
  match x.segs with
  | [] => none
  | g :: _ =>
    let left := g.len - x.segDone
    if x.back then
      let n := min left ((g.src + left - 1) % 32 + 1)
      some (g.src + left - n, g.dst + left - n, n)
    else
      let n := min left (32 - (g.src + x.segDone) % 32)
      some (g.src + x.segDone, g.dst + x.segDone, n)

/-- What the access of the next beat meets on each side. -/
def State.beatAccess (s : State) (c : Nat) (src dst n : Nat) : DmaAcc :=
  let x := s.dma c
  (s.dmaAccess c x.srcSpace src n false).and (s.dmaAccess c x.dstSpace dst n true)

/-- The data path of the die grants the channel its beat (R438): no requesting channel of higher priority; between equals the one that
holds the grant keeps it to the end of its descriptor, and else it goes to the one that has waited longest. -/
def State.dmaGranted (s : State) (c : Nat) : Bool :=
  let prio := fun (k : Nat) => s.fld F.DMA_CTRL_prio (dmaIx k)
  let asks := fun (k : Nat) => (s.dma k).phase == .moving && (s.dma k).wb.isNone &&
    (match (s.dma k).beat with | some (a, b, n) => s.beatAccess k a b n != .waits | none => false)
  (List.range 8).all (fun i =>
    let k := c / 8 * 8 + i
    k == c || !asks k || decide (prio k < prio c) ||
    (prio k == prio c && ((s.dma c).hold || (!(s.dma k).hold && (before (s.dma c).waitSince (s.dma k).waitSince ||
      ((s.dma c).waitSince == (s.dma k).waitSince && c < k))))))

/-- The channel takes the grant among the channels of its priority on its die (R438). -/
def State.dmaTake (s : State) (c : Nat) : State :=
  let prio := fun (k : Nat) => s.fld F.DMA_CTRL_prio (dmaIx k)
  (List.range 8).foldl (fun s i =>
    let k := c / 8 * 8 + i
    if prio k = prio c ∧ (s.dma k).hold ≠ (k == c) then s.modDma k (fun x => { x with hold := k == c }) else s) s

/-- Bytes at byte position `a` of the ring of a queue (counted since the generation began). -/
def State.ringBytes (s : State) (q a n : Nat) : List Byte :=
  (List.range n).map (fun i => memRead s.dieMem (s.ringAddr q ((a + i) / 4) + (a + i) % 4))

/-- Bytes written at byte position `a` of the ring of a queue. -/
def State.ringPut (s : State) (q a : Nat) (bs : List Byte) : State :=
  bs.zipIdx.foldl (fun s b =>
    let p := s.ringAddr q ((a + b.2) / 4) + (a + b.2) % 4
    { s with dieMem := memWrite s.dieMem p b.1, ecc := s.ecc.filter (fun w => w != p / 4 * 4),
             weak := s.weak.filter (fun w => w != p / 4 * 4) }) s

/-- The bytes of a beat reach their destination. -/
def State.beatWrite (s : State) (c dst : Nat) (bs : List Byte) : State :=
  let x := s.dma c
  if x.dstSpace = 2 then (match x.queue with | some q => s.ringPut q dst bs | none => s) else s.dmaWrite x.dstSpace dst bs

/-- The bytes of a beat are read. -/
def State.beatRead (s : State) (c src n : Nat) : List Byte :=
  let x := s.dma c
  if x.srcSpace = 2 then (match x.queue with | some q => s.ringBytes q src n | none => []) else s.dmaRead x.srcSpace src n

/-- The channel has moved everything: the tail of its descriptor is read, the append count sampled (R433). -/
def State.dmaTail (s : State) (c : Nat) : State :=
  s.modDma c (fun x => { x with phase := .tailRead, pktEnds := [], count := s.reg .DMA_APPEND_COUNT (dmaIx c) })

/-- A segment has ended: the next one, the next packet of a queue source, the length word of a queue destination, or the end. -/
def State.segEnd (s : State) (c : Nat) : State :=
  let x := s.dma c
  match x.segs with
  | [] => s
  | g :: rest =>
    let x' : DmaSt := { x with segs := rest, pktEnds := if x.srcSpace = 2 then x.pktEnds ++ [(g.src + g.len) / 4] else x.pktEnds }
    let s := s.setDma c x'.begin
    if rest ≠ [] then s
    else if x.srcSpace = 2 then
      match s.nextPkt c with
      | some p => if s.pktFits c p then s.modDma c (fun x => { x with segs := [s.pktSeg c p] }.begin) else (s.dmaSettle c).dmaTail c
      | none => (s.dmaSettle c).dmaTail c
    else if x.dstSpace = 2 then s.modDma c (fun x => { x with phase := .lengthHold, waitSince := s.now })
    else s.dmaTail c

/-- DMA_BEAT_DONE: one beat is read and written (R435, R436), counted, and a retry that succeeds is a corrected fault
(R439). -/
def dmaBeatDone (s : State) (c : Nat) (g : Time) : State :=
  let x := s.dma c
  if x.phase = .moving ∧ s.dmaActs c = true ∧ s.dmaGranted c = true then
    match x.beat with
    | none => s
    | some (src, dst, n) =>
      match s.beatAccess c src dst n with
      | .access => (s.at g).dmaFail c 2 src
      | .bus => (s.at g).dmaBusError c src
      | .waits => s
      | .ok =>
        let s := (s.at g).dmaTake c
        let x := s.dma c
        if s.dmaEcc x.srcSpace src n then s.dmaFail c 4 src
        else
          let bs := s.beatRead c src n
          let s := s.beatWrite c dst bs
          let at_ := x.moved.length - (if x.back then x.segDone else 0)
          let s := s.dmaBeatOk c
          let s := s.setReg64 .DMA_BYTES_LO .DMA_BYTES_HI (dmaIx c)
            (s.reg64 .DMA_BYTES_LO .DMA_BYTES_HI (dmaIx c) + BitVec.ofNat 64 n)
          let s := s.setDma c { x with moved := x.moved.take at_ ++ bs ++ x.moved.drop at_, segDone := x.segDone + n, beatTries := 0 }
          match x.segs with
          | [] => s
          | sg :: _ => if x.segDone + n < sg.len then s else s.segEnd c
  else s

/-- DMA_BEAT_DONE. -/
def execDmaBeatDone (c : Nat) (g : Time) (s : State) : Host.Outcome State Fault Refusal := .next (dmaBeatDone s c g)

/-- DMA_BEAT_ERROR: a bus error is retried up to retry_max times, then ends the descriptor with BUS; an uncorrectable error
of die memory ends it with ECC at once (R439). The reads of descriptors, lists and tails are beats too. -/
def dmaBeatError (s : State) (c : Nat) (ecc : Bool) (g : Time) : State :=
  let x := s.dma c
  let at_ : Option Nat := match x.phase with
    | .fetch => some (s.dmaCur c)
    | .moving => x.beat.map (fun b => b.1)
    | .tailRead => some (s.dmaCur c)
    | .parked => if s.reg .DMA_APPEND_COUNT (dmaIx c) ≠ s.reg .DMA_SEEN (dmaIx c) then some (s.dmaCur c) else none
    | _ => none
  match at_ with
  | none => s
  | some a =>
    if s.dmaActs c && (x.phase != DmaPhase.moving || s.dmaGranted c) then
      if ecc then (s.at g).dmaFail c 4 a else (s.at g).dmaBusError c a
    else s

/-- DMA_BEAT_ERROR. -/
def execDmaBeatError (c : Nat) (ecc : Bool) (g : Time) (s : State) : Host.Outcome State Fault Refusal :=
  .next (dmaBeatError s c ecc g)

/-- The entries of R102 for a DMA put: up to 4,096 items each, flag bit 0 in all but the last. -/
def State.logPut (s : State) (q : Nat) (stamp : Time) (ws : List Word) (off : Nat) : Nat → State
  | 0 => s
  | fuel + 1 =>
    let part := ws.take 4096
    let rest := ws.drop 4096
    let s := s.log (q / 256) 0x07 (b2n (rest != [])) q stamp (BitVec.ofNat 32 off :: part)
    if rest = [] then s else s.logPut q stamp rest (off + 4096) fuel

/-- The earliest completion stamp that R421 allows on a queue with a task consumer: P after the previous packet's. -/
def State.putNotBefore (s : State) (q : Nat) : Option Time :=
  let x := s.que q
  if x.consKind = 0 then
    match x.lastPut, (s.task? x.consTask).bind (fun k => (k.slotOf 11 q).bind (fun sl => k.source? 3 sl)) with
    | some t, some src => some (t + nsT src.minNs)
    | _, _ => none
  else none

/-- DMA_LENGTH_WORD_WRITE: the length word is written at the first ground time that R421 allows; the packet's stamp lies 40 ns
after it (R414), and the put is logged where the consumer is a task (R98). The queue's packet is then published at its
stamp. -/
def dmaLengthWord (s : State) (c : Nat) (g : Time) : State :=
  let x := s.dma c
  match x.phase, x.queue with
  | .lengthHold, some q =>
    let stamp := g + nsT 40
    let okTime := match s.putNotBefore q with | some t => upTo t stamp | none => true
    if s.dmaActs c && okTime then
      let s := s.at g
      let ws := bytesWords x.moved
      let s := s.modQue q (fun y => { y with reserved := 0, dmaOpen := false })
      let s := (s.putPacket q stamp ws).modQue q (fun y => { y with lastPut := some stamp })
      let s := if (s.que q).consKind = 0 then s.logPut q stamp ws 0 17 else s
      s.dmaTail c
    else s
  | _, _ => s

/-- DMA_LENGTH_WORD_WRITE. -/
def execDmaLengthWordWrite (c : Nat) (g : Time) (s : State) : Host.Outcome State Fault Refusal := .next (dmaLengthWord s c g)

/-- The chain goes on from the tail just read (R433): to the descriptor that `next` names, or it parks. -/
def State.dmaNext (s : State) (c : Nat) (w0 : Word) (next : Nat) (seen : Word) : State :=
  if bitOf w0 30 then (s.setReg .DMA_SEEN (dmaIx c) seen).modDma c (fun x => x.clear .parked)
  else (s.setCur c next).modDma c (fun x => x.clear .fetch)

/-- DMA_TAIL_READ_DONE: words 0 to 7 of the descriptor are read after the data has moved, and the writeback is made (R433);
`ok = false` says that a writeback access failed on its way (R440). -/
def dmaTailReadDone (s : State) (c : Nat) (ok : Bool) (g : Time) : State :=
  let x := s.dma c
  let ix := dmaIx c
  let cur := s.dmaCur c
  let sp := s.descSpace c
  if x.phase = .tailRead ∧ s.dmaActs c = true ∧ s.dmaAccess c sp cur 64 false ≠ .waits then
    (s.at g).dmaOwnRead c cur 32 fun s =>
    let ws := s.dmaWords sp cur 8
    let w0 := ws.getD 0 0
    let next := (joinHalves (ws.getD 7 0) (ws.getD 6 0)).toNat
    let s := s.setFld F.DMA_STATUS_last_error ix 0
    match (if ok then s.writeback c 0 w0 else none) with
    | none => s.dmaHalt c 0 true
    | some s =>
      let s := s.bump F.DMA_DONE_COUNT_count ix
      let s := if bitOf (x.w 0) 29 then (s.setBit F.DMA_STATUS_done ix true).dmaPost c else s
      s.dmaNext c w0 next x.count
  else s

/-- DMA_TAIL_READ_DONE. -/
def execDmaTailReadDone (c : Nat) (ok : Bool) (g : Time) (s : State) : Host.Outcome State Fault Refusal :=
  .next (dmaTailReadDone s c ok g)

/-- DMA_PARK_REREAD: a parked channel whose append count differs from the one seen reads the tail again (R433). -/
def dmaParkReread (s : State) (c : Nat) : State :=
  let ix := dmaIx c
  let cur := s.dmaCur c
  let sp := s.descSpace c
  if (s.dma c).phase = .parked ∧ s.reg .DMA_APPEND_COUNT ix ≠ s.reg .DMA_SEEN ix ∧ s.dmaActs c = true ∧
     s.dmaAccess c sp cur 64 false ≠ .waits then
    s.dmaOwnRead c cur 32 fun s =>
    let ws := s.dmaWords sp cur 8
    let seen := s.reg .DMA_APPEND_COUNT ix
    (s.setReg .DMA_SEEN ix seen).dmaNext c (ws.getD 0 0) (joinHalves (ws.getD 7 0) (ws.getD 6 0)).toNat seen
  else s

/-- DMA_PARK_REREAD. -/
def execDmaParkReread (c : Nat) (s : State) : Host.Outcome State Fault Refusal := .next (dmaParkReread s c)

/-! ## The reset of a queue, with the descriptor it ends (R423) -/

/-- A queue is reset, and a descriptor in progress on it ends with QRESET (R423, R440). -/
def State.queResetAll (s : State) (q : Nat) (g : Time) : State :=
  let c := (s.que q).dma.map (fun k => q / 256 * 8 + k)
  let s := s.queReset q g
  match c with
  | none => s
  | some c =>
    let x := s.dma c
    if x.named = some q ∧ (x.phase = .moving ∨ x.phase = .lengthHold) ∧ x.wb = none then
      (s.modDma c (fun x => { x with pktEnds := [] })).dmaFail c 7 (s.dmaCur c)
    else s

/-- An access to a queue compares the two copies of its points, and a mismatch resets it (R422, R423). -/
def State.queCheck (s : State) (q : Nat) (g : Time) : State := if (s.que q).copiesAgree then s else s.queResetAll q g

/-- QUEUE_POINTER_MISMATCH: a copy of a queue's points is upset, and the access at `g` finds it (R422). Nothing else makes the copies
differ, so the other accesses find them equal (log entry 105). -/
def queuePointerMismatch (s : State) (q : Nat) (g : Time) : State :=
  if (s.que q).bound && s.dieActs (q / 256) then
    ((s.at g).modQue q (fun x => { x with wpN := ~~~x.wpN })).queCheck q g
  else s

/-- QUEUE_POINTER_MISMATCH. -/
def execQueuePointerMismatch (q : Nat) (g : Time) (s : State) : Host.Outcome State Fault Refusal :=
  .next (queuePointerMismatch s q g)

end Sys2Proof.Machine
end

