-- ==== Sys2Proof/Machine/PinInstr.lean ====
section
/-! DEFINITION. STCH, STCHR, CAPT and CAPTP (R164 to R170, R240). -/

namespace Sys2Proof.Machine

/-- The unit word of a HISTORY_LOST record: kind in [15:12], logical index in [11:0] (R100). -/
def unitWord (kind idx : Nat) : Nat := kind * 4096 + idx % 4096

/-- The resource of a pin handle that is no hoop-event pin (R152). -/
def Task.ownPinOf (k : Task) (h : Handle) : Option Res := (k.handle [1] h).filter (fun r => !r.flag)

/-- Has the arm of a task on interface `n` with stamp `armAt` ended as of T (R178): a hit with spacing 0, or displaced? -/
def FbSt.endedAt (x : FbSt) (t : Nat) (armAt tn : Time) : Bool :=
  x.notes.any (fun m => match m with
    | .ended u a e => u == t && a == armAt && upTo e tn
    | .stitch .. => false)

/-- The task's compare targets pin `p` (R178), judged from stamps and the task's own effects. -/
def State.cmpTargets (s : State) (t : Nat) (st : Step) (p : Nat) : Bool :=
  st.cmps.any (fun e => e.2.arm && e.2.pin == some p && !(s.fb e.1).endedAt t e.2.stamp st.act.t)

/-- The stitches that the task's compares made on a pin from hits stamped at or before T, stamped at or after T (R166). -/
def State.cmpStitches (s : State) (t p : Nat) (tn : Time) : Nat :=
  s.fbs.foldl (fun a e => a + (e.2.notes.filter (fun m => match m with
    | .stitch u _ q hit st => u == t && q == p && upTo hit tn && upTo tn st
    | .ended .. => false)).length) 0

/-- The step's stitches on a pin. -/
def Step.onPin (st : Step) (p : Nat) : List (Time × Bool) :=
  (st.stitches.filter (fun e => e.1 == p)).map (fun e => e.2)

/-- Is `x` before some stamp of a list (R165)? -/
def beforeAny (x : Time) (l : List (Time × Bool)) : Bool := l.any (fun e => before x e.1)

/-- What STITCH_FULL counts on a pin (R166): stitches stamped at or after T, those of compares, and the new one. -/
def State.stitchCount (s : State) (t p : Nat) (tn : Time) (l : List (Time × Bool)) : Nat :=
  (l.filter (fun e => upTo tn e.1)).length + s.cmpStitches t p tn + 1

/-- The step with the stitches of a pin replaced; those stamped before T are never looked at again. -/
def Step.setPinStitches (st : Step) (p : Nat) (l : List (Time × Bool)) : Step :=
  { st with stitches := st.stitches.filter (fun e => e.1 != p) ++
      (l.filter (fun e => upTo st.act.t e.1)).map (fun e => (p, e)) }

/-- The causes of STCH and STCHR that do not depend on the other stitches. -/
def State.stitchFaults (s : State) (t : Nat) (st : Step) (ts : Time) (level : Word) (r : Option Res) : List (Option Nat) :=
  [failIf (match r with | some r => s.cmpTargets t st r.a | none => true) 0x0D, failIf (decide (1 < level.toNat)) 0x11,
   failIf (before ts st.tl) 0x09]

/-- The causes of a stitch that is set: EFFECT_LIMIT; on the pin of a good handle STITCH_ORDER and STITCH_FULL against the stitches
`l` (R151, R165, R166). -/
def State.stitchSetFaults (s : State) (t : Nat) (r : Option Res) (st : Step) (ts : Time) (l : List (Time × Bool)) :
    List (Option Nat) :=
  st.effFault ts :: (match r with
    | some r => [failIf (beforeAny ts l) 0x0C, failIf (decide (32 < s.stitchCount t r.a st.act.t l)) 0x10]
    | none => [])

/-- STCH: an ordinary stitch; a replaceable one on the pin becomes ordinary (R167). -/
def bodyStch (t : Nat) (ts : TReg) (ga : GReg) (h : Handle) : Body := fun s k st =>
  let r := k.ownPinOf h
  let x := st.rt ts
  let p := match r with | some r => r.a | none => 0
  let l := st.onPin p
  guardAll s (s.stitchFaults t st x (st.w.rg ga) r ++ s.stitchSetFaults t r st x l) fun _ =>
    .go s ((st.setPinStitches p (l.map (fun e => (e.1, false)) ++ [(x, false)])).addEff t k x
      (.stitch p ((st.w.rg ga).getLsbD 0) false none))

/-- The replaceable stitch that the task holds on a pin for this step: its stamp lies after T + L (R240). -/
def Step.held (st : Step) (p : Nat) : Option Time :=
  ((st.onPin p).find? (fun e => e.2 && before st.tl e.1)).map (fun e => e.1)

/-- STCHR: sets or replaces the task's replaceable stitch and clears C, or is refused with C set (R167). -/
def bodyStchr (t : Nat) (ts : TReg) (ga : GReg) (h : Handle) : Body := fun s k st =>
  let r := k.ownPinOf h
  let x := st.rt ts
  let p := match r with | some r => r.a | none => 0
  let base := s.stitchFaults t st x (st.w.rg ga) r
  match r.bind (fun r => st.held r.a) with
  | some old =>
    if upTo old (st.tl + nsT 100) then
      guardAll s base fun _ =>
        .go (s.bump F.PIN_REFUSE_COUNT_count (pinIx p)) (st.wf { st.w.fl with c := true })
    else
      let l := (st.onPin p).filter (fun e => !(e.2 && before st.tl e.1))
      guardAll s (base ++ s.stitchSetFaults t r st x l) fun _ =>
        .go s (((st.setPinStitches p (l ++ [(x, true)])).wf { st.w.fl with c := false }).addEff t k x
          (.stitch p ((st.w.rg ga).getLsbD 0) true (some old)))
  | none =>
    let l := (st.onPin p).map (fun e => (e.1, false))
    guardAll s (base ++ s.stitchSetFaults t r st x l) fun _ =>
      .go s (((st.setPinStitches p (l ++ [(x, true)])).wf { st.w.fl with c := false }).addEff t k x
        (.stitch p ((st.w.rg ga).getLsbD 0) true none))

/-! ## Reads of captures as of T -/

/-- The entries of a history, newest first, stamped at or before T, each with its place in the history. -/
def asOf {α : Type} (l : List (Time × α)) (t : Time) : List (Nat × Time × α) :=
  (l.zipIdx.map (fun e => (e.2, e.1))).filter (fun e => upTo e.2.1 t)

/-- A read finds no entry, and of a history with `depth` places some have been overwritten: the entry may be gone (R83). -/
def overwritten {α : Type} (l : List (Time × α)) (depth : Nat) : Bool := decide (depth < l.length)

/-- Every one of the `depth` entries that are kept is stamped after T, and some have been overwritten (R83). -/
def allNewer {α : Type} (l : List (Time × α)) (depth : Nat) (t : Time) : Bool :=
  overwritten l depth && (l.take depth).all (fun e => before t e.1)

/-- CAPT on a pin (R168). -/
def State.captPin (s : State) (p : Nat) (age : Nat) (x : TDst) (st : Step) : IRes :=
  let ps := s.pin p
  match (asOf ps.caps st.act.t)[age]? with
  | some (i, stamp, level) =>
    if 32 ≤ i then .trap s 0x0A (unitWord 1 p)
    else .go s ((st.wt x stamp).wf { st.w.fl with z := false, n := false, c := level })
  | none =>
    if overwritten ps.caps 32 then .trap s 0x0A (unitWord 1 p)
    else .go s ((st.wt x 0).wf { st.w.fl with z := true, n := false, c := ps.capInit })

/-- The latched state of a trip as of T (R169). -/
def TripSt.latchedAt (x : TripSt) (t : Time) : Bool :=
  match x.latches.find? (fun e => upTo e.1 t) with
  | some e => e.2
  | none => false

/-- The filtered level of a trip before its first transition. -/
def TripSt.level0 (x : TripSt) : Bool :=
  match x.hist.getLast? with
  | some e => !e.2
  | none => x.filt.out

/-- The filtered level of a trip as of a stamp (R283). -/
def TripSt.levelAt (x : TripSt) (t : Time) : Bool :=
  match x.hist.find? (fun e => upTo e.1 t) with
  | some e => e.2
  | none => x.level0

/-- CAPT on a trip (R169). -/
def State.captTrip (s : State) (j : Nat) (age : Nat) (x : TDst) (st : Step) : IRes :=
  let ts := s.trip j
  let v := ts.latchedAt st.act.t
  match (asOf ts.hist st.act.t)[age]? with
  | some (i, stamp, level) =>
    if 8 ≤ i then .trap s 0x0A (unitWord 2 j)
    else .go s ((st.wt x stamp).wf { st.w.fl with z := false, c := level, v := v })
  | none =>
    if overwritten ts.hist 8 then .trap s 0x0A (unitWord 2 j)
    else .go s ((st.wt x 0).wf { st.w.fl with z := true, c := ts.level0, v := v })

/-- CAPT. -/
def bodyCapt (x : TDst) (ga : GReg) (h : Handle) : Body := fun s k st =>
  let age := (st.w.rg ga).toNat
  match k.handle [1, 2] h with
  | none => .trap s 0x0D 0
  | some r =>
    if (if r.kind = 1 then 31 else 7) < age then .trap s 0x11 0
    else if r.kind = 1 then s.captPin r.a age x st
    else s.captTrip r.a age x st

/-- CAPTP: the oldest capture stamped at or before T and later than the consumption point (R170). -/
def bodyCaptp (x : TDst) (h : Handle) : Body := fun s k st =>
  match k.ownPinOf h with
  | none => .trap s 0x0D 0
  | some r =>
    let point := nmGet st.capts r.a k.startStamp
    match ((asOf (s.pin r.a).caps st.act.t).filter (fun e => before point e.2.1)).getLast? with
    | some (i, stamp, level) =>
      if 32 ≤ i then .trap s 0x0A (unitWord 1 r.a)
      else .go s ({ st with capts := nmPut st.capts r.a stamp }.wt x stamp |>.wf { st.w.fl with z := false, c := level })
    | none =>
      if allNewer (s.pin r.a).caps 32 st.act.t then .trap s 0x0A (unitWord 1 r.a)
      else .go s ((st.wt x 0).wf { st.w.fl with z := true, c := false })

/-- STCH (R164). -/
def execStch (t : Nat) (ts : TReg) (ga : GReg) (h : Handle) (s : State) : Host.Outcome State Fault Refusal :=
  .next (s.issue t (.stch t ts ga h) (bodyStch t ts ga h))

/-- STCHR (R164). -/
def execStchr (t : Nat) (ts : TReg) (ga : GReg) (h : Handle) (s : State) : Host.Outcome State Fault Refusal :=
  .next (s.issue t (.stchr t ts ga h) (bodyStchr t ts ga h))

/-- CAPT (R164). -/
def execCapt (t : Nat) (x : TDst) (ga : GReg) (h : Handle) (s : State) : Host.Outcome State Fault Refusal :=
  .next (s.issue t (.capt t x ga h) (bodyCapt x ga h))

/-- CAPTP (R164). -/
def execCaptp (t : Nat) (x : TDst) (h : Handle) (s : State) : Host.Outcome State Fault Refusal :=
  .next (s.issue t (.captp t x h) (bodyCaptp x h))

end Sys2Proof.Machine
end

