-- ==== Sys2Proof/Machine/Trips.lean ====
section
/-! DEFINITION. Trips: filter, blanking, latch and clear (R278 to R285, R512, R566), and pin faults (R252 to R258). -/

namespace Sys2Proof.Machine

/-- The active level of a trip. -/
def State.tripActive (s : State) (j : Nat) : Bool := s.bit F.TRIP_CTRL_active_level (tripIx j)

/-- The filtered input is active now (TRIP_STATUS.active). -/
def State.tripIsActive (s : State) (j : Nat) : Bool := (s.trip j).filt.out == s.tripActive j

/-- The end of the last blanking window that is open. -/
def TripSt.blankEnd (x : TripSt) : Option Time :=
  x.wins.foldl (fun a w => match a with | some b => some (later b w.fin) | none => some w.fin) none

/-- A blanking window is open at `t`, and counts (R280). -/
def State.blankOpen (s : State) (j : Nat) (t : Time) : Bool :=
  !s.bit F.TRIP_CTRL_unblankable (tripIx j) && (match (s.trip j).blankEnd with | some e => before t e | none => false)

/-- The latch of a trip changes at `t`. -/
def State.setLatch (s : State) (j : Nat) (t : Time) (on : Bool) : State :=
  let s := s.modTrip j (fun x => { x with latched := on, latches := (t, on) :: x.latches })
  s.retrip (j / 8) t

/-- A trip fires at F (R281, R285): it latches, every routed pair takes its trip state, and with rec_en a TRIP record says
so. `atEnd` = at the end of a window. -/
def State.tripFire (s : State) (j : Nat) (f : Time) (atEnd : Bool) : State :=
  let ix := tripIx j
  let active := match (s.trip j).hist with | e :: _ => e.1 | [] => 0
  let s := (s.modTrip j (fun x => { x with waits := none })).setLatch j f true
  let s := (s.setReg64 .TRIP_LAST_LO .TRIP_LAST_HI ix f).bump F.TRIP_FIRE_COUNT_count ix
  if s.bit F.TRIP_CTRL_rec_en ix then
    s.emitUnit (j / 8) (0x0800 + j) 0x31 f (s.fld F.TRIP_CTRL_eq ix)
      (leBytes j 2 ++ [BitVec.ofNat 8 (b2n atEnd), 0] ++ timeBytes active)
  else s

/-- The active input turns effective at `t`: the trip fires or waits for the windows (R280). -/
def State.tripTurns (s : State) (j : Nat) (t : Time) : State :=
  if (s.trip j).latched then s
  else if s.blankOpen j t then s.modTrip j (fun x => { x with waits := some t })
  else s.tripFire j t false

/-- The filtered input of a trip turns inactive: nothing is owed any more, and a wait for a window ends, counted (R280). -/
def State.tripOff (s : State) (j : Nat) : State :=
  let x := s.trip j
  let s := s.modTrip j (fun x => { x with waits := none, owed := none })
  if x.waits.isSome then s.bump F.TRIP_BLANKED_COUNT_count (tripIx j) else s

/-- A filtered transition enters the history and the log; an active one fires the trip or waits for the window, an inactive
one ends a wait (R278, R280, R102). `t` is the instant the filtered input changes. -/
def State.tripTransition (s : State) (j : Nat) (stamp : Time) (level : Bool) (t : Time) : State :=
  let s := s.modTrip j (fun x => { x with hist := (stamp, level) :: x.hist, owed := none })
  let s := s.log (j / 8) 0x05 0 j stamp [BitVec.ofNat 32 (b2n level)]
  if level = s.tripActive j then s.tripTurns j t else s.tripOff j

/-- The filter of a trip accepts the level that waits. -/
def State.tripAccept (s : State) (j : Nat) : State :=
  let x := s.trip j
  let s := s.setTrip j { x with filt := x.filt.accept }
  s.tripTransition j x.filt.since x.filt.raw (x.filt.since + nsT (s.tripDelay j))

/-- A level that counts as an active transition has stood for the filter delay (R566). -/
def State.tripOwed (s : State) (j : Nat) (t : Time) : State :=
  (s.modTrip j (fun x => { x with owed := none })).tripTurns j (t + nsT (s.tripDelay j))

/-- What the filter of a trip does up to `stamp`: an owed transition turns effective, a stable level is accepted. -/
def State.tripUpTo (s : State) (j : Nat) (stamp : Time) : State :=
  let d := nsT (s.tripDelay j)
  let x := s.trip j
  let accepts := x.filt.stable (ns (s.tripDelay j)) stamp
  match x.owed with
  | some t =>
    if accepts && before x.filt.since t then s.tripAccept j
    else
      let s := if upTo (t + d) stamp then s.tripOwed j t else s
      if accepts then s.tripAccept j else s
  | none => if accepts then s.tripAccept j else s

/-- TRIP_INPUT_EDGE: an edge at the trip's ball is stamped and enters its filter (R278, R245). -/
def tripInputEdge (s : State) (j : Nat) (stamp : Time) (level : Bool) : State :=
  let x := s.trip j
  if level = x.filt.raw then s
  else if !s.dieActs (j / 8) then s.setTrip j { x with filt := x.filt.edge stamp level }
  else
    let s := s.at stamp
    let s := s.tripUpTo j stamp
    s.modTrip j (fun x => { x with filt := x.filt.edge stamp level })

/-- TRIP_INPUT_EDGE. -/
def execTripInputEdge (j : Nat) (stamp : Time) (level : Bool) (s : State) : Host.Outcome State Fault Refusal :=
  .next (tripInputEdge s j stamp level)

/-- TRIP_FILTER_ACCEPT: the filtered input changes, its stamp plus the filter delay (R280), or a level that counts as an active
transition has stood for that delay (R566), whichever comes first. -/
def tripFilterAccept (s : State) (j : Nat) : State :=
  let x := s.trip j
  let d := nsT (s.tripDelay j)
  if !s.dieActs (j / 8) then s
  else match x.owed with
  | some t =>
    if x.filt.waits && before x.filt.since t then (s.at (x.filt.since + d)).tripAccept j
    else (s.at (t + d)).tripOwed j t
  | none => if x.filt.waits then (s.at (x.filt.since + d)).tripAccept j else s

/-- TRIP_FILTER_ACCEPT. -/
def execTripFilterAccept (j : Nat) (s : State) : Host.Outcome State Fault Refusal := .next (tripFilterAccept s j)

/-- BLANK_WINDOW_END: the window closes and the trip fires if its input is still active (R280). -/
def blankWindowEnd (s : State) (j : Nat) : State :=
  match (s.trip j).blankEnd with
  | none => s
  | some e =>
    if !s.dieActs (j / 8) then s
    else
      let s := (s.at e).modTrip j (fun x => { x with wins := [] })
      if (s.trip j).waits.isSome && !(s.trip j).latched then s.tripFire j e true else s

/-- BLANK_WINDOW_END. -/
def execBlankWindowEnd (j : Nat) (s : State) : Host.Outcome State Fault Refusal := .next (blankWindowEnd s j)

/-- A clear is judged against the filtered level `level` at `t` (R283): of a trip not latched it does nothing. -/
def State.tripClear (s : State) (j : Nat) (level : Bool) (t : Time) : State :=
  if !(s.trip j).latched then s
  else if level = s.tripActive j then
    (s.setBit F.TRIP_STATUS_clear_refused (tripIx j) true).bump F.TRIP_REFUSE_COUNT_count (tripIx j)
  else s.setLatch j t false

/-- TRIP_CLEAR_APPLY: a PWMC CLEAR is judged at its stamp against the filtered input as of that stamp (R283). -/
def tripClearApply (s : State) (j : Nat) : State :=
  match (s.trip j).fx with
  | [] => s
  | e :: rest =>
    if !s.dieActs (j / 8) then s
    else
      let s := (s.at e.stamp).modTrip j (fun x => { x with fx := rest })
      s.tripClear j ((s.trip j).levelAt e.stamp) e.stamp

/-- TRIP_CLEAR_APPLY. -/
def execTripClearApply (j : Nat) (s : State) : Host.Outcome State Fault Refusal := .next (tripClearApply s j)

/-- A write of TRIP_CMD by the host while no running task owns the trip (R283). -/
def tripCmdWrite (s : State) (_ : Port) (j : Nat) (v : Word) : State :=
  if bitOf v 0 then s.tripClear j (s.trip j).filt.out s.now else s

/-- The present level of a trip's filter counts as an active transition at `t`; it turns effective after the filter delay
(R566). -/
def TripSt.activeNow (x : TripSt) (t : Time) : TripSt := { x with hist := (t, x.filt.out) :: x.hist, owed := some t }

/-- A write of TRIP_CTRL: one that makes the present filtered level active counts as an active transition and is logged (R566); one
that makes it inactive ends a wait for a window; with unblankable = 1 an active input waits for none any more and the trip fires
at the write (R280; log entry 98). -/
def tripCtrlWrite (s : State) (_ : Port) (j : Nat) (v : Word) : State :=
  let was := s.tripIsActive j
  let s := s.plainWrite .TRIP_CTRL (tripIx j) v
  if !was && s.tripIsActive j then
    (s.modTrip j (fun x => x.activeNow s.now)).log (j / 8) 0x05 0 j s.now [BitVec.ofNat 32 (b2n (s.trip j).filt.out)]
  else if was && !s.tripIsActive j then s.tripOff j
  else if s.tripIsActive j && (s.trip j).waits.isSome && s.bit F.TRIP_CTRL_unblankable (tripIx j) then s.tripFire j s.now true
  else s

/-- A change of a trip's route (R279): pairs newly routed to a latched trip take their trip state. -/
def State.tripRouteChanged (s : State) (j : Nat) : State := s.retrip (j / 8) s.now

/-! ## Pin faults (R252 to R258) -/

/-- A pin becomes failed: released with cause 3, its pair held under R286 (R253). -/
def State.failPin (s : State) (p : Nat) : State :=
  let s := s.modPin p (fun x => { x with failed := true })
  match (s.pin p).owner with
  | .car _ _ _ => s.retrip (p / 64) s.now
  | _ => s

/-- The pin fault record (R258) and its count (R490). -/
def State.pinFault (s : State) (p cause : Nat) (expected g : Time) : State :=
  let s := s.failPin p
  let s := s.bump F.FLT_UNIT_COUNT_other pkg
  s.faultRec (p / 64) (0x0A08 + p / 64) 0x30 g
    (leBytes p 2 ++ [BitVec.ofNat 8 cause, 0] ++ timeBytes expected)

/-- ENGINE_DISAGREE: the comparator of the two stitch engines of a pin finds a difference (R251, R253). -/
def execEngineDisagree (p : Nat) (g : Time) (s : State) : Host.Outcome State Fault Refusal :=
  .next (if s.dieActs (p / 64) && !(s.pin p).failed then (s.at g).pinFault p 1 0 g else s)

/-- READBACK_MISMATCH: the pad readback finds an edge missing or outside its window, or a wrong level (R252, R253). -/
def execReadbackMismatch (p : Nat) (m : Mismatch) (g : Time) (s : State) : Host.Outcome State Fault Refusal :=
  .next (if s.dieActs (p / 64) && s.pinDriven p then
      match m with
      | .edge expected => (s.at g).pinFault p 2 expected g
      | .level => (s.at g).pinFault p 3 0 g
    else s)

/-- Does a trip whose latest check failed route to the pair of a pin (R512)? -/
def State.tripCheckHolds (s : State) (p : Nat) : Bool :=
  match (s.pin p).owner with
  | .car c n _ => (tripsOf (p / 64)).any (fun j =>
      s.routes j c n && (s.fld F.DIE_TRIPCHK_failed (dieIx (p / 64))).testBit (j % 8))
  | _ => false

/-- A write of PIN_CMD: a fault clear is accepted while the pin is failed and its owner is not running (R255, R512). -/
def pinCmdWrite (s : State) (_ : Port) (p : Nat) (v : Word) : State :=
  if !bitOf v 0 then s
  else if (s.pin p).failed && !s.ownerRuns (s.pin p).owner && !s.tripCheckHolds p then
    (s.modPin p (fun x => { x with failed := false, started := false })).retrip (p / 64) s.now
  else s.setBit F.PIN_STATUS_cmd_reject (pinIx p) true

/-- The pins of every pair that a trip routes to (R512). -/
def State.routedPins (s : State) (j : Nat) : List Nat :=
  (List.range 64).flatMap (fun b =>
    let c := 16 * (j / 8) + b / 4
    if s.routes j c (b % 4) && s.pairEn c (b % 4) then [s.pairPin c (b % 4) false, s.pairPin c (b % 4) true] else [])

/-- TRIP_CHECK: each 1 ms the filter and force path of a trip are checked against their shadows (R512). -/
def tripCheck (s : State) (j : Nat) (filterOk forceOk : Bool) (g : Time) : State :=
  if !s.dieActs (j / 8) then s
  else
    let ix := dieIx (j / 8)
    let s := s.at g
    let m := 2 ^ (j % 8)
    let failed := s.fld F.DIE_TRIPCHK_failed ix
    if filterOk && forceOk then
      let s := s.setFld F.DIE_TRIPCHK_failed ix (if failed.testBit (j % 8) then failed - m else failed)
      let done := s.fld F.DIE_TRIPCHK_checked ix
      s.setFld F.DIE_TRIPCHK_checked ix (if done.testBit (j % 8) then done else done + m)
    else if failed.testBit (j % 8) then s
    else
      let s := s.setFld F.DIE_TRIPCHK_failed ix (failed + m)
      let s := (s.routedPins j).foldl (fun s p => s.failPin p) s
      let s := s.bump F.FLT_UNIT_COUNT_other pkg
      s.faultRec (j / 8) (0x0A38 + j / 8) 0x3D g (leBytes j 2 ++ [if filterOk then 1 else 0])

/-- TRIP_CHECK. -/
def execTripCheck (j : Nat) (filterOk forceOk : Bool) (g : Time) (s : State) : Host.Outcome State Fault Refusal :=
  .next (tripCheck s j filterOk forceOk g)

end Sys2Proof.Machine
end

