-- ==== Sys2Proof/Machine/Axis.lean ====
section
/-! DEFINITION. Axis samples: publish and subscription entries, extrapolation, and reads as of T (R85, R397, R402 to R406). -/

namespace Sys2Proof.Machine

/-- A publish entry. -/
def State.axp (s : State) (e : Nat) : AxpSt := nmGet s.axps e AxpSt.reset
/-- The state with a publish entry set. -/
def State.setAxp (s : State) (e : Nat) (x : AxpSt) : State := { s with axps := nmPut s.axps e x }

/-- The position of a sample extrapolated to a ground time (R397), modulo 2^64. -/
def AxSample.at (x : AxSample) (t : Time) : BitVec 64 :=
  x.pos + BitVec.ofInt 64 (Int.fdiv (x.vel.toInt * dist t x.t) (65536 * 64000000000))

/-- P of a subscription in picots (R402). -/
def State.axsPeriod (s : State) (e : Nat) : Nat := ns (s.fld F.AXS_PERIOD_period_ns (pkg1 e))

/-- D of a subscription in picots (R402). -/
def State.axsAllow (s : State) (e : Nat) : Nat := ns (s.fld F.AXS_ALLOW_allow_ns (pkg1 e))

/-- What a read as of T of a subscription finds (R405): its sample with its place in the history, and LATE. -/
structure AxRead where
  found : Option (Nat × AxSample)
  late : Bool
  deriving DecidableEq, Repr

/-- The newest in-time sample stamped at or before T − D, and LATE where it is not later than T − D − P (R85, R405). -/
def State.axsRead (s : State) (e : Nat) (t : Time) : AxRead :=
  let lim := t - picots (s.axsAllow e)
  let l := ((s.axs e).hist.zipIdx.map (fun x => (x.2, x.1))).filter (fun x => upTo x.2.t lim)
  match l with
  | [] => ⟨none, true⟩
  | x :: _ => ⟨some x, !before (lim - picots (s.axsPeriod e)) x.2.t⟩

/-- The position that a read returns. -/
def AxRead.pos (r : AxRead) (t : Time) : BitVec 64 := match r.found with | some x => x.2.at t | none => 0

/-- The velocity that a read returns. -/
def AxRead.vel (r : AxRead) : BitVec 64 := match r.found with | some x => x.2.vel | none => 0

/-- The stamp that a read returns. -/
def AxRead.stamp (r : AxRead) : Time := match r.found with | some x => x.2.t | none => 0

/-- The expected stamps that a LATE read misses: t_s + k × P at or before T − D, k ≥ 1 (R406). -/
def State.axsMissed (s : State) (e : Nat) (ts t : Time) : List Time :=
  let p := s.axsPeriod e
  let span := (dist (t - picots (s.axsAllow e)) ts).toNat
  (List.range (span / p)).map (fun k => ts + picots ((k + 1) * p))

/-- The missed stamps that a LATE read uses (R406): its step counts and records them as it commits (R90). -/
def State.lateOf (s : State) (e : Nat) (tRead : Time) : List (Nat × Time) :=
  let r := s.axsRead e tRead
  match r.late, r.found with
  | true, some x => (s.axsMissed e x.2.t tRead).map (fun m => (e, m))
  | _, _ => []

/-- The step with the missed stamps of a LATE read of subscription `e`. -/
def Step.noteLate (st : Step) (s : State) (e : Nat) : Step := { st with lates := st.lates ++ s.lateOf e st.act.t }

end Sys2Proof.Machine
end

