-- ==== Sys2Proof/Machine/FbRead.lean ====
section
/-! DEFINITION. Position and speed of an interface as of T (R301, R322 to R325). -/

namespace Sys2Proof.Machine

/-! ## Numbers -/

/-- A 48-bit two's-complement count (R301). -/
def wrap48 (x : Int) : Int := Int.bmod x (2 ^ 48)

/-- A count sign-extended to 64 bits. -/
def count64 (x : Int) : BitVec 64 := BitVec.ofInt 64 x

/-- A 48-bit value held in two registers, signed. -/
def State.reg48 (s : State) (lo hi : Reg) (ix : Ix) : Int := wrap48 (s.reg64 lo hi ix).toNat

/-- A free 64-bit value: two free words (log entry 6). -/
def State.fresh64 (s : State) : BitVec 64 × State :=
  let (a, s) := s.fresh
  let (b, s) := s.fresh
  (a ++ b, s)

/-! ## Position and speed as of T (R301, R322 to R325) -/

/-- Position as of T: after the latest change that reads see at T. -/
def FbSt.posAt (x : FbSt) (t : Time) : Int :=
  match x.evs.find? (fun e => upTo e.vis t) with
  | some e => e.pos
  | none => 0

/-- The events before an event in its run: same direction, and no gap of the timeout (R324, R325). -/
def runTail (e : FbEv) (timeout : Nat) : List FbEv → List FbEv
  | [] => []
  | o :: r =>
    if decide (0 < e.step) == decide (0 < o.step) && decide (dist e.stamp o.stamp < (timeout : Int)) then
      o :: runTail o timeout r
    else []

/-- The entry of a history that a read as of T needs is gone: `depth` newer ones have overwritten it, or no entry kept is stamped at or
before T and some have been overwritten (R83, R303). -/
def lostAt (stamps : List Time) (depth : Nat) (t : Time) : Bool :=
  match stamps.findIdx? (fun x => upTo x t) with
  | some i => decide (depth ≤ i)
  | none => decide (depth < stamps.length)

/-- An entry from `a` to T that a read needs is gone from a history (R83, R303). -/
def goneIn (stamps : List Time) (depth : Nat) (a t : Time) : Bool :=
  (stamps.drop depth).any (fun x => upTo a x && upTo x t)

/-- The histories from which an interface gives position and speed (R303, R309): of lines, V and W too (log entry 101), or of
frames by the instant they become visible. -/
def State.fbHistories (s : State) (n : Nat) : List (List Time) :=
  let x := s.fb n
  match s.fbMode n with
  | 1 => [x.a.edges, x.b.edges]
  | 2 => [x.a.edges]
  | 3 => [x.a.edges, x.vEdges, x.wEdges]
  | _ => [x.frames.map (fun f => f.vis)]

/-- A read of position as of T needs an entry that is gone (R83, R303). -/
def State.fbLost (s : State) (n : Nat) (t : Time) : Bool := (s.fbHistories n).any (fun l => lostAt l 16 t)

/-- The counting events since the last restart, newest first, as of T (R322). -/
def FbSt.runAt (x : FbSt) (timeout : Nat) (t : Time) : List FbEv :=
  match x.evs.filter (fun e => e.counts && upTo e.vis t) with
  | [] => []
  | e :: r => e :: runTail e timeout r

/-- What FBSPD and the registers report: speed in Q32.16 counts/s, VALID, STANDSTILL. -/
structure FbSpeed where
  v : Int
  valid : Bool
  standstill : Bool
  deriving DecidableEq, Repr

/-- The speed of a run as of T with at most `spdN` intervals (R322 to R324). -/
def speedOf (l : List FbEv) (spdN timeout : Nat) (t : Time) : FbSpeed :=
  match l with
  | [] => ⟨0, false, true⟩
  | e :: r =>
    let since := dist t e.stamp
    if (timeout : Int) ≤ since then ⟨0, false, true⟩
    else
      let m := min spdN r.length
      match (e :: r)[m]? with
      | some b =>
        if m = 0 then ⟨0, false, false⟩
        else
          let dp := ((e :: r).take m).foldl (fun a x => a + x.step) 0
          let v := Int.tdiv (dp * 65536 * 64000000000) (dist e.stamp b.stamp)
          let v := max (-(2 ^ 47 - 1)) (min v (2 ^ 47 - 1))
          let bound := if 0 < since then Int.tdiv (65536 * 64000000000) since else 2 ^ 62
          let mag := min (v.natAbs : Int) bound
          ⟨if v < 0 then -mag else mag, true, false⟩
      | none => ⟨0, false, false⟩

/-- SPEED_TIMEOUT in picots. -/
def State.fbTimeout (s : State) (n : Nat) : Nat := ns (s.fld F.FB_SPD_CFG_timeout_us (fbIx n) * 1000)

/-- A read of speed as of T needs an entry that is gone: those from e_(k−m) to e_k, or that of the position (R83, R303, R322; log
entries 71, 101). -/
def State.fbSpeedLost (s : State) (n : Nat) (t : Time) : Bool :=
  let run := (s.fb n).runAt (s.fbTimeout n) t
  s.fbLost n t || (match run[min (s.fld F.FB_SPD_CFG_spd_n (fbIx n)) (run.length - 1)]? with
    | some b => (s.fbHistories n).any (fun l => goneIn l 16 b.vis t)
    | none => false)

/-- Speed of an interface as of T. -/
def State.fbSpeedAt (s : State) (n : Nat) (t : Time) : FbSpeed :=
  speedOf ((s.fb n).runAt (s.fbTimeout n) t) (s.fld F.FB_SPD_CFG_spd_n (fbIx n)) (s.fbTimeout n) t

end Sys2Proof.Machine
end

