-- ==== Sys2Proof/Machine/Hoop.lean ====
section
/-! DEFINITION. Hoops: prediction, the angle as of T, points, angle events and how they end, loss of sync, stall and reversal
(R346 to R377). Accumulated angles leave HOOP_REF_ANGLE out; it enters where an angle is read. -/

namespace Sys2Proof.Machine

/-! ## What the registers give -/

/-- The source of a hoop (R346). -/
def State.hoopSrc (s : State) (h : Nat) : Nat := s.fld F.HOOP_CTRL_src (hoopIx h)
/-- Slots per revolution (R350). -/
def State.hoopTeeth (s : State) (h : Nat) : Nat := s.fld F.HOOP_WHEEL_teeth (hoopIx h)
/-- M, where 0 means 65,536 (R359). -/
def State.hoopM (s : State) (h : Nat) : Nat :=
  let m := s.fld F.HOOP_MICRO_m (hoopIx h)
  if m = 0 then 65536 else m
/-- The slots that carry a tooth: all with an index input, else those before the gap (R350). -/
def State.hoopReal (s : State) (h : Nat) : Nat :=
  if s.bit F.HOOP_CTRL_ref (hoopIx h) then s.hoopTeeth h else s.hoopTeeth h - s.fld F.HOOP_WHEEL_gap (hoopIx h)
/-- The accumulated angle of a slot of a revolution (R350, R354). -/
def slotAngle (teeth : Nat) (rev : Int) (slot : Nat) : Int := rev * 2 ^ 32 + (slot * 2 ^ 32 / teeth : Nat)
/-- Pitches from a slot to the next that carries a tooth (R359). -/
def State.pitchesTo (s : State) (h slot : Nat) : Nat :=
  if slot + 1 < s.hoopReal h then 1 else s.hoopTeeth h - slot
/-- One pitch in turn units, exactly (R350, R355). -/
def State.hoopPitch (s : State) (h : Nat) : Rat := (2 ^ 32 : Rat) / (s.hoopTeeth h : Rat)

/-! ## Prediction (R354) -/

/-- The interval from the latest point to accumulated angle `alpha`, in picots, before rounding; none with fewer than two
points. -/
def predictRat (l : List HoopPt) (alpha : Rat) : Option Rat :=
  match l with
  | p1 :: p2 :: r =>
    let s1 : Rat := (dist p1.t p2.t : Rat) / ((p1.a - p2.a : Int) : Rat)
    let q : Rat := match r with
      | p3 :: _ => (s1 - (dist p2.t p3.t : Rat) / ((p2.a - p3.a : Int) : Rat)) / ((p1.a - p3.a : Int) : Rat)
      | [] => 0
    let x : Rat := alpha - (p1.a : Rat)
    let dt := x * s1 + x * (alpha - (p2.a : Rat)) * q
    some (min (max dt (x * s1 / 2)) (x * s1 * 2))
  | _ => none

/-- The predicted interval in whole picots. -/
def predictIn (l : List HoopPt) (alpha : Rat) : Option Int := (predictRat l alpha).map (fun d => d.floor)

/-- The points that predictions use: the three latest since the last restart. -/
def HoopSt.base (x : HoopSt) : List HoopPt := x.pts.take (min 3 x.usable)

/-- The stamp at which an accumulated angle is reached (R354). -/
def HoopSt.predict (x : HoopSt) (alpha : Int) : Option Time :=
  match x.base with
  | p :: _ => (predictIn x.base alpha).map (fun d => p.t + picotsI d)
  | [] => none

/-- The largest accumulated angle, `n` binary digits beyond `lo`, that R354 predicts no later than `since` after the latest
point. -/
def inverse (l : List HoopPt) (since : Int) (lo : Int) : Nat → Int
  | 0 => lo
  | n + 1 =>
    let y := lo + 2 ^ n
    match predictIn l y with
    | some d => if d ≤ since then inverse l since y n else inverse l since lo n
    | none => lo

/-- The accumulated angle at `t` extrapolated by R354 (R363, R365). -/
def HoopSt.extrapolate (x : HoopSt) (t : Time) : Option Int :=
  match x.base with
  | p :: q :: r => some (inverse (p :: q :: r) (dist t p.t) p.a 48)
  | _ => none

/-! ## The angle as of T (R359 to R361) -/

/-- The micro-tick count after a point that has a prediction (R359): at `t` with `just` 0, just before it with `just` 1. -/
def HoopPt.normal (p : HoopPt) (t : Time) (just : Int) : Option Int :=
  p.tp.map (fun tp => p.tick + min ((p.k : Int) - 1) (Int.fdiv (dist t p.t * p.k - just) (dist tp p.t)))

/-- The count, catching up after an early arrival (R360): at `t`, or just before it. -/
def HoopPt.count (p : HoopPt) (t : Time) (just : Int) : Option Int :=
  match p.normal t just, p.cu, p.tp with
  | some n, some c0, some tp => some (min (c0 + 1 + Int.fdiv (dist t p.tt * 4 * p.k - just) (dist tp p.t)) n)
  | n, _, _ => n

/-- The instant from which reads see a point: its stamp, or the detection instant of a synthetic one (R81, R82, R362). -/
def HoopPt.seen (p : HoopPt) : Time := if p.synth then p.tt else p.t

/-- The latest point as of T with its place in the history (R362). -/
def HoopSt.ptAt (x : HoopSt) (t : Time) : Option (Nat × HoopPt) :=
  (x.pts.zipIdx.map (fun e => (e.2, e.1))).find? (fun e => upTo e.2.seen t)

/-- The micro-tick count as of T (R359, R360). A tooth that the count catches up with from its arrival leaves it to the point before
until then (log entry 103). -/
def HoopSt.countAt (x : HoopSt) (t : Time) : Option Int :=
  (x.ptAt t).bind (fun e =>
    if e.2.cu.isSome && before t e.2.tt then (x.pts[e.1 + 1]?).bind (fun p => p.count t 0) else e.2.count t 0)

/-- The state code as of T. -/
def HoopSt.stAt (x : HoopSt) (t : Time) : Nat :=
  match x.states.find? (fun e => upTo e.1 t) with
  | some e => e.2
  | none => 0

/-- The latest sample of a published axis stamped at or before T (R361). -/
def State.axpAt (s : State) (e : Nat) (t : Time) : Option AxSample := (s.axp e).samples.find? (fun x => upTo x.t t)

/-- The accumulated angle as of T (R359, R361, R365); none where no rule gives one. -/
def State.accAt (s : State) (h : Nat) (t : Time) : Option Int :=
  let x := s.hoop h
  let i := s.fld F.HOOP_SRC_index (hoopIx h)
  match s.hoopSrc h with
  | 0 | 1 =>
    (x.countAt t).map (fun c => Int.fdiv (c * 2 ^ 32) (s.hoopTeeth h * s.hoopM h))
  | 2 =>
    let n := 8 * (h / 4) + i % 8
    some (Int.fdiv ((s.fb n).posAt t * 2 ^ 32) (s.fld F.FB_CPR_cpr (fbIx n)))
  | 3 => if x.stAt t = 6 then x.extrapolate t else some ((s.axsRead (i % 256) t).pos t).toInt
  | _ => (s.axpAt (i % 64) t).map (fun a => (a.at t).toInt)

/-- The angle of an accumulated angle: HOOP_REF_ANGLE counts for tooth wheels (R350, R359). -/
def State.hoopAngle (s : State) (h : Nat) (acc : Int) : Word :=
  BitVec.ofInt 32 acc + (if s.hoopSrc h < 2 then s.reg .HOOP_REF_ANGLE (hoopIx h) else 0)

/-! ## Records (R375, R376) -/

/-- A record of a hoop. -/
def State.hoopRecord (s : State) (h ty : Nat) (stamp : Time) (payload : List Byte) : State :=
  s.emitUnit (h / 4) (0x0880 + h) ty stamp (s.fld F.HOOP_CTRL_eq (hoopIx h)) (leBytes h 2 ++ payload)

/-- A state record, if the hoop writes any (R375). -/
def State.hoopRec (s : State) (h kind b19 : Nat) (v : BitVec 64) (stamp : Time) : State :=
  if s.bit F.HOOP_CTRL_rec_en (hoopIx h) then
    s.hoopRecord h 0x33 stamp ([BitVec.ofNat 8 kind, BitVec.ofNat 8 b19] ++ timeBytes v)
  else s

/-- A refusal: counted and recorded whatever rec_en holds (R375). -/
def State.hoopRefuse (s : State) (h slot reason : Nat) (stamp : Time) : State :=
  (s.bump F.HOOP_EVT_COUNT_refused (hoopIx h)).hoopRecord h 0x33 stamp ([4, BitVec.ofNat 8 slot] ++ leBytes reason 8)

/-- The state of a hoop changes at `t` (R351). -/
def State.hoopEnter (s : State) (h st : Nat) (t : Time) : State :=
  s.modHoop h (fun x => { x with st := st, states := (t, st) :: x.states, fwd := 0, bad := 0 })

/-! ## Angle events (R366 to R373) -/

/-- 100 ns. -/
def lockWin : Time := nsT 100

/-- A stamp is locked at `x` (R369). -/
def lockedAt (stamp x : Time) : Bool := upTo stamp (x + lockWin)

/-- An event is in progress at `x`: its start is locked and it has not ended (R369). -/
def HoopEv.active (e : HoopEv) (x : Time) : Bool :=
  match e.start with
  | some a => lockedAt a x && (match e.stop with | some b => upTo x b | none => true)
  | none => false

/-- The event of a slot. -/
def State.hoopEv (s : State) (h slot : Nat) : Option HoopEv := nmGet? (s.hoop h).evs slot

/-- The state with the event of a slot set. -/
def State.setEv (s : State) (h slot : Nat) (e : HoopEv) : State := s.modHoop h (fun x => { x with evs := nmPut x.evs slot e })

/-- The stitches of a slot that have not yet taken effect leave the queue of a pin. -/
def State.dropStitches (s : State) (p slot : Nat) : State :=
  s.modPin p (fun x => { x with queue := x.queue.filter (fun a => !(a.cls == 0 && a.k1 == slot && before s.now a.stamp)) })

/-- The pin queue holds the start and end stitch that an event has now (R233, R234, R239). -/
def State.evStitches (s : State) (h slot : Nat) : State :=
  match s.hoopEv h slot with
  | none => s
  | some e =>
    match e.desc.pin with
    | none => s
    | some p =>
      let mk (t : Time) (level : Bool) (k2 : Nat) : Stitch :=
        { stamp := t, level, cls := 0, k1 := slot, k2, k3 := 0, repl := true, locked := lockedAt t s.now, task := e.task,
          run := e.run }
      let s := s.dropStitches p slot
      let s := match e.start with
        | some a => if !e.fired && before s.now a then s.pushStitch p (mk a e.desc.level 1) else s
        | none => s
      match e.stop with
      | some b => s.pushStitch p (mk b (!e.desc.level) 0)
      | none => s

/-- A slot is emptied; its stitches leave with it. -/
def State.dropEv (s : State) (h slot : Nat) : State :=
  match s.hoopEv h slot with
  | none => s
  | some e =>
    let s := match e.desc.pin with | some p => s.dropStitches p slot | none => s
    s.modHoop h (fun x => { x with evs := nmDel x.evs slot })

/-- The time limit of an event in picots. -/
def HoopEv.limit (e : HoopEv) : Time := nsT (e.desc.limitUs * 1000)

/-- The end stamp under the time limit, and whether the limit is what ends it (R368). -/
def HoopEv.limitEnd (e : HoopEv) (start stop : Time) : Time × Bool :=
  if e.desc.limitUs ≠ 0 ∧ before (start + e.limit) stop = true then (start + e.limit, true) else (stop, false)

/-- The stamps of an event whose targets were just fixed, at `t` (R368). -/
def State.evStamps (s : State) (h slot : Nat) (t : Time) (synth : Bool) : State :=
  let x := s.hoop h
  match nmGet? x.evs slot with
  | none => s
  | some e =>
    match e.tgt.bind (fun g => match x.predict g.1, x.predict g.2 with | some a, some b => some (a, b) | _, _ => none) with
    | none => s
    | some (a, b) =>
      let lo := t + lockWin
      let clamp := before a lo
      let start := later a lo
      let (stop, lim) := e.limitEnd start b
      let s := s.setEv h slot { e with start := some start, stop := some stop, limited := lim, clamped := clamp,
                                       startSynth := synth, endSynth := synth }
      let s := if clamp then s.bump F.HOOP_LIMIT_COUNT_clamped (hoopIx h) else s
      s.evStitches h slot

/-- An event fixes its targets from the accumulated angle `acc` (R367). -/
def State.evTargets (s : State) (h slot : Nat) (acc : Int) : State :=
  match s.hoopEv h slot with
  | none => s
  | some e =>
    let d := (e.desc.start - s.hoopAngle h acc).toNat
    let d : Int := if d = 0 then 2 ^ 32 else d
    let a := acc + d
    s.setEv h slot { e with tgt := some (a, a + (e.desc.stop - e.desc.start).toNat) }

/-- A bump of a pin counter for an event with a pin target. -/
def State.pinBump (s : State) (e : HoopEv) (f : Fld) : State :=
  match e.desc.pin with
  | some p => s.bump f (pinIx p)
  | none => s

/-- What a refresh at `tt` makes of a pending stamp (R241): the stamp, whether it was clamped, whether the refresh counts as
refused; a stamp that has passed is left alone. -/
def refreshed (old new tt : Time) : Time × Bool × Bool :=
  if before old tt then (old, false, false)
  else if before old (tt + lockWin) then (old, false, true)
  else if before new (tt + lockWin) then (tt + lockWin, true, false)
  else (new, false, false)

/-- The refresh of one event from the latest point, arriving at `tt` (R241, R368 to R370). The end of an event that is being ended stays
(R373). -/
def State.evRefresh (s : State) (h slot : Nat) (tt : Time) (synth : Bool) : State :=
  let x := s.hoop h
  match (nmGet? x.evs slot).filter (fun e => !e.forced) with
  | none => s
  | some e =>
    match e.tgt, e.start, e.stop with
    | some (ga, gb), some a, some b =>
      match x.predict ga, x.predict gb with
      | some na, some nb =>
        let (a', clampA, refuseA) := refreshed a na tt
        let moveA := !before a (tt + lockWin)
        let (lim, isLim) := e.limitEnd a' nb
        let (b', clampB, refuseB) := refreshed b lim tt
        let moveB := !before b (tt + lockWin)
        let s := s.setEv h slot { e with
          start := some a', stop := some b',
          clamped := if moveA then clampA else e.clamped,
          startSynth := if moveA then synth else e.startSynth,
          endSynth := if moveB then synth else e.endSynth,
          limited := if moveB then isLim && !clampB else e.limited }
        let s := if clampA then (s.pinBump e F.PIN_CLAMP_COUNT_count).bump F.HOOP_LIMIT_COUNT_clamped (hoopIx h) else s
        let s := if refuseA then s.pinBump e F.PIN_REFUSE_COUNT_count else s
        let s := if clampB then (s.pinBump e F.PIN_CLAMP_COUNT_count).bump F.HOOP_LIMIT_COUNT_clamped (hoopIx h) else s
        let s := if refuseB then s.pinBump e F.PIN_REFUSE_COUNT_count else s
        s.evStitches h slot
      | _, _ => s
    | _, _, _ => s

/-- The events in progress at `e` end (R373); one with a locked end keeps it. -/
def State.endActive (s : State) (h : Nat) (e : Time) : State :=
  (s.hoop h).evs.foldl (fun s v =>
    if v.2.active e then
      match v.2.start with
      | none => s
      | some a =>
        let stands := match v.2.stop with | some b => lockedAt b e | none => false
        if stands then s.setEv h v.1 { v.2 with forced := true }
        else
          let stop := if v.2.desc.hold then a + v.2.limit else e + lockWin
          let stop := later stop (a + picots 64)
          (s.setEv h v.1 { v.2 with stop := some stop, forced := true, limited := v.2.desc.hold }).evStitches h v.1
    else s) s

/-- The mask of some slots. -/
def slotMask (l : List Nat) : BitVec 64 := BitVec.ofNat 64 (l.foldl (fun a k => a + 2 ^ k) 0)

/-- The slots with an event that is pending at `e`. -/
def State.pendingSlots (s : State) (h : Nat) (e : Time) : List Nat :=
  ((s.hoop h).evs.filter (fun v => !v.2.active e)).map (fun v => v.1)

/-- Some slots are cancelled: counted, and recorded with the given kind (R371 to R373, R375). -/
def State.cancelSlots (s : State) (h kind : Nat) (l : List Nat) (e : Time) : State :=
  if l = [] then s
  else
    let s := l.foldl (fun s k => s.dropEv h k) s
    (s.bumpBy F.HOOP_EVT_COUNT_cancelled (hoopIx h) l.length).hoopRec h kind 0 (slotMask l) e

/-! ## Leaving SYNC -/

/-- A loss of sync at `e` (R358): LOST; events end, pending ones are cancelled. -/
def State.hoopLoss (s : State) (h cause : Nat) (e : Time) : State :=
  let ix := hoopIx h
  let pend := s.pendingSlots h e
  let s := s.endActive h e
  let s := (s.hoopEnter h 5 e).modHoop h (fun x => { x with usable := 0, slot := none, found := 0, lastEdges := [],
                                                            idxSeen := false, idxStray := false })
  let s := (s.bump F.HOOP_SYNC_COUNT_lost ix).setFld F.HOOP_STATUS_last_cause ix cause
  let s := s.hoopRec h 1 cause (s.hoop h).lastReal e
  s.cancelSlots h 5 pend e

/-- Interface `n` fails as a source (R358, cause 3). -/
def State.fbSourceFails (s : State) (n : Nat) (e : Time) : State :=
  (List.range 4).foldl (fun s i =>
    let h := 4 * (n / 8) + i
    if (s.hoop h).st == 2 && s.hoopSrc h == 2 && s.fld F.HOOP_SRC_index (hoopIx h) % 8 == n % 8 then s.hoopLoss h 3 e
    else s) s

/-- An axis table entry of source kind `src` (3 or 4) is disabled (R358, cause 3). -/
def State.axisSourceFails (s : State) (src entry : Nat) (e : Time) : State :=
  (List.range (4 * s.variant.dies)).foldl (fun s h =>
    if ((s.hoop h).st == 2 || (s.hoop h).st == 6) && s.hoopSrc h == src &&
        s.fld F.HOOP_SRC_index (hoopIx h) == entry then s.hoopLoss h 3 e
    else s) s

/-- A reversal by the tooth or sample `i`, at its acceptance instant (R372, R375). -/
def State.hoopReverse (s : State) (h : Nat) (i : HoopIn) : State :=
  let e := i.tt
  let s := s.modHoop h (fun x => { x with lastReal := i.stamp })
  let pend := s.pendingSlots h e
  let s := s.endActive h e
  let s := (s.hoopEnter h 4 e).modHoop h (fun x => { x with usable := 0 })
  let s := s.hoopRec h 3 0 (s.hoop h).lastReal e
  s.cancelSlots h 5 pend e

/-- STALL at `e` (R371): unlocked stamps are withdrawn. -/
def State.hoopStalls (s : State) (h : Nat) (e : Time) : State :=
  let pend := s.pendingSlots h e
  let s := s.endActive h e
  let s := pend.foldl (fun s k => match s.hoopEv h k with
    | some v => (s.setEv h k { v with start := none, stop := none }).evStitches h k
    | none => s) s
  let s := (s.hoopEnter h 3 e).modHoop h (fun x => { x with usable := 0 })
  (s.bump F.HOOP_SYNC_COUNT_stall (hoopIx h)).hoopRec h 2 0 (s.hoop h).lastReal e

/-- FALLBACK at `e` (R365, R373): events end as on a loss of sync; event pins with none in progress take their fallback. -/
def State.hoopFallback (s : State) (h : Nat) (e : Time) : State :=
  let pend := s.pendingSlots h e
  let s := s.endActive h e
  let s := (s.hoopEnter h 7 e).modHoop h (fun x => { x with coastEnd := none })
  let s := s.hoopRec h 8 0 (s.hoop h).lastReal e
  let s := s.cancelSlots h 5 pend e
  s.pins.foldl (fun s p => match p.2.owner with
    | .hoop g 0 t =>
      if g = h ∧ (s.hoop h).evs.any (fun v => v.2.desc.pin == some p.1) = false then
        match s.task? t with
        | some k => s.pinToFallback p.1 t k.run
        | none => s
      else s
    | _ => s) s

/-- TIME_UNQUALIFIED is set at `t`: a hoop of src 3 in SYNC coasts (R365). -/
def State.hoopsCoast (s : State) (t : Time) : State :=
  (List.range (4 * s.variant.dies)).foldl (fun s h =>
    if (s.hoop h).st == 2 && s.hoopSrc h == 3 then
      let ms := s.fld F.HOOP_COAST_coast_ms (hoopIx h)
      let s := (s.hoopEnter h 6 t).modHoop h (fun x => { x with coastEnd := some (t + nsT (ms * 1000000)) })
      let s := s.hoopRec h 7 0 (s.hoop h).lastReal t
      if ms = 0 then s.hoopFallback h t else s
    else s) s

/-- TIME_UNQUALIFIED clears at `t`: a hoop in COAST or FALLBACK enters LOST (R365); what it still had set ends there. -/
def State.hoopsRequalify (s : State) (t : Time) : State :=
  (List.range (4 * s.variant.dies)).foldl (fun s h =>
    if ((s.hoop h).st == 6 || (s.hoop h).st == 7) && s.hoopSrc h == 3 then
      let pend := s.pendingSlots h t
      let s := s.endActive h t
      let s := (s.hoopEnter h 5 t).modHoop h (fun x => { x with usable := 0, coastEnd := none })
      s.cancelSlots h 5 pend t
    else s) s

/-! ## Points -/

/-- A point enters the history (R346, R359, R360). `rev`, `slot` and `tick` matter to tooth wheels only. -/
def State.addPoint (s : State) (h : Nat) (a : Int) (t tt : Time) (synth back : Bool) (slot width : Nat) : State :=
  let x := s.hoop h
  let wheel := s.hoopSrc h < 2
  let k := s.hoopM h * s.pitchesTo h slot
  let tick : Int := if wheel then s.hoopM h * (Int.fdiv a (2 ^ 32) * s.hoopTeeth h + slot) else 0
  let c0 := if s.bit F.HOOP_CTRL_early_mode (hoopIx h) then x.pts.head?.bind (fun p => p.count tt 1) else none
  let p : HoopPt := { a, t, tt, synth, back, slot, width, tick, k, tp := none, per := none, cu := c0 }
  let usable := if back then 0 else min 3 (x.usable + 1)
  let l := (p :: x.pts).take usable
  let next : Int := Int.fdiv a (2 ^ 32) * 2 ^ 32 + ((slot + s.pitchesTo h slot) * 2 ^ 32 / s.hoopTeeth h : Nat)
  let p := { p with
    tp := if wheel then (predictIn l next).map (fun d => t + picotsI d) else none,
    per := predictIn l ((a : Rat) + s.hoopPitch h) }
  s.setHoop h { x with pts := p :: x.pts, usable := usable, lastReal := if synth then x.lastReal else t }

/-- The events of a hoop in SYNC are refreshed from its latest point (R351, R367 to R369). -/
def State.refreshAll (s : State) (h : Nat) : State :=
  match (s.hoop h).pts with
  | [] => s
  | p :: _ =>
    (s.hoop h).evs.foldl (fun s v =>
      match v.2.tgt, v.2.start with
      | none, _ => (s.evTargets h v.1 p.a).evStamps h v.1 p.tt p.synth
      | some _, none => s.evStamps h v.1 p.tt p.synth
      | some _, some _ => s.evRefresh h v.1 p.tt p.synth) s

/-- A hoop reaches SYNC at its latest point: after STALL, pending events whose start it has passed are missed (R371). -/
def State.hoopSync (s : State) (h : Nat) (stalled : Bool) : State :=
  match (s.hoop h).pts with
  | [] => s
  | p :: _ =>
    let s := (s.hoopEnter h 2 p.tt).hoopRec h 0 0 (s.hoop h).lastReal p.tt
    let late := (s.hoop h).evs.filter (fun v => !v.2.active p.tt && (match v.2.tgt with | some g => decide (g.1 ≤ p.a) | none => false))
    let s := if stalled then s.cancelSlots h 6 (late.map (fun v => v.1)) p.tt else s
    s.refreshAll h

/-- A hoop-event task stops or faults: its events go and their stitches with them (R377). -/
def State.hoopDropTask (s : State) (h t run : Nat) : State :=
  let s := (s.hoop h).evs.foldl (fun s v => if v.2.task = t ∧ v.2.run = run then s.dropEv h v.1 else s) s
  s.modHoop h (fun x => { x with fx := x.fx.filter (fun e => !(e.task == t && e.run == run)) })

/-- A counting event of an interface after which the position is a multiple of cpt is a virtual tooth of the hoops that use
the interface (R363). -/
def State.hoopVirtual (s : State) (n : Nat) (t tt : Time) (pos : Int) : State :=
  (List.range 4).foldl (fun s i =>
    let h := 4 * (n / 8) + i
    let ix := hoopIx h
    if s.bit F.HOOP_CTRL_en ix && s.hoopSrc h == 2 && s.fld F.HOOP_SRC_index ix % 8 == n % 8 &&
        pos % (s.fld F.HOOP_WHEEL_cpt ix : Int) == 0 then
      let a := Int.fdiv (pos * 2 ^ 32) (s.fld F.FB_CPR_cpr (fbIx n))
      s.modHoop h (fun x => { x with inbox := x.inbox ++ [⟨t, tt, 0, false, some a⟩] })
    else s) s

/-- A sample of an axis table entry reaches the hoops that take it as their source (R363). -/
def State.hoopSample (s : State) (src entry : Nat) (t tt : Time) (pos : BitVec 64) : State :=
  (List.range (4 * s.variant.dies)).foldl (fun s h =>
    let ix := hoopIx h
    if s.bit F.HOOP_CTRL_en ix && s.hoopSrc h == src && s.fld F.HOOP_SRC_index ix == entry then
      s.modHoop h (fun x => { x with inbox := x.inbox ++ [⟨t, tt, 0, false, some pos.toInt⟩] })
    else s) s

end Sys2Proof.Machine
end

