-- ==== Sys2Proof/Machine/TimeRegs.lean ====
section
/-! DEFINITION. Ground time, plant time, TIME_UNQUALIFIED and the log control (R67 to R69, R101, R391, R392). -/

namespace Sys2Proof.Machine

/-! ## Slew and ground time -/

/-- A 20-bit rate in ppb, as a signed number. -/
def slewInt (v : Word) : Int := (v.extractLsb' 0 20).toInt

/-- The first multiple of 65,536 picots after a ground time (R67). -/
def slewInstant (t : Time) : Time := BitVec.ofNat 64 ((t.toNat / 65536 + 1) * 65536)

/-- A slew that die 0 accepts now: GT_SLEW holds it, and it takes effect at the next instant of R67. -/
def State.acceptSlew (s : State) (ppb : Int) : State :=
  { s.setFld F.GT_SLEW_slew_ppb pkg (BitVec.ofInt 20 ppb).toNat with slewPend := some (slewInstant s.now, ppb) }

/-- A write of GT_SLEW: rejected outside ±500,000 ppb, and while the servo owns it. -/
def gtSlewW (s : State) (_ : Port) (v : Word) : State :=
  let x := slewInt v
  if s.bit F.TIME_CTRL_servo_en pkg || decide (x < -500000 ∨ 500000 < x) then s.setBit F.TIME_STATUS_slew_reject pkg true
  else s.acceptSlew x

/-- SLEW_APPLY: the accepted slew takes effect on all dies at its instant (R67). -/
def slewApply (s : State) : State :=
  match s.slewPend with
  | none => s
  | some (t, x) => { s.at t with slew := x, slewPend := none }

/-- SLEW_APPLY. -/
def execSlewApply (s : State) : Host.Outcome State Fault Refusal := .next (slewApply s)

/-- One core cycle of ground time (R67): 64 picots corrected by the slew; the part below a picot is kept in units of 10^-9
picot. -/
def State.tick (s : State) : State :=
  let x : Int := 64 * (1000000000 + s.slew) + s.slewFrac
  { s with now := s.now + BitVec.ofInt 64 (x / 1000000000), slewFrac := x % 1000000000 }

/-- A write of GT_SET (64 bits, R21): accepted until the first step of any task has run (R68). -/
def gtSetW (s : State) (_ : Port) (lo hi : Word) : State :=
  if s.bit F.TIME_STATUS_first_step_done pkg then s.setBit F.TIME_STATUS_set_reject pkg true
  else { (s.setReg .GT_SET_LO pkg lo).setReg .GT_SET_HI pkg hi with now := joinHalves hi lo, slewFrac := 0 }

/-- A write of PLANT_OFFSET (64 bits): rejected while any task runs (R69) and while the servo owns it. -/
def plantOffsetW (s : State) (_ : Port) (lo hi : Word) : State :=
  if s.anyRunning || s.bit F.TIME_CTRL_servo_en pkg then s.setBit F.TIME_STATUS_offset_reject pkg true
  else (s.setReg .PLANT_OFFSET_LO pkg lo).setReg .PLANT_OFFSET_HI pkg hi

/-! ## TIME_UNQUALIFIED (R391, R392) -/

/-- TIME_UNQUALIFIED. -/
def State.unqualified (s : State) : Bool := s.bit F.TIME_STATUS_time_unqualified pkg

/-- The TIME record (R392): kind, cause, the latest offset in ns. -/
def State.timeRec (s : State) (kind cause : Nat) : State :=
  s.emitUnit 0 0x08A0 0x35 s.now (s.fld F.NET_QUAL_eq pkg)
    ([BitVec.ofNat 8 kind, BitVec.ofNat 8 cause, 0, 0] ++ leBytes (BitVec.ofInt 64 s.ptp.latest).toNat 8)

/-- A cause of R391 arises: the first sets the bit, counts and records it; hoops that follow the network coast (R365). -/
def State.setUnqual (s : State) (cause : Nat) : State :=
  if s.unqualified then s
  else
    let s := s.setBit F.TIME_STATUS_time_unqualified pkg true
    let s := s.bump F.NET_QUAL_COUNT_unqualified pkg
    (s.timeRec 0 cause).hoopsCoast s.now

/-- The bit clears, with a record of cause 6 for a write of servo_en = 0, else 0. -/
def State.clearUnqual (s : State) (cause : Nat) : State :=
  if s.unqualified then ((s.setBit F.TIME_STATUS_time_unqualified pkg false).timeRec 1 cause).hoopsRequalify s.now else s

/-- A write of TIME_CTRL (R391): servo_en written 1 is cause 5; written 0 it clears the bit. -/
def timeCtrlW (s : State) (_ : Port) (v : Word) : State :=
  let s := s.plainWrite .TIME_CTRL pkg v
  if bitOf v 0 then s.setUnqual 5 else s.clearUnqual 6

/-! ## The log control (R101, R411, R412) -/

/-- Local queue 255 of a live die is bound to the log unit and local DMA channel 7, or freed; a channel that a task's queue
already has keeps it. -/
def State.bindLog (s : State) (d : Nat) (on : Bool) : State :=
  let q := 256 * d + 255
  let c := 8 * d + 7
  let own := (s.dma c).queue == none || (s.dma c).queue == some q
  if on then
    let s := s.modQue q (fun x => { QueSt.reset with bound := true, prodKind := 2, consKind := 1, dma := if own then some 7 else none,
                                                     cap := 16384, base := 0x3F0000, gen := x.gen, gens := x.gens })
    let s := s.setReg .QUE_MARK_HI (queIx q) 4096
    let s := s.setReg .QUE_MARK_LO (queIx q) 0
    let s := s.setReg .QUE_FLUSH (queIx q) 0
    let s := s.setReg .QUE_IDLE (queIx q) 0xFFFFFFFE
    if own then s.modDma c (fun x => { x with queue := some q }) else s
  else
    let s := s.modQue q (fun x => { x with bound := false, dma := none })
    if own then s.modDma c (fun x => { x with queue := none }) else s

/-- A write of LOG_CTRL: enable may change only while no task is running (R101). -/
def logCtrlW (s : State) (_ : Port) (v : Word) : State :=
  if bitOf v 0 = s.logging then s
  else if s.anyRunning then s.setBit F.TIME_STATUS_log_reject pkg true
  else s.liveDies.foldl (fun s d => s.bindLog d (bitOf v 0)) (s.plainWrite .LOG_CTRL pkg v)

end Sys2Proof.Machine
end

