-- ==== Sys2Proof/Machine/Net.lean ====
section
/-! DEFINITION. The network ports: receive filter, egress queues, time-aware gate, axis frames and the axis tables (R380 to
R387, R395 to R410). Addresses are numbers with byte 0 lowest, as NET_MAC holds them. -/

namespace Sys2Proof.Machine

/-! ## Ports -/

/-- A network port: 0 = NET_A, 1 = NET_B. -/
def State.net (s : State) (p : Nat) : NetSt := nmGet s.nets p NetSt.reset
/-- The state with a port set. -/
def State.setNet (s : State) (p : Nat) (x : NetSt) : State := { s with nets := nmPut s.nets p x }
/-- The state with a port changed. -/
def State.modNet (s : State) (p : Nat) (f : NetSt → NetSt) : State := s.setNet p (f (s.net p))

/-- The port exists, its die runs, and it is enabled with its link up (R380). -/
def State.portUp (s : State) (p : Nat) : Bool :=
  p < 2 && s.dieActs p && s.bit F.NET_CTRL_en (pkg1 p) && s.bit F.NET_STATUS_link_up (pkg1 p)

/-- NET_LINK_CHANGE: the link of an enabled port comes up, which shows that SGMII_REFCLK is there (R525), or goes down; the frame on the
wire is lost with the link. -/
def netLinkChange (s : State) (p : Nat) (up : Bool) (g : Time) : State :=
  if p < 2 && s.dieActs p && s.bit F.NET_CTRL_en (pkg1 p) then
    let s := s.at g
    let s := s.setBit F.NET_STATUS_link_up (pkg1 p) up
    let s := s.setBit F.NET_STATUS_an_done (pkg1 p) (up && s.bit F.NET_CTRL_an_en (pkg1 p))
    if up then s.setBit F.CLK_STATUS_sgmii_refclk_ok pkg true else s.modNet p (fun x => { x with wire := none })
  else s

/-- NET_LINK_CHANGE. -/
def execNetLinkChange (p : Nat) (up : Bool) (g : Time) (s : State) : Host.Outcome State Fault Refusal :=
  .next (netLinkChange s p up g)

/-- A write of NET_CTRL: a port written off is powered down (R380) and NET_PORTS follows (R60). -/
def netCtrlW (s : State) (_ : Port) (p : Nat) (v : Word) : State :=
  let was := s.bit F.NET_CTRL_en (pkg1 p)
  let s := s.plainWrite .NET_CTRL (pkg1 p) v
  if was = bitOf v 0 then s
  else if was then
    let s := (s.setBit F.NET_STATUS_link_up (pkg1 p) false).setBit F.NET_STATUS_an_done (pkg1 p) false
    (s.modNet p (fun x => { x with frames := [], wire := none })).capUpdate
  else s.capUpdate

/-! ## Receive (R381, R383) -/

/-- The 48-bit address that two registers hold. -/
def State.mac (s : State) (lo hi : Reg) (ix : Ix) : BitVec 48 := (s.reg hi ix).extractLsb' 0 16 ++ s.reg lo ix

/-- The address of axis frames. -/
def State.groupMac (s : State) : BitVec 48 := s.mac .LS_GROUP_MAC_LO .LS_GROUP_MAC_HI pkg

/-- 01-1B-19-00-00-00 and 01-80-C2-00-00-0E. -/
def ptpMacs : List (BitVec 48) := [0x000000191B01, 0x0E0000C28001]

/-- The frame passes the conditions of R381 other than FCS and length. -/
def State.rxWanted (s : State) (p : Nat) (h : RxHdr) : Bool :=
  (h.dst == s.mac .NET_MAC_LO .NET_MAC_HI (pkg1 p) || ptpMacs.contains h.dst || h.dst == s.groupMac) &&
  (match h.vid with | none => true | some v => v == 0 || v == s.fld F.NET_VLAN_vid (pkg1 p)) &&
  (h.ethertype == 0x88F7 || h.ethertype == s.fld F.LS_CTRL_ethertype pkg)

/-- What a received frame meets first (R381): a bad FCS or length, an unwanted frame, or the code that handles it. -/
def State.receiveFrame (s : State) (p : Nat) (h : RxHdr) (raw : Time) (f : State → Time → State) : State :=
  if s.portUp p then
    let s := s.at raw
    if !h.fcsOk || h.len < 64 || 1522 < h.len then s.bump F.NET_RX_COUNT_fcs_err (pkg1 p)
    else if s.rxWanted p h then f s (raw - picots (s.fld F.NET_LAT_rx_lat (pkg1 p)))
    else s.bump F.NET_RX_COUNT_dropped (pkg1 p)
  else s

/-! ## Axis frames in (R402 to R404) -/

/-- The enabled subscription of a node and axis that listens on a port (R403, check 3). -/
def State.axsMatch (s : State) (p node axis : Nat) : Option Nat :=
  (List.range 256).find? (fun e =>
    s.bit F.AXS_CFG_en (pkg1 e) && (s.fld F.AXS_CFG_ports (pkg1 e)).testBit p &&
    s.fld F.AXS_SRC_node_id (pkg1 e) == node && s.fld F.AXS_SRC_axis_id (pkg1 e) == axis)

/-- A sample history, newest stamp first, with one more. -/
def histInsert (a : AxSample) : List AxSample → List AxSample
  | [] => [a]
  | b :: r => if before a.t b.t then b :: histInsert a r else a :: b :: r

/-- A taken sample (R404): logged, counted, and kept if it is in time (R85). -/
def State.takeSample (s : State) (p e : Nat) (f : AxisFrame) (rx : Time) : State :=
  let conv := BitVec.ofNat 64 (f.stampNs * 64) - s.plantOffset
  let d := s.axsAllow e
  let inTime := upTo rx (conv + picots d - nsT 1000)
  let flags := b2n f.restart + 2 * b2n f.unqualified
  let s := s.log p 0x06 (b2n inTime) e conv [loHalf rx, hiHalf rx, f.seq, loHalf f.pos, hiHalf f.pos, loHalf f.vel, hiHalf f.vel,
    BitVec.ofNat 32 flags]
  if inTime then
    let s := s.bump F.AXS_COUNT_count_lo (pkg2 e 0)
    let s := s.setAxs e { s.axs e with hist := histInsert ⟨conv, f.pos, f.vel⟩ (s.axs e).hist }
    let s := s.setReg64 .AXS_LAST_STAMP_LO .AXS_LAST_STAMP_HI (pkg1 e) conv
    (s.setBit F.AXS_STATUS_have_sample (pkg1 e) true).hoopSample 3 e conv (conv + picots d) f.pos
  else s.bump F.AXS_COUNT_count_hi (pkg2 e 0)

/-- An axis frame passes the checks of R403 in order. -/
def State.axisFrame (s : State) (p : Nat) (f : AxisFrame) (rx : Time) : State :=
  if f.domain ≠ s.fld F.LS_CTRL_domain pkg then s.bump F.LS_DROP_COUNT_0_domain pkg
  else if f.node = s.fld F.LS_NODE_node_id pkg then s.bump F.LS_DROP_COUNT_0_own pkg
  else match s.axsMatch p f.node f.axis with
  | none => s.bump F.LS_DROP_COUNT_1_unmatched pkg
  | some e =>
    if f.version ≠ 1 then s.bump F.AXS_COUNT_count_lo (pkg2 e 2)
    else if f.digest ≠ s.reg .LS_LINE_DIGEST pkg then s.bump F.AXS_COUNT_count_hi (pkg2 e 2)
    else if f.unqualified then s.bump F.AXS_COUNT_count_lo (pkg2 e 3)
    else
      let fresh := f.restart && f.seq == 0
      let diff := f.seq - s.reg .AXS_LAST_SEQ (pkg1 e)
      let skip := (s.axs e).first || fresh
      if !skip && diff == 0 then s.bump F.AXS_COUNT_count_hi (pkg2 e 1)
      else if !skip && diff.msb then s.bump F.AXS_COUNT_count_hi (pkg2 e 3)
      else
        let s := s.setReg .AXS_LAST_SEQ (pkg1 e) f.seq
        let s := s.setAxs e { s.axs e with first := false }
        let s := if fresh then s.setBit F.AXS_STATUS_restarted (pkg1 e) true else s
        s.takeSample p e f rx

/-- AXIS_FRAME_RX. -/
def axisFrameRx (s : State) (p : Nat) (h : RxHdr) (f : AxisFrame) (raw : Time) : State :=
  s.receiveFrame p h raw fun s rx => if h.ethertype = s.fld F.LS_CTRL_ethertype pkg then s.axisFrame p f rx else s

/-- AXIS_FRAME_RX. -/
def execAxisFrameRx (p : Nat) (h : RxHdr) (f : AxisFrame) (raw : Time) (s : State) : Host.Outcome State Fault Refusal :=
  .next (axisFrameRx s p h f raw)

/-! ## The gate (R385 to R387). Plant instants are picots modulo 2^64, and differences of them are signed (R388). -/

/-- Plant time at a ground time (R388). -/
def State.plantAt (s : State) (t : Time) : Time := t + s.plantOffset

/-- Plant time now. -/
def State.plantNow (s : State) : Time := s.plantAt s.now

/-- The ground time of a plant instant. -/
def State.groundOf (s : State) (x : Time) : Time := x - s.plantOffset

/-- The gate of a port is on. -/
def State.gateOn (s : State) (p : Nat) : Bool := s.bit F.NET_GATE_CTRL_gate_en (pkg1 p)
/-- The active bank. -/
def State.bank (s : State) (p : Nat) : Nat := s.fld F.NET_GATE_CTRL_active (pkg1 p)
/-- The length of a bank's list. -/
def State.gateLen (s : State) (p b : Nat) : Nat :=
  if b = 0 then s.fld F.NET_GATE_CTRL_len_0 (pkg1 p) else s.fld F.NET_GATE_CTRL_len_1 (pkg1 p)
/-- The cycle of a bank in picots. -/
def State.gateCycle (s : State) (p b : Nat) : Nat := ns (s.fld F.NET_GATE_CYCLE_cycle_ns (pkg2 p b))
/-- The base of a bank as a plant instant: its register counts ns. -/
def State.gateBase (s : State) (p b : Nat) : Time := s.reg64 .NET_GATE_BASE_LO .NET_GATE_BASE_HI (pkg2 p b) * 64

/-- The first base + k × cycle of a bank, k ≥ 0, at or after a plant instant. -/
def State.gateFrom (s : State) (p b : Nat) (x : Time) : Time :=
  let base := s.gateBase p b
  let c : Int := s.gateCycle p b
  let d := dist x base
  if d ≤ 0 then base else base + picotsI (-(Int.fdiv (-d) c) * c)

/-! Within one walk, plant instants are signed distances from one of them. -/

/-- The end of entry `e` in a cycle of bank `b` that ends at `fin`, when the entry begins at `from_`: the last one holds, one that
reaches the end of the cycle is cut there. -/
def State.entryFin (s : State) (p b e : Nat) (from_ fin : Int) : Int :=
  if s.gateLen p b ≤ e + 1 then fin
  else min fin (from_ + (ns (s.fld F.NET_GATE_ENTRY_interval_ns ⟨0, p, b, e⟩) : Nat))

/-- The end of a cycle that starts at `start`: an armed swap may cut it. -/
def State.cycleFin (s : State) (p b : Nat) (start : Int) (swap : Option Int) : Int :=
  match swap with
  | some x => if x ≤ start then start + s.gateCycle p b else min x (start + s.gateCycle p b)
  | none => start + s.gateCycle p b

/-- Gate `q` stays open from `x` up to `y`, walking the entries from entry `e` (which ends at `fin`) of the cycle of bank `b` that
started at `start`. -/
def State.gateStays (s : State) (p q : Nat) (y : Int) : (fuel b : Nat) → (start : Int) → (e : Nat) → (fin x : Int) →
    (swap : Option Int) → Bool
  | 0, _, _, _, _, _, _ => false
  | n + 1, b, start, e, fin, x, swap =>
    if x < fin && !(s.fld F.NET_GATE_ENTRY_mask ⟨0, p, b, e⟩).testBit q then false
    else if y ≤ fin then true
    else
      let cf := s.cycleFin p b start swap
      if fin < cf then s.gateStays p q y n b start (e + 1) (s.entryFin p b (e + 1) fin cf) (max x fin) swap
      else
        let (b', swap') := if swap = some cf then (1 - b, none) else (b, swap)
        s.gateStays p q y n b' cf 0 (s.entryFin p b' 0 cf (s.cycleFin p b' cf swap')) (max x cf) swap'

/-- A frame that would start now and take `y` picots fits its gate (R386); before the first cycle every gate is open. -/
def State.gateFits (s : State) (p q y : Nat) : Bool :=
  if !s.gateOn p then true
  else
    let n := s.net p
    let b := s.bank p
    let rel (t : Time) : Int := dist t s.plantNow
    let swap := n.swapAt.map rel
    match n.cycle with
    | none =>
      (match n.next with
       | some c => decide ((y : Int) ≤ rel c) ||
           s.gateStays p q y 8192 b (rel c) 0 (s.entryFin p b 0 (rel c) (s.cycleFin p b (rel c) swap)) (max 0 (rel c)) swap
       | none => true)
    | some c => s.gateStays p q y 8192 b (rel c) n.entry (rel n.entryEnd) 0 swap

/-- The time a frame takes on the wire in picots: 8 ns a byte, 20 bytes added (R386). -/
def TxFrame.wireTime (f : TxFrame) : Nat := ns ((f.len + 20) * 8)

/-- The frames that fit their gate now wait anew for a full cycle without fitting (R386). -/
def State.noteFits (s : State) (p : Nat) : State :=
  s.modNet p (fun n => { n with frames := n.frames.map (fun f => if s.gateFits p f.queue f.wireTime then { f with since := s.now } else f) })

/-- A cycle of the active bank starts at a plant instant. -/
def State.startCycle (s : State) (p : Nat) (c : Time) : State :=
  let b := s.bank p
  let n := s.net p
  let fin := s.cycleFin p b 0 (n.swapAt.map (fun x => dist x c))
  (s.setNet p { n with cycle := some c, next := some (c + picots (s.gateCycle p b)), entry := 0,
                       entryEnd := c + picotsI (s.entryFin p b 0 0 fin) }).noteFits p

/-- GATE_CYCLE_START: the next cycle starts, at the swap instant with the armed bank (R385, R387). -/
def gateCycleStart (s : State) (p : Nat) : State :=
  let n := s.net p
  if s.gateOn p && p < 2 && s.dieActs p then
    match n.next with
    | none => s
    | some c =>
      match n.swapAt with
      | some x =>
        if upTo x c then
          let s := s.at (s.groundOf x)
          let s := (s.setFld F.NET_GATE_CTRL_active (pkg1 p) (1 - s.bank p)).setBit F.NET_GATE_CTRL_pending (pkg1 p) false
          (s.modNet p (fun n => { n with swapAt := none })).startCycle p x
        else (s.at (s.groundOf c)).startCycle p c
      | none => (s.at (s.groundOf c)).startCycle p c
  else s

/-- GATE_CYCLE_START. -/
def execGateCycleStart (p : Nat) (s : State) : Host.Outcome State Fault Refusal := .next (gateCycleStart s p)

/-- GATE_ENTRY_END: the next entry of the cycle begins (R385). -/
def gateEntryEnd (s : State) (p : Nat) : State :=
  let n := s.net p
  let b := s.bank p
  match n.cycle with
  | none => s
  | some c =>
    let fin := s.cycleFin p b 0 (n.swapAt.map (fun x => dist x c))
    let x := dist n.entryEnd c
    if s.gateOn p && p < 2 && s.dieActs p && x < fin then
      ((s.at (s.groundOf n.entryEnd)).setNet p { n with
        entry := n.entry + 1, entryEnd := c + picotsI (s.entryFin p b (n.entry + 1) x fin) }).noteFits p
    else s

/-- GATE_ENTRY_END. -/
def execGateEntryEnd (p : Nat) (s : State) : Host.Outcome State Fault Refusal := .next (gateEntryEnd s p)

/-- An armed swap takes effect at once (gate_en = 0). -/
def State.swapNow (s : State) (p : Nat) : State :=
  ((s.setFld F.NET_GATE_CTRL_active (pkg1 p) (1 - s.bank p)).setBit F.NET_GATE_CTRL_pending (pkg1 p) false).modNet p
    (fun n => { n with swapAt := none })

/-- A write of a port register that breaks a range or R387. -/
def State.netReject (s : State) (p : Nat) : State := s.setBit F.NET_STATUS_cfg_reject (pkg1 p) true

/-- A bank takes no writes: it is armed, or active with the gate on (R387). -/
def State.bankShut (s : State) (p b : Nat) : Bool :=
  (s.bit F.NET_GATE_CTRL_pending (pkg1 p) && b != s.bank p) || (s.gateOn p && b == s.bank p)

/-- A write of NET_GATE_CTRL (R385, R387). -/
def netGateCtrlW (s : State) (_ : Port) (p : Nat) (v : Word) : State :=
  let l0 := bitsOf v 8 9
  let l1 := bitsOf v 17 9
  let bad := l0 = 0 ∨ 256 < l0 ∨ l1 = 0 ∨ 256 < l1 ∨ (l0 ≠ s.gateLen p 0 ∧ s.bankShut p 0 = true) ∨
    (l1 ≠ s.gateLen p 1 ∧ s.bankShut p 1 = true)
  if bad then s.netReject p
  else
    let was := s.gateOn p
    let s := s.plainWrite .NET_GATE_CTRL (pkg1 p) v
    let on := bitOf v 0
    let s :=
      if on && !was then s.modNet p (fun n => { n with cycle := none, next := some (s.gateFrom p (s.bank p) s.plantNow) })
      else if !on then s.modNet p (fun n => { n with cycle := none, next := none })
      else s
    let armed := s.bit F.NET_GATE_CTRL_pending (pkg1 p)
    if !on then (if armed || bitOf v 2 then s.swapNow p else s)
    else if bitOf v 2 && !armed then
      let fin := match (s.net p).next with | some c => c | none => s.plantNow
      (s.setBit F.NET_GATE_CTRL_pending (pkg1 p) true).modNet p (fun n => { n with swapAt := some (s.gateFrom p (1 - s.bank p) fin) })
    else s

/-- A write of a bank's base (64 bits), cycle or entry (R387, R408). -/
def netBankW (s : State) (r : Reg) (ix : Ix) (lo v : Word) : State :=
  let p := ix.i
  if s.bankShut p ix.j then s.netReject p
  else match r with
  | .NET_GATE_BASE_HI => (s.setReg .NET_GATE_BASE_LO ix lo).setReg .NET_GATE_BASE_HI ix v
  | .NET_GATE_CYCLE =>
    if bitsOf v 0 30 < 1000 ∨ 1000000000 < bitsOf v 0 30 then s.netReject p else s.plainWrite .NET_GATE_CYCLE ix v
  | r => s.plainWrite r ix v

/-! ## Transmit (R384, R386) -/

/-- The head frame of an egress queue. -/
def NetSt.head (n : NetSt) (q : Nat) : Option TxFrame := n.frames.find? (fun f => f.queue == q)

/-- The frame that an idle link starts at the present plant time (R384). -/
def State.nextTx (s : State) (p : Nat) : Option TxFrame :=
  ((List.range 8).reverse.filterMap (fun q => (s.net p).head q)).find? (fun f => s.gateFits p f.queue f.wireTime)

/-- The C-tag of a frame of a port, if it carries one (R382): a PCP, and the VID of the port. -/
def State.cTag (s : State) (p : Nat) (on : Bool) (pcp : Nat) : Option (Nat × Nat) :=
  if on then some (pcp, s.fld F.NET_VLAN_vid (pkg1 p)) else none

/-- An egress queue gets a frame of `len` bytes, and 4 more with a tag. -/
def State.queueFrame (s : State) (p q len : Nat) (tag : Option (Nat × Nat)) (b : TxBody) : State :=
  s.modNet p (fun n => { n with frames := n.frames ++ [⟨q, len + (if tag.isSome then 4 else 0), tag, b, s.now⟩] })

/-- FRAME_TX_END: the frame on the wire ends and is counted (R386). -/
def frameTxEnd (s : State) (p : Nat) : State :=
  match (s.net p).wire with
  | none => s
  | some (_, t) =>
    if s.portUp p then ((s.at t).modNet p (fun n => { n with wire := none })).bumpMod F.NET_TX_COUNT_frames (pkg1 p) else s

/-- FRAME_TX_END. -/
def execFrameTxEnd (p : Nat) (s : State) : Host.Outcome State Fault Refusal := .next (frameTxEnd s p)

/-- GATE_DROP: the head frame of a queue that has waited one full cycle without fitting is discarded (R386). -/
def gateDrop (s : State) (p q : Nat) : State :=
  match (s.net p).head q with
  | none => s
  | some f =>
    if s.gateOn p && s.portUp p then
      let s := s.at (f.since + picots (s.gateCycle p (s.bank p)))
      if s.gateFits p q f.wireTime then s
      else (s.modNet p (fun n => { n with frames := n.frames.erase f })).bump F.NET_TX_COUNT_gate_drop (pkg1 p)
    else s

/-- GATE_DROP. -/
def execGateDrop (p q : Nat) (s : State) : Host.Outcome State Fault Refusal := .next (gateDrop s p q)

/-! ## Publishing (R398 to R400) -/

/-- A frame that an entry has waiting in a port's queue. -/
def TxFrame.ofEntry (f : TxFrame) (e : Nat) : Bool := match f.body with | .axis x _ _ _ _ _ => x == e | _ => false

/-- An accepted sample's frame enters a port's queue, in the place of the entry's previous frame if that still waits. -/
def State.postFrame (s : State) (p e : Nat) (b : TxBody) : State :=
  if (s.fld F.AXP_CFG_ports (pkg1 e)).testBit p && p < 2 && s.dieActs p && s.bit F.NET_CTRL_en (pkg1 p) then
    let q := s.fld F.AXP_CFG_queue (pkg1 e)
    let tag := s.cTag p (s.bit F.AXP_CFG_tag (pkg1 e)) (s.fld F.AXP_CFG_pcp (pkg1 e))
    let n := s.net p
    if n.frames.any (fun f => f.ofEntry e) then
      let f' : TxFrame := ⟨q, 64 + (if tag.isSome then 4 else 0), tag, b, s.now⟩
      (s.setNet p { n with frames := n.frames.map (fun f => if f.ofEntry e then f' else f) }).bump F.AXP_COUNT_replaced (pkg1 e)
    else s.queueFrame p q 64 tag b
  else s

/-- One posted sample of a publish entry at its stamp (R85, R398, R400). -/
def State.postSample (s : State) (e run : Nat) (ts : Time) (pos vel : BitVec 64) : State :=
  if !s.bit F.AXP_CFG_en (pkg1 e) then s
  else
    let s := s.setAxp e { s.axp e with samples := ⟨ts, pos, vel⟩ :: (s.axp e).samples }
    let s := s.hoopSample 4 e ts ts pos
    if s.fld F.AXP_CFG_ports (pkg1 e) = 0 then s
    else
      let x := s.axp e
      let first := x.last.isNone || x.run != run
      let ok := first || (match x.last with
        | some t => upTo (t + nsT (s.fld F.AXP_PERIOD_period_ns (pkg1 e))) ts
        | none => true)
      if !ok then s.bump F.AXP_COUNT_suppressed (pkg1 e)
      else
        let seq : Word := if first then 0 else s.reg .AXP_SEQ (pkg1 e) + 1
        let s := s.setReg .AXP_SEQ (pkg1 e) seq
        let s := s.setAxp e { s.axp e with last := some ts, run := run }
        let ns := (ts + s.plantOffset).toNat / 64
        let b := TxBody.axis e seq first ns pos vel
        (s.postFrame 0 e b).postFrame 1 e b

/-- AXP_SAMPLE_POST: the i-th sample on its way reaches its entry at its stamp. -/
def axpSamplePost (s : State) (i : Nat) : State :=
  match (s.flight.filter (fun e => match e.kind with | .sample _ _ _ => true | _ => false))[i]? with
  | none => s
  | some e =>
    match e.kind with
    | .sample entry pos vel =>
      let s := { s with flight := s.flight.erase e }
      (s.at e.stamp).postSample entry (e.task * 0x100000000 + e.run + 1) e.stamp pos vel
    | _ => s

/-- AXP_SAMPLE_POST. -/
def execAxpSamplePost (i : Nat) (s : State) : Host.Outcome State Fault Refusal := .next (axpSamplePost s i)

/-! ## Writes of the axis tables (R401, R402, R410) -/

/-- LS_GROUP_MAC is a multicast address: bit 0 of its first byte is 1. -/
def State.multicast (s : State) : Bool := s.groupMac.getLsbD 0

/-- A write that R410 rejects under R25. -/
def State.lsLocked (s : State) : State := s.setBit F.LS_STATUS_write_reject pkg true
/-- A write that breaks R401, R402 or a range. -/
def State.lsBad (s : State) : State := s.setBit F.LS_STATUS_cfg_reject pkg true

/-- A write of LS_CTRL, LS_NODE or LS_LINE_DIGEST. -/
def lsWrite (s : State) (_ : Port) (r : Reg) (v : Word) : State :=
  let et := bitsOf v 0 16
  if s.anyRunning then s.lsLocked
  else if r = .LS_CTRL ∧ (et < 0x600 ∨ et = 0x88F7 ∨ et = 0x8100) then s.lsBad
  else s.plainWrite r pkg v

/-- A write of LS_GROUP_MAC (R21): with a subscription enabled it stays a multicast address (R402). -/
def lsGroupMacW (s : State) (_ : Port) (lo hi : Word) : State :=
  let s' := (s.setReg .LS_GROUP_MAC_LO pkg lo).setReg .LS_GROUP_MAC_HI pkg (hi &&& 0xFFFF)
  if s.anyRunning then s.lsLocked
  else if !s'.multicast && (List.range 256).any (fun e => s.bit F.AXS_CFG_en (pkg1 e)) then s.lsBad
  else s'

/-- The frame rate of a port over its enabled transmitted entries, in 1/s (R401). -/
def State.portRate (s : State) (p : Nat) : Rat :=
  (List.range 64).foldl (fun (a : Rat) e =>
    if s.bit F.AXP_CFG_en (pkg1 e) && (s.fld F.AXP_CFG_ports (pkg1 e)).testBit p then
      a + 1000000000 / (s.fld F.AXP_PERIOD_period_ns (pkg1 e) : Rat)
    else a) 0

/-- A write of AXP_CFG or AXP_PERIOD of entry `e`: R401 is for one that enables it or changes its period or ports. -/
def axpWrite (s : State) (_ : Port) (r : Reg) (e : Nat) (v : Word) : State :=
  if s.unitRuns 7 e then s.lsLocked
  else if r = .AXP_PERIOD ∧ (bitsOf v 0 24 < 31250 ∨ 10000000 < bitsOf v 0 24) then s.lsBad
  else
    let was := s.bit F.AXP_CFG_en (pkg1 e)
    let s' := s.plainWrite r (pkg1 e) v
    let same := was && s'.fld F.AXP_CFG_ports (pkg1 e) == s.fld F.AXP_CFG_ports (pkg1 e) &&
      s'.fld F.AXP_PERIOD_period_ns (pkg1 e) == s.fld F.AXP_PERIOD_period_ns (pkg1 e)
    let sent := s'.bit F.AXP_CFG_en (pkg1 e) && s'.fld F.AXP_CFG_ports (pkg1 e) != 0
    if sent && !same && (!s'.multicast || 1000000 < s'.portRate 0 || 1000000 < s'.portRate 1) then s.lsBad
    else if was && !s'.bit F.AXP_CFG_en (pkg1 e) then s'.axisSourceFails 4 e s'.now
    else s'

/-- An AXS entry takes no writes: a running task declares it or an enabled hoop uses it (AXS_STATUS.locked). -/
def State.axsLocked (s : State) (e : Nat) : Bool :=
  s.unitRuns 6 e || (List.range (4 * s.variant.dies)).any (fun h =>
    s.bit F.HOOP_CTRL_en (hoopIx h) && s.hoopSrc h == 3 && s.fld F.HOOP_SRC_index (hoopIx h) == e)

/-- The entry as a write would leave it keeps R402, enabled or not. -/
def State.axsOk (s : State) (e : Nat) : Bool :=
  let p := s.fld F.AXS_PERIOD_period_ns (pkg1 e)
  let d := s.fld F.AXS_ALLOW_allow_ns (pkg1 e)
  decide (31250 ≤ p ∧ p ≤ 10000000 ∧ 2000 ≤ d ∧ d ≤ 10000000 ∧ d ≤ 6 * p) && s.fld F.AXS_CFG_ports (pkg1 e) != 0 &&
  s.multicast && (List.range 256).all (fun k =>
    k == e || !s.bit F.AXS_CFG_en (pkg1 k) || s.reg .AXS_SRC (pkg1 k) != s.reg .AXS_SRC (pkg1 e))

/-- A write of a RW register of subscription `e`; a write that enables it begins its history anew. -/
def axsWrite (s : State) (_ : Port) (r : Reg) (e : Nat) (v : Word) : State :=
  if s.axsLocked e then s.lsLocked
  else
    let was := s.bit F.AXS_CFG_en (pkg1 e)
    let s' := s.plainWrite r (pkg1 e) v
    if !s'.axsOk e then s.lsBad
    else
      let on := s'.bit F.AXS_CFG_en (pkg1 e)
      if on && !was then (s'.setAxs e AxsSt.reset).setBit F.AXS_STATUS_have_sample (pkg1 e) false
      else if was && !on then s'.axisSourceFails 3 e s'.now
      else s'

end Sys2Proof.Machine
end

