-- ==== Sys2Proof/Machine/Effects.lean ====
section
/-! DEFINITION. A committed effect reaches its unit (R79, R87, R91, R233, R414, R417). -/

namespace Sys2Proof.Machine

/-- An effect takes its place at its unit: a stitch in the pin's queue, a packet in the ring, the rest among what waits for
its stamp. -/
def State.deliver (s : State) (e : Eff) : State :=
  match e.kind with
  | .stitch p level repl old =>
    if (s.pin p).owner = .task e.task then s.stitchArrive e p level repl old else s
  | .pwmw c _ _ _ _ => s.modCar c (fun x => { x with fx := effInsert e x.fx })
  | .pwmc c _ _ => s.modCar c (fun x => { x with fx := effInsert e x.fx })
  | .tripClear j => s.modTrip j (fun x => { x with fx := effInsert e x.fx })
  | .fbArm n _ _ _ _ => s.modFb n (fun x => { x with fx := effInsert e x.fx })
  | .fbDisarm n => s.modFb n (fun x => { x with fx := effInsert e x.fx })
  | .hevt h _ _ _ => s.modHoop h (fun x => { x with fx := effInsert e x.fx })
  | .hcan h _ => s.modHoop h (fun x => { x with fx := effInsert e x.fx })
  | .packet q ws => (s.putPacket q e.stamp ws).request q false
  | .release q _ _ => s.modQue q (fun x => { x with relFx := effInsert e x.relFx })
  | _ => s

/-- A packet that comes before packet `e` in the order of R92 is still on its way to the same queue (R413). -/
def State.packetBefore (s : State) (e : Eff) : Bool :=
  match e.kind with
  | .packet q _ => s.flight.any (fun f => (match f.kind with | .packet k _ => k == q | _ => false) && f.first e)
  | _ => false

/-- EFFECT_ARRIVAL: the i-th effect on its way reaches its unit, before its stamp and behind all that the same die has sent to that
die before it (R40), a packet behind those completed before it (R413); a die that does not act loses it. Axis samples are posted
by AXP_SAMPLE_POST. -/
def effectArrival (s : State) (i : Nat) : State :=
  match s.flight[i]? with
  | none => s
  | some e =>
    if e.kind.isSample || !s.mayArrive e.die e.kind.die e.ord || s.packetBefore e then s
    else
      let s := { s with flight := s.flight.eraseIdx i }
      if s.dieActs e.kind.die then s.deliver e else s

/-- EFFECT_ARRIVAL. -/
def execEffectArrival (i : Nat) (s : State) : Host.Outcome State Fault Refusal := .next (effectArrival s i)

/-- What a run of a task has on its way with a stamp after `t` is discarded (R209, R491); messages, queue items, samples and
releases stand. -/
def State.dropFlight (s : State) (t run : Nat) (after : Time) : State :=
  { s with flight := s.flight.filter (fun e =>
      !(e.task == t && e.run == run && before after e.stamp &&
        (match e.kind with | .packet _ _ => false | .release _ _ _ => false | .sample _ _ _ => false | _ => true))) }

end Sys2Proof.Machine
end

