-- ==== Sys2Proof/Machine/Digest.lean ====
section
/-! DEFINITION. The configuration digest (R206). -/

namespace Sys2Proof.Machine

/-- The register block of a unit in its die window: offset of local unit 0, distance between units, local units of a die; none
for a kind without registers of its own. -/
def unitBlock (kind : Nat) : Option (Nat × Nat × Nat) :=
  match kind with
  | 1 => some (0x600000, 0x100, 64)
  | 2 => some (0x6C0000, 0x40, 8)
  | 3 => some (0x680000, 0x100, 16)
  | 4 => some (0x700000, 0x400, 8)
  | 5 => some (0x780000, 0x1000, 4)
  | _ => none

/-- The words with RW fields in a range of BAR0, in offset order, their other bits 0. -/
def State.rwWords (s : State) (lo n : Nat) : List Word :=
  (List.range (n / 4)).filterMap (fun i =>
    match regAt (lo + 4 * i) with
    | some k => if k.1.info.rw = 0 then none else some (s.reg k.1 k.2 &&& BitVec.ofNat 32 k.1.info.rw)
    | none => none)

/-- The units of a kind that resident tasks own, in rising order. A queue is none: its number is the placer's choice, and the
digest is the same under every placement (log entry 19). -/
def State.ownedUnits (s : State) (kind : Nat) : List Nat :=
  let has := fun (i : Nat) => s.tasks.any (fun e => e.2.owns kind i)
  match unitBlock kind with
  | some (_, _, n) => (List.range (n * s.variant.dies)).filter has
  | none => []

/-- What a unit adds to the digest: kind and index, then its words. -/
def State.unitBytes (s : State) (kind i : Nat) : List Byte :=
  match unitBlock kind with
  | some (o, st, n) =>
    leBytes kind 2 ++ leBytes i 2 ++
      (s.rwWords (0x08000000 + 0x01000000 * (i / n) + o + st * (i % n)) st).flatMap wordBytes
  | none => []

/-- The bytes of R206: resident tasks, their units, the line-shaft axis tables block. -/
def State.digestBytes (s : State) : List Byte :=
  s.tasks.flatMap (fun e => leBytes e.1 4 ++ wordBytes e.2.digest) ++
    ([1, 2, 3, 4, 5].flatMap (fun k => (s.ownedUnits k).flatMap (fun i => s.unitBytes k i))) ++
    (s.rwWords 0x180000 0x8000).flatMap wordBytes

/-- A cause of R498 on a die other than 0: die 0 is about to learn of it over the fence wires. The first cause stands. -/
def State.fenceWire (s : State) (d cause : Nat) : State :=
  s.modDie d (fun x => { x with fenceDue := if x.fenceDue.isNone && !x.fenced then some cause else x.fenceDue })

/-- The live dies, die 0 apart, whose copy of the digest differs from die 0's (R207). -/
def State.badCopies (s : State) : List Nat :=
  s.liveDies.filter (fun d => d != 0 && (s.die d).digest != s.reg .CONFIG_DIGEST pkg)

/-- Every die of a list is fenced with cause 6 (R59, R207). -/
def State.fenceCopies (s : State) (l : List Nat) : State := l.foldl (fun s d => s.fenceWire d 6) s

/-- The copies of some dies have gone wrong (log entry 51). -/
def State.spoilCopies (s : State) (bad : BitVec 8) : State :=
  s.dieList.foldl (fun s d => if bad.getLsbD d then s.modDie d (fun x => { x with digest := ~~~(s.reg .CONFIG_DIGEST pkg) }) else s) s

/-- A value of the digest goes to die 0 and to the copies of the live dies. -/
def State.setDigest (s : State) (v : Word) : State :=
  { s.setReg .CONFIG_DIGEST pkg v with
    dies := s.dies.map (fun (e : Nat × Die) => (e.1, if e.2.live then { e.2 with digest := v } else e.2)) }

/-- CONFIG_DIGEST is formed anew, at a load, an unload and a configuration change (R206); a live die whose copy differed from die
0's is fenced (R207). -/
def State.updateDigest (s : State) : State := (s.setDigest (crc32c s.digestBytes)).fenceCopies s.badCopies

end Sys2Proof.Machine
end

