-- ==== Sys2Proof/Machine/Feedback.lean ====
section
/-! DEFINITION. Feedback interfaces: accepted edges, counting events, speed, index, compare, divider and probe (R296 to
R343). -/

namespace Sys2Proof.Machine

/-! ## Speed bits -/

/-- The direction and speed bits of FB_STATUS after an event at `t`. -/
def State.fbSpeedBits (s : State) (n : Nat) (t : Time) : State :=
  let v := s.fbSpeedAt n t
  (s.setBit F.FB_STATUS_standstill (fbIx n) v.standstill).setBit F.FB_STATUS_valid (fbIx n) v.valid

/-! ## Records (R342) -/

/-- A record of an interface, if it writes any. -/
def State.fbRec (s : State) (n kind : Nat) (stamp : Time) (d p : Int) : State :=
  let ix := fbIx n
  if s.bit F.FB_CTRL_rec_en ix then
    s.emitUnit (n / 8) (0x0840 + n) 0x32 stamp (s.fld F.FB_CTRL_eq ix)
      (leBytes n 2 ++ [BitVec.ofNat 8 kind, 0] ++ leBytes (BitVec.ofInt 32 (sat32 d)).toNat 4 ++
        leBytes (BitVec.ofInt 48 p).toNat 6)
  else s

/-! ## Compare (R331 to R334) -/

/-- The registers that show the compare. -/
def State.cmpRegs (s : State) (n : Nat) : State :=
  let ix := fbIx n
  match (s.fb n).cmp with
  | some c =>
    let s := s.setReg64 .FB_CMP_VALUE_LO .FB_CMP_VALUE_HI ix (count64 c.cv)
    let s := s.setReg .FB_CMP_SPACING ix (BitVec.ofInt 32 c.s)
    s.setReg .FB_CMP_STATUS ix (BitVec.ofNat 32 (1 + (match c.pin with
      | some (p, act) => 2 + act * 4 + p % 64 * 16
      | none => 0) + c.task * 4096))
  | none => s.setFld F.FB_CMP_STATUS_armed ix 0

/-- A miss (R332 to R334). -/
def State.cmpMiss (s : State) (n k : Nat) : State := s.bumpBy F.FB_CMP_COUNT_misses (fbIx n) k

/-- The level of a compare stitch of run `run` of task `task` at `t` on pin `p` (R334): a toggle is the opposite of the latest
stitch that the task has there since its START. -/
def State.cmpLevel (s : State) (p act task run : Nat) (t : Time) : Bool :=
  if act = 0 then true
  else if act = 1 then false
  else
    let x := s.pin p
    match (x.queue.filter (fun a => a.cls != 2 && a.task == task && a.run == run && upTo a.stamp t)).getLast? with
    | some a => !a.level
    | none => match x.lastLvl with
      | some l => !l
      | none => true

/-- A hit acts on its target (R334). -/
def State.cmpAct (s : State) (n : Nat) (c : FbCmp) (hit : Time) (order : Nat) : State :=
  match c.pin with
  | none =>
    s.activate c.task { t := hit, src := 5, slot := c.slot, event := 0, edge := false, k1 := n, k2 := order, k3 := 0,
                        payload := [] }
  | some (p, act) =>
    let t := hit + picots (s.fbDelay n) + nsT 24
    let x := s.pin p
    if 32 ≤ s.pinDepth p || x.queue.any (fun a => a.cls != 2 && before t a.stamp) then s.cmpMiss n 1
    else
      let s := s.modFb n (fun x => { x with notes := .stitch c.task c.run p hit t :: x.notes })
      s.pushStitch p { stamp := t, level := s.cmpLevel p act c.task c.run t, cls := 1, k1 := order, k2 := 0, k3 := 0, repl := false,
                       locked := false, task := c.task, run := c.run }

/-- The values CV, CV + S, … that a position is at or beyond in the direction of S (R332). -/
def cmpPassed (cv spacing p : Int) : Nat :=
  let ahead := wrap48 (p - cv)
  if 0 < spacing ∧ 0 ≤ ahead then (ahead / spacing).toNat + 1
  else if spacing < 0 ∧ ahead ≤ 0 then ((-ahead) / (-spacing)).toNat + 1
  else 0

/-- The compare sees a step from `p`, stamped `t` and visible at `vis` (R333). A step seen at the arm stamp belongs to the position
that R332 tests, however late its filter accepts it. -/
def State.cmpStep (s : State) (n : Nat) (t vis : Time) (p step : Int) : State :=
  match (s.fb n).cmp with
  | none => s
  | some c =>
    let d := wrap48 (c.cv - p)
    let reached := if 0 < step then decide (0 < d) && decide (d ≤ step) else decide (step ≤ d) && decide (d < 0)
    if !before c.armAt vis then
      let k := cmpPassed c.cv c.s (wrap48 (p + step))
      ((s.modFb n (fun x => { x with cmp := some { c with cv := wrap48 (c.cv + c.s * k) } })).cmpRegs n).cmpMiss n k
    else if !reached || (c.s != 0 && decide (0 < c.s) != decide (0 < step)) then s
    else
      let order := (s.fb n).hits
      let s := (s.modFb n (fun x => { x with hits := x.hits + 1 })).bump F.FB_CMP_COUNT_hits (fbIx n)
      let s :=
        if c.s = 0 then
          (s.modFb n (fun x => { x with cmp := none, notes := .ended c.task c.armAt t :: x.notes })).cmpRegs n
        else
          let extra := (step.natAbs - d.natAbs) / c.s.natAbs
          let s := s.modFb n (fun x => { x with cmp := some { c with cv := wrap48 (c.cv + c.s * (1 + extra)) } })
          (s.cmpRegs n).cmpMiss n extra
      s.cmpAct n c t order

/-- FB_COMPARE_ARM_APPLY: the arm applies at its stamp (R331, R332); another task's arm displaces the compare. -/
def fbCompareArmApply (s : State) (n : Nat) : State :=
  match (s.fb n).fx with
  | [] => s
  | e :: rest =>
    match e.kind with
    | .fbArm _ pos spacing pin slot =>
      if !s.dieActs (n / 8) then s
      else
        let s := (s.at e.stamp).modFb n (fun x => { x with fx := rest })
        let x := s.fb n
        let p := x.posAt e.stamp
        let passed := cmpPassed pos spacing p
        let notes := match x.cmp with
          | some c => if c.task = e.task then x.notes else .ended c.task c.armAt e.stamp :: x.notes
          | none => x.notes
        let s := s.setFb n { x with notes := notes, cmp := some { armAt := e.stamp, cv := wrap48 (pos + spacing * passed),
                                                                  s := spacing, pin, task := e.task, run := e.run, slot } }
        (s.cmpRegs n).cmpMiss n passed
    | _ => s

/-- FB_COMPARE_ARM_APPLY. -/
def execFbCompareArmApply (n : Nat) (s : State) : Host.Outcome State Fault Refusal := .next (fbCompareArmApply s n)

/-- The compare of a task is disarmed. -/
def State.cmpDisarm (s : State) (n : Nat) : State := (s.modFb n (fun x => { x with cmp := none })).cmpRegs n

/-- FB_COMPARE_DISARM_APPLY: the disarm acts only if its task holds the compare (R331). -/
def fbCompareDisarmApply (s : State) (n : Nat) : State :=
  match (s.fb n).fx with
  | [] => s
  | e :: rest =>
    match e.kind with
    | .fbDisarm _ =>
      if !s.dieActs (n / 8) then s
      else
        let s := (s.at e.stamp).modFb n (fun x => { x with fx := rest })
        match (s.fb n).cmp with
        | some c => if c.task = e.task then s.cmpDisarm n else s
        | none => s
    | _ => s

/-- FB_COMPARE_DISARM_APPLY. -/
def execFbCompareDisarmApply (n : Nat) (s : State) : Host.Outcome State Fault Refusal := .next (fbCompareDisarmApply s n)

/-! ## Divider (R340, R341) -/

/-- The levels (A, B) of the sequence of R305 at a count. -/
def quadLevels (n : Int) : Bool × Bool :=
  let k := n % 4
  (k == 1 || k == 2, k == 2 || k == 3)

/-- The logical pin of a divider output: 0 A, 1 B, 2 Z. -/
def State.divPin (s : State) (n o : Nat) : Nat :=
  64 * (n / 8) + s.fld (if o = 0 then F.FB_DIV_PINS_pin_a else if o = 1 then F.FB_DIV_PINS_pin_b else F.FB_DIV_PINS_pin_z) (fbIx n)

/-- One output count of the divider at `t`: A and B follow the sequence, and Z of div_z = 1 (R341). -/
def State.divStep (s : State) (n : Nat) (dir : Int) (t : Time) : State :=
  let ix := fbIx n
  let o := (s.fb n).divOut + dir
  let old := quadLevels (s.fb n).divOut
  let new := quadLevels o
  let zc := s.fld F.FB_DIV_ZCOUNT_zcount ix
  let z := o % (zc : Int) == 0
  let was := (s.fb n).divZ
  let s := s.modFb n (fun x => { x with divOut := o, divZ := z })
  let s := if old.1 != new.1 then s.pushEdge (s.divPin n 0) t new.1 else s
  let s := if old.2 != new.2 then s.pushEdge (s.divPin n 1) t new.2 else s
  if s.bit F.FB_OUT_CTRL_div_z_out ix && s.bit F.FB_OUT_CTRL_div_z ix && (z != was) then s.pushEdge (s.divPin n 2) t z else s

/-- The divider sees a counting event (R340). -/
def State.divide (s : State) (n : Nat) (step : Int) (t : Time) : State :=
  let ix := fbIx n
  if s.bit F.FB_OUT_CTRL_div_en ix then
    let acc := (s.fb n).divAcc + s.fld F.FB_DIV_RATIO_n ix
    let m := s.fld F.FB_DIV_RATIO_m ix
    if m ≤ acc then
      (s.modFb n (fun x => { x with divAcc := acc - m })).divStep n (if 0 < step then 1 else -1)
        (t + picots (s.fbDelay n) + nsT 16)
    else s.modFb n (fun x => { x with divAcc := acc })
  else s

/-! ## Steps of position -/

/-- A change of position by `step`, stamped `t` and seen from `vis`: a counting event, or an index correction (R301, R326,
R333). -/
def State.fbStep (s : State) (n : Nat) (t vis : Time) (step : Int) (counts : Bool) : State :=
  let p := (s.fb n).pos
  let q := wrap48 (p + step)
  let s := s.modFb n (fun x => { x with pos := q, evs := ⟨t, vis, q, step, counts⟩ :: x.evs })
  let s := if counts then
      let s := s.hoopVirtual n t (if s.fbMode n < 4 then t + picots (s.fbDelay n) else vis) q
      let s := s.setReg64 .FB_LAST_EVENT_LO .FB_LAST_EVENT_HI (fbIx n) t
      let s := s.setBit F.FB_STATUS_dir (fbIx n) (decide (step < 0))
      let s := s.fbSpeedBits n vis
      if s.fbMode n = 1 ∨ s.fbMode n = 2 then s.divide n step t else s
    else s
  s.cmpStep n t vis p step

/-- The step with dir_invert applied. -/
def State.fbSense (s : State) (n : Nat) (step : Int) : Int := if s.bit F.FB_CTRL_dir_invert (fbIx n) then -step else step

/-- A first position that is no step (R311, R319). -/
def State.fbFirst (s : State) (n : Nat) (t vis : Time) (p : Int) : State :=
  s.modFb n (fun x => { x with pos := p, evs := ⟨t, vis, p, 0, false⟩ :: x.evs })

/-! ## Filters of the balls (R300, R566) -/

/-- A line of an interface: 0 A, 1 B, 2 Z. -/
def FbSt.line (x : FbSt) (l : Nat) : LineSt := if l = 0 then x.a else if l = 1 then x.b else x.z

/-- The interface with a line set. -/
def FbSt.setLine (x : FbSt) (l : Nat) (y : LineSt) : FbSt :=
  if l = 0 then { x with a := y } else if l = 1 then { x with b := y } else { x with z := y }

/-- The filter delay of the balls of an interface: donors use that of the interface they serve (R300, R309). -/
def State.ballDelay (s : State) (n : Nat) : Nat :=
  let serves (i : Nat) : Bool :=
    decide (i ≤ n % 8) && s.fbMode (n - i) == 3 && s.fld F.FB_COMM_CFG_src (fbIx (n - i)) == 0
  if s.fbMode n = 0 ∧ serves 1 = true then ns (s.fbFilterNs (n - 1))
  else if s.fbMode n = 0 ∧ serves 2 = true then ns (s.fbFilterNs (n - 2))
  else ns (s.fbFilterNs n)

/-- The filter of a ball accepts the level that waits: the edge enters the line's history and the log, and reaches who uses
it; the divider's Z output repeats it with div_z = 0 (R245, R303, R102, R341). -/
def State.ballAccept (s : State) (n l : Nat) : State :=
  let x := s.fb n
  let y := x.line l
  if !y.filt.waits then s
  else
    let t := y.filt.since
    let delay := picots (s.ballDelay n)
    let s := (s.at (t + delay)).setFb n (x.setLine l { y with filt := y.filt.accept, edges := t :: y.edges })
    let s := s.log (n / 8) 0x02 l n t []
    let s := s.ballToUnits n l t y.filt.raw
    let ix := fbIx n
    if l = 2 && s.bit F.FB_OUT_CTRL_div_en ix && s.bit F.FB_OUT_CTRL_div_z_out ix && !s.bit F.FB_OUT_CTRL_div_z ix then
      s.pushEdge (s.divPin n 2) (t + delay + nsT 16) y.filt.raw
    else s

/-- The serial modes: SSI and programmable serial (R296). -/
def State.fbSerial (s : State) (n : Nat) : Bool := s.fbMode n == 4 || s.fbMode n == 5

/-- The level of a line at `t`, from the edges that the serial modes keep (R314). -/
def LineSt.rawAt (y : LineSt) (t : Time) : Bool :=
  match y.raws.find? (fun e => upTo e.1 t) with
  | some e => e.2
  | none => match y.raws.getLast? with
    | some e => !e.2
    | none => y.filt.raw

/-- The ball of a line has an edge, whichever side drives it: pass-through repeats it 16 ns later (R339). -/
def State.fbRaw (s : State) (n i : Nat) (stamp : Time) (level : Bool) : State :=
  let ix := fbIx n
  let y := (s.fb n).line i
  if level = y.filt.raw then s
  else
    let keep := if s.fbSerial n then (stamp, level) :: y.raws else y.raws
    let s := s.modFb n (fun x => x.setLine i { y with filt := y.filt.edge stamp level, raws := keep })
    let pin := 64 * (n / 8) + s.fld (if i = 0 then F.FB_PT_PINS_pin_a else if i = 1 then F.FB_PT_PINS_pin_b else F.FB_PT_PINS_pin_z) ix
    if s.dieActs (n / 8) && s.bit (if i = 0 then F.FB_OUT_CTRL_pt_a else if i = 1 then F.FB_OUT_CTRL_pt_b else F.FB_OUT_CTRL_pt_z) ix then
      s.pushEdge pin (stamp + nsT 16) level
    else s

/-! ## The samples of a serial frame and the encoder clock (R299, R313, R314) -/

/-- The instant of sample `i` of the frame that started at `start` (R314): from the clock and LD, or the falling edge of the returned
clock that corresponds to it, the first being the frame's start (log entry 100). -/
def State.sampleTime (s : State) (n : Nat) (start : Time) (i : Nat) : Option Time :=
  let ix := fbIx n
  if s.bit F.FB_SER_CLK_ret_clk ix then
    (((s.fb n).z.raws.filter (fun e => !e.2 && upTo start e.1)).reverse[i + 1]?).map (fun e => e.1)
  else some (start + picots ((i + 1) * s.serPeriod n + ns (s.fld F.FB_SER_TIMING_line_delay_ns ix)))

/-- The data level at sample `i`, if that sample is taken by `lim`. -/
def State.sampleAt (s : State) (n : Nat) (start lim : Time) (i : Nat) : Option Bool :=
  match s.sampleTime n start i with
  | some t => if upTo t lim then some ((s.fb n).b.rawAt t) else none
  | none => none

/-- The sample that is bit 0 of the frame as of `lim`: the first in mode 4, the one after the start bit in mode 5 (R314). -/
def State.firstBit (s : State) (n : Nat) (start lim : Time) : Option Nat :=
  let ix := fbIx n
  if s.fbMode n = 4 then some 0
  else ((List.range (s.fld F.FB_SER_FRAME_start_max ix)).find? (fun j =>
    s.sampleAt n start lim j == some (s.bit F.FB_SER_FRAME_start_level ix))).map (fun j => j + 1)

/-- The last sample of a frame as of `lim`: its last bit, or the last of the search for the start bit. -/
def State.lastSample (s : State) (n : Nat) (start lim : Time) : Nat :=
  match s.firstBit n start lim with
  | some f => f + s.fld F.FB_SER_FRAME_nbits (fbIx n) - 1
  | none => s.fld F.FB_SER_FRAME_start_max (fbIx n) - 1

/-- What the interface drives on FB_nn_A at `t` as the encoder clock (R299, R313): high between frames, and in a frame low for the
first half of each period until the last bit is sampled. None: the ball is an input or released (R257, R343). -/
def State.fbClock (s : State) (n : Nat) (t : Time) : Option Bool :=
  if !s.fbSerial n || !s.dieActs (n / 8) then none
  else match (s.fb n).lastStart with
    | none => some true
    | some start =>
      let runs := match s.sampleTime n start (s.lastSample n start t) with
        | some e => before t e
        | none => true
      some (!(upTo start t && runs && decide ((t - start).toNat % s.serPeriod n < s.serPeriod n / 2)))

/-- FB_INPUT_EDGE: an edge at a ball is stamped and enters the filter; pass-through repeats it (R339). In modes 4 and 5 nothing is
filtered (R300), and the only edges of FB_nn_A are those of the clock that the interface drives (R299). -/
def fbInputEdge (s : State) (n : Nat) (l : Line) (stamp : Time) (level : Bool) : State :=
  let i := match l with | .a => 0 | .b => 1 | .z => 2
  if level = ((s.fb n).line i).filt.raw then s
  else if !s.dieActs (n / 8) then s.fbRaw n i stamp level
  else
    let s := s.at stamp
    if s.fbSerial n = true ∧ i = 0 then
      if s.fbClock n stamp = some level ∧ s.fbClock n (stamp - 1) = some (!level) then s.fbRaw n 0 stamp level else s
    else
      let s := if ((s.fb n).line i).filt.stable (s.ballDelay n) stamp && (!s.fbSerial n || i == 2) then s.ballAccept n i else s
      s.fbRaw n i stamp level

/-- FB_INPUT_EDGE. -/
def execFbInputEdge (n : Nat) (l : Line) (stamp : Time) (level : Bool) (s : State) : Host.Outcome State Fault Refusal :=
  .next (fbInputEdge s n l stamp level)

/-! ## Counting edges (R305 to R308) -/

/-- The first waiting input of some lines. -/
def FbSt.nextIn (x : FbSt) (ls : List Nat) : Option FbIn := x.inbox.find? (fun e => ls.contains e.line)

/-- Where an interface takes a line from: a ball of an interface, or a timing pin (R309). -/
inductive FbSrc where
  | ball (n l : Nat)
  | pin (p : Nat)
  deriving DecidableEq, Repr

/-- The filter of a source. -/
def State.srcFilt (s : State) : FbSrc → Filt
  | .ball n l => ((s.fb n).line l).filt
  | .pin p => (s.pin p).filt

/-- How long a level must stand at a source before it is accepted. -/
def State.srcGuard (s : State) : FbSrc → Nat
  | .ball n _ => s.ballDelay n
  | .pin p => (s.pinGuard p).toNat

/-- The level that waits at a source is accepted. -/
def State.srcAccept (s : State) : FbSrc → State
  | .ball n l => s.ballAccept n l
  | .pin p => pinFilterAccept s p

/-- The sources of V and W in commutation mode (R309). -/
def State.commSrcs (s : State) (n : Nat) : List FbSrc :=
  let ix := fbIx n
  let d := 64 * (n / 8)
  if s.fld F.FB_COMM_CFG_src ix = 0 then [.ball (n + 1) 0, .ball (n + 2) 0]
  else [.pin (d + s.fld F.FB_COMM_CFG_pin_v ix), .pin (d + s.fld F.FB_COMM_CFG_pin_w ix)]

/-- The sources whose edges form counting events (R305, R308, R310). -/
def State.countSrcs (s : State) (n : Nat) : List FbSrc :=
  if s.fbMode n = 3 then .ball n 0 :: s.commSrcs n else [.ball n 0, .ball n 1]

/-- The input lines whose edges form counting events. -/
def countLines : List Nat := [0, 1, 3, 4]

/-- Among some sources, those whose waiting level is the oldest are accepted, if it is not younger than the first input that waits
on the lines. -/
def State.acceptOldest (s : State) (n : Nat) (srcs : List FbSrc) (ls : List Nat) : State :=
  let w := srcs.filter (fun c => (s.srcFilt c).waits)
  let due (c : FbSrc) : Bool :=
    w.all (fun k => upTo (s.srcFilt c).since (s.srcFilt k).since) &&
    (match (s.fb n).nextIn ls with | some e => upTo (s.srcFilt c).since e.stamp | none => true)
  (w.filter due).foldl (fun s c => s.srcAccept c) s

/-- Every level that has stood long enough by now at a source of an interface is accepted (R297). -/
def State.acceptDue (s : State) (n : Nat) : State :=
  ([FbSrc.ball n 0, .ball n 1, .ball n 2] ++ s.commSrcs n).foldl (fun s c =>
    if (s.srcFilt c).stable (s.srcGuard c) s.now then s.srcAccept c else s) s

/-- The step of quadrature from (A, B) to (A', B') (R305). -/
def quadStep (a b a' b' : Bool) : Int :=
  let code (a b : Bool) : Int := if a then (if b then 2 else 1) else (if b then 3 else 0)
  let d := (code a' b' - code a b) % 4
  if d = 1 then 1 else if d = 3 then -1 else 0

/-- Less than 25 ns after the previous accepted edge on a counting line (R307). -/
def FbSt.tooFast (x : FbSt) (t : Time) : Bool :=
  match x.lastEdge with
  | some e => before t (e + nsT 25)
  | none => false

/-- An accepted edge is discarded as too fast (R307). -/
def State.overspeed (s : State) (n : Nat) : State :=
  ((s.bump F.FB_ERR_COUNT_0_overspeed (fbIx n)).setBit F.FB_STATUS_overspeed (fbIx n) true).fbSourceFails n s.now

/-- One edge on a counting line in quadrature mode; two with one stamp form no event (R305, R306). -/
def State.quadEdges (s : State) (n : Nat) (l : List FbIn) (t : Time) : State :=
  let x := s.fb n
  if x.tooFast t then l.foldl (fun s _ => s.overspeed n) (s.setFb n { x with lastEdge := some t })
  else
    let a := l.foldl (fun v e => if e.line = 0 then e.level else v) x.qa
    let b := l.foldl (fun v e => if e.line = 1 then e.level else v) x.qb
    let s := s.setFb n { x with qa := a, qb := b, lastEdge := some t }
    if l.any (fun e => e.line == 0) && l.any (fun e => e.line == 1) then s.bump F.FB_ERR_COUNT_0_quad_err (fbIx n)
    else
      let d := s.fbSense n (quadStep x.qa x.qb a b)
      if d = 0 then s else s.fbStep n t t d true

/-- One edge on A or B in pulse-direction mode (R308). -/
def State.pulseEdge (s : State) (n : Nat) (e : FbIn) : State :=
  let x := s.fb n
  if e.line = 1 then s.setFb n { x with qb := e.level }
  else if x.tooFast e.stamp then (s.setFb n { x with lastEdge := some e.stamp }).overspeed n
  else
    let s := s.setFb n { x with qa := e.level, lastEdge := some e.stamp }
    if e.level then s.fbStep n e.stamp e.stamp (s.fbSense n (if x.qb then 1 else -1)) true else s

/-- The input `e` on A or B, and with it one of the same stamp on the other line, is used (R305 to R308). -/
def State.countNext (s : State) (n : Nat) (e : FbIn) : State :=
  if s.fbMode n = 1 then
    let l := (s.fb n).inbox.filter (fun i => i.line ≤ 1 && i.stamp == e.stamp)
    (s.modFb n (fun x => { x with inbox := x.inbox.filter (fun i => !l.contains i) })).quadEdges n l e.stamp
  else (s.modFb n (fun x => { x with inbox := x.inbox.erase e })).pulseEdge n e

/-- FB_COUNT_EDGE: the next accepted edge on A or B forms its counting event, if any (R305 to R308). -/
def fbCountEdge (s : State) (n : Nat) : State :=
  if !s.dieActs (n / 8) || (s.fbMode n != 1 && s.fbMode n != 2) then s
  else
    let s := s.acceptOldest n (s.countSrcs n) countLines
    match (s.fb n).nextIn countLines with
    | none => s
    | some e => s.countNext n e

/-- FB_COUNT_EDGE. -/
def execFbCountEdge (n : Nat) (s : State) : Host.Outcome State Fault Refusal := .next (fbCountEdge s n)

/-! ## Commutation (R309 to R312) -/

/-- The sector of a hall code in the configured order (R310). -/
def State.sectorOf (s : State) (n code : Nat) : Option Nat :=
  (List.range 6).find? (fun i => bitsOf (s.reg .FB_COMM_SEQ (fbIx n)) (3 * i) 3 == code)

/-- The hall code of an interface now (R310). -/
def FbSt.hall (x : FbSt) : Nat := 4 * b2n x.qa + 2 * b2n x.hv + b2n x.hw

/-- The hall code is judged at `t` (R311, R312). -/
def State.commCode (s : State) (n : Nat) (t : Time) : State :=
  let ix := fbIx n
  let x := s.fb n
  match (if x.hall = 0 ∨ x.hall = 7 then none else s.sectorOf n x.hall) with
  | none => (s.setBit F.FB_STATUS_comm_invalid ix true).bump F.FB_ERR_COUNT_2_comm_invalid ix
  | some q =>
    let s := (s.setBit F.FB_STATUS_comm_invalid ix false).setFb n { x with sector := some q }
    let s := s.setFld F.FB_COMM_STATE_sector ix q
    match x.sector with
    | none => s.fbFirst n t t q
    | some o =>
      let d := ((q : Int) - o) % 6
      if d = 0 then s
      else
        let step : Int := if d = 5 then -1 else if d = 4 then -2 else d
        let s := if d = 1 ∨ d = 5 then s else s.bump F.FB_ERR_COUNT_2_comm_skip ix
        s.fbStep n t t (s.fbSense n step) true

/-- The inputs of U, V and W that carry the stamp of `e` form one change of code (R310). -/
def State.commNext (s : State) (n : Nat) (e : FbIn) : State :=
  let hit (i : FbIn) : Bool := i.stamp == e.stamp && countLines.contains i.line
  let l := (s.fb n).inbox.filter hit
  let s := s.modFb n (fun x => { x with
    inbox := x.inbox.filter (fun i => !hit i),
    qa := l.foldl (fun v i => if i.line = 0 then i.level else v) x.qa,
    hv := l.foldl (fun v i => if i.line = 3 then i.level else v) x.hv,
    hw := l.foldl (fun v i => if i.line = 4 then i.level else v) x.hw })
  s.commCode n e.stamp

/-- COMM_CODE_CHANGE: the next edges of U, V and W of one stamp form a change of code (R310, R311). -/
def commCodeChange (s : State) (n : Nat) : State :=
  if !s.dieActs (n / 8) || s.fbMode n != 3 then s
  else
    let s := s.acceptOldest n (s.countSrcs n) countLines
    match (s.fb n).nextIn countLines with
    | none => s
    | some e => s.commNext n e

/-- COMM_CODE_CHANGE. -/
def execCommCodeChange (n : Nat) (s : State) : Host.Outcome State Fault Refusal := .next (commCodeChange s n)

/-! ## Index (R327 to R330) -/

/-- The direction of the latest counting event stamped at or before `t`: forward? none before the first. -/
def FbSt.dirAt (x : FbSt) (t : Time) : Option Bool :=
  (x.evs.find? (fun e => e.counts && upTo e.stamp t)).map (fun e => decide (0 < e.step))

/-- The deviation of p_Z from the nearest expected value; the lower of two equally near (R329). -/
def idxDev (pz v : Int) (cpr : Nat) : Int :=
  let r := (pz - v) % (cpr : Int)
  if 2 * r ≤ cpr then r else r - cpr

/-- A qualified index edge at `t` (R328, R329); the index history is empty from the mode write to the first one. -/
def State.fbIndex (s : State) (n : Nat) (t : Time) : State :=
  let ix := fbIx n
  let x := s.fb n
  let pz := x.posAt t
  let v := s.reg48 .FB_IDX_VALUE_LO .FB_IDX_VALUE_HI ix
  let s := s.setReg64 .FB_IDX_POS_LO .FB_IDX_POS_HI ix ((count64 pz).extractLsb' 0 48 |>.zeroExtend 64)
  let push (s : State) (d : Int) (bad : Bool) : State :=
    (s.modFb n (fun x => { x with idx := ⟨t, pz, d, bad⟩ :: x.idx })).setBit F.FB_STATUS_idx_mismatch ix bad
  if s.bit F.FB_IDX_CFG_ref ix && x.idx.isEmpty then
    let s := (push s 0 (s.bit F.FB_STATUS_idx_mismatch ix)).setBit F.FB_STATUS_referenced ix true
    (s.fbStep n t t (v - pz) false).fbRec n 2 t 0 pz
  else
    let d := idxDev pz v (s.fld F.FB_CPR_cpr ix)
    let s := s.setReg .FB_IDX_DEV ix (BitVec.ofInt 32 (sat32 d))
    if d = 0 then push s 0 false
    else if s.fld F.FB_IDX_CFG_idx_mode ix = 2 ∧ d.natAbs ≤ s.fld F.FB_IDX_CFG_idx_tol ix then
      let s := (push s d false).bump F.FB_IDX_COUNT_corrected ix
      (s.fbStep n t t (-d) false).fbRec n 0 t d pz
    else ((push s d true).bump F.FB_IDX_COUNT_mismatched ix).fbRec n 1 t d pz

/-- The counting events stamped at or before `t` are formed, at most `k` of them: they come before an index or probe edge that carries
the same stamp (R302). -/
def State.countsTo (s : State) (n : Nat) (t : Time) : Nat → State
  | 0 => s
  | k + 1 =>
    if s.fbSerial n || s.fbMode n == 0 then s
    else
      let old := (s.countSrcs n).filter (fun c => upTo (s.srcFilt c).since t)
      let s := s.acceptOldest n old countLines
      match (s.fb n).nextIn countLines with
      | none => s
      | some e =>
        if upTo e.stamp t then (if s.fbMode n = 3 then s.commNext n e else s.countNext n e).countsTo n t k else s

/-- An accepted Z edge, of the kind and direction chosen, is a qualified index edge (R327). -/
def State.indexNext (s : State) (n : Nat) (e : FbIn) : State :=
  let ix := fbIx n
  let s := s.countsTo n e.stamp ((s.fb n).inbox.length + 2)
  let s := s.modFb n (fun x => { x with inbox := x.inbox.erase e })
  let dirOk := match s.fld F.FB_IDX_CFG_idx_dir ix, (s.fb n).dirAt e.stamp with
    | 0, _ => true
    | 1, some fwd => fwd
    | 2, some fwd => !fwd
    | _, _ => false
  if e.level != s.bit F.FB_IDX_CFG_z_edge ix && dirOk then s.fbIndex n e.stamp else s

/-- FB_INDEX_EDGE: the next filtered Z edge is accepted, and looked at where an index is configured (R327). -/
def fbIndexEdge (s : State) (n : Nat) : State :=
  if !s.dieActs (n / 8) || (s.fbMode n != 1 && s.fbMode n != 2) then s
  else
    let s := s.acceptOldest n [.ball n 2] [2]
    match (s.fb n).nextIn [2] with
    | none => s
    | some e => s.indexNext n e

/-- The counting events and index edges stamped at or before `t` are used, at most `k` index edges: they come before a probe edge of the
same stamp (R302). -/
def State.indexTo (s : State) (n : Nat) (t : Time) : Nat → State
  | 0 => s.countsTo n t ((s.fb n).inbox.length + 3)
  | k + 1 =>
    let s := s.acceptOldest n ([FbSrc.ball n 2].filter (fun c =>
      (s.fbMode n == 1 || s.fbMode n == 2) && upTo (s.srcFilt c).since t)) [2]
    match (s.fb n).nextIn [2] with
    | some e => if upTo e.stamp t then (s.indexNext n e).indexTo n t k else s.countsTo n t ((s.fb n).inbox.length + 3)
    | none => s.countsTo n t ((s.fb n).inbox.length + 3)

/-- FB_INDEX_EDGE. -/
def execFbIndexEdge (n : Nat) (s : State) : Host.Outcome State Fault Refusal := .next (fbIndexEdge s n)

/-! ## Probe (R335 to R337) -/

/-- The interface whose Z ball is the probe input, if one is. -/
def State.probeBall (s : State) (n : Nat) : Option Nat :=
  match s.fld F.FB_PROBE_CTRL_src (fbIx n) with
  | 1 => some n
  | 2 => some (8 * (n / 8) + s.fld F.FB_PROBE_CTRL_idx (fbIx n) % 8)
  | _ => none

/-- FB_PROBE_EDGE: a probe edge latches the position as of its stamp (R336), in one-shot mode only while armed (R337). -/
def fbProbeEdge (s : State) (n : Nat) : State :=
  let ix := fbIx n
  if !s.dieActs (n / 8) then s
  else
    let s := if ((s.fb n).nextIn [5]).isSome then s else match s.probeBall n with
      | some m => s.ballAccept m 2
      | none => s
    match (s.fb n).nextIn [5] with
    | none => s
    | some e =>
      let s := (s.indexTo n e.stamp ((s.fb n).inbox.length + 1)).modFb n (fun x => { x with inbox := x.inbox.erase e })
      let kind := s.fld F.FB_PROBE_CTRL_edge ix
      let taken := kind == 2 || (if e.level then kind == 0 else kind == 1)
      let one := s.bit F.FB_PROBE_CTRL_one_shot ix
      let armed := match (s.fb n).arm with | some a => before a e.stamp | none => false
      if taken && (!one || armed) then
        let p := (s.fb n).posAt e.stamp
        let s := s.modFb n (fun x => { x with probes := (e.stamp, p) :: x.probes, arm := if one then none else x.arm })
        let s := s.setReg64 .FB_PROBE_POS_LO .FB_PROBE_POS_HI ix (count64 p)
        let s := s.setReg64 .FB_PROBE_STAMP_LO .FB_PROBE_STAMP_HI ix e.stamp
        s.setBit F.FB_PROBE_STATUS_latched ix true
      else s

/-- FB_PROBE_EDGE. -/
def execFbProbeEdge (n : Nat) (s : State) : Host.Outcome State Fault Refusal := .next (fbProbeEdge s n)

/-- A write of FB_PROBE_CMD: an arm is logged and holds from 320 ns after the die applies it (R337). -/
def fbProbeCmdWrite (s : State) (_ : Port) (n : Nat) (v : Word) : State :=
  if bitOf v 0 then
    let a := s.now + picots 20480
    (s.modFb n (fun x => { x with arm := some a })).log (n / 8) 0x0A 0 n a []
  else s

/-! ## Serial frames (R313 to R321) -/

/-- The start of the next frame: the next whole multiple of the period (R313). -/
def State.nextFrame (s : State) (n : Nat) : Time :=
  let per := ns (s.fld F.FB_SER_PERIOD_period_ns (fbIx n))
  match (s.fb n).lastStart with
  | some t => BitVec.ofNat 64 ((t.toNat / per + 1) * per)
  | none => BitVec.ofNat 64 ((s.now.toNat + per - 1) / per * per)

/-- SERIAL_FRAME_START: a frame starts with a falling clock edge (R313). -/
def serialFrameStart (s : State) (n : Nat) : State :=
  if s.dieActs (n / 8) && s.fbSerial n then
    let t := s.nextFrame n
    ((s.at t).modFb n (fun x => { x with lastStart := some t, serQ := x.serQ ++ [t] })).fbRaw n 0 t false
  else s

/-- SERIAL_FRAME_START. -/
def execSerialFrameStart (n : Nat) (s : State) : Host.Outcome State Fault Refusal := .next (serialFrameStart s n)

/-- The CRC of `k` bits of `v`, most significant first (R318). -/
def serCrc (v w poly : Nat) (c : Nat) : Nat → Nat
  | 0 => c
  | k + 1 =>
    let fb := (v.testBit k) != (c.testBit (w - 1))
    let c := c * 2 % 2 ^ w
    serCrc v w poly (if fb then c ^^^ poly else c) k

/-- Gray decoding of an `n`-bit value: each bit is the XOR of the bits at and above it (R317). -/
def grayDecode (v n : Nat) : Nat :=
  (List.range n).foldl (fun a i => a ^^^ (v / 2 ^ i)) 0

/-- The CRC of a frame is right; crc_width 0 checks none (R318). -/
def State.frameCrcOk (s : State) (n frame : Nat) : Bool :=
  let ix := fbIx n
  let w := s.fld F.FB_SER_CRC_crc_width ix
  let bits := s.fld F.FB_SER_FRAME_nbits ix
  w == 0 ||
    (serCrc (frame / 2 ^ w) w (s.fld F.FB_SER_CRC_poly ix) (s.fld F.FB_SER_CRC_INIT_crc_init ix) (bits - w) ^^^
      s.fld F.FB_SER_CRC_INIT_crc_xorout ix) == frame % 2 ^ w

/-- The position field of a frame: multi-turn and single-turn values (R317). -/
def State.frameField (s : State) (n frame : Nat) : Nat × Nat :=
  let ix := fbIx n
  let w := s.fld F.FB_SER_CRC_crc_width ix
  let bits := s.fld F.FB_SER_FRAME_nbits ix
  let top := frame / 2 ^ w
  let top := if s.bit F.FB_SER_FRAME_gray ix then grayDecode top (bits - w) else top
  let v := (top * 2 ^ w + frame % 2 ^ w) / 2 ^ s.fld F.FB_SER_FRAME_pos_lsb ix
  let st := s.fld F.FB_SER_FRAME_st_bits ix
  (v / 2 ^ st % 2 ^ s.fld F.FB_SER_FRAME_mt_bits ix, v % 2 ^ st)

/-- A good frame gives its position; a change is a counting event (R319). -/
def State.frameGood (s : State) (n frame : Nat) (t vis : Time) : State :=
  let ix := fbIx n
  let (mt, st) := s.frameField n frame
  let stBits := s.fld F.FB_SER_FRAME_st_bits ix
  let x := s.fb n
  let s := (s.setFb n { x with lastSt := some st, fails := 0 }).setBit F.FB_STATUS_frame_lost ix false
  if 0 < s.fld F.FB_SER_FRAME_mt_bits ix then
    let p := wrap48 (mt * 2 ^ stBits + st)
    match x.lastSt with
    | none => s.fbFirst n t vis p
    | some _ => if p = x.pos then s else s.fbStep n t vis (wrap48 (p - x.pos)) true
  else match x.lastSt with
    | none => s.fbFirst n t vis st
    | some o =>
      let d := Int.bmod ((st : Int) - o) (2 ^ stBits)
      if d = 0 then s else s.fbStep n t vis d true

/-- A frame fails (R320). -/
def State.frameBad (s : State) (n : Nat) (late : Bool) (t : Time) : State :=
  let ix := fbIx n
  let s := s.bump (if late then F.FB_ERR_COUNT_1_late_frame else F.FB_ERR_COUNT_1_frame_fail) ix
  let s := s.modFb n (fun x => { x with fails := x.fails + 1 })
  if s.fld F.FB_SER_CLK_fail_limit ix ≤ (s.fb n).fails ∧ s.bit F.FB_STATUS_frame_lost ix = false then
    ((s.setBit F.FB_STATUS_frame_lost ix true).fbRec n 3 t 0 (s.fb n).pos).fbSourceFails n s.now
  else s

/-- The bits of the frame that started at `start`, bit 0 most significant (R314). A bit that no sample gave by `lim` is that bit of the
free value `f`, as the frame has no value there (log entry 100). -/
def State.frameBits (s : State) (n : Nat) (start lim : Time) (f : BitVec 64) : Nat :=
  let bits := s.fld F.FB_SER_FRAME_nbits (fbIx n)
  (List.range bits).foldl (fun v i =>
    let b := match (s.firstBit n start lim).bind (fun k => s.sampleAt n start lim (k + i)) with
      | some b => b
      | none => f.getLsbD (bits - 1 - i)
    v * 2 + b2n b) 0

/-- SERIAL_FRAME_VISIBLE: the oldest frame under way becomes visible, with the bits that its samples gave (R84, R314 to R316, R320).
The inputs say whether its last sample crossed too late, and of R316 whether the interface measured a round trip: the instants of
the clock edge that asked for the start bit and of that bit's transition. -/
def serialFrameVisible (s : State) (n : Nat) (crossedLate measured : Bool) (asked came : Time) : State :=
  match (s.fb n).serQ with
  | [] => s
  | start :: rest =>
    if !s.dieActs (n / 8) then s
    else
      let ix := fbIx n
      let ld := ns (s.fld F.FB_SER_TIMING_line_delay_ns ix)
      let t := start + picots (ld / 2)
      let vis := t + picots (s.frameTime n)
      let s := (s.at vis).modFb n (fun x => { x with serQ := rest })
      let noStart := (s.firstBit n start vis).isNone
      let late := crossedLate || (s.sampleAt n start vis (s.lastSample n start vis)).isNone
      let (f, s) := if noStart || late then s.fresh64 else (0, s)
      let frame : BitVec 64 := BitVec.ofNat 64 (s.frameBits n start vis f)
      let s := s.setReg64 .FB_SER_RAW_LO .FB_SER_RAW_HI ix frame
      let bad := noStart || !s.frameCrcOk n frame.toNat
      let s := s.log (n / 8) 0x03 (b2n bad + 2 * b2n late) n t [loHalf frame, hiHalf frame]
      let s :=
        if s.fbMode n = 5 then
          let trip := (came - asked).toNat
          let s := if measured then s.setReg .FB_SER_LD_MEAS ix (BitVec.ofNat 32 (min (trip / 64) 0xFFFF)) else s
          s.setBit F.FB_STATUS_ld_warn ix (measured && decide (s.serPeriod n < 4 * ((trip : Int) - ld).natAbs))
        else s
      let good := !bad && !late
      let s := s.modFb n (fun x => { x with frames := ⟨t, vis, good⟩ :: x.frames })
      if good then s.frameGood n frame.toNat t vis else s.frameBad n late t

/-- SERIAL_FRAME_VISIBLE. -/
def execSerialFrameVisible (n : Nat) (crossedLate measured : Bool) (asked came : Time) (s : State) :
    Host.Outcome State Fault Refusal := .next (serialFrameVisible s n crossedLate measured asked came)

/-- FB_STANDSTILL: the timeout has passed since the latest counting event (R324). -/
def fbStandstill (s : State) (n : Nat) : State :=
  match (s.fb n).evs.find? (fun e => e.counts) with
  | none => s
  | some e =>
    let t := e.stamp + picots (s.fbTimeout n)
    if s.dieActs (n / 8) then (s.at t).fbSpeedBits n t else s

/-- FB_STANDSTILL. -/
def execFbStandstill (n : Nat) (s : State) : Host.Outcome State Fault Refusal := .next (fbStandstill s n)

/-! ## Configuration (R296, R297, R309, R321, R335, R338 to R340, R345) -/

/-- The value ranges of the interface registers. -/
def State.fbRanges (s : State) (n : Nat) : Bool :=
  let ix := fbIx n
  let f (x : Fld) : Nat := s.fld x ix
  decide (f F.FB_CTRL_mode ≤ 5) &&
  decide (1 ≤ f F.FB_SPD_CFG_spd_n) && decide (f F.FB_SPD_CFG_spd_n ≤ 8) &&
  decide (1 ≤ f F.FB_SPD_CFG_timeout_us) && decide (f F.FB_SPD_CFG_timeout_us ≤ 1000000) &&
  f F.FB_IDX_CFG_idx_mode != 3 && f F.FB_IDX_CFG_idx_dir != 3 &&
  decide (1 ≤ f F.FB_CPR_cpr) && decide (f F.FB_CPR_cpr ≤ 16777216) &&
  (List.range 6).all (fun c => (s.sectorOf n (c + 1)).isSome) &&
  decide (250 ≤ f F.FB_SER_CLK_period_qns) && decide (1 ≤ f F.FB_SER_CLK_fail_limit) &&
  decide (1 ≤ f F.FB_SER_FRAME_nbits) && decide (f F.FB_SER_FRAME_nbits ≤ 64) &&
  decide (1 ≤ f F.FB_SER_FRAME_start_max) && decide (f F.FB_SER_FRAME_start_max ≤ 16) &&
  decide (1 ≤ f F.FB_SER_FRAME_st_bits) && decide (f F.FB_SER_FRAME_st_bits ≤ 48) &&
  decide (f F.FB_SER_FRAME_mt_bits ≤ 47) && decide (f F.FB_SER_CRC_crc_width ≤ 16) &&
  decide (1000 ≤ f F.FB_SER_PERIOD_period_ns) && f F.FB_PROBE_CTRL_edge != 3 &&
  decide (1 ≤ f F.FB_DIV_RATIO_n) && decide (f F.FB_DIV_RATIO_n ≤ f F.FB_DIV_RATIO_m) && decide (1 ≤ f F.FB_DIV_ZCOUNT_zcount) && decide (f F.FB_DIV_ZCOUNT_zcount ≤ 16777215)

/-- The conditions of the serial modes (R300, R321). -/
def State.fbSerialOk (s : State) (n : Nat) : Bool :=
  let ix := fbIx n
  let f (x : Fld) : Nat := s.fld x ix
  let w := f F.FB_SER_CRC_crc_width
  f F.FB_CTRL_filt_n == 0 &&
  decide (f F.FB_SER_FRAME_pos_lsb + f F.FB_SER_FRAME_st_bits + f F.FB_SER_FRAME_mt_bits + w ≤ f F.FB_SER_FRAME_nbits) &&
  decide (f F.FB_SER_FRAME_st_bits + f F.FB_SER_FRAME_mt_bits ≤ 48) &&
  f F.FB_SER_CRC_poly / 2 ^ w == 0 && f F.FB_SER_CRC_INIT_crc_init / 2 ^ w == 0 &&
  f F.FB_SER_CRC_INIT_crc_xorout / 2 ^ w == 0 &&
  decide (s.frameTime n + ns (f F.FB_SER_TIMING_gap_ns) ≤ ns (f F.FB_SER_PERIOD_period_ns))

/-- The Z ball of interface `m` may serve as a probe source (R321, R335). -/
def State.zProbeOk (s : State) (m : Nat) : Bool :=
  s.fld F.FB_IDX_CFG_idx_mode (fbIx m) == 0 && !s.bit F.FB_SER_CLK_ret_clk (fbIx m)

/-- Interface `n` has index, probe and outputs unused and is off: it can donate (R309). -/
def State.canDonate (s : State) (n : Nat) : Bool :=
  let ix := fbIx n
  s.fbMode n == 0 && s.fld F.FB_IDX_CFG_idx_mode ix == 0 && s.fld F.FB_PROBE_CTRL_src ix == 0 &&
  bitsOf (s.reg .FB_OUT_CTRL ix) 0 4 == 0

/-- Interface `n` donates its A ball to one in commutation mode (R309). -/
def State.isDonor (s : State) (n : Nat) : Bool :=
  [1, 2].any (fun i => decide (i ≤ n % 8) && s.fbMode (n - i) == 3 && s.fld F.FB_COMM_CFG_src (fbIx (n - i)) == 0)

/-- The pins that the configuration of an interface asks for, with their use (R309, R338). -/
def State.fbPins (s : State) (n : Nat) : List (Nat × Nat) :=
  let ix := fbIx n
  let pin (x : Fld) : Nat := 64 * (n / 8) + s.fld x ix
  let o (x y : Fld) (u : Nat) : List (Nat × Nat) := if s.bit x ix then [(pin y, u)] else []
  o F.FB_OUT_CTRL_pt_a F.FB_PT_PINS_pin_a 0 ++ o F.FB_OUT_CTRL_pt_b F.FB_PT_PINS_pin_b 0 ++
  o F.FB_OUT_CTRL_pt_z F.FB_PT_PINS_pin_z 0 ++ o F.FB_OUT_CTRL_div_en F.FB_DIV_PINS_pin_a 1 ++
  o F.FB_OUT_CTRL_div_en F.FB_DIV_PINS_pin_b 1 ++
  (if s.bit F.FB_OUT_CTRL_div_en ix then o F.FB_OUT_CTRL_div_z_out F.FB_DIV_PINS_pin_z 1 else []) ++
  (if s.fbMode n = 3 ∧ s.fld F.FB_COMM_CFG_src ix = 1 then [(pin F.FB_COMM_CFG_pin_v, 2), (pin F.FB_COMM_CFG_pin_w, 2)] else [])

/-- Interface `n` is the owner of a pin, in whatever use. -/
def POwner.isFb (o : POwner) (n : Nat) : Bool := match o with | .fb m _ => m == n | _ => false

/-- The whole configuration of interface `n` holds together. -/
def State.fbCfgOk (s : State) (n : Nat) : Bool :=
  let ix := fbIx n
  let mode := s.fbMode n
  let src := s.fld F.FB_PROBE_CTRL_src ix
  let pins := (s.fbPins n).map (fun e => e.1)
  s.fbRanges n &&
  (mode != 3 || s.fld F.FB_COMM_CFG_src ix != 0 || (decide (n % 8 ≤ 5) && s.canDonate (n + 1) && s.canDonate (n + 2))) &&
  (mode < 3 || s.fld F.FB_IDX_CFG_idx_mode ix == 0) &&
  (mode < 4 || s.fbSerialOk n) &&
  (!s.bit F.FB_OUT_CTRL_div_en ix || mode == 1 || mode == 2) &&
  (src != 1 || s.zProbeOk n) &&
  (src != 2 || (decide (s.fld F.FB_PROBE_CTRL_idx ix < 8) && s.zProbeOk (8 * (n / 8) + s.fld F.FB_PROBE_CTRL_idx ix))) &&
  decide pins.Nodup && pins.all (fun p => (s.pin p).owner == .free || (s.pin p).owner.isFb n)

/-- What a pin of an interface shows: 0 to 2 a ball, 3 and 4 A and B of the divider, 5 its Z by count, 6 its Z repeated, 7 nothing. -/
def State.fbOutSrc (s : State) (n : Nat) (w : Nat × Nat) : Nat :=
  let ix := fbIx n
  let k := w.1 % 64
  if w.2 = 0 then
    (if s.bit F.FB_OUT_CTRL_pt_a ix && s.fld F.FB_PT_PINS_pin_a ix == k then 0
     else if s.bit F.FB_OUT_CTRL_pt_b ix && s.fld F.FB_PT_PINS_pin_b ix == k then 1 else 2)
  else if w.2 = 1 then
    (if s.fld F.FB_DIV_PINS_pin_a ix = k then 3
     else if s.fld F.FB_DIV_PINS_pin_b ix = k then 4
     else if s.bit F.FB_OUT_CTRL_div_z ix then 5 else 6)
  else 7

/-- The level that goes with it. -/
def State.fbOutLevel (s : State) (n : Nat) (w : Nat × Nat) : Bool :=
  let x := s.fb n
  match s.fbOutSrc n w with
  | 0 => x.a.filt.raw
  | 1 => x.b.filt.raw
  | 2 => x.z.filt.raw
  | 3 => (quadLevels x.divOut).1
  | 4 => (quadLevels x.divOut).2
  | 5 => x.divZ
  | 6 => x.z.filt.out
  | _ => (s.pin w.1).lvl

/-- The pins of an interface follow its configuration, which was that of `o`: pins no longer named go free, new ones are owned, and an
output that starts or shows something else starts at the level it repeats or counts to (R338, R339). -/
def State.fbTakePins (s o : State) (n : Nat) : State :=
  let want := s.fbPins n
  let s := s.pins.foldl (fun s e =>
    if e.2.owner.isFb n && !(want.any (fun w => w.1 == e.1)) then s.ownPin e.1 .free else s) s
  want.foldl (fun s w =>
    if (s.pin w.1).owner == .fb n w.2 && o.fbOutSrc n w == s.fbOutSrc n w then s
    else (s.ownPin w.1 (.fb n w.2)).modPin w.1 (fun y => { y with lvl := s.fbOutLevel n w })) s

/-- The divider's outputs fall with its output count at a mode write at `g` (R297, R340; log entry 102). -/
def State.divFall (s : State) (n : Nat) (old : FbSt) (g : Time) : State :=
  let ix := fbIx n
  let t := g + nsT 16
  if s.bit F.FB_OUT_CTRL_div_en ix then
    let s := if (quadLevels old.divOut).1 then s.pushEdge (s.divPin n 0) t false else s
    let s := if (quadLevels old.divOut).2 then s.pushEdge (s.divPin n 1) t false else s
    if s.bit F.FB_OUT_CTRL_div_z_out ix && s.bit F.FB_OUT_CTRL_div_z ix && old.divZ then s.pushEdge (s.divPin n 2) t false else s
  else s

/-- The interface after a change of mode at `g` (R297). -/
def State.fbReset (s : State) (n : Nat) (g : Time) : State :=
  let ix := fbIx n
  let d := 64 * (n / 8)
  let x := s.fb n
  let v := if s.fld F.FB_COMM_CFG_src ix = 0 then (s.fb (n + 1)).a.filt.out
    else (s.pin (d + s.fld F.FB_COMM_CFG_pin_v ix)).filt.out
  let w := if s.fld F.FB_COMM_CFG_src ix = 0 then (s.fb (n + 2)).a.filt.out
    else (s.pin (d + s.fld F.FB_COMM_CFG_pin_w ix)).filt.out
  let s := s.setFb n { FbSt.reset with a := { x.a with edges := [], raws := [] }, b := { x.b with edges := [], raws := [] },
                                       z := { x.z with edges := [], raws := [] }, qa := x.a.filt.out, qb := x.b.filt.out,
                                       hv := v, hw := w, arm := x.arm, fx := x.fx, hits := x.hits }
  let keep := s.reg .FB_STATUS ix
  let s := s.setReg .FB_STATUS ix ((keep &&& 0x1C00) ||| 2)
  let s := s.setReg64 .FB_LAST_EVENT_LO .FB_LAST_EVENT_HI ix 0
  let s := s.setReg64 .FB_IDX_POS_LO .FB_IDX_POS_HI ix 0
  let s := (s.setReg .FB_IDX_DEV ix 0).setFld F.FB_COMM_STATE_sector ix 7
  let s := ((s.setReg .FB_SER_LD_MEAS ix 0).cmpRegs n).divFall n x g
  if s.fbMode n = 3 then s.commCode n g
  else if s.fbSerial n then s.fbRaw n 0 g true
  else s

/-- A write of a configuration register of an interface no running task declares: it stands if the configuration then holds
together, no donor is touched, and no enabled hoop loses its tooth wheel (R309, R345, R347); a change of mode resets the interface (R297). -/
def State.fbCfgWrite (s : State) (r : Reg) (n : Nat) (v : Word) : State :=
  let ix := fbIx n
  let s := if r = .FB_CTRL ∧ v.toNat % 8 ≠ s.fbMode n then s.acceptDue n else s
  let s' := s.plainWrite r ix v
  let around := (List.range 8).map (fun k => 8 * (n / 8) + k)
  let wheel := s'.fbMode n != 0 && (List.range 4).any (fun i =>
    let ix := hoopIx (4 * (n / 8) + i)
    s.bit F.HOOP_CTRL_en ix && s.fld F.HOOP_CTRL_src ix == 1 && s.fld F.HOOP_SRC_index ix % 8 == n % 8)
  if s.isDonor n || wheel || !around.all (fun m => s'.fbCfgOk m) then s.setBit F.FB_STATUS_cfg_reject ix true
  else
    let s' := s'.fbTakePins s n
    if s'.fbMode n != s.fbMode n then (s'.fbReset n s.now).fbSourceFails n s.now else s'

end Sys2Proof.Machine
end

