-- ==== Sys2Proof/Machine/FbInstr.lean ====
section
/-! DEFINITION. FBRD, FBSPD and FBCMP (R175 to R178, R331). -/

namespace Sys2Proof.Machine

/-- IDX_MISMATCH as of T (R330). -/
def FbSt.mismatchAt (x : FbSt) (t : Time) : Bool :=
  match x.idx.find? (fun e => upTo e.stamp t) with
  | some e => e.bad
  | none => false

/-- The flags that FBRD and FBSPD write: Z and N from td. -/
def tdFlags (v : BitVec 64) (c o : Bool) : Flags := ⟨v == 0, v.msb, c, o⟩

/-- FBRD goes on with td. -/
def fbrdOut (s : State) (st : Step) (x : TDst) (v : BitVec 64) (c o : Bool) : IRes :=
  .go s ((st.wt x v).wf (tdFlags v c o))

/-- FBRD of a value that may not exist: then C = 1 and td is a free value, since the spec gives none (log entry 6). -/
def fbrdOpt (s : State) (st : Step) (x : TDst) (v : Option (BitVec 64)) (o : Bool) : IRes :=
  match v with
  | some v => fbrdOut s st x v false o
  | none =>
    let (f, s) := s.fresh64
    fbrdOut s st x f true o

/-- The later of two stamps that may not exist. -/
def laterOpt (a b : Option Time) : Option Time :=
  match a, b with
  | some a, some b => some (later a b)
  | some a, none => some a
  | none, y => y

/-- FBRD on an interface (R176). -/
def State.fbrdFb (s : State) (n sel : Nat) (st : Step) (x : TDst) : IRes :=
  let f := s.fb n
  let t := st.act.t
  let o := f.mismatchAt t
  let lost := match sel with
    | 0 => s.fbLost n t
    | 1 => lostAt (f.probes.map (fun e => e.1)) 8 t
    | 2 => false
    | _ => lostAt f.a.edges 16 t || lostAt f.b.edges 16 t
  if lost || lostAt (f.idx.map (fun e => e.stamp)) 8 t then .trap s 0x0A (unitWord 4 n)
  else match sel with
    | 0 =>
      let bad := match f.frames.find? (fun e => upTo e.vis t) with | some e => !e.good | none => false
      fbrdOut s st x (count64 (f.posAt t)) bad o
    | 1 => fbrdOpt s st x ((f.probes.find? (fun e => upTo e.1 t)).map (fun e => count64 e.2)) o
    | 2 => fbrdOpt s st x ((f.idx.find? (fun e => upTo e.stamp t)).map (fun e => count64 e.pz)) o
    | _ => fbrdOpt s st x (laterOpt (f.a.edges.find? (fun e => upTo e t)) (f.b.edges.find? (fun e => upTo e t))) o

/-- A read of a subscription whose sample is gone (R83, R407). -/
def AxRead.lost (r : AxRead) : Bool := match r.found with | some x => decide (8 ≤ x.1) | none => false

/-- FBRD: a position or stamp as of T. -/
def bodyFbrd (x : TDst) (ga : GReg) (h : Handle) : Body := fun s k st =>
  let sel := (st.w.rg ga).toNat
  match k.handle [4, 6] h with
  | none => .trap s 0x0D 0
  | some r =>
    if r.kind = 4 then
      if 3 < sel then .trap s 0x11 0 else s.fbrdFb r.a sel st x
    else if sel ≠ 0 ∧ sel ≠ 3 then .trap s 0x11 0
    else
      let rd := s.axsRead r.a st.act.t
      if rd.lost then .trap s 0x0A (unitWord 6 r.a)
      else fbrdOut s (st.noteLate s r.a) x (if sel = 0 then rd.pos st.act.t else rd.stamp) rd.late false

/-- FBSPD: speed as of T (R177). -/
def bodyFbspd (x : TDst) (h : Handle) : Body := fun s k st =>
  match k.handle [4, 6] h with
  | none => .trap s 0x0D 0
  | some r =>
    if r.kind = 4 then
      if s.fbSpeedLost r.a st.act.t then .trap s 0x0A (unitWord 4 r.a)
      else
        let v := s.fbSpeedAt r.a st.act.t
        fbrdOut s st x (count64 v.v) (!v.valid) v.standstill
    else
      let rd := s.axsRead r.a st.act.t
      if rd.lost then .trap s 0x0A (unitWord 6 r.a)
      else fbrdOut s (st.noteLate s r.a) x rd.vel rd.late false

/-- FBCMP: arms or disarms the compare from T + L (R178); a target that is no pin of the task is BAD_HANDLE (R151, R152). -/
def bodyFbcmp (t : Nat) (tc : TReg) (ga gb : GReg) (h : Handle) : Body := fun s k st =>
  let v := st.w.rg gb
  let pos := (st.rt tc).toInt
  let arm := bitOf v 0
  let target := bitOf v 1
  let act := bitsOf v 2 2
  let slot := bitsOf v 4 10
  match k.handle [4] h with
  | none => guardAll s [some 0x0D, failIf (decide (128 ≤ st.effs.length)) 0x08] fun _ => .go s st
  | some r =>
    let pin := (k.resAt 1 slot).filter (fun q => !q.flag)
    let far := match pin with | some q => q.a / 64 != r.a / 8 | none => false
    let bad := bitsOf v 14 18 != 0 ||
      (arm && (wrap48 pos != pos || act == 3 || (if target then far else act != 0 || slot != 0)))
    guardAll s [failIf (decide (128 ≤ st.effs.length)) 0x08, failIf (arm && target && pin.isNone) 0x0D,
        failIf bad 0x11] fun _ =>
      let tgt := if target then pin.map (fun q => (q.a, act)) else none
      let spacing := (st.w.rg ga).toInt
      let c : Cmp := { stamp := st.tl, seq := k.seq.toNat, idx := st.effs.length, arm, pin := if arm then tgt.map (fun p => p.1) else none,
                       once := spacing == 0 }
      let st := { st with cmps := nmPut st.cmps r.a c }
      .go s (st.addEff t k st.tl (if arm then .fbArm r.a pos spacing tgt (hSlot h) else .fbDisarm r.a))

/-- FBRD (R175). -/
def execFbrd (t : Nat) (x : TDst) (ga : GReg) (h : Handle) (s : State) : Host.Outcome State Fault Refusal :=
  .next (s.issue t (.fbrd t x ga h) (bodyFbrd x ga h))

/-- FBSPD (R175). -/
def execFbspd (t : Nat) (x : TDst) (h : Handle) (s : State) : Host.Outcome State Fault Refusal :=
  .next (s.issue t (.fbspd t x h) (bodyFbspd x h))

/-- FBCMP (R175). -/
def execFbcmp (t : Nat) (tc : TReg) (ga gb : GReg) (h : Handle) (s : State) : Host.Outcome State Fault Refusal :=
  .next (s.issue t (.fbcmp t tc ga gb h) (bodyFbcmp t tc ga gb h))

end Sys2Proof.Machine
end

