-- ==== Sys2Proof/Machine/HoopEvents.lean ====
section
/-! DEFINITION. What happens at a hoop: teeth and samples, index edges, missing teeth, stall, coast, event starts and ends,
HEVT and HCAN effects, enabling and disabling (R352 to R374, R378, R379). -/

namespace Sys2Proof.Machine

/-- The hoops of a die act (R377: a package halt does not stop them). -/
def State.hoopActs (s : State) (h : Nat) : Bool := s.dieActs (h / 4) && (s.hoop h).st != 0

/-- Pn after the latest point (R355). -/
def State.hoopPn (s : State) (h : Nat) : Option Int :=
  match (s.hoop h).pts with
  | p :: _ =>
    let i := s.fld F.HOOP_SRC_index (hoopIx h)
    match s.hoopSrc h with
    | 0 | 1 => p.tp.map (fun tp => dist tp p.t)
    | 2 =>
      let teeth := s.hoopTeeth h
      let k := Int.fdiv (p.a * teeth + (2 ^ 32 - 1)) (2 ^ 32)
      predictIn (s.hoop h).base (Int.fdiv ((k + 1) * 2 ^ 32) teeth : Int)
    | 3 => some (s.axsPeriod (i % 256) : Int)
    | _ => some (ns (s.fld F.AXP_PERIOD_period_ns (pkg1 (i % 64))) : Int)
  | [] => none

/-- The detection instant of a missing tooth or sample, if one is due: 1.5 × Pn after the latest point, with nothing stamped before it
(R356, R363). -/
def State.missAt (s : State) (h : Nat) (judges : Option Int) : Option Time :=
  let x := s.hoop h
  match x.pts with
  | [] => none
  | p :: _ =>
    if x.st ≠ 2 then none
    else if s.hoopSrc h < 2 then
      judges.bind (fun pn =>
        let e := p.t + picotsI (3 * pn / 2)
        if x.inbox.any (fun i => before i.stamp e) then none else some e)
    else if s.hoopSrc h = 3 then
      let entry := s.fld F.HOOP_SRC_index (hoopIx h) % 256
      let lim := p.t + picots (3 * s.axsPeriod entry / 2)
      if x.inbox.any (fun i => upTo i.stamp lim) then none else some (lim + picots (s.axsAllow entry))
    else none

/-- The detection instant of STALL (R371). -/
def State.stallAt (s : State) (h : Nat) : Option Time :=
  let x := s.hoop h
  if x.st = 2 ∨ x.st = 6 then x.pts.head?.map (fun p => p.t + nsT (s.fld F.HOOP_STALL_stall_us (hoopIx h) * 1000)) else none

/-- Bad teeth are judged: a tooth wheel in SYNC with Pn within the limit (R356 to R358). -/
def State.hoopJudges (s : State) (h : Nat) : Option Int :=
  if (s.hoop h).st = 2 ∧ s.hoopSrc h < 2 then
    (s.hoopPn h).filter (fun p => decide (p ≤ (ns (s.fld F.HOOP_BAD_LIMIT_max_period_us (hoopIx h) * 1000) : Int)))
  else none

/-- A happening of class `cls` at `t` waits: one that comes before it at this hoop is still to be processed (R374). The classes are 1 tooth
or sample, 2 missing tooth, 3 stall, 4 HEVT and HCAN effects, 5 event starts and ends (log entry 104). -/
def State.hoopWaits (s : State) (h cls : Nat) (t : Time) : Bool :=
  let x := s.hoop h
  let first (o : Option Time) (c : Nat) : Bool := match o with
    | some e => before e t || (e == t && decide (c < cls))
    | none => false
  first (x.inbox.head?.map (fun i => i.tt)) 1 || first (s.missAt h (s.hoopJudges h)) 2 || first (s.stallAt h) 3 ||
    first (x.fx.head?.map (fun e => e.stamp)) 4

/-- A bad tooth (R358): the second with no real one between loses sync. -/
def State.hoopBad (s : State) (h : Nat) (e : Time) : State :=
  if (s.hoop h).bad = 0 then s.modHoop h (fun x => { x with bad := 1 }) else s.hoopLoss h 1 e

/-- The gap test of R352 and R353: interval `i1` is at least (gap + 0.5) times the one before it. -/
def State.gapTest (s : State) (h : Nat) (i1 i0 : Int) : Bool :=
  decide (((2 * s.fld F.HOOP_WHEEL_gap (hoopIx h) + 1 : Nat) : Int) * i0 ≤ 2 * i1)

/-- The next slot after the latest, with its revolution (R350). -/
def State.nextSlot (s : State) (h slot : Nat) (rev : Int) : Nat × Int :=
  if slot + 1 < s.hoopReal h then (slot + 1, rev) else (0, rev + 1)

/-- The slot before one, with its revolution (R372: backward across the gap). -/
def State.prevSlot (s : State) (h slot : Nat) (rev : Int) : Nat × Int :=
  if 0 < slot then (slot - 1, rev) else (s.hoopReal h - 1, rev - 1)

/-- Does the reference hold at a tooth in slot 0 (R353)? -/
def State.slot0Ok (s : State) (h : Nat) (t : Time) : Bool :=
  let x := s.hoop h
  if s.bit F.HOOP_CTRL_ref (hoopIx h) then x.idxSeen && !x.idxStray
  else match x.pts with
    | p1 :: p2 :: _ => s.gapTest h (dist t p1.t) (dist p1.t p2.t)
    | _ => true

/-- HOOP_STATUS.synthetic clears at the next real tooth (R356). -/
def State.noSynthetic (s : State) (h : Nat) : State := s.setBit F.HOOP_STATUS_synthetic (hoopIx h) false

/-- A tooth takes its place: the slot and index flags follow, its point is added. -/
def State.placeTooth (s : State) (h slot : Nat) (rev : Int) (i : HoopIn) : State :=
  let s := s.modHoop h (fun x => { x with
    slot := some slot, rev := rev,
    idxStray := if slot = 0 then false else x.idxStray || x.idxSeen, idxSeen := false })
  s.addPoint h (slotAngle (s.hoopTeeth h) rev slot) i.stamp i.tt false i.back slot i.width

/-- A tooth while SEARCH or LOST looks for the reference (R352). The slot 0 tooth starts a new revolution. -/
def State.searchTooth (s : State) (h : Nat) (i : HoopIn) : State :=
  let x := s.hoop h
  if i.back then
    s.setHoop h { x with slot := none, found := 0, lastEdges := [], usable := 0, idxSeen := false }
  else
    let found := x.found + 1
    let isRef :=
      if s.bit F.HOOP_CTRL_ref (hoopIx h) then x.idxSeen
      else match x.lastEdges with
        | e1 :: e0 :: _ => s.gapTest h (dist i.stamp e1) (dist e1 e0)
        | _ => false
    let s := s.setHoop h { x with found := found, lastEdges := i.stamp :: x.lastEdges.take 1 }
    if isRef then (s.modHoop h (fun x => { x with usable := 0 })).placeTooth h 0 (if x.slot.isSome then x.rev else x.rev + 1) i
    else match x.slot with
      | none => s.modHoop h (fun x => { x with idxSeen := false, lastReal := i.stamp })
      | some k =>
        let (k, rev) := s.nextSlot h k x.rev
        let s := s.placeTooth h k rev i
        if 3 ≤ found ∧ 1 ≤ k then s.hoopSync h false else s

/-- A tooth counts on outside SYNC; the third forward one in a row returns the hoop to SYNC (R371, R372). -/
def State.countTooth (s : State) (h : Nat) (i : HoopIn) : State :=
  let x := s.hoop h
  let stalled := x.st == 3
  match x.slot with
  | none => s
  | some k =>
    if i.back then
      let s := if stalled then s.hoopReverse h i else s.modHoop h (fun x => { x with fwd := 0 })
      let (k, rev) := s.prevSlot h k x.rev
      s.placeTooth h k rev i
    else
      let (k, rev) := s.nextSlot h k x.rev
      let s := (s.modHoop h (fun x => { x with fwd := x.fwd + 1 })).placeTooth h k rev i
      if (s.hoop h).fwd = 3 then s.hoopSync h stalled else s

/-- A tooth in SYNC: noise, reversal, reference check, or a good tooth (R353, R357, R358, R372). -/
def State.syncTooth (s : State) (h : Nat) (i : HoopIn) : State :=
  let x := s.hoop h
  match x.slot, x.pts with
  | some k, p :: _ =>
    if i.back then
      let s := (s.noSynthetic h).hoopReverse h i
      let (k, rev) := s.prevSlot h k x.rev
      s.placeTooth h k rev i
    else
      let noise := match s.hoopJudges h with | some pn => decide (2 * dist i.stamp p.t < pn) | none => false
      if noise then (s.bump F.HOOP_BAD_COUNT_noise (hoopIx h)).hoopBad h i.tt
      else
        let s := s.noSynthetic h
        let (k, rev) := s.nextSlot h k x.rev
        if k = 0 ∧ s.slot0Ok h i.stamp = false then
          (s.modHoop h (fun x => { x with lastReal := i.stamp })).hoopLoss h 2 i.tt
        else
          ((s.modHoop h (fun x => { x with bad := 0 })).placeTooth h k rev i).refreshAll h
  | _, _ => s

/-- A point of src 2 to 4 (R363, R364, R371, R372): one that does not move is none. -/
def State.samplePoint (s : State) (h : Nat) (a : Int) (i : HoopIn) : State :=
  let x := s.hoop h
  let prev := x.pts.head?.map (fun p => p.a)
  if prev = some a then s
  else
    let back := match prev with | some b => decide (a < b) | none => false
    let fwd := if prev.isSome && !back then x.fwd + 1 else 0
    let add (s : State) : State := s.addPoint h a i.stamp i.tt false back 0 0
    let s := if prev.isSome && x.st != 6 && x.st != 7 then s.setBit F.HOOP_STATUS_dir (hoopIx h) back else s
    let s := if x.st = 6 ∨ x.st = 7 then s else s.noSynthetic h
    match x.st with
    | 1 | 5 =>
      let s := (add s).modHoop h (fun x => { x with fwd := fwd })
      if fwd = 3 then s.hoopSync h false else s
    | 2 =>
      if back then add (s.hoopReverse h i) else (add (s.modHoop h (fun x => { x with bad := 0 }))).refreshAll h
    | 3 =>
      if back then add (s.hoopReverse h i)
      else
        let s := (add s).modHoop h (fun x => { x with fwd := fwd })
        if fwd = 3 then s.hoopSync h true else s
    | 4 =>
      let s := (add s).modHoop h (fun x => { x with fwd := fwd })
      if fwd = 3 then s.hoopSync h false else s
    | _ => s

/-- HOOP_TOOTH: the next tooth, virtual tooth or sample is accepted (R349, R363). Every tooth is logged with its width. -/
def hoopTooth (s : State) (h : Nat) : State :=
  if !s.hoopActs h then s
  else
    let s := if (s.hoop h).inbox.isEmpty && s.hoopSrc h == 1 then
        s.ballAccept (8 * (h / 4) + s.fld F.HOOP_SRC_index (hoopIx h) % 8) 0 else s
    match (s.hoop h).inbox with
    | [] => s
    | i :: rest =>
      if s.hoopWaits h 1 i.tt then s
      else
      let s := (s.at i.tt).modHoop h (fun x => { x with inbox := rest })
      match i.pos with
      | some a => s.samplePoint h a i
      | none =>
        let s := s.log (h / 4) 0x04 0 h i.stamp [BitVec.ofNat 32 i.width]
        let s := s.setBit F.HOOP_STATUS_dir (hoopIx h) i.back
        match (s.hoop h).st with
        | 1 | 5 => (s.noSynthetic h).searchTooth h i
        | 2 => s.syncTooth h i
        | 3 | 4 => (s.noSynthetic h).countTooth h i
        | _ => s

/-- HOOP_TOOTH. -/
def execHoopTooth (h : Nat) (s : State) : Host.Outcome State Fault Refusal := .next (hoopTooth s h)

/-- HOOP_INDEX_EDGE: an index edge is accepted; the next tooth looks at it (R350, R353). -/
def hoopIndexEdge (s : State) (h : Nat) : State :=
  if !s.hoopActs h then s
  else
    let s := if (s.hoop h).idxIn.isEmpty && s.hoopSrc h == 1 then
        s.ballAccept (8 * (h / 4) + s.fld F.HOOP_SRC_index (hoopIx h) % 8) 2 else s
    match (s.hoop h).idxIn with
    | [] => s
    | e :: rest => (s.at e.2).modHoop h (fun x => { x with idxIn := rest, idxSeen := true })

/-- HOOP_INDEX_EDGE. -/
def execHoopIndexEdge (h : Nat) (s : State) : Host.Outcome State Fault Refusal := .next (hoopIndexEdge s h)

/-- A synthetic point at detection instant `e` (R356, R363): events in progress carry SYNTHETIC, the rest is refreshed. -/
def State.synthetic (s : State) (h : Nat) (e : Time) (add : State → State) : State :=
  let ix := hoopIx h
  let s := (s.bump F.HOOP_BAD_COUNT_synthetic ix).setBit F.HOOP_STATUS_synthetic ix true
  let s := (s.hoop h).evs.foldl (fun s v => if v.2.active e then s.setEv h v.1 { v.2 with sticky := true } else s) s
  let bad := (s.hoop h).bad
  let s := add s
  if bad = 0 then (s.refreshAll h).modHoop h (fun x => { x with bad := 1 }) else s.hoopLoss h 1 e

/-- HOOP_MISSING_TOOTH: 1.5 × Pn after the latest point with no tooth or sample (R356, R363). -/
def hoopMissingTooth (s : State) (h : Nat) : State :=
  let x := s.hoop h
  if !s.hoopActs h then s
  else match x.pts, s.missAt h (s.hoopJudges h) with
    | p :: _, some e =>
      if s.hoopWaits h 2 e then s
      else if s.hoopSrc h < 2 then
        match s.hoopJudges h, x.slot with
        | some pn, some k =>
          let (k, rev) := s.nextSlot h k x.rev
          (s.at e).synthetic h e (fun s =>
            let s := s.modHoop h (fun x => { x with slot := some k, rev := rev, idxSeen := false,
                                                    idxStray := if k = 0 then false else x.idxStray || x.idxSeen })
            s.addPoint h (slotAngle (s.hoopTeeth h) rev k) (p.t + picotsI pn) e true false k 0)
        | _, _ => s
      else
        let per := s.axsPeriod (s.fld F.HOOP_SRC_index (hoopIx h) % 256)
        match x.extrapolate (p.t + picots per) with
        | some a => (s.at e).synthetic h e (fun s => s.addPoint h a (p.t + picots per) e true false 0 0)
        | none => s
    | _, _ => s

/-- HOOP_MISSING_TOOTH. -/
def execHoopMissingTooth (h : Nat) (s : State) : Host.Outcome State Fault Refusal := .next (hoopMissingTooth s h)

/-- HOOP_STALL: stall_us after the latest point with no other (R371). -/
def hoopStall (s : State) (h : Nat) : State :=
  match s.stallAt h with
  | some e => if !s.hoopActs h || s.hoopWaits h 3 e then s else (s.at e).hoopStalls h e
  | none => s

/-- HOOP_STALL. -/
def execHoopStall (h : Nat) (s : State) : Host.Outcome State Fault Refusal := .next (hoopStall s h)

/-- HOOP_COAST_EXPIRY: coast_ms after COAST began (R365). -/
def hoopCoastExpiry (s : State) (h : Nat) : State :=
  match (s.hoop h).coastEnd with
  | some e => if s.hoopActs h && (s.hoop h).st == 6 then (s.at e).hoopFallback h e else s
  | none => s

/-- HOOP_COAST_EXPIRY. -/
def execHoopCoastExpiry (h : Nat) (s : State) : Host.Outcome State Fault Refusal := .next (hoopCoastExpiry s h)

/-! ## HEVT and HCAN effects (R182, R183, R242, R366, R367) -/

/-- HEVT_APPLY: the event takes its slot at its stamp, unless the one there is in progress (R182) or its pin has no queue
entry left (R242). -/
def hevtApply (s : State) (h : Nat) : State :=
  match (s.hoop h).fx with
  | [] => s
  | e :: rest =>
    match e.kind with
    | .hevt _ slot desc srcSlot =>
      if !s.dieActs (h / 4) || s.hoopWaits h 4 e.stamp then s
      else
        let t := e.stamp
        let s := (s.at t).modHoop h (fun x => { x with fx := rest })
        let busy := match s.hoopEv h slot with | some v => v.active t | none => false
        if busy then s.hoopRefuse h slot 0 t
        else
          let old := s.hoopEv h slot
          let full := match desc.pin with
            | some p => decide (32 ≤ s.pinDepth p - (match old with | some v => b2n (v.desc.pin == some p) | none => 0))
            | none => false
          if full then
            (match desc.pin with | some p => s.bump F.PIN_REFUSE_COUNT_count (pinIx p) | none => s).hoopRefuse h slot 1 t
          else
            let s := (s.dropEv h slot).setEv h slot {
              task := e.task, run := e.run, srcSlot, desc, tgt := none, start := none, stop := none, fired := false,
              startSynth := false, endSynth := false, sticky := false, limited := false, forced := false,
              clamped := false, byHcan := false }
            if (s.hoop h).st = 2 ∨ (s.hoop h).st = 6 then
              match s.accAt h t with
              | some acc =>
                let synth := match (s.hoop h).pts with | p :: _ => p.synth | [] => false
                (s.evTargets h slot acc).evStamps h slot t synth
              | none => s
            else s
    | _ => s

/-- HEVT_APPLY. -/
def execHevtApply (h : Nat) (s : State) : Host.Outcome State Fault Refusal := .next (hevtApply s h)

/-- HCAN of one slot at `t` (R183, R369, R373). -/
def State.cancelEv (s : State) (h slot : Nat) (t : Time) : State :=
  match s.hoopEv h slot with
  | none => s
  | some v =>
    if v.active t then
      match v.start with
      | none => s
      | some a =>
        if (match v.stop with | some b => lockedAt b t | none => false) then s
        else (s.setEv h slot { v with stop := some (later t (a + picots 64)), limited := false, byHcan := true }).evStitches h slot
    else s.dropEv h slot

/-- HCAN_APPLY: a slot, or every slot the task holds, is cancelled at the stamp (R183, R366). -/
def hcanApply (s : State) (h : Nat) : State :=
  match (s.hoop h).fx with
  | [] => s
  | e :: rest =>
    match e.kind with
    | .hcan _ slot =>
      if !s.dieActs (h / 4) || s.hoopWaits h 4 e.stamp then s
      else
        let s := (s.at e.stamp).modHoop h (fun x => { x with fx := rest })
        match slot with
        | some k => s.cancelEv h k e.stamp
        | none => (s.hoop h).evs.foldl (fun s v => if v.2.task = e.task then s.cancelEv h v.1 e.stamp else s) s
    | _ => s

/-- HCAN_APPLY. -/
def execHcanApply (h : Nat) (s : State) : Host.Outcome State Fault Refusal := .next (hcanApply s h)

/-! ## Event starts and ends -/

/-- The activation of an event with an activation target (R162, R366). -/
def State.evActivate (s : State) (h slot : Nat) (e : HoopEv) (t : Time) (fin : Bool) : State :=
  match e.desc.pin with
  | some _ => s
  | none => s.activate e.task { t, src := 6, slot := e.srcSlot, event := slot, edge := fin, k1 := h, k2 := slot,
                                k3 := b2n fin, payload := [] }

/-- HOOP_EVENT_START: an event reaches its start stamp (R368). The pin takes the stitch by itself (R234). -/
def hoopEventStart (s : State) (h slot : Nat) : State :=
  match s.hoopEv h slot with
  | none => s
  | some e =>
    match e.start with
    | none => s
    | some a =>
      if !s.dieActs (h / 4) || e.fired || s.hoopWaits h 5 a then s
      else ((s.at a).setEv h slot { e with fired := true }).evActivate h slot e a false

/-- HOOP_EVENT_START. -/
def execHoopEventStart (h slot : Nat) (s : State) : Host.Outcome State Fault Refusal := .next (hoopEventStart s h slot)

/-- The flags of the EVENT record (R376). -/
def HoopEv.flags (e : HoopEv) : Nat :=
  b2n (e.startSynth || e.endSynth || e.sticky) + 2 * b2n e.limited + 4 * b2n e.forced + 8 * b2n e.clamped

/-- HOOP_EVENT_END: an event reaches its end stamp and frees its slot (R242, R368, R373, R376); in FALLBACK its pin then takes
its fallback (R365). -/
def hoopEventEnd (s : State) (h slot : Nat) : State :=
  match s.hoopEv h slot with
  | none => s
  | some e =>
    match e.start, e.stop with
    | some a, some b =>
      if !s.dieActs (h / 4) || s.hoopWaits h 5 b then s
      else
        let ix := hoopIx h
        let s := (s.at b).modHoop h (fun x => { x with evs := nmDel x.evs slot })
        let s := if e.limited then s.bump F.HOOP_LIMIT_COUNT_time_limit ix else s
        let s := s.evActivate h slot e b true
        let s := if s.bit F.HOOP_CTRL_evt_rec ix && !e.byHcan then
            s.hoopRecord h 0x34 b ([BitVec.ofNat 8 slot, BitVec.ofNat 8 e.flags] ++ timeBytes a) else s
        if (s.hoop h).st = 7 then
          match e.desc.pin with
          | some p => s.pinToFallback p e.task e.run
          | none => s
        else s
    | _, _ => s

/-- HOOP_EVENT_END. -/
def execHoopEventEnd (h slot : Nat) (s : State) : Host.Outcome State Fault Refusal := .next (hoopEventEnd s h slot)

/-! ## Configuration (R346, R347, R363, R379) -/

/-- The ranges of the hoop registers (R379). -/
def State.hoopRanges (s : State) (h : Nat) : Bool :=
  let ix := hoopIx h
  let f (x : Fld) : Nat := s.fld x ix
  decide (f F.HOOP_CTRL_src ≤ 4) && decide (2 ≤ f F.HOOP_WHEEL_teeth) && decide (f F.HOOP_WHEEL_teeth ≤ 1024) &&
  (s.bit F.HOOP_CTRL_ref ix || decide (1 ≤ f F.HOOP_WHEEL_gap)) && decide (1 ≤ f F.HOOP_WHEEL_cpt) &&
  (!s.bit F.HOOP_CTRL_dir_en ix ||
    decide (1 ≤ f F.HOOP_DIR_thresh_ns ∧ f F.HOOP_DIR_thresh_ns ≤ 1000000)) &&
  decide (1 ≤ f F.HOOP_BAD_LIMIT_max_period_us) && decide (f F.HOOP_BAD_LIMIT_max_period_us ≤ 1000000) &&
  decide (1 ≤ f F.HOOP_STALL_stall_us) && decide (f F.HOOP_STALL_stall_us ≤ 16000000)

/-- The pins that an enabled hoop owns: tooth and index input of src 0 (R347). -/
def State.hoopPins (s : State) (h : Nat) : List Nat :=
  let ix := hoopIx h
  if s.bit F.HOOP_CTRL_en ix && s.hoopSrc h == 0 then
    [64 * (h / 4) + s.fld F.HOOP_SRC_index ix] ++
      (if s.bit F.HOOP_CTRL_ref ix then [64 * (h / 4) + s.fld F.HOOP_SRC_idx_pin ix] else [])
  else []

/-- HOOP_WHEEL.teeth and cpt go with the interface of src 2: cpr is teeth × cpt (R363, R379). -/
def State.wheelOk (s : State) (h : Nat) : Bool :=
  let ix := hoopIx h
  s.hoopSrc h != 2 ||
    s.hoopTeeth h * s.fld F.HOOP_WHEEL_cpt ix == s.fld F.FB_CPR_cpr (fbIx (8 * (h / 4) + s.fld F.HOOP_SRC_index ix % 8))

/-- The source conditions of an enabled hoop (R347, R363). -/
def State.hoopSourceOk (s : State) (h : Nat) : Bool :=
  let ix := hoopIx h
  let i := s.fld F.HOOP_SRC_index ix
  let n := 8 * (h / 4) + i
  !s.bit F.HOOP_CTRL_en ix ||
  match s.hoopSrc h with
  | 0 => decide (i < 64) && (s.hoopPins h).all (fun p => s.pinFreeFor p (.hoop h 1 0)) && decide (s.hoopPins h).Nodup
  | 1 => decide (i < 8) && s.fbMode n == 0
  | 2 => decide (i < 8) && [1, 2, 4, 5].contains (s.fbMode n) && s.wheelOk h
  | 3 => decide (i < 256)
  | 4 => decide (i < 64)
  | _ => false

/-- The hoop enters SEARCH at `g` with nothing seen (R352, R379). -/
def State.hoopStart (s : State) (h : Nat) (g : Time) : State :=
  let x := s.hoop h
  let s := s.setHoop h { HoopSt.reset with evs := x.evs, fx := x.fx, states := x.states, rev := -1 }
  ((s.hoopPins h).foldl (fun s p => s.ownPin p (.hoop h 1 0)) (s.hoopEnter h 1 g)).recross g

/-- The hoop goes OFF at `g`: every slot is emptied and its tooth pins go free (R379). -/
def State.hoopStop (s : State) (h : Nat) (g : Time) : State :=
  let s := (s.hoop h).evs.foldl (fun s v => s.dropEv h v.1) s
  let s := (s.hoopEnter h 0 g).modHoop h (fun x => { x with pts := [], usable := 0, inbox := [], idxIn := [], slot := none })
  (s.pins.foldl (fun s p => if p.2.owner == .hoop h 1 0 then s.ownPin p.1 .free else s) s).recross g

/-- A write of a hoop register that no running task locks (R346, R347, R379). -/
def State.hoopCfgWrite (s : State) (r : Reg) (h : Nat) (v : Word) : State :=
  let ix := hoopIx h
  let s' := s.plainWrite r ix v
  let was := s.bit F.HOOP_CTRL_en ix
  let fixed := (r == .HOOP_SRC || r == .HOOP_WHEEL || r == .HOOP_MICRO ||
    (r == .HOOP_CTRL && (bitsOf (s.reg .HOOP_CTRL ix) 1 4 != bitsOf v 1 4 || bitsOf (s.reg .HOOP_CTRL ix) 6 2 != bitsOf v 6 2)))
  if (was && fixed) || !s'.hoopRanges h || (r == .HOOP_WHEEL && !s'.wheelOk h) || !s'.hoopSourceOk h then s.setBit F.HOOP_STATUS_cfg_reject ix true
  else
    let now := s'.bit F.HOOP_CTRL_en ix
    if now && !was then s'.hoopStart h s.now
    else if r == .HOOP_CTRL && !now then s'.hoopStop h s.now
    else s'

/-- A write of HOOP_EVT_SEL: a snapshot of the slot (R378). -/
def hoopEvtSelWrite (s : State) (_ : Port) (h : Nat) (v : Word) : State :=
  let ix := hoopIx h
  let s := s.plainWrite .HOOP_EVT_SEL ix v
  match s.hoopEv h (bitsOf v 0 6) with
  | none =>
    ((s.setReg .HOOP_EVT_INFO ix 0).setReg64 .HOOP_EVT_START_LO .HOOP_EVT_START_HI ix 0).setReg64
      .HOOP_EVT_END_LO .HOOP_EVT_END_HI ix 0
  | some e =>
    let info := (if e.active s.now then 2 else 1) + 4 * b2n e.desc.pin.isNone + 8 * b2n e.desc.hold +
      16 * b2n e.desc.level + 32 * b2n (e.startSynth || e.endSynth || e.sticky) + 64 * b2n e.start.isNone +
      65536 * (e.task % 4096)
    ((s.setReg .HOOP_EVT_INFO ix (BitVec.ofNat 32 info)).setReg64 .HOOP_EVT_START_LO .HOOP_EVT_START_HI ix
      (e.start.getD 0)).setReg64 .HOOP_EVT_END_LO .HOOP_EVT_END_HI ix (e.stop.getD 0)

end Sys2Proof.Machine
end

