-- ==== Sys2Proof/Machine/Admit.lean ====
section
/-! DEFINITION. The admission test, the shuttles of a die as the placer sees them, when a rotation ends, and the free space of a
die (R77 to R80, R212 to R219, R225). -/

namespace Sys2Proof.Machine

/-! ## The admission test (R219) -/

/-- An activation source in the admission test, in picots: worst-case step time, minimum interval, window. -/
structure Demand where
  c : Nat
  p : Nat
  d : Int
  deriving DecidableEq, Repr

/-- The share of a shuttle that a list of sources uses, U. -/
def utilOf (l : List Demand) : ℚ := (l.map (fun x => (x.c : ℚ) / x.p)).sum

/-- The work that is due by `t`. -/
def dueBy (l : List Demand) (t : Int) : Int :=
  (l.map (fun x => max 0 (Int.fdiv (t - x.d) x.p + 1) * x.c)).sum

/-- U_RES. -/
def uRes : ℚ := 19 / 20

/-- X of R219. -/
def slackOf (l : List Demand) : ℚ := (l.map (fun j => max 0 ((j.p : ℚ) - j.d) * ((j.c : ℚ) / j.p))).sum

/-- H of R219: no deadline point beyond it need be looked at. -/
def lastPoint (l : List Demand) : ℚ :=
  let top : ℚ := l.foldl (fun (a : ℚ) x => max a x.d) 0
  if slackOf l = 0 then top else max top (slackOf l / (uRes - utilOf l))

/-- The test of R219 on the sources of one shuttle. -/
def admits (l : List Demand) : Bool :=
  let u := utilOf l
  let h := lastPoint l
  l.all (fun j => (j.c : Int) ≤ j.d) && decide (u ≤ uRes) && !(decide (0 < slackOf l) && decide (u = uRes)) &&
    l.all (fun j => (List.range (((h - j.d) / j.p).floor.toNat + 1)).all (fun k =>
      let t : Int := j.d + k * j.p
      decide (h < (t : ℚ)) || decide (20 * dueBy l t ≤ 19 * t)))

/-- The sources of a task, with S for die `d` and R by `cross` (R77, R78, R219). -/
def State.demand (s : State) (k : Task) (d : Nat) (cross : Bool) : List Demand :=
  let w : Int := (k.lead : Int) - s.settleOf k.res d - (if cross then ns 280 else ns 20)
  k.sources.map (fun x => { c := ns x.cycles, p := ns x.minNs, d := w })

/-- A share in thousandths, rounded up. -/
def permille (u : ℚ) : Nat := (u * 1000).ceil.toNat

/-- 1 + the sum of max_pending (R217). -/
def Task.reservation (k : Task) : Nat := k.sources.foldl (fun a x => a + x.maxPending) 1

/-! ## Shuttles (R212, R225) -/

/-- The spare of a die; 7 = none. -/
def State.spareOf (s : State) (d : Nat) : Nat := s.fld F.SHT_ROLE_spare_slot (dieIx d)

/-- The slot that is being emptied; 7 = none. -/
def State.vacating (s : State) (d : Nat) : Nat := s.fld F.SHT_ROLE_vacating_slot (dieIx d)

/-- The shuttles that may take a task: healthy, not the spare, not being emptied. -/
def State.activeSlots (s : State) (d : Nat) : List Nat :=
  (List.range 5).filter (fun x => ((s.die d).slots.getD x Slot.reset).healthy && x != s.spareOf d && x != s.vacating d)

/-- The slot on which the placer counts a context of slot `x`: one that a rotation is emptying counts with the former spare,
which takes its contexts (R225). -/
def State.slotAs (s : State) (d x : Nat) : Nat := if x = s.vacating d ∧ (s.die d).rotFrom ≠ 7 then (s.die d).rotFrom else x

/-- The tasks that hold a context on shuttle `x` of die `d`, or are moving there. -/
def State.onSlot (s : State) (d x : Nat) : List (Nat × Task) :=
  s.tasks.filter (fun e =>
    (e.2.held && e.2.die == d && s.slotAs d e.2.slot == x) ||
      (match e.2.mig with | some m => m.die == d && s.slotAs d m.slot == x | none => false))

/-- The demand on a shuttle, without task `t`. -/
def State.slotDemand (s : State) (d x t : Nat) : List Demand :=
  (s.onSlot d x).flatMap (fun e => if e.1 = t then [] else s.demand e.2 d e.2.cross)

/-- The lowest context of a shuttle that no task but `t` holds or moves to (R212). -/
def State.freeCtx (s : State) (d x t : Nat) : Option Nat :=
  (List.range 32).find? (fun c => !(s.onSlot d x).any (fun e =>
    e.1 != t && ((e.2.die == d && e.2.ctx == c) || (match e.2.mig with | some m => m.die == d && m.ctx == c | none => false))))

/-- The pricking entries reserved on a die, without task `t` (R217). -/
def State.pricked (s : State) (d t : Nat) : Nat :=
  s.tasks.foldl (fun a e =>
    let here := (e.2.held && e.2.die == d) || (match e.2.mig with | some m => m.die == d | none => false)
    if e.1 != t && here then a + e.2.reservation else a) 0

/-! ## Rotation (R225) -/

/-- The phase of the rotation of die `d`: 0 none, 1 BIST, 2 moving contexts, 3 deferred. -/
def State.rotPhase (s : State) (d : Nat) : Nat := s.fld F.SHT_ROLE_rot_phase (dieIx d)

/-- The task that a rotation moves next: the one with the lowest context on the vacating shuttle (R225, step 3). -/
def State.rotNext (s : State) (d : Nat) : Option Nat :=
  (s.tasks.foldl (fun (best : Option (Nat × Nat)) e =>
    if e.2.held && e.2.die == d && e.2.slot == s.vacating d then
      match best with
      | none => some (e.1, e.2.ctx)
      | some b => if e.2.ctx < b.2 then some (e.1, e.2.ctx) else some b
    else best) none).map (fun x => x.1)

/-- Some task is on its way to the vacating shuttle of die `d`. -/
def State.rotAwaits (s : State) (d : Nat) : Bool :=
  s.tasks.any (fun e => match e.2.mig with | some m => m.die == d && m.slot == s.vacating d | none => false)

/-- A rotation of die `d` ends: the emptied shuttle is the spare (R225, step 4). -/
def State.rotEnd (s : State) (d : Nat) : State :=
  let v := s.vacating d
  let s := s.setReg .SHT_ROLE (dieIx d) (BitVec.ofNat 32 (v + 7 * 256))
  let s := s.bump F.SHT_ROT_COUNT_count (dieIx d)
  s.modDie d (fun x => { x with rotFrom := 7 })

/-- The rotation of die `d` ends once the vacating shuttle holds no task, whatever took the last one off it. -/
def State.rotCheck (s : State) (d : Nat) : State :=
  if s.rotPhase d = 2 ∧ s.rotNext d = none ∧ s.rotAwaits d = false then s.rotEnd d else s

/-- The same on every die: after a command or a fault that takes tasks off their shuttles. -/
def State.rotChecks (s : State) : State := s.dieList.foldl (fun s d => s.rotCheck d) s

/-! ## Space on a die (R213 to R215) -/

/-- A length rounded up to a multiple of `a`. -/
def roundUp (n a : Nat) : Nat := (n + a - 1) / a * a

/-- The lowest place, a multiple of `align`, for `size` bytes in [lo, hi) clear of what is used (log entry 18). -/
def freeAt (lo hi align size : Nat) (used : List (Nat × Nat)) : Option Nat :=
  let ok := fun (a : Nat) => decide (lo ≤ a ∧ a + size ≤ hi) && used.all (fun u => decide (a + size ≤ u.1 ∨ u.1 + u.2 ≤ a))
  ((lo :: used.map (fun u => roundUp (u.1 + u.2) align)).filter ok).min?

/-- Bytes of the code region (R213). -/
def State.codeEnd (s : State) : Nat := s.fld F.PLC_SPLIT_code_granules pkg * 65536

/-- Where the queue region begins. -/
def State.queStart (s : State) : Nat := 0x400000 - s.fld F.PLC_SPLIT_queue_granules pkg * 65536

/-- What the tasks hold of a die: code ranges, data ranges, table copies. -/
def State.codeUsed (s : State) (d : Nat) : List (Nat × Nat) :=
  s.tasks.flatMap (fun e =>
    let n := roundUp (4 * e.2.codeWords) 256
    (if e.2.memHeld && e.2.die == d then [(4 * e.2.codeBase, n)] else []) ++
      (match e.2.mig with | some m => if m.die = d then [(4 * m.codeBase, n)] else [] | none => []))

/-- The table copies on a die (R214). -/
def State.tablesOn (s : State) (d : Nat) : List Table :=
  s.tasks.flatMap (fun e =>
    (if e.2.memHeld && e.2.die == d then e.2.tables else []) ++
      (match e.2.mig with | some m => if m.die = d then m.tables else [] | none => []))

/-- What is used of the data region of a die. -/
def State.dataUsed (s : State) (d : Nat) : List (Nat × Nat) :=
  (s.tasks.flatMap (fun e =>
    let n := roundUp e.2.dataBytes 256
    (if e.2.memHeld && e.2.die == d then [(e.2.dataBase, n)] else []) ++
      (match e.2.mig with | some m => if m.die = d then [(m.dataBase, n)] else [] | none => []))) ++
    (s.tablesOn d).map (fun x => (x.off, roundUp x.len 256))

/-- What is used of the queue region of a die; local queue 255 always owns the top 64 KiB (R411). -/
def State.ringsUsed (s : State) (d : Nat) : List (Nat × Nat) :=
  (0x3F0000, 0x10000) :: s.ques.filterMap (fun e =>
    if e.1 / 256 = d ∧ e.2.bound = true ∧ e.1 % 256 ≠ 255 then some (e.2.base, 4 * e.2.cap) else none)

/-- Places for the tables of a task on a die: a copy with equal digest and length is shared (R214). -/
def State.placeTables (s : State) (d : Nat) (used : List (Nat × Nat)) (have_ : List Table) :
    List Table → Option (List Table)
  | [] => some []
  | x :: rest =>
    match have_.find? (fun y => y.digest == x.digest && y.len == x.len) with
    | some y => (s.placeTables d used have_ rest).map (fun l => { x with off := y.off } :: l)
    | none =>
      match freeAt s.codeEnd s.queStart 256 (roundUp x.len 256) used with
      | none => none
      | some o =>
        let x := { x with off := o }
        (s.placeTables d ((o, roundUp x.len 256) :: used) (x :: have_) rest).map (fun l => x :: l)

/-- Places for code, private segment and tables on a die; none without room. -/
def State.placeMem (s : State) (d codeWords dataBytes : Nat) (tables : List Table) : Option (Nat × Nat × List Table) :=
  match freeAt 0 s.codeEnd 256 (roundUp (4 * codeWords) 256) (s.codeUsed d) with
  | none => none
  | some c =>
    let n := roundUp dataBytes 256
    match freeAt s.codeEnd s.queStart 256 n (s.dataUsed d) with
    | none => none
    | some a => (s.placeTables d ((a, n) :: s.dataUsed d) (s.tablesOn d) tables).map (fun l => (c / 4, a, l))

end Sys2Proof.Machine
end

