-- ==== Sys2Proof/Machine/Startup.lean ====
section
/-! DEFINITION. Supplies, resets, the staggered start, the firmware boot and READY (R515 to R538, R551). -/

namespace Sys2Proof.Machine

/-! ## Package fault and package reset -/

/-- A package fault (R504): FAULT_N is asserted and every pin released, shuttles and command queues stop and no record is
written; only a package reset ends it. The first cause stands. -/
def State.packageFault (s : State) (cause : Nat) : State :=
  if s.pkgFault then s
  else (s.setBit F.FLT_STATUS_package_fault pkg true).setFld F.FLT_PKG_CAUSE_cause pkg cause

/-- FAULT_N is low: until READY, and after a package fault (R529, R535). -/
def State.faultLow (s : State) : Bool := !s.ready || s.pkgFault || s.boot.inReset

/-- PACKAGE_FAULT: a cause of R504. -/
def execPackageFault (cause : Nat) (s : State) : Host.Outcome State Fault Refusal :=
  .next (if 1 ≤ cause ∧ cause ≤ 3 then s.packageFault cause else s)

/-- A package reset begins (R519): registers, tasks, images, queues and records go, ground time is 0; the waiting commands,
the fuses, the strap balls, the supplies and PERST#, the memories' cells, host memory, the levels at the balls and the
count of free values stay. -/
def State.packageReset (s : State) (cause : Nat) (holds : Bool) : State :=
  let z := State.reset
  { z with
    pending := s.pending, variant := s.variant, fuses := s.fuses, straps := s.straps, dieMem := s.dieMem, ring := s.ring,
    hostMem := s.hostMem, freeCount := s.freeCount,
    pins := s.pins.map (fun (e : Nat × PinSt) => (e.1, { PinSt.reset with filt := Filt.init e.2.filt.raw })),
    trips := s.trips.map (fun (e : Nat × TripSt) => (e.1, { TripSt.reset with filt := Filt.init e.2.filt.raw })),
    fbs := s.fbs.map (fun (e : Nat × FbSt) => (e.1, { FbSt.reset with
      a := LineSt.init e.2.a.filt.raw, b := LineSt.init e.2.b.filt.raw, z := LineSt.init e.2.z.filt.raw })),
    boot := { z.boot with perst := s.boot.perst, rails := s.boot.rails, causeOn := holds } }.setFld
      F.RST_STATUS_last_cause pkg cause

/-- SUPPLY_OUT_OF_RANGE: one of the five rails that hold the reset leaves its range: a package reset with cause 1 (R516). -/
def execSupplyOutOfRange (rail : Nat) (s : State) : Host.Outcome State Fault Refusal :=
  .next (if rail < 5 then { s with boot := { s.boot with rails := s.boot.rails.set rail false } }.packageReset 1 true else s)

/-- POR_RELEASE: all five rails have been in range for 1 ms, so the power-on reset's cause ends (R516). -/
def execPorRelease (s : State) : Host.Outcome State Fault Refusal :=
  .next (if s.boot.inReset && s.boot.causeOn && s.fld F.RST_STATUS_last_cause pkg == 1 then
      { s with boot := { s.boot with rails := List.replicate 5 true, causeOn := false } }
    else s)

/-- SYS_RST_N_ASSERT: held low for at least 1 µs and released: a package reset with cause 2 (R518). -/
def execSysRstNAssert (s : State) : Host.Outcome State Fault Refusal := .next (s.packageReset 2 false)

/-- A link-only reset (R520): the endpoint returns to its reset state and the queues in host memory are disabled. -/
def State.linkReset (s : State) : State :=
  let s := { s with pcie := { Pcie.reset with sent := s.pcie.sent, waiting := s.pcie.waiting } }
  let s := (List.range 16).foldl (fun s q =>
    if s.bit F.CQ_CFG_space (pkg1 q) then s else s.setBit F.CQ_CFG_en (pkg1 q) false) s
  let s := (List.range 16).foldl (fun s n =>
    if s.bit F.EQ_CFG_space (pkg1 n) then s else s.setBit F.EQ_CFG_en (pkg1 n) false) s
  s.setFld F.RST_STATUS_last_cause pkg 5

/-- PERST_ASSERT (or a hot reset): a package reset, or a reset of the link only, as PERST_SEL selects (R518). -/
def execPerstAssert (s : State) : Host.Outcome State Fault Refusal :=
  .next (if s.straps.perstSel then { s.linkReset with boot := { s.boot with perst := true } }
    else { s with boot := { s.boot with perst := true } }.packageReset 3 true)

/-- PERST_RELEASE: the link may train (R522); a package reset that PERST# caused has its cause end. -/
def execPerstRelease (s : State) : Host.Outcome State Fault Refusal :=
  .next (
    let off := s.boot.causeOn && s.fld F.RST_STATUS_last_cause pkg == 3
    let s := { s with boot := { s.boot with perst := false, causeOn := if off then false else s.boot.causeOn } }
    s.setBit F.CLK_STATUS_pcie_refclk_ok pkg true)

/-- LINK_ONLY_RESET (R520). -/
def execLinkOnlyReset (s : State) : Host.Outcome State Fault Refusal := .next s.linkReset

/-- A write of RST_CTRL (R541): with the key, a package reset with cause 4. -/
def rstCtrlWrite (s : State) (_ : Port) (v : Word) : State :=
  if bitOf v 0 && bitsOf v 16 16 == 0xA5C3 then s.packageReset 4 false else s

/-- PACKAGE_RESET_END: the reset is released and the straps are sampled (R519, R521). -/
def execPackageResetEnd (s : State) : Host.Outcome State Fault Refusal :=
  .next (if s.boot.inReset && !s.boot.causeOn then
      let s := { s with boot := { s.boot with inReset := false } }
      let s := s.setBit F.RST_STATUS_refclk_sel pkg s.straps.refclk25
      let s := s.setFld F.RST_STATUS_boot_sel pkg s.straps.bootSel
      s.setBit F.RST_STATUS_perst_sel pkg s.straps.perstSel
    else s)

/-! ## The staggered start (R523 to R528) -/

/-- A filter takes the level at its ball as its output (R566). -/
def Filt.take (f : Filt) : Filt := { f with out := f.raw }

/-- A feedback line's filter takes the level at its ball. -/
def LineSt.take (x : LineSt) : LineSt := { x with filt := x.filt.take }

/-- Every filter of die `d` takes the level at its ball; a trip whose filtered input is then active fires at once (R566). -/
def State.initFilters (s : State) (d : Nat) : State :=
  let s := { s with pins := s.pins.map (fun (e : Nat × PinSt) => if e.1 / 64 = d then (e.1, { e.2 with filt := e.2.filt.take }) else e),
                    fbs := s.fbs.map (fun (e : Nat × FbSt) =>
                      if e.1 / 8 = d then (e.1, { e.2 with a := e.2.a.take, b := e.2.b.take, z := e.2.z.take }) else e) }
  (List.range 8).foldl (fun s i =>
    let j := 8 * d + i
    let x := { s.trip j with filt := (s.trip j).filt.take }
    s.setTrip j (if x.filt.out == s.tripActive j then x.activeNow s.now else x)) s

/-- Start-up has left the package reset. -/
def State.starting (s : State) : Bool := !s.boot.inReset && !s.ready && !s.pkgFault

/-- FUSE_LOAD_DONE: the fuses are loaded; a failure of their integrity is a package fault (R526, R527). -/
def execFuseLoadDone (ok : Bool) (s : State) : Host.Outcome State Fault Refusal :=
  .next (if s.starting && !s.boot.fusesOk then
      if ok then { s with boot := { s.boot with fusesOk := true } }.setFld F.RST_STATUS_boot_state pkg 1
      else s.packageFault 3
    else s)

/-- PLL_LOCK: REFCLK lies within 1 % of the strapped value and the die's PLL locks (R523); the management PLLs of dies 0 and 1
lock with it (log entry 12). -/
def execPllLock (d : Nat) (s : State) : Host.Outcome State Fault Refusal :=
  .next (if s.starting && s.present d then
      let m := (2 ^ d + 2 ^ (8 + d) + (if d < 2 then 2 ^ (16 + d) else 0))
      s.setReg .CLK_STATUS pkg (s.reg .CLK_STATUS pkg ||| BitVec.ofNat 32 m)
    else s)

/-- A die fails a start check (R527): START_FAIL records the first code; a failure on die 0 is a package fault. -/
def State.startFail (s : State) (d code : Nat) : State :=
  if d = 0 then s.packageFault 3
  else
    let s := s.modDie d (fun x => { x with core := false })
    if bitsOf (s.reg .START_FAIL pkg) (4 * d) 4 = 0 then
      s.setReg .START_FAIL pkg (putBits (s.reg .START_FAIL pkg) (4 * d) 4 code)
    else s

/-- The start check that die `d` has failed; 0 = none. -/
def State.startCode (s : State) (d : Nat) : Nat := bitsOf (s.reg .START_FAIL pkg) (4 * d) 4

/-- DIE_CORE_ENABLE: at E_d (R526) with its PLL locked and its banks in range (R527, codes 1 and 6) the die's core clock is
enabled; with die 0's, ground time starts (R524); every filter takes the level at its ball (R566). -/
def execDieCoreEnable (d : Nat) (s : State) : Host.Outcome State Fault Refusal :=
  .next (if s.starting && s.boot.fusesOk && s.present d && !(s.die d).core && !(s.die d).fenced && s.startCode d == 0 &&
        (d == 0 || (s.die 0).core) then
      if !bitOf (s.reg .CLK_STATUS pkg) d then s.startFail d 1
      else if !(bitOf (s.reg .PWR_STATUS pkg) (8 + d) && bitOf (s.reg .PWR_STATUS pkg) (16 + d)) then s.startFail d 6
      else
        let s := if d = 0 then { s with now := 0, slewFrac := 0 } else s.at (nsT (250000 * d))
        (s.modDie d (fun x => { x with core := true })).initFilters d
    else s)

/-- SRAM_CLEAR_START: the clear of die memory with ECC begins (R526). -/
def execSramClearStart (d : Nat) (s : State) : Host.Outcome State Fault Refusal :=
  .next (if s.starting && (s.die d).core then s.modDie d (fun x => { x with sramOk := false }) else s)

/-- SRAM_CLEAR_END: die memory reads 0; a readback with an uncorrectable error fails check 2 (R526, R527). -/
def execSramClearEnd (d : Nat) (ok : Bool) (s : State) : Host.Outcome State Fault Refusal :=
  .next (if s.starting && (s.die d).core then
      if ok then
        let s := { s with dieMem := memClear s.dieMem (dieAddr d 0) 0x400000,
                          ecc := s.ecc.filter (fun a => a < dieAddr d 0 || dieAddr (d + 1) 0 ≤ a),
                          weak := s.weak.filter (fun a => a < dieAddr d 0 || dieAddr (d + 1) 0 ≤ a) }
        s.modDie d (fun x => { x with sramOk := true })
      else s.startFail d 2
    else s)

/-- SHUTTLE_SLOT_ENABLE: one shuttle slot of a starting die (R526). -/
def execShuttleSlotEnable (d slot : Nat) (s : State) : Host.Outcome State Fault Refusal :=
  .next (if s.starting && (s.die d).core && slot < 5 then
      s.modDie d (fun x => { x with slots := x.slots.set slot { healthy := true, enabled := true, lastBist := none } })
    else s)

/-- MGMT_PAIR_ENABLE: the active pair of die 0 or the standby pair of die 1 starts (R526); the active pair begins the boot
that BOOT_SEL selects (R533). -/
def execMgmtPairEnable (d : Nat) (s : State) : Host.Outcome State Fault Refusal :=
  .next (if s.starting && (s.die d).core then
      if d = 0 then
        let s := { s with boot := { s.boot with pair0 := true } }
        s.setFld F.RST_STATUS_boot_state pkg (if s.fld F.RST_STATUS_boot_sel pkg = 1 then 3 else 2)
      else if d = 1 then { s with boot := { s.boot with pair1 := true } }
      else s
    else s)

/-- RELEASE_PATH_SELF_TEST (R528): DIE_RELEASE.pass reports it; a failure is check 3. -/
def execReleasePathSelfTest (d : Nat) (pass : Bool) (s : State) : Host.Outcome State Fault Refusal :=
  .next (if s.starting && (s.die d).core then
      if pass then (s.setBit F.DIE_RELEASE_pass (dieIx d) true).modDie d (fun x => { x with selfTest := true })
      else s.startFail d 3
    else s)

/-- DIE_START_CHECK: the last checks of R527 (4 sync lanes, 5 a ground link, 7 the configuration digest); a die that passes
has started and is live. -/
def execDieStartCheck (d : Nat) (aligned : Bool) (links : BitVec 4) (digestOk : Bool) (s : State) :
    Host.Outcome State Fault Refusal :=
  .next (if s.starting && (s.die d).core && !(s.die d).live && !(s.die d).fenced && (s.die d).sramOk && (s.die d).selfTest then
      if d ≠ 0 ∧ aligned = false then s.startFail d 4
      else if links = 0 then s.startFail d 5
      else if d ≠ 0 ∧ digestOk = false then s.startFail d 7
      else
        let s := s.modDie d (fun x => { x with live := true, links := (List.range 4).map (fun k => links.getLsbD k),
                                               digest := s.reg .CONFIG_DIGEST pkg })
        s.setReg .TIME_STATUS pkg (s.reg .TIME_STATUS pkg ||| BitVec.ofNat 32 (2 ^ (8 + d)))
    else s)

/-! ## Firmware boot (R531 to R534) -/

/-- A little-endian number from bytes [o, o + n) of an image. -/
def imgNat (b : List Byte) (o n : Nat) : Nat := leNat ((b.drop o).take n)

/-- All bytes [o, o + n) are 0. -/
def imgZero (b : List Byte) (o n : Nat) : Bool := ((b.drop o).take n).all (fun x => x == 0)

/-- The key hash of a firmware key slot in the fuses. -/
def Fuses.fwKey (f : Fuses) (slot : Nat) : BitVec 384 := if slot = 0 then f.fwKey0 else f.fwKey1

/-- The first check of R532 that a firmware image fails; 0 = it verifies. `hostLen` is the length a host boot gave. From flash the length
to read is known only from a sound header; a security version above 63 is a bad header (log entry 109). -/
def Fuses.checkFw (f : Fuses) (img : Option (List Byte)) (hostLen : Option Nat) : Nat :=
  match img with
  | none => 1
  | some b =>
    let bl := imgNat b 16 4
    let slot := imgNat b 7 1
    let lenBad := match hostLen with | some n => decide (n < 4448 ∨ n ≠ bl + 352) | none => decide (b.length < bl + 352)
    let headBad := imgNat b 0 4 != 0x57465846 || imgNat b 4 2 != 1 || imgNat b 6 1 != 0x10 || decide (1 < slot) ||
      decide (bl < 4096 ∨ 458752 < bl ∨ bl % 4 ≠ 0) || !imgZero b 11 1 || !imgZero b 20 44 || !imgZero b 161 95 ||
      decide (63 < imgNat b 12 4)
    let key := (b.drop 64).take 97
    if b.length < 4448 ∨ lenBad = true ∧ (hostLen.isSome = true ∨ headBad = false) then 1
    else if headBad then 2
    else if f.fwRevoked.testBit slot then 3
    else if Config.sha384 key ≠ f.fwKey slot then 4
    else if imgNat b 12 4 < f.fwSecMin then 5
    else if Config.ecdsaP384Verify key ((b.drop (256 + bl)).take 96) (Config.sha384 (b.take (256 + bl))) then 0
    else 6

/-- An image is handed to the check: boot_state 4, the source noted, attempts counted (R533). -/
def State.beginVerify (s : State) (source : Nat) (img : List Byte) : State :=
  let s := { s with boot := { s.boot with image := img, source := source, busy := true } }
  let s := s.setFld F.BOOT_STATUS_source pkg source
  (s.bump F.BOOT_STATUS_attempts pkg).setFld F.RST_STATUS_boot_state pkg 4

/-- A boot attempt failed with a code: the next source is tried as BOOT_SEL selects (R521, R533). -/
def State.bootFailed (s : State) (source code : Nat) : State :=
  let s := s.setFld F.BOOT_STATUS_error pkg code
  let s := { s with boot := { s.boot with busy := false } }
  let sel := s.fld F.RST_STATUS_boot_sel pkg
  if source = 1 then { s with boot := { s.boot with source := 1 } }.setFld F.RST_STATUS_boot_state pkg 2
  else if source = 2 ∧ 2 ≤ sel then { s with boot := { s.boot with source := 2 } }.setFld F.RST_STATUS_boot_state pkg 3
  else s.setFld F.RST_STATUS_boot_state pkg 7

/-- FLASH_IMAGE_READ_DONE: the controller has read flash slot 0 or 1, or could not (R532 code 1, R533). Slot 1 is read after
slot 0 has failed. -/
def execFlashImageReadDone (slot : Nat) (image : Option (List Byte)) (s : State) : Host.Outcome State Fault Refusal :=
  .next (if s.starting && s.boot.pair0 && s.fld F.RST_STATUS_boot_state pkg == 2 && !s.boot.busy &&
        slot == (if s.boot.source = 1 then 1 else 0) then
      match image with
      | some b => s.beginVerify (slot + 1) b
      | none =>
        let s := (s.setFld F.BOOT_STATUS_source pkg (slot + 1)).bump F.BOOT_STATUS_attempts pkg
        s.bootFailed (slot + 1) 1
    else s)

/-- A write of BOOT_CTRL (R533): a go is accepted in boot_state 3 or 7 with BOOT_SEL other than 0b00. -/
def bootCtrlWrite (s : State) (_ : Port) (v : Word) : State :=
  if bitOf v 31 then
    let st := s.fld F.RST_STATUS_boot_state pkg
    if (st = 3 ∨ st = 7) ∧ s.fld F.RST_STATUS_boot_sel pkg ≠ 0 then
      s.beginVerify 3 (memReadList s.ring 0 (min (bitsOf v 0 20) 0x80000))
    else s.setBit F.BOOT_STATUS_go_reject pkg true
  else s

/-- FW_VERIFY_DONE: the checks of R532 end; a verified image sets FW_VERSION and the firmware's bring-up begins. -/
def execFwVerifyDone (s : State) : Host.Outcome State Fault Refusal :=
  .next (if s.boot.busy && s.fld F.RST_STATUS_boot_state pkg == 4 then
      let b := s.boot.image
      let code := s.fuses.checkFw (some b) (if s.boot.source = 3 then some b.length else none)
      if code = 0 then
        let s := { s with boot := { s.boot with busy := false, verified := true } }
        let s := s.setFld F.BOOT_STATUS_error pkg 0
        let s := s.setReg .FW_VERSION pkg (BitVec.ofNat 32 (imgNat b 8 3))
        s.setFld F.RST_STATUS_boot_state pkg 5
      else s.bootFailed s.boot.source code
    else s)

/-- STANDBY_IMAGE_CHECK_DONE: the standby pair of die 1 has checked its copy under R532 and takes its role, if it may
(R534). -/
def execStandbyImageCheckDone (g : Time) (s : State) : Host.Outcome State Fault Refusal :=
  .next (
    let s := s.at g
    if s.boot.verified && s.boot.pair1 && (s.die 1).live && !s.boot.takeover &&
        s.fuses.checkFw (some s.boot.image) none == 0 then
      { s with boot := { s.boot with pair1Ok := true } }.capUpdate
    else s)

/-- The conditions of R535 for READY; a die that was fenced meanwhile is waited for no more (log entry 95). -/
def State.canReady (s : State) : Bool :=
  s.starting && s.boot.verified && (s.die 0).live &&
    s.dieList.all (fun d => (s.die d).live || (s.die d).fenced || s.startCode d != 0)

/-- The spare of a die that starts with five healthy slots is slot 4 (DESIGN CHOICE, log entry 13). -/
def State.firstSpare (s : State) (d : Nat) : State :=
  if (s.die d).live && (s.die d).healthyCount == 5 then s.setFld F.SHT_ROLE_spare_slot (dieIx d) 4 else s

/-- READY_SET: the placer is up, READY is set and FAULT_N released in one step with the update of the live fields (R535). The
configuration digest is formed for the first time (log entry 24). -/
def execReadySet (s : State) : Host.Outcome State Fault Refusal :=
  .next (if s.canReady then
      let s := s.setBit F.PLC_STATUS_up pkg true
      let s := s.dieList.foldl (fun s d => s.firstSpare d) s
      let s := s.setFld F.RST_STATUS_boot_state pkg 6
      (s.updateDigest.setBit F.RST_STATUS_ready pkg true).capWrite
    else s)

/-! ## Task key, channel banks, PCIe configuration -/

/-- A write of TASK_KEY_HASH_k: ignored with task_key_fused = 1 or once locked (R538). -/
def taskKeyHashWrite (s : State) (_ : Port) (k : Nat) (v : Word) : State :=
  if s.fuses.taskKeyFused || s.bit F.TASK_KEY_LOCK_locked pkg then s else s.setReg .TASK_KEY_HASH (pkg1 k) v

/-- The task key hash in force (R538): 12 words, byte 4k in [7:0] of word k; the first byte is the most significant. -/
def State.taskKey (s : State) : BitVec 384 :=
  if s.fuses.taskKeyFused then s.fuses.taskKey
  else BitVec.ofNat 384 (((List.range 12).flatMap (fun k => wordBytes (s.reg .TASK_KEY_HASH (pkg1 k)))).foldl
    (fun a b => a * 256 + b.toNat) 0)

/-- CHANNEL_BANK_IN_RANGE: an I/O bank of a channel die is in range (R516, R541). -/
def execChannelBankInRange (d : Nat) (timing : Bool) (s : State) : Host.Outcome State Fault Refusal :=
  .next (if s.present d then
      s.setReg .PWR_STATUS pkg (s.reg .PWR_STATUS pkg ||| BitVec.ofNat 32 (2 ^ ((if timing then 8 else 16) + d)))
    else s)

/-- PCIE_CONFIG_WRITE: Bus Master Enable and the power state; what waited goes on (R453). -/
def execPcieConfigWrite (bme d3hot : Bool) (s : State) : Host.Outcome State Fault Refusal :=
  .next ((({ s with pcie := { s.pcie with bme := bme, d3hot := d3hot } }.msixFlush).drainHolds).dmaResume)

end Sys2Proof.Machine
end

