-- ==== Sys2Proof/Machine/Image.lean ====
section
/-! DEFINITION. Task images: their layout and what a LOAD checks of the image alone (R200 to R204, R231, R412, R474, R536 to
R538). -/

namespace Sys2Proof.Machine

/-- A task image as LOAD reads it (R200, R201): header fields, code bytes, initial data, records, tables (number, bytes), and
whether its signature verifies. -/
structure Image where
  rank : Nat
  stopPolicy : Bool
  deferrable : Bool
  privileged : Bool
  lead : Nat
  codeWords : Nat
  dataBytes : Nat
  digest : Word
  code : List Byte
  dataInit : List Byte
  sources : List Source
  res : List Res
  tables : List (Nat × List Byte)
  verified : Bool
  deriving DecidableEq, Repr

/-! ## Sections -/

/-- A section: kind, flags, offset of its header, body. -/
structure Section where
  kind : Nat
  flags : Nat
  off : Nat
  body : List Byte
  deriving DecidableEq, Repr

/-- The sections from offset `o` to the end of the file; none where one does not fit. `fuel` bounds their number. -/
def imgSections (b : List Byte) (o : Nat) : Nat → Option (List Section)
  | 0 => if o = b.length then some [] else none
  | fuel + 1 =>
    if o = b.length then some []
    else
      let n := imgNat b (o + 4) 4
      let next := o + 8 + (n + 7) / 8 * 8
      if b.length < o + 8 ∨ b.length < next then none
      else
        match imgSections b next fuel with
        | some l => some ({ kind := imgNat b o 2, flags := imgNat b (o + 2) 2, off := o, body := (b.drop (o + 8)).take n } :: l)
        | none => none

/-- The body of the section of a kind; empty where there is none. -/
def secBody (l : List Section) (kind : Nat) : List Byte :=
  match l.find? (fun x => x.kind == kind) with
  | some x => x.body
  | none => []

/-- How many sections of a kind. -/
def secCount (l : List Section) (kind : Nat) : Nat := (l.filter (fun x => x.kind == kind)).length

/-- A byte list cut into records of `n` bytes; a short rest is left out. -/
def imgRecords (b : List Byte) (n : Nat) : List (List Byte) :=
  (List.range (b.length / n)).map (fun i => (b.drop (n * i)).take n)

/-- A SOURCE record (R202). -/
def imgSource (b : List Byte) : Source :=
  { code := imgNat b 0 2, slot := imgNat b 2 2, entry := imgNat b 4 4, cycles := imgNat b 8 4, minNs := imgNat b 12 4,
    maxPending := imgNat b 16 2 }

/-- A RESOURCE record (R204): three words of identification; of a hoop-event pin the hoop in bytes 8 and 9; of a queue the
key, capacity and peer kind, with no queue bound yet. -/
def imgRes (b : List Byte) : Res :=
  let kind := imgNat b 0 2
  let flag := imgNat b 2 2 % 2 == 1
  if kind = 0xA ∨ kind = 0xB then
    { kind, a := 65536, b := imgNat b 8 4, c := imgNat b 12 4, flag, key := imgNat b 4 4 }
  else if kind = 1 then { kind, a := imgNat b 4 4, b := 0, c := imgNat b 8 2, flag, key := 0 }
  else { kind, a := imgNat b 4 4, b := imgNat b 8 4, c := imgNat b 12 4, flag, key := 0 }

/-! ## Checks -/

/-- The header keeps R200 (BAD_IMAGE otherwise); stepping, lead and rstack_depth have codes of their own. -/
def imgHeaderOk (b : List Byte) : Bool :=
  imgNat b 0 4 == 0x3149464E && imgNat b 4 2 == 1 && imgNat b 7 1 < 4 && imgNat b 10 1 < 2 && imgNat b 11 1 < 2 &&
    (1 ≤ imgNat b 16 4 && imgNat b 16 4 ≤ 262144) &&
    (8 ≤ imgNat b 20 4 && imgNat b 20 4 ≤ 1048576 && imgNat b 20 4 % 8 == 0) && imgNat b 24 4 ≤ imgNat b 20 4 &&
    (2 ≤ imgNat b 29 1 && imgNat b 29 1 ≤ 64) && imgNat b 30 2 == 0 && imgZero b 36 28

/-- The resource kind that the slot of a source names (R202). -/
def sourceKind (code : Nat) : Option Nat :=
  match code with
  | 2 => some 9
  | 3 => some 0xB
  | 4 => some 1
  | 5 => some 4
  | 6 => some 5
  | _ => none

/-- A SOURCE record keeps R202 and R203. -/
def Source.ok (x : Source) (b : List Byte) (codeWords : Nat) (res : List Res) : Bool :=
  1 ≤ x.code && x.code ≤ 7 && 1 ≤ x.minNs && 1 ≤ x.maxPending && x.maxPending ≤ 256 && x.entry < codeWords &&
    imgZero b 18 6 &&
    (match sourceKind x.code with
     | some k => x.slot < (res.filter (fun r => r.kind == k)).length
     | none => x.slot == 0)

/-- The SOURCE records together keep R202: one for the host command, at most one for the timer, no two of one code and slot. -/
def sourcesOk (l : List Source) : Bool :=
  (l.filter (fun x => x.code == 1)).length == 1 && (l.filter (fun x => x.code == 7)).length ≤ 1 &&
    decide ((l.map (fun x => (x.code, x.slot))).Nodup)

/-- A RESOURCE record keeps R204, R231, R412 and R474; `tabs` are the numbers of the TABLE sections. -/
def Res.ok (r : Res) (b : List Byte) (tabs : List Nat) : Bool :=
  let flags := imgNat b 2 2
  1 ≤ r.kind && r.kind ≤ 0xE && flags ≤ (if r.kind = 1 ∨ r.kind = 0xA ∨ r.kind = 0xB then 1 else 0) &&
    (match r.kind with
     | 1 => !r.flag || r.a / 64 == r.c / 4
     | 8 => r.a < 4096 && r.b < 8
     | 9 => r.a < 8 || r.a == 1023
     | 0xA => 256 ≤ r.b && r.b ≤ 65536 && r.b % 256 == 0 && r.c ≤ 2
     | 0xB => 256 ≤ r.b && r.b ≤ 65536 && r.b % 256 == 0 && r.c ≤ 1
     | 0xC => r.a < 16 && r.b < 65536 && !ownSource r.b
     | 0xD => 64 ≤ r.a && r.a < 4096 && !ownSource r.a
     | 0xE => tabs.contains r.a
     | _ => true)

/-- The index of a declared unit lies in the range of the variant (R1, R3), that of an axis table entry in its table. -/
def Res.inRange (r : Res) (dies : Nat) : Bool :=
  match r.kind with
  | 1 => r.a < 64 * dies && (!r.flag || r.c < 4 * dies)
  | 2 => r.a < 8 * dies
  | 3 => r.a < 16 * dies
  | 4 => r.a < 8 * dies
  | 5 => r.a < 4 * dies
  | 6 => r.a < 256
  | 7 => r.a < 64
  | _ => true

/-- A TABLE section: number below 16, the digest that of its bytes (R201). -/
def tableOk (b : List Byte) : Bool :=
  8 ≤ b.length && imgNat b 0 4 < 16 && imgNat b 4 4 == (crc32c (b.drop 8)).toNat && b.length ≤ 8 + 0x400000

/-- The signature of an image verifies against the task key hash (R536, R538): `signed` are the bytes before the section. -/
def State.sigOk (s : State) (sig signed : List Byte) : Bool :=
  let key := sig.take 97
  sig.length == 200 && imgZero sig 193 7 && s.taskKey != 0 && Config.sha384 key == s.taskKey &&
    Config.ecdsaP384Verify key ((sig.drop 97).take 96) (Config.sha384 signed)

/-- The sections keep R201, R536 and the image digest of R200. -/
def imgSectionsOk (b : List Byte) (l : List Section) : Bool :=
  let last := match l.getLast? with | some x => x.kind == 0x7F | none => false
  let sig := match l.find? (fun x => x.kind == 0x7F) with | some x => x.off | none => b.length
  let tabs := (l.filter (fun x => x.kind == 5)).map (fun x => imgNat x.body 0 4)
  let res := (imgRecords (secBody l 4) 16).map imgRes
  let srcs := (imgRecords (secBody l 3) 24).map imgSource
  l.length == imgNat b 29 1 &&
    l.all (fun x => x.flags == 0 && ([1, 2, 3, 4, 5, 0x7F].contains x.kind) && (x.kind == 5 || secCount l x.kind == 1) &&
      (x.kind != 5 || tableOk x.body)) &&
    secCount l 1 == 1 && secCount l 3 == 1 && (secCount l 0x7F == 0 || last) &&
    (imgNat b 7 1 / 2 % 2 == 1) == (secCount l 0x7F == 1) && decide tabs.Nodup &&
    (secBody l 1).length == 4 * imgNat b 16 4 && (secBody l 2).length ≤ imgNat b 20 4 &&
    (secBody l 3).length % 24 == 0 && (secBody l 4).length % 16 == 0 &&
    (imgRecords (secBody l 4) 16).all (fun x => (imgRes x).ok x tabs) &&
    (imgRecords (secBody l 3) 24).all (fun x => (imgSource x).ok x (imgNat b 16 4) res) && sourcesOk srcs &&
    imgNat b 32 4 == (crc32c (b.take 32 ++ [0, 0, 0, 0] ++ (b.take sig).drop 36)).toNat

/-- What LOAD finds in an image: the codes of R210 that the image alone gives, and the image where its layout can be read. -/
def State.readImage (s : State) (b : List Byte) : List Nat × Option Image :=
  match imgSections b 64 64 with
  | none => ([0x01], none)
  | some l =>
    if b.length < 64 then ([0x01], none)
    else
      let signed := secCount l 0x7F == 1
      let at_ := match l.find? (fun x => x.kind == 0x7F) with | some x => x.off | none => b.length
      let ver := signed && s.sigOk (secBody l 0x7F) (b.take at_)
      let img : Image :=
        { rank := imgNat b 8 2, stopPolicy := imgNat b 10 1 == 1, deferrable := imgNat b 11 1 == 1,
          privileged := imgNat b 7 1 % 2 == 1, lead := imgNat b 12 4, codeWords := imgNat b 16 4,
          dataBytes := imgNat b 20 4, digest := BitVec.ofNat 32 (imgNat b 32 4), code := secBody l 1,
          dataInit := secBody l 2, sources := (imgRecords (secBody l 3) 24).map imgSource,
          res := (imgRecords (secBody l 4) 16).map imgRes,
          tables := (l.filter (fun x => x.kind == 5)).map (fun x => (imgNat x.body 0 4, x.body.drop 8)), verified := ver }
      let bad := !imgHeaderOk b || !imgSectionsOk b l
      ((if bad then [0x01] else []) ++
       (if signed && !ver || (!signed && s.fuses.signRequired) then [0x02] else []) ++
       (if imgNat b 6 1 ≠ 0x10 then [0x03] else []) ++
       (if img.res.all (fun r => r.inRange s.variant.dies) then [] else [0x06]) ++
       (if img.lead < 12800 ∨ 64000000 < img.lead then [0x0B] else []) ++
       (if 8 < imgNat b 28 1 then [0x13] else []),
       if bad then none else some img)

end Sys2Proof.Machine
end

