-- ==== Sys2Proof/Machine/Place.lean ====
section
/-! DEFINITION. Where the placer puts a task: queue bindings, candidate dies and shuttles, the refusal it reports (R205, R210 to
R218, R567). -/

namespace Sys2Proof.Machine

/-! ## Queue bindings (R205, R215, R216) -/

/-- A binding that a LOAD makes: key, side of the record (0xA or 0xB), package queue ID, whether it is new, its ring, its local
DMA channel. -/
structure Bind where
  key : Nat
  side : Nat
  queue : Nat
  isNew : Bool
  base : Nat
  cap : Nat
  dma : Option Nat
  deriving DecidableEq, Repr

/-- A record of a queue. -/
def Res.isQueue (r : Res) : Bool := r.kind == 0xA || r.kind == 0xB

/-- The other side of a queue. -/
def otherSide (side : Nat) : Nat := if side = 0xA then 0xB else 0xA

/-- The resident tasks that declare a side of a key, with their records. -/
def State.declares (s : State) (side key : Nat) : List (Nat × Task × Res) :=
  s.tasks.flatMap (fun e => (e.2.res.filter (fun r => r.kind == side && r.key == key)).map (fun r => (e.1, e.2, r)))

/-- The declarations of a record agree with those of the resident tasks and of its own image (R205). -/
def State.peersOk (s : State) (res : List Res) (r : Res) : Bool :=
  let same := s.declares r.kind r.key
  let other := (s.declares (otherSide r.kind) r.key).map (fun x => x.2.2) ++
    res.filter (fun x => x.kind == otherSide r.kind && x.key == r.key)
  same.isEmpty && (res.filter (fun x => x.kind == r.kind && x.key == r.key)).length == 1 &&
    other.all (fun x => x.b == r.b && x.c == 0 && r.c == 0)

/-- The lowest free local queue of a die from 0 to 254 (R215). -/
def State.freeQueue (s : State) (d : Nat) (acc : List Bind) : Option Nat :=
  (List.range 255).find? (fun k => !(s.que (256 * d + k)).bound && !acc.any (fun b => b.queue == 256 * d + k))

/-- The lowest free DMA channel of a die (R101, R216). -/
def State.freeChannel (s : State) (d : Nat) (acc : List Bind) (sg : Bool) : Option Nat :=
  let l := if sg then [0, 1] else if s.logging then [2, 3, 4, 5, 6] else [2, 3, 4, 5, 6, 7]
  l.find? (fun c => (s.dma (8 * d + c)).queue.isNone && !acc.any (fun b => b.queue / 256 == d && b.dma == some c))

/-- A new binding on die `d` for a record, or the refusal (NO_MEMORY, NO_DMA). -/
def State.newBind (s : State) (d : Nat) (acc : List Bind) (r : Res) : Bind ⊕ Nat :=
  let rings := s.ringsUsed d ++ acc.filterMap (fun b => if b.isNew && b.queue / 256 == d then some (b.base, 4 * b.cap) else none)
  match s.freeQueue d acc, freeAt s.queStart 0x400000 1024 (4 * r.b) rings with
  | some k, some o =>
    if r.c = 1 then
      match s.freeChannel d acc r.flag with
      | some c => .inl { key := r.key, side := r.kind, queue := 256 * d + k, isNew := true, base := o, cap := r.b, dma := some c }
      | none => .inr 0x17
    else .inl { key := r.key, side := r.kind, queue := 256 * d + k, isNew := true, base := o, cap := r.b, dma := none }
  | _, _ => .inr 0x08

/-- What the LOAD of task `t` on die `d` binds (R215): a queue with a DMA or host peer now; one between tasks when its second side
comes, on the die of its consumer; a queue that its other side still holds is taken as it is. -/
def State.bindOne (s : State) (d : Nat) (res : List Res) (acc : List Bind) (r : Res) : List Bind ⊕ Nat :=
  let add := fun (x : Bind ⊕ Nat) => match x with | .inl b => Sum.inl (acc ++ [b]) | .inr c => .inr c
  if r.c ≠ 0 then add (s.newBind d acc r)
  else
    match acc.find? (fun b => b.key == r.key) with
    | some b => .inl (acc ++ [{ b with side := r.kind, isNew := false }])
    | none =>
      match s.declares (otherSide r.kind) r.key with
      | (_, k2, r2) :: _ =>
        if r2.a ≠ 65536 then
          .inl (acc ++ [{ key := r.key, side := r.kind, queue := r2.a, isNew := false, base := 0, cap := r.b, dma := none }])
        else add (s.newBind (if r.kind = 0xA then k2.die else d) acc r)
      | [] =>
        if res.any (fun x => x.kind == otherSide r.kind && x.key == r.key) then add (s.newBind d acc r) else .inl acc

/-- All bindings of a LOAD on die `d`, with the refusals met. -/
def State.bindAll (s : State) (d : Nat) (res : List Res) : List Bind × List Nat :=
  (res.filter Res.isQueue).foldl (fun acc r =>
    match s.bindOne d res acc.1 r with
    | .inl l => (l, acc.2)
    | .inr c => (acc.1, acc.2 ++ [c])) ([], [])

/-- A record with the queue that a list of bindings gives its key. -/
def Res.bindTo (r : Res) (l : List Bind) : Res :=
  if r.isQueue && r.a == 65536 then
    match l.find? (fun b => b.key == r.key) with
    | some b => { r with a := b.queue }
    | none => r
  else r

/-- Every resident task's records with the bindings. -/
def State.bindRecords (s : State) (l : List Bind) : State :=
  { s with tasks := s.tasks.map (fun (e : Nat × Task) => (e.1, { e.2 with res := e.2.res.map (fun r => r.bindTo l) })) }

/-- A newly bound queue takes its place, marks, flush time and idle item, and its DMA channel (R215, R216, R419). -/
def State.bindQueue (s : State) (b : Bind) : State :=
  let q := b.queue
  let side := fun (x : Nat) => s.tasks.findSome? (fun e =>
    (e.2.res.find? (fun r => r.kind == x && r.a == q)).map (fun r => (e.1, r.c)))
  let x := s.que q
  let prod := side 0xA
  let cons := side 0xB
  let pk := match prod with | some _ => 0 | none => (match cons with | some c => c.2 | none => 0)
  let ck := match cons with | some _ => 0 | none => (match prod with | some p => p.2 | none => 0)
  let pt := match prod with | some p => p.1 | none => 0
  let ct := match cons with | some c => c.1 | none => 0
  if b.isNew then
    let s := s.setQue q { QueSt.reset with bound := true, prodKind := pk, prodTask := pt, consKind := ck, consTask := ct,
                                           dma := b.dma, cap := b.cap, base := b.base }
    let s := s.setReg .QUE_MARK_HI (queIx q) (BitVec.ofNat 32 (b.cap / 4))
    let s := s.setReg .QUE_MARK_LO (queIx q) 0
    let s := s.setReg .QUE_FLUSH (queIx q) 0
    let s := s.setReg .QUE_IDLE (queIx q) 0xFFFFFFFE
    let s := s.request q false
    match b.dma with
    | some c => s.modDma (8 * (q / 256) + c) (fun (y : DmaSt) => { y with queue := some q })
    | none => s
  else s.setQue q { x with prodTask := if prod.isSome then pt else x.prodTask, consTask := if cons.isSome then ct else x.consTask }

/-- A queue of which no side is resident is unbound and its channel freed (R215). -/
def State.unbindQueue (s : State) (q : Nat) : State :=
  if s.tasks.any (fun e => e.2.res.any (fun r => r.isQueue && r.a == q)) then s
  else
    let x := s.que q
    let s := s.setQue q { x with bound := false, dma := none, req := false, pkts := [], relFx := [] }
    let s := { s with flight := s.flight.filter (fun e => match e.kind with | .packet k _ => k != q | _ => true) }
    match x.dma with
    | some c => s.modDma (8 * (q / 256) + c) (fun (y : DmaSt) => { y with queue := none })
    | none => s

/-! ## Candidates -/

/-- A place for a task, and the queue bindings that go with it. -/
structure Spot where
  die : Nat
  slot : Nat
  ctx : Nat
  codeBase : Nat
  dataBase : Nat
  tables : List Table
  binds : List Bind
  deriving DecidableEq, Repr

/-- How many units of a task a die holds (R211, 1). -/
def Task.unitsOn (k : Task) (d : Nat) : Nat := (k.res.filter (fun r => unitDie r.kind r.a == some d)).length

/-- How many message destinations and producer tasks of a task a die holds (R211, 2). -/
def State.peersOn (s : State) (k : Task) (d : Nat) : Nat :=
  ((k.resOf 8).map (fun r => r.a)).eraseDups.countP (fun t => match s.task? t with | some y => y.die == d | none => false) +
    (k.resOf 0xB).countP (fun r => (s.declares 0xA r.key).any (fun x => x.2.1.die == d))

/-- Die `a` comes before die `b` as a candidate (R211). -/
def State.dieFirst (s : State) (k : Task) (a b : Nat) : Bool :=
  if k.unitsOn a = k.unitsOn b then
    if s.peersOn k a = s.peersOn k b then a < b else s.peersOn k b < s.peersOn k a
  else k.unitsOn b < k.unitsOn a

/-- A list of dies with one more in its place. -/
def State.dieInsert (s : State) (k : Task) (a : Nat) : List Nat → List Nat
  | [] => [a]
  | b :: r => if s.dieFirst k a b then a :: b :: r else b :: s.dieInsert k a r

/-- The live dies that a mask admits (R211); a mask of 0 admits every one. -/
def State.admitted (s : State) (mask : Nat) : List Nat := s.liveDies.filter (fun d => mask == 0 || mask.testBit d)

/-- The candidate dies in order. -/
def State.candidates (s : State) (k : Task) (mask : Nat) : List Nat :=
  (s.admitted mask).foldr (fun d l => s.dieInsert k d l) []

/-- The active shuttles of a die in the order of R212, each with its admitted utilisation. -/
def State.slotOrder (s : State) (d t : Nat) : List Nat :=
  let ins := fun (x : Nat) (l : List Nat) =>
    l.takeWhile (fun y => utilOf (s.slotDemand d y t) < utilOf (s.slotDemand d x t)) ++ [x] ++
      l.dropWhile (fun y => utilOf (s.slotDemand d y t) < utilOf (s.slotDemand d x t))
  (s.activeSlots d).foldr ins []

/-- The resident tasks that a placement makes cross-die keep L and the admission test (R567): the refusals met. `s` is the
state before it, `s'` the state with it. -/
def State.residentsOk (s s' : State) (t : Nat) : List Nat :=
  s'.tasks.flatMap (fun e =>
    let was : Bool := match s.task? e.1 with | some k => k.cross | none => false
    if e.1 != t && e.2.cross && !was then
      (if e.2.lead < ns 600 then [0x0C] else []) ++
      (if admits (s'.slotDemand e.2.die (s'.slotAs e.2.die e.2.slot) 4096) then [] else [0x0A])
    else [])

/-- Task `t` put at a place: the state a placement leads to, as far as the tests look at it. -/
def State.withPlace (s : State) (t : Nat) (k : Task) (p : Spot) : State :=
  let k := { k with die := p.die, slot := p.slot, ctx := p.ctx, codeBase := p.codeBase, dataBase := p.dataBase,
                    tables := p.tables, held := true, memHeld := true, mig := none }
  let s := (s.setTask t k).bindRecords p.binds
  s.modTask t (fun k => { k with cross := s.crossOn t k p.die, crossHist := [] })

/-- The placement of task `t` on die `d`, or the refusals it meets there (R210, R212 to R217, R567). `keep`: its memory on that
die stays as it is. `load`: its queues are bound with it. -/
def State.placeOn (s : State) (t : Nat) (k : Task) (d : Nat) (load : Bool) : Spot ⊕ List Nat :=
  let bs := if load then s.bindAll d k.res else ([], [])
  let keep := k.memHeld && k.die == d
  let mem := if keep then some (k.codeBase, k.dataBase, k.tables) else s.placeMem d k.codeWords k.dataBytes k.tables
  let prick := if 16384 < s.pricked d t + k.reservation then [0x0D] else []
  let mk := fun (x : Nat) (c : Nat) (m : Nat × Nat × List Table) =>
    ({ die := d, slot := x, ctx := c, codeBase := m.1, dataBase := m.2.1, tables := m.2.2, binds := bs.1 } : Spot)
  let free := (s.slotOrder d t).filterMap (fun x => (s.freeCtx d x t).map (fun c => (x, c)))
  let m := mem.getD (0, 0, [])
  let hyp := fun (x : Nat) (c : Nat) => (s.withPlace t k (mk x c m)).recross s.now
  let cross := (hyp 0 0).crossOn t (((hyp 0 0).task? t).getD k) d
  let fits := free.find? (fun y =>
    admits ((hyp y.1 y.2).slotDemand d y.1 t ++ s.demand k d cross))
  let codes := bs.2 ++ (if mem.isNone then [0x08] else []) ++ prick ++
    (if free.isEmpty then [0x09] else if fits.isNone then [0x0A] else []) ++
    (if cross && k.lead < ns 600 then [0x0C] else []) ++
    (match fits with | some y => s.residentsOk (hyp y.1 y.2) t | none => [])
  match codes, fits with
  | [], some y => .inl (mk y.1 y.2 m)
  | _, _ => .inr codes

/-- The lowest of several codes. -/
def lowestCode (l : List Nat) : Nat := l.foldl min 0xFF

/-- The first candidate die that takes the task, or the lowest refusal (R210, R211): AFFINITY_EMPTY where the mask names no live
die. -/
def State.place (s : State) (t : Nat) (k : Task) (mask : Nat) (load : Bool) : Spot ⊕ Nat :=
  let dies := s.candidates k mask
  if dies.isEmpty then .inr 0x0F
  else
    dies.foldl (fun (acc : Spot ⊕ Nat) d =>
      match acc with
      | .inl p => .inl p
      | .inr c =>
        match s.placeOn t k d load with
        | .inl p => .inl p
        | .inr l => .inr (lowestCode (c :: l))) (.inr 0xFF)

end Sys2Proof.Machine
end

