-- ==== Sys2Proof/Machine/Placer.lean ====
section
/-! DEFINITION. The placer commands LOAD, START, STOP, UNLOAD, SET_AFFINITY, SET_SPLIT, and what a STOP or a task fault does to
the outputs (R208, R209, R213, R220, R259, R287, R490, R491, R568). -/

namespace Sys2Proof.Machine

/-! ## When a placer command executes -/

/-- The accepted placer command of queue `q` with this opcode, if the placer can run it now: it is up, a management pair is in
control, no package halt is in force, and no placer command accepted earlier is unfinished (R461, R503, R540). -/
def State.placerRuns (s : State) (q op : Nat) : Option CqCmd :=
  match s.cqRuns q op with
  | none => none
  | some c =>
    let first := s.cqs.all (fun e => e.1 == q || !(isPlacerOp e.2.op && e.2.status.isNone && before e.2.accept c.accept))
    if s.bit F.PLC_STATUS_up pkg && s.mgmtUp && s.dbg.halt.isNone && first then some c else none

/-- Run a placer command that answers a reason code and a state. -/
def State.placerCmd (s : State) (q op : Nat) (f : CqCmd → State → Nat × State) : State :=
  match s.placerRuns q op with
  | some c => let r := f c s; r.2.cqEnd q c r.1
  | none => s

/-! ## LOAD -/

/-- A declared unit has another owner (R210, R230, R266, R398); interfaces and hoops may have several (R298, R379). -/
def State.resBusy (s : State) (r : Res) : Bool :=
  match r.kind with
  | 1 => (s.pin r.a).owner != .free
  | 2 => s.tasks.any (fun e => e.2.owns 2 r.a)
  | 3 => s.tasks.any (fun e => e.2.owns 3 r.a)
  | 7 => s.tasks.any (fun e => e.2.owns 7 r.a)
  | _ => false

/-- The task that an image describes, with no place yet. -/
def Image.task (i : Image) (mask : Nat) : Task :=
  { rank := i.rank, stopPolicy := i.stopPolicy, deferrable := i.deferrable, privileged := i.privileged && i.verified,
    lead := i.lead, codeWords := i.codeWords, dataBytes := i.dataBytes, digest := i.digest, sources := i.sources,
    res := i.res, tables := i.tables.map (fun x => { k := x.1, digest := crc32c x.2, len := x.2.length, off := 0 }),
    dataInit := i.dataInit, affinity := mask, die := 0, slot := 0, ctx := 0, codeBase := 0, dataBase := 0, held := false,
    memHeld := false, cross := false, crossHist := [], mig := none, state := .loaded, faultCode := 0,
    faultPc := 0, run := 0, startStamp := 0, c := Ctx.zero, resume := .entry, seq := 0, lastT := 0, lastTl := 0, step := none,
    pend := [], timer := none, served := [], dropped := 0, marks := [], brk := false, halt := none, stopAt := none,
    falls := [], stitches := [], cmps := [], capts := [], rps := [], lateSeen := [] }

/-- The refusals of a LOAD that need no placement (R93, R205, R208, R210, R216, R230). -/
def State.loadCodes (s : State) (t : Nat) (i : Image) : List Nat :=
  (if (s.task? t).isSome then [0x04] else []) ++ (if 4095 < t then [0x0E] else []) ++
    (if s.tasks.any (fun e => e.2.rank == i.rank) then [0x05] else []) ++
    (if i.res.any s.resBusy then [0x07] else []) ++
    (if i.res.any (fun r => r.isQueue && r.c == 1 && r.flag) && !(i.privileged && i.verified) then [0x10] else []) ++
    (if 1024 ≤ s.tasks.length then [0x12] else []) ++
    (if i.res.all (fun r => !r.isQueue || s.peersOk i.res r) then [] else [0x14])

/-- The pins that a task declares get their owner (R229). -/
def State.ownPins (s : State) (t : Nat) (res : List Res) : State :=
  res.foldl (fun s r => if r.kind = 1 then s.ownPin r.a (if r.flag then .hoop r.c 0 t else .task t) else s) s

/-- The code, and the tables in their places, are written to the task's die (R214). -/
def State.writeImage (s : State) (i : Image) (p : Spot) : State :=
  let s := s.writeDie p.die (4 * p.codeBase) i.code
  i.tables.foldl (fun s x =>
    match p.tables.find? (fun y => y.k == x.1) with
    | some y => s.writeDie p.die y.off x.2
    | none => s) s

/-- A task takes its place; its queues are bound (R211 to R217). -/
def State.settleAt (s : State) (t : Nat) (k : Task) (p : Spot) (from_ : Time) : State :=
  (p.binds.foldl (fun s b => s.bindQueue b) (s.withPlace t k p)).recross from_

/-- LOAD of an image for task `t` (R200 to R219): the reason, and the state it leads to. It is refused with DIGEST_MISMATCH while
the digest copy of a live die differs, and that die is fenced (R207). -/
def State.loadTask (s : State) (t : Nat) (b : List Byte) (mask : Nat) (accept : Time) : Nat × State :=
  let r := s.readImage b
  let bad := s.badCopies
  let s := s.fenceCopies bad
  let digest := if bad.isEmpty then [] else [0x16]
  match r.2 with
  | none => (lowestCode (r.1 ++ digest), s)
  | some i =>
    let k := i.task mask
    let codes := r.1 ++ s.loadCodes t i ++ digest
    match s.place t k mask true with
    | .inr c => (lowestCode (c :: codes), s)
    | .inl p =>
      if codes.isEmpty then
        (0, (((s.settleAt t k p accept).writeImage i p).ownPins t i.res).updateDigest)
      else (lowestCode codes, s)

/-- LOAD: the image is read over PCIe from the host address of P1 and P2; the first LOAD locks the task key hash (R538). -/
def execLoad (q : PlacerRun) (s : State) : Host.Outcome State Fault Refusal :=
  .next (if s.pcieUp then
      s.placerCmd q.queue 0x10 (fun c s =>
        let s := (s.spoilCopies q.bad).setBit F.TASK_KEY_LOCK_locked pkg true
        let a := (joinHalves (c.param 2) (c.param 1)).toNat
        s.loadTask (c.param 0).toNat (s.spaceRead false a (c.param 3).toNat) (c.param 4).toNat c.accept)
    else s)

/-! ## START and STOP -/

/-- The bytes of a task's code and data go from its die to a new place (R214, R220). -/
def State.copyTask (s : State) (k : Task) (die codeBase dataBase : Nat) (tables : List Table) : State :=
  if die = k.die then s
  else
    let get := fun (off n : Nat) => memReadList s.dieMem (dieAddr k.die off) n
    let code := get (4 * k.codeBase) (4 * k.codeWords)
    let data := get k.dataBase k.dataBytes
    let tabs := tables.map (fun x => (x.off, match k.tables.find? (fun y => y.k == x.k) with | some y => get y.off y.len | none => []))
    tabs.foldl (fun s x => s.writeDie die x.1 x.2) ((s.writeDie die (4 * codeBase) code).writeDie die dataBase data)

/-- A unit that a task declares, or a queue bound for it, lies on a die with property `p`. -/
def Task.usesDie (k : Task) (p : Nat → Bool) : Bool :=
  k.res.any (fun r => match unitDie r.kind r.a with
    | some d => p d
    | none => r.isQueue && r.a != 65536 && p (r.a / 256))

/-- The task declares a queue between tasks whose other side is not resident (R209). -/
def State.unboundQueue (s : State) (k : Task) : Bool :=
  k.res.any (fun r => r.isQueue && r.c == 0 && (s.declares (otherSide r.kind) r.key).isEmpty)

/-- A task that holds no context is placed again (R568): the refusal, or the state. -/
def State.placeAgain (s : State) (t : Nat) (k : Task) (from_ : Time) : Nat × State :=
  if k.usesDie (fun d => (s.die d).fenced) then (0x07, s)
  else if !k.memHeld then (0x0E, s)
  else
    match s.place t k k.affinity false with
    | .inr c => (c, s)
    | .inl p => (0, (s.copyTask k p.die p.codeBase p.dataBase p.tables).settleAt t k p from_)

/-- A placed task starts (R209): a new run begins at once, or, while a stopped run still drains, at its first activation. -/
def State.startRun (s : State) (t : Nat) (k : Task) (a : Act) : State :=
  let drains := k.state == .stopped && (match k.stopAt with | some ts => before s.now (k.deadline ts) | none => false)
  let k := { k with state := .running, startStamp := a.t }
  let s := if drains then s.setTask t k else s.beginRun t { k with pend := [] }
  s.activate t a

/-- START of task `t` (R208, R209, R568). -/
def State.startTask (s : State) (t : Nat) (a : Act) : Nat × State :=
  match s.task? t with
  | none => (0x0E, s)
  | some k =>
    if k.state = .running then (0x0E, s)
    else
      let r := if k.held then (0, s) else s.placeAgain t k a.t
      if s.unboundQueue k then (if r.1 = 0 then 0x15 else lowestCode [r.1, 0x15], s)
      else if r.1 ≠ 0 then (r.1, s)
      else match r.2.task? t with
        | some k => (0, r.2.startRun t k a)
        | none => (0x0E, s)

/-- START. -/
def execStart (q : Nat) (s : State) : Host.Outcome State Fault Refusal :=
  .next (s.placerCmd q 0x11 (fun c s => s.startTask (c.param 0).toNat (hostAct q c)))

/-- STOP of task `t` with acceptance stamp `ts` (R209). -/
def State.stopTask (s : State) (t : Nat) (ts : Time) : Nat × State :=
  match s.task? t with
  | none => (0x0E, s)
  | some k =>
    if k.state ≠ .running then (0x0E, s)
    else
      (0, s.setTask t { k with state := .stopped, stopAt := some ts, pend := k.pend.filter (fun a => before a.t ts),
                               step := k.step.filter (fun st => before st.act.t ts), timer := k.timer.filter (fun x => before x ts),
                               falls := k.falls ++ [⟨k.deadline ts, k.run, none⟩] })

/-- The task that P0 names satisfies `p`. -/
def State.namedTask (s : State) (c : CqCmd) (p : Task → Bool) : Bool :=
  match s.task? (c.param 0).toNat with
  | some k => p k
  | none => false

/-- STOP; it waits while a START of the task waits for the run before. -/
def execStop (q : Nat) (s : State) : Host.Outcome State Fault Refusal :=
  .next (match s.placerRuns q 0x12 with
    | some c =>
      if s.namedTask c Task.restarting then s
      else s.placerCmd q 0x12 (fun c s => s.stopTask (c.param 0).toNat c.accept)
    | none => s)

/-! ## UNLOAD, SET_AFFINITY, SET_SPLIT -/

/-- The pins that a task declares are free again (R229). -/
def State.freePins (s : State) (res : List Res) : State :=
  res.foldl (fun s r => if r.kind = 1 then s.ownPin r.a .free else s) s

/-- UNLOAD of task `t` (R209, R215, R225). -/
def State.unloadTask (s : State) (t : Nat) (accept : Time) : Nat × State :=
  match s.task? t with
  | none => (0x0E, s)
  | some k =>
    if k.state = .running then (0x0E, s)
    else
      let s := { s with tasks := nmDel s.tasks t }.freePins k.res
      let s := k.res.foldl (fun s r => if r.isQueue && r.a != 65536 then s.unbindQueue r.a else s) s
      (0, (s.recross accept).rotChecks.updateDigest)

/-- UNLOAD; it waits until the outputs of a stopped or faulted run have taken their fallback. -/
def execUnload (q : PlacerRun) (s : State) : Host.Outcome State Fault Refusal :=
  .next (match s.placerRuns q.queue 0x13 with
    | some c =>
      if s.namedTask c (fun k => k.state != .running && !k.falls.isEmpty) then s
      else s.placerCmd q.queue 0x13 (fun c s => (s.spoilCopies q.bad).unloadTask (c.param 0).toNat c.accept)
    | none => s)

/-- SET_AFFINITY (R220): a mask that admits the task's die is recorded; one that excludes it asks for a placement, and the task
then waits to migrate (MIGRATION_START, MIGRATION_END, MIGRATION_TIMEOUT). -/
def setAffinity (s : State) (q : Nat) : State :=
  match s.placerRuns q 0x14 with
  | none => s
  | some c =>
    if c.waiting.isSome then s
    else
      let t := (c.param 0).toNat
      let mask := (c.param 4).toNat
      match s.task? t with
      | none => s.cqEnd q c 0x0E
      | some k =>
        if (s.admitted mask).isEmpty then s.cqEnd q c 0x0F
        else if !k.held || (s.admitted mask).contains k.die then (s.setTask t { k with affinity := mask }).cqEnd q c 0
        else
          match s.place t k mask false with
          | .inr r => s.cqEnd q c r
          | .inl _ => s.setCq q { c with waiting := some s.now }

/-- SET_AFFINITY. -/
def execSetAffinity (q : Nat) (s : State) : Host.Outcome State Fault Refusal := .next (setAffinity s q)

/-- The new split of the die memories (R213). -/
def State.setSplit (s : State) (code que : Nat) : Nat × State :=
  if !s.tasks.isEmpty || 16 < code || code < 4 || que < 4 || 60 < code + que then (0x0E, s)
  else
    let s := s.setFld F.PLC_SPLIT_code_granules pkg code
    let s := s.setFld F.PLC_SPLIT_queue_granules pkg que
    (0, s.setFld F.PLC_SPLIT_data_granules pkg (64 - code - que))

/-- SET_SPLIT. -/
def execSetSplit (q : Nat) (s : State) : Host.Outcome State Fault Refusal :=
  .next (s.placerCmd q 0x15 (fun c s => s.setSplit (c.param 0).toNat (c.param 1).toNat))

/-! ## The fallback of a task's outputs (R209, R259, R287, R377, R491) -/

/-- The outputs of run `run` of task `t` take their fallback at `g`, and what of it is stamped later goes. -/
def State.outputsFall (s : State) (t run : Nat) (res : List Res) (g : Time) : State :=
  let mine := fun (e : Eff) => e.task == t && e.run == run
  let s := s.dropFlight t run g
  res.foldl (fun s r =>
    match r.kind with
    | 1 => s.pinToFallback r.a t run
    | 2 => s.modTrip r.a (fun (x : TripSt) => { x with fx := x.fx.filter (fun e => !mine e) })
    | 3 => s.carFallback r.a t run g
    | 4 =>
      let s := s.modFb r.a (fun (x : FbSt) => { x with fx := x.fx.filter (fun e => !mine e) })
      (match (s.fb r.a).cmp with
       | some c => if c.task = t ∧ c.run = run then s.cmpDisarm r.a else s
       | none => s)
    | 5 => s.hoopDropTask r.a t run
    | _ => s) s

/-- The TASK_FAULT record (R490); that of a task of a fenced die comes from die 0. -/
def State.taskFaultRec (s : State) (t d : Nat) (f : Nat × Nat × Time) (stamp : Time) : State :=
  s.faultRec (if (s.die d).fenced then 0 else d) (0x0A18 + d) 0x38 stamp
    (leBytes t 2 ++ [BitVec.ofNat 8 f.1, BitVec.ofNat 8 d] ++ timeBytes f.2.2 ++ leBytes f.2.1 3)

/-- The first fallback of a task that is due to a STOP (`fault` false) or to a fault. -/
def taskFall (s : State) (t : Nat) (fault : Bool) : State :=
  match s.task? t with
  | none => s
  | some k =>
    match k.falls.find? (fun f => f.fault.isSome == fault) with
    | none => s
    | some f =>
      let s := (s.at f.time).outputsFall t f.run k.res f.time
      let s := s.modTask t (fun k => { k with falls := k.falls.erase f })
      match f.fault with
      | some x => s.taskFaultRec t k.die x f.time
      | none => s

/-- STOP_FALLBACK: at Ts + L the outputs of the stopped run take their fallback (R209). -/
def execStopFallback (t : Nat) (s : State) : Host.Outcome State Fault Refusal := .next (taskFall s t false)

/-- TASK_FAULT_FALLBACK: at T + L of the faulted activation the outputs take their fallback and the record is written (R491). -/
def execTaskFaultFallback (t : Nat) (s : State) : Host.Outcome State Fault Refusal := .next (taskFall s t true)

end Sys2Proof.Machine
end

