-- ==== Sys2Proof/Machine/Migrate.lean ====
section
/-! DEFINITION. Migration and the rotating spare (R220 to R228). -/

namespace Sys2Proof.Machine

/-! ## Migration -/

/-- The placer may begin to move tasks on its own: it is up, a management pair is in control, and no package halt is in force
(R503, R540). -/
def State.placerFree (s : State) : Bool := s.bit F.PLC_STATUS_up pkg && s.mgmtUp && s.dbg.halt.isNone

/-- The bound M of a move in picots (R221): 250 ns within a die, else 400 ns and 8 GB/s for code and data. -/
def Task.moveBound (k : Task) (die : Nat) : Nat := if die = k.die then ns 250 else ns 400 + 8 * (4 * k.codeWords + k.dataBytes)

/-- The instants at which an activation of the task can next become ready (R222). -/
def State.nextReady (s : State) (k : Task) : List Time :=
  let st := picots (s.settle k)
  k.pend.map (fun a => a.t + st) ++ k.timer.toList ++
    k.sources.filterMap (fun x => (k.served.find? (fun e => e.1 == (x.code, x.slot))).map (fun e => e.2 + nsT x.minNs + st))

/-- A move with bound `m` may start at `g`: the task stands at a step boundary, is not halted, and none of those instants that
still lies ahead is nearer than `m` (R145, R222). -/
def State.mayMove (s : State) (k : Task) (m : Nat) (g : Time) : Bool :=
  k.held && k.mig.isNone && k.step.isNone && !s.haltedTask k && s.dieActs k.die &&
    (s.nextReady k).all (fun x => before x g || upTo (g + picots m) x)

/-- The SET_AFFINITY that waits to move task `t`, with its command queue. -/
def State.affinityOf (s : State) (t : Nat) : Option (Nat × CqCmd) :=
  s.cqs.find? (fun e => e.2.accepted && e.2.op == 0x14 && e.2.status.isNone && e.2.waiting.isSome && (e.2.param 0).toNat == t)

/-- MIGRATION_START: the placer starts to move a task, for the rotation of its die or for a SET_AFFINITY (R220, R222, R225). -/
def migrationStart (s : State) (t : Nat) (g : Time) : State :=
  match s.task? t with
  | none => s
  | some k =>
    if !s.placerFree then s
    else if s.rotPhase k.die = 2 ∧ s.rotNext k.die = some t then
      if s.mayMove k (ns 250) g then
        (s.at g).setTask t { k with mig := some { die := k.die, slot := (s.die k.die).rotFrom, ctx := k.ctx, codeBase := k.codeBase,
                                                  dataBase := k.dataBase, tables := k.tables, cmd := none } }
      else s
    else
      match s.affinityOf t with
      | none => s
      | some (q, c) =>
        let mask := (c.param 4).toNat
        match s.place t k mask false with
        | .inr r => s.cqEnd q c r
        | .inl p =>
          if s.mayMove k (k.moveBound p.die) g then
            (s.at g).setTask t { k with mig := some { die := p.die, slot := p.slot, ctx := p.ctx, codeBase := p.codeBase,
                                                      dataBase := p.dataBase, tables := p.tables, cmd := some (q, mask) } }
          else s

/-- MIGRATION_START. -/
def execMigrationStart (t : Nat) (g : Time) (s : State) : Host.Outcome State Fault Refusal := .next (migrationStart s t g)

/-- A task takes the place it moves to (R223, R224): what it holds goes with it; R of its own steps follows at once. -/
def State.arrive (s : State) (t : Nat) (k : Task) (m : Mig) (g : Time) : State :=
  let far := m.die != k.die
  let s := s.copyTask k m.die m.codeBase m.dataBase m.tables
  let s := s.setTask t { k with die := m.die, slot := m.slot, ctx := m.ctx, codeBase := m.codeBase, dataBase := m.dataBase,
                                tables := m.tables, held := true, memHeld := true, mig := none }
  let s := if far then s.bump F.PLC_MIG_COUNT_count pkg else s
  let s := s.modTask t (fun k => { k with cross := s.crossOn t k k.die, crossHist := [] })
  s.recross g

/-- MIGRATION_END: the task goes on in its new context (R222 to R224); a SET_AFFINITY that asked for it completes with OK and its
mask is recorded (R220); a rotation goes on with the next context. -/
def migrationEnd (s : State) (t : Nat) (g : Time) : State :=
  match s.task? t with
  | none => s
  | some k =>
    match k.mig with
    | none => s
    | some m =>
      let s := ((s.at g).arrive t k m g).rotChecks
      match m.cmd with
      | some (q, mask) =>
        let s := s.modTask t (fun k => { k with affinity := mask })
        (match s.cq q with
         | some c => s.cqEnd q c 0
         | none => s)
      | none => s.modDie m.die (fun x => { x with rotSince := g })

/-- MIGRATION_END. -/
def execMigrationEnd (t : Nat) (g : Time) (s : State) : Host.Outcome State Fault Refusal := .next (migrationEnd s t g)

/-- 100 ms. -/
def ms100 : Time := nsT 100000000

/-- MIGRATION_TIMEOUT: no migration could start within 100 ms of the SET_AFFINITY (R220). -/
def execMigrationTimeout (q : Nat) (g : Time) (s : State) : Host.Outcome State Fault Refusal :=
  .next (match s.cq q with
    | some c =>
      (match c.waiting with
       | some w =>
         if c.status.isNone && upTo (w + ms100) g && !s.namedTask c (fun k => k.mig.isSome) then (s.at g).cqEnd q c 0x11 else s
       | none => s)
    | none => s)

/-! ## Rotation (R225 to R228) -/

/-- Slot `a` was tested before slot `b`, or never. -/
def Slot.olderThan (a b : Slot) : Bool :=
  match a.lastBist, b.lastBist with
  | none, some _ => true
  | some x, some y => before x y
  | _, none => false

/-- The active shuttle whose BIST is oldest (R225, step 2), the lowest slot among equals; 7 = none. -/
def State.oldestSlot (s : State) (d : Nat) : Nat :=
  ((s.activeSlots d).foldl (fun (b : Option Nat) x =>
    match b with
    | none => some x
    | some y => if ((s.die d).slots.getD x Slot.reset).olderThan ((s.die d).slots.getD y Slot.reset) then some x else some y)
    none).getD 7

/-- Some context of die `d` is halted (R145). -/
def State.dieHalted (s : State) (d : Nat) : Bool :=
  s.tasks.any (fun e => e.2.held && e.2.die == d && s.haltedTask e.2)

/-- `g` is an instant at which die `d` rotates: a whole multiple of the period, 3 ms later for each die (R225). -/
def State.rotTime (s : State) (d : Nat) (g : Time) : Bool :=
  let p := s.fld F.PLC_ROT_PERIOD_period_ms pkg
  let o := ns (3000000 * d)
  p != 0 && o ≤ g.toNat && (g.toNat - o) % ns (1000000 * p) == 0

/-- ROTATION_START: at its period a die with a spare starts the spare's BIST; a deferred rotation resumes without one (R225,
R226). None starts while a context of the die is halted (R145). -/
def rotationStart (s : State) (d : Nat) (g : Time) : State :=
  if (s.die d).live && s.dieActs d && s.placerFree && s.rotTime d g && !s.dieHalted d then
    if s.rotPhase d = 0 ∧ s.spareOf d ≠ 7 then
      (s.at g).setFld F.SHT_ROLE_rot_phase (dieIx d) 1
    else if s.rotPhase d = 3 then
      (((s.at g).setFld F.SHT_ROLE_rot_phase (dieIx d) 2).modDie d (fun x => { x with rotSince := g })).rotCheck d
    else s
  else s

/-- ROTATION_START. -/
def execRotationStart (d : Nat) (g : Time) (s : State) : Host.Outcome State Fault Refusal := .next (rotationStart s d g)

/-- The spare passed its BIST: the oldest-tested active shuttle is to be emptied onto it (R225, steps 2 and 3). -/
def State.bistPass (s : State) (d : Nat) (g : Time) : State :=
  let sp := s.spareOf d
  let v := s.oldestSlot d
  let s := s.bumpMod F.DIE_BIST_COUNT_passed (dieIx d)
  let s := s.modDie d (fun x => { x with rotFrom := sp, rotSince := g,
                                         slots := x.slots.set sp { x.slots.getD sp Slot.reset with lastBist := some g } })
  (s.setReg .SHT_ROLE (dieIx d) (BitVec.ofNat 32 (7 + 2 * 16 + v * 256))).rotCheck d

/-- ROTATION_DEFER: a context could not start to move within 100 ms; the rotation stops at it (R226). -/
def execRotationDefer (d : Nat) (g : Time) (s : State) : Host.Outcome State Fault Refusal :=
  .next (
    let moving := s.tasks.any (fun e => match e.2.mig with | some m => m.die == d && m.cmd.isNone | none => false)
    if s.rotPhase d = 2 ∧ moving = false ∧ upTo ((s.die d).rotSince + ms100) g = true then
      ((s.at g).setFld F.SHT_ROLE_rot_phase (dieIx d) 3).bump F.PLC_ROT_DEFER_count pkg
    else s)

end Sys2Proof.Machine
end

