-- ==== Sys2Proof/Machine/Ptp.lean ====
section
/-! DEFINITION. The PTP instance, the servo and the frames it sends (R383, R388 to R394). What R389 takes from IEEE 1588 (the
best master clock algorithm, port states, frame lengths) is modelled as log entry 17 says. -/

namespace Sys2Proof.Machine

/-! ## The instance -/

/-- A PTP port. -/
def State.ptpPort (s : State) (p : Nat) : PtpPort := nmGet s.ptpPorts p PtpPort.reset
/-- The state with a PTP port changed. -/
def State.modPtp (s : State) (p : Nat) (f : PtpPort → PtpPort) : State :=
  { s with ptpPorts := nmPut s.ptpPorts p (f (s.ptpPort p)) }

/-- NET_PTP_CTRL selects the port and its die is live. -/
def State.ptpUses (s : State) (p : Nat) : Bool :=
  s.bit F.NET_PTP_CTRL_en pkg && (s.fld F.NET_PTP_CTRL_ports pkg).testBit p && p < 2 && (s.die p).live

/-- The ports the instance uses. -/
def State.ptpList (s : State) : List Nat := (List.range 2).filter (fun p => s.ptpUses p)

/-- The portState code of a port: 4 LISTENING, 6 MASTER, 7 PASSIVE, 9 SLAVE; 0 = not in use. -/
def State.portState (s : State) (p : Nat) : Nat :=
  if p = 0 then s.fld F.NET_PTP_STATUS_state_a pkg else s.fld F.NET_PTP_STATUS_state_b pkg

/-- The state with a port's code set; a port that becomes SLAVE is so since now (R391, cause 2). -/
def State.setPortState (s : State) (p c : Nat) : State :=
  let s := s.modPtp p (fun x => { x with slaveSince := if c = 9 then some (x.slaveSince.getD s.now) else none })
  if p = 0 then s.setFld F.NET_PTP_STATUS_state_a pkg c else s.setFld F.NET_PTP_STATUS_state_b pkg c

/-- Every used port's code set. -/
def State.setPortStates (s : State) (c : Nat) : State :=
  (List.range 2).foldl (fun s p => s.setPortState p (if s.ptpUses p then c else 0)) s

/-- Peer delay is the mechanism of profiles 1 and 2 (R389). -/
def State.peerDelay (s : State) : Bool := s.fld F.NET_PTP_CTRL_profile pkg != 0

/-- The clock identity of this node: the EUI-64 of NET_A's address, byte 0 most significant. -/
def State.clockId (s : State) : BitVec 64 :=
  let m := s.mac .NET_MAC_LO .NET_MAC_HI (pkg1 0)
  let b := fun k => m.extractLsb' (8 * k) 8
  b 0 ++ b 1 ++ b 2 ++ (0xFF : BitVec 8) ++ (0xFE : BitVec 8) ++ b 3 ++ b 4 ++ b 5

/-- What this node announces as grandmaster. -/
def State.ownData (s : State) : Announce :=
  { gmId := s.clockId, priority1 := s.fld F.NET_PTP_CTRL_priority1 pkg, clockClass := Config.ptpClockClass,
    clockAccuracy := Config.ptpClockAccuracy, variance := Config.ptpVariance,
    priority2 := s.fld F.NET_PTP_CTRL_priority2 pkg, stepsRemoved := 0 }

/-- The first difference of two lists decides: is the first list the lower? -/
def lexLt : List Nat → List Nat → Bool
  | a :: x, b :: y => if a = b then lexLt x y else a < b
  | _, _ => false

/-- The order of data sets: priority1, class, accuracy, variance, priority2, identity, steps removed; the lower is better. -/
def annKey (a : Announce) : List Nat :=
  [a.priority1, a.clockClass, a.clockAccuracy, a.variance, a.priority2, a.gmId.toNat, a.stepsRemoved]

/-- The best Announce on the used ports. -/
def State.bestAnn (s : State) : Option (Nat × Announce) :=
  s.ptpList.foldl (fun best p => match (s.ptpPort p).ann, best with
    | some a, none => some (p, a.1)
    | some a, some b => if lexLt (annKey a.1) (annKey b.2) then some (p, a.1) else some b
    | none, b => b) none

/-- NET_GM_ID: byte 0 of the identity in [7:0] of the low half. -/
def State.setGm (s : State) (id : BitVec 64) : State :=
  let b := fun (k : Nat) => id.extractLsb' (56 - 8 * k) 8
  (s.setReg .NET_GM_ID_LO pkg (b 3 ++ b 2 ++ b 1 ++ b 0)).setReg .NET_GM_ID_HI pkg (b 7 ++ b 6 ++ b 5 ++ b 4)

/-- A cause of R391 while the servo is on. -/
def State.unqualIf (s : State) (cause : Nat) : State := if s.bit F.TIME_CTRL_servo_en pkg then s.setUnqual cause else s

/-- The instance follows a grandmaster; another one than before is cause 3, counted (R391). -/
def State.follow (s : State) (id : BitVec 64) : State :=
  let old := s.ptp.gm
  let s := { s.setGm id with ptp := { s.ptp with gm := some id } }
  match old with
  | some x => if x = id then s else (s.bump F.NET_QUAL_COUNT_gm_change pkg).unqualIf 3
  | none => s

/-- This node is grandmaster on every port it uses: as it becomes so, the bit clears (R391). -/
def State.becomeGm (s : State) : State :=
  let was := s.bit F.NET_PTP_STATUS_gm_self pkg
  let s := (s.setPortStates 6).setBit F.NET_PTP_STATUS_gm_self pkg true
  let s := s.follow s.clockId
  if was then s else s.clearUnqual 0

/-- A port of the instance takes its state when `best` on port `bp` is followed: SLAVE there; elsewhere PASSIVE where the same
grandmaster is heard, LISTENING for a slave only, else MASTER. -/
def State.slaveState (s : State) (bp : Nat) (best : Announce) (p : Nat) : Nat :=
  if p = bp then 9
  else if s.bit F.NET_PTP_CTRL_slave_only pkg then 4
  else match (s.ptpPort p).ann with
    | some a => if a.1.gmId = best.gmId then 7 else 6
    | none => 6

/-- The best master clock algorithm decides the port states; cause 4 where no port is SLAVE and this node is not grandmaster
(R389, R391), as where no port is left to use (R394). -/
def State.bmca (s : State) : State :=
  if s.ptpList = [] then ((s.setPortStates 0).setBit F.NET_PTP_STATUS_gm_self pkg false).unqualIf 4
  else
    let only := s.bit F.NET_PTP_CTRL_slave_only pkg
    match s.bestAnn with
    | none => if only then ((s.setPortStates 4).setBit F.NET_PTP_STATUS_gm_self pkg false).unqualIf 4 else s.becomeGm
    | some (bp, best) =>
      if !only && lexLt (annKey s.ownData) (annKey best) then s.becomeGm
      else
        let s := (List.range 2).foldl (fun s p => s.setPortState p (if s.ptpUses p then s.slaveState bp best p else 0)) s
        (s.setBit F.NET_PTP_STATUS_gm_self pkg false).follow best.gmId

/-- The instance restarts, or ends with en = 0 (R389): no port is SLAVE and the node is not grandmaster, cause 4 (R391). The latest o
stays (R392). -/
def State.ptpRestart (s : State) : State :=
  let s := { s with ptpPorts := [], ptp := { PtpSt.reset with latest := s.ptp.latest } }
  ((s.setPortStates 4).setBit F.NET_PTP_STATUS_gm_self pkg false).unqualIf 4

/-- A 4-bit signed interval. -/
def logInt (n : Nat) : Int := if 8 ≤ n then (n : Int) - 16 else n

/-- An accepted write of NET_PTP_CTRL or NET_PTP_INTERVALS restarts the instance; others are rejected (R389, R409). -/
def netPtpW (s : State) (_ : Port) (intervals : Bool) (v : Word) : State :=
  let bad :=
    if intervals then
      let a := logInt (bitsOf v 0 4)
      let b := logInt (bitsOf v 4 4)
      let c := logInt (bitsOf v 8 4)
      let d := bitsOf v 12 4
      !decide (-7 ≤ a ∧ a ≤ 1 ∧ -3 ≤ b ∧ b ≤ 4 ∧ -7 ≤ c ∧ c ≤ 4 ∧ 2 ≤ d ∧ d ≤ 10)
    else bitsOf v 1 2 == 3 || (bitsOf v 1 2 == 2 && bitsOf v 3 2 == 3)
  if bad then s.setBit F.NET_PTP_STATUS_cfg_reject pkg true
  else (s.plainWrite (if intervals then .NET_PTP_INTERVALS else .NET_PTP_CTRL) pkg v).ptpRestart

/-- Writes of NET_SERVO and NET_QUAL, whose fields have ranges (R409). -/
def netServoW (s : State) (_ : Port) (r : Reg) (v : Word) : State :=
  let bad := match r with
    | .NET_SERVO => decide (bitsOf v 0 20 = 0 ∨ 500000 < bitsOf v 0 20 ∨ bitsOf v 20 12 = 0)
    | .NET_QUAL => decide (bitsOf v 0 20 < 100 ∨ 1000000 < bitsOf v 0 20)
    | _ => false
  if bad then s.setBit F.NET_PTP_STATUS_cfg_reject pkg true else s.plainWrite r pkg v

/-! ## The servo (R390, R391) -/

/-- PLANT_OFFSET moves by a step, or the slew is set, from an offset in ns (R390). -/
def State.steer (s : State) (o : Int) : State :=
  if !s.anyRunning && decide ((s.fld F.NET_SERVO_step_us pkg * 1000 : Int) < |o|) then
    let s := s.setReg64 .PLANT_OFFSET_LO .PLANT_OFFSET_HI pkg (s.plantOffset - BitVec.ofInt 64 (o * 64))
    { s with ptp := { s.ptp with sum := 0 } }
  else
    let ki : Int := s.fld F.NET_SERVO_GAIN_ki pkg
    let kp : Int := s.fld F.NET_SERVO_GAIN_kp pkg
    let mx : Int := s.fld F.NET_SERVO_max_ppb pkg
    let sum := s.ptp.sum + o
    let lim := mx * 1024 / ki
    let sum := if ki = 0 then sum else max (-lim) (min sum lim)
    let slew := Int.tdiv (-(o * kp + sum * ki)) 1024
    { s with ptp := { s.ptp with sum := sum } }.acceptSlew (max (-mx) (min slew mx))

/-- One update at a Sync on the slave port, with offset `o` in ns (R390, R391). -/
def State.servo (s : State) (o : Int) : State :=
  if !s.mgmtUp then s
  else if s.bit F.TIME_CTRL_servo_en pkg then
    let s := s.steer o
    let s := s.setReg .NET_OFFSET pkg (BitVec.ofInt 32 (sat32 o))
    let s := { s with ptp := { s.ptp with offs := (o :: s.ptp.offs).take 8, latest := o, lost := false } }
    let b : Int := s.fld F.NET_QUAL_bound_ns pkg
    if b < |o| then s.setUnqual 1
    else if s.ptp.offs.length = 8 ∧ s.ptp.offs.all (fun x => decide (2 * |x| ≤ b)) = true then s.clearUnqual 0
    else s
  else { s with ptp := { s.ptp with lost := false } }

/-- Plant time at a stamp minus an instant of the master in ns, in units of 2^-16 ns. -/
def State.sinceMaster (s : State) (t : Time) (ns : Int) : Int := dist (t + s.plantOffset) (BitVec.ofInt 64 (ns * 64)) * 1024

/-- A Sync is complete: its receive stamp, its master time, its corrections (R390). -/
def State.syncDone (s : State) (p : Nat) (rx : Time) (originNs corr : Int) : State :=
  let ms := s.sinceMaster rx originNs - corr
  let s := s.modPtp p (fun x => { x with ms := some ms, sync := none })
  s.servo (Int.fdiv (ms - (s.fld F.NET_PDELAY_delay_ns (pkg1 p) : Int) * 65536) 65536)

/-- The mean path delay of a port, in whole ns, from twice its value in units of 2^-16 ns. -/
def State.setDelay (s : State) (p : Nat) (twice : Int) : State :=
  s.setReg .NET_PDELAY (pkg1 p) (BitVec.ofInt 32 (max 0 (min (Int.fdiv twice 131072) 4294967295)))

/-! ## Messages received -/

/-- A PTP message that passes R381 on a port the instance uses, in the domain of the instance (R409; log entry 17). -/
def State.ptpRx (s : State) (p : Nat) (h : RxHdr) (raw : Time) (f : State → Time → State) : State :=
  s.receiveFrame p h raw fun s rx =>
    if h.ethertype = 0x88F7 ∧ s.ptpUses p = true ∧ h.domain = s.fld F.NET_PTP_CTRL_ptp_domain pkg then f s rx else s

/-- PTP_SYNC_RX. -/
def execPtpSyncRx (p : Nat) (h : RxHdr) (seq : Nat) (originNs corr : Int) (twoStep : Bool) (raw : Time) (s : State) :
    Host.Outcome State Fault Refusal :=
  .next (s.ptpRx p h raw fun s rx =>
    if s.portState p = 9 then
      let s := s.modPtp p (fun x => { x with lastSync := some rx })
      if twoStep then s.modPtp p (fun x => { x with sync := some (seq, rx, corr) }) else s.syncDone p rx originNs corr
    else s)

/-- PTP_FOLLOW_UP_RX. -/
def execPtpFollowUpRx (p : Nat) (h : RxHdr) (seq : Nat) (originNs corr : Int) (raw : Time) (s : State) :
    Host.Outcome State Fault Refusal :=
  .next (s.ptpRx p h raw fun s _ =>
    match (s.ptpPort p).sync with
    | some (q, rx, c) => if s.portState p = 9 ∧ q = seq then s.syncDone p rx originNs (c + corr) else s
    | none => s)

/-- The length of an untagged PTP frame with a body of `n` bytes: 14 of header, 4 of FCS, at least 64. -/
def ptpLen (n : Nat) : Nat := max 64 (n + 18)

/-- A PTP message enters its egress queue (R384), with a tag but for the peer delay messages (R382); none is sent while no management
pair is in control (R503). -/
def State.ptpSend (s : State) (p n : Nat) (peer : Bool) (b : TxBody) : State :=
  if s.bit F.NET_CTRL_en (pkg1 p) && s.mgmtUp then
    s.queueFrame p (s.fld F.NET_CTRL_ptp_queue (pkg1 p)) (ptpLen n)
      (s.cTag p (s.bit F.NET_CTRL_ptp_tag (pkg1 p) && !peer) (s.fld F.NET_CTRL_ptp_pcp (pkg1 p))) b
  else s

/-- PTP_DELAY_REQ_RX: a master answers it (end-to-end mechanism). -/
def execPtpDelayReqRx (p : Nat) (h : RxHdr) (m : PtpReq) (raw : Time) (s : State) : Host.Outcome State Fault Refusal :=
  .next (s.ptpRx p h raw fun s rx =>
    if s.portState p = 6 ∧ s.peerDelay = false then s.ptpSend p 54 false (.delayResp m.seq rx m.corr) else s)

/-- PTP_DELAY_RESP_RX: the answer to this port's Delay_Req gives the mean path delay: (t2 − t1 + t4 − t3) / 2. -/
def execPtpDelayRespRx (p : Nat) (h : RxHdr) (seq : Nat) (rxNs corr : Int) (raw : Time) (s : State) :
    Host.Outcome State Fault Refusal :=
  .next (s.ptpRx p h raw fun s _ =>
    let x := s.ptpPort p
    match x.req, x.ms with
    | some (q, t3), some ms =>
      if q = seq ∧ s.peerDelay = false then
        (s.modPtp p (fun x => { x with req := none })).setDelay p (ms - s.sinceMaster t3 rxNs - corr)
      else s
    | _, _ => s)

/-- PTP_PDELAY_REQ_RX: answered in every port state (peer-to-peer mechanism). -/
def execPtpPdelayReqRx (p : Nat) (h : RxHdr) (m : PtpReq) (raw : Time) (s : State) : Host.Outcome State Fault Refusal :=
  .next (s.ptpRx p h raw fun s rx => if s.peerDelay then s.ptpSend p 54 true (.pdelayResp m.seq rx m.corr) else s)

/-- PTP_PDELAY_RESP_RX: without twoStepFlag the turnaround is in its correction and the exchange is complete; else it waits for its
follow-up. -/
def execPtpPdelayRespRx (p : Nat) (h : RxHdr) (m : PtpReq) (rxNs : Int) (twoStep : Bool) (raw : Time) (s : State) :
    Host.Outcome State Fault Refusal :=
  .next (s.ptpRx p h raw fun s rx =>
    match (s.ptpPort p).req with
    | some (q, t1) =>
      if q = m.seq ∧ s.peerDelay = true then
        if twoStep = false then (s.modPtp p (fun x => { x with req := none })).setDelay p (dist rx t1 * 1024 - m.corr)
        else s.modPtp p (fun x => { x with resp := some (m.seq, rxNs, rx, m.corr) })
      else s
    | none => s)

/-- PTP_PDELAY_RESP_FOLLOW_UP_RX: (t4 − t1 − (t3 − t2)) / 2. -/
def execPtpPdelayRespFollowUpRx (p : Nat) (h : RxHdr) (seq : Nat) (txNs corr : Int) (raw : Time) (s : State) :
    Host.Outcome State Fault Refusal :=
  .next (s.ptpRx p h raw fun s _ =>
    let x := s.ptpPort p
    match x.req, x.resp with
    | some (q, t1), some (r, t2, t4, c) =>
      if q = seq ∧ r = seq ∧ s.peerDelay = true then
        (s.modPtp p (fun x => { x with req := none, resp := none })).setDelay p
          (dist t4 t1 * 1024 - (txNs - t2) * 65536 - c - corr)
      else s
    | _, _ => s)

/-- PTP_ANNOUNCE_RX: the message is noted and the algorithm runs. -/
def execPtpAnnounceRx (p : Nat) (h : RxHdr) (m : Announce) (raw : Time) (s : State) : Host.Outcome State Fault Refusal :=
  .next (s.ptpRx p h raw fun s rx => (s.modPtp p (fun x => { x with ann := some (m, rx) })).bmca)

/-- An interval after a request for `v`: -128 leaves it, 126 asks for the configured one (IEEE 802.1AS; log entry 17). -/
def askedLog (old : Option Int) (v : Int) : Option Int := if v = -128 then old else if v = 126 then none else some v

/-- PTP_SIGNALING_RX: a message interval request of profile 2 sets the intervals at which the port sends (R380, R389). -/
def execPtpSignalingRx (p : Nat) (h : RxHdr) (v : PtpIntervals) (raw : Time) (s : State) :
    Host.Outcome State Fault Refusal :=
  .next (s.ptpRx p h raw fun s _ =>
    if s.fld F.NET_PTP_CTRL_profile pkg = 2 then
      s.modPtp p (fun x => { x with
        logPd := askedLog x.logPd v.pd, logSync := askedLog x.logSync v.sync, logAnn := askedLog x.logAnn v.ann })
    else s)

/-! ## Messages sent and timeouts -/

/-- The next message of a port, with its sequence. -/
def State.ptpNew (s : State) (p n : Nat) (peer : Bool) (b : Nat → TxBody) : State :=
  let q := (s.ptpPort p).seq
  (s.modPtp p (fun x => { x with seq := (q + 1) % 65536 })).ptpSend p n peer (b q)

/-- 2^n seconds in picots. -/
def logPicots (n : Int) : Nat :=
  match n with
  | .ofNat k => 64000000000 * 2 ^ k
  | .negSucc k => 64000000000 / 2 ^ (k + 1)

/-- The configured sync interval in picots. -/
def State.syncInterval (s : State) : Nat := logPicots (logInt (s.fld F.NET_PTP_INTERVALS_log_sync pkg))

/-- The number of a message that is sent at intervals. -/
def ptpTxCode : PtpTx → Nat
  | .announce => 0
  | .sync => 1
  | .delayReq => 2
  | .pdelayReq => 3

/-- The interval at which a port sends a message: what a Signaling asked for, or the configured one; none where it asked for 127,
which stops the message. -/
def State.txInterval (s : State) (p : Nat) (m : PtpTx) : Option Nat :=
  let x := s.ptpPort p
  let (asked, f) := match m with
    | .announce => (x.logAnn, F.NET_PTP_INTERVALS_log_announce)
    | .sync => (x.logSync, F.NET_PTP_INTERVALS_log_sync)
    | .delayReq => (none, F.NET_PTP_INTERVALS_log_pdelay)
    | .pdelayReq => (x.logPd, F.NET_PTP_INTERVALS_log_pdelay)
  match asked with
  | some v => if v = 127 then none else some (logPicots v)
  | none => some (logPicots (logInt (s.fld f pkg)))

/-- At `g` the interval since a port last sent a message is over. -/
def State.txDue (s : State) (p : Nat) (m : PtpTx) (g : Time) : Bool :=
  match s.txInterval p m, nmGet? (s.ptpPort p).txAt (ptpTxCode m) with
  | none, _ => false
  | some _, none => true
  | some d, some t => upTo (t + picots d) g

/-- PTP_TX_INTERVAL: a message interval of a port ends and its message is sent, where the port's state has it. -/
def execPtpTxInterval (p : Nat) (m : PtpTx) (g : Time) (s : State) : Host.Outcome State Fault Refusal :=
  .next (if s.ptpUses p && s.dieActs p && s.txDue p m g then
      let s := (s.at g).modPtp p (fun x => { x with txAt := nmPut x.txAt (ptpTxCode m) g })
      match m with
      | .announce => if s.portState p = 6 then s.ptpNew p 64 false .announce else s
      | .sync => if s.portState p = 6 then s.ptpNew p 44 false .sync else s
      | .delayReq => if s.portState p = 9 ∧ s.peerDelay = false then s.ptpNew p 44 false .delayReq else s
      | .pdelayReq => if s.peerDelay then s.ptpNew p 54 true .pdelayReq else s
    else s)

/-- PTP_SYNC_TIMEOUT: no Sync for three intervals on the slave port, since it is SLAVE, is cause 2 (R391). -/
def execPtpSyncTimeout (g : Time) (s : State) : Host.Outcome State Fault Refusal :=
  .next (match s.ptpList.find? (fun p => s.portState p == 9) with
    | none => s
    | some p =>
      let x := s.ptpPort p
      let from_ := match x.lastSync, x.slaveSince with
        | some a, some b => some (later a b)
        | some a, none => some a
        | none, b => b
      match from_ with
      | some t =>
        if upTo (t + picots (3 * s.syncInterval)) g then { (s.at g) with ptp := { s.ptp with lost := true } }.unqualIf 2 else s
      | none => s)

/-- PTP_ANNOUNCE_TIMEOUT: no Announce on a port for announce_timeout intervals: what was heard there is void and the algorithm
runs. -/
def execPtpAnnounceTimeout (p : Nat) (g : Time) (s : State) : Host.Outcome State Fault Refusal :=
  .next (if s.ptpUses p then
      let span := s.fld F.NET_PTP_INTERVALS_announce_timeout pkg * logPicots (logInt (s.fld F.NET_PTP_INTERVALS_log_announce pkg))
      match (s.ptpPort p).ann with
      | none => (s.at g).bmca
      | some (_, t) => if upTo (t + picots span) g then ((s.at g).modPtp p (fun x => { x with ann := none })).bmca else s
    else s)

/-! ## Transmission (R383, R384, R386, R393) -/

/-- What the start of a frame means to the instance: event messages take their stamp; a two-step Sync or Pdelay_Resp is
followed up. -/
def State.txStamp (s : State) (p : Nat) (b : TxBody) (tx : Time) : State :=
  match b with
  | .sync q => if s.bit F.NET_PTP_CTRL_two_step pkg then s.ptpSend p 44 false (.followUp q tx) else s
  | .pdelayResp q _ c => if s.bit F.NET_PTP_CTRL_two_step pkg then s.ptpSend p 54 true (.pdelayRespFollowUp q tx c) else s
  | .delayReq q => s.modPtp p (fun x => { x with req := some (q, tx) })
  | .pdelayReq q => s.modPtp p (fun x => { x with req := some (q, tx), resp := none })
  | _ => s

/-- Plant time at a ground time as a PTP message carries it (R383): whole ns, and the rest in units of 2^-16 ns. -/
def State.ptpTime (s : State) (t : Time) : Nat × Int :=
  let x := (s.plantAt t).toNat
  (x / 64, (x % 64 : Nat) * 1024)

/-- The message that a PTP frame carries when it is sent with stamp `tx` (R383, R389). A response takes a receive time's rest off the
correction that it returns, and a one-step peer response returns its turnaround there (IEEE 1588; log entry 17). -/
def State.ptpOut (s : State) (b : TxBody) (tx : Time) : Option PtpOut :=
  let two := s.bit F.NET_PTP_CTRL_two_step pkg
  let mk (seq : Nat) (twoStep : Bool) (ns : Nat) (corr : Int) : Option PtpOut :=
    some { domain := s.fld F.NET_PTP_CTRL_ptp_domain pkg, seq, twoStep, ns, corr }
  match b with
  | .axis _ _ _ _ _ _ => none
  | .sync q => let (n, r) := s.ptpTime tx; if two then mk q true 0 0 else mk q false n r
  | .followUp q t => let (n, r) := s.ptpTime t; mk q false n r
  | .delayReq q => mk q false 0 0
  | .delayResp q t c => let (n, r) := s.ptpTime t; mk q false n (c - r)
  | .pdelayReq q => mk q false 0 0
  | .pdelayResp q t c =>
    let (n, r) := s.ptpTime t
    if two then mk q true n (-r) else mk q false 0 (c + dist tx t * 1024)
  | .pdelayRespFollowUp q t c => let (n, r) := s.ptpTime t; mk q false n (c + r)
  | .announce q => mk q false 0 0

/-- The `k` bytes of a number, most significant first. -/
def beBytes (v k : Nat) : List Byte := (leBytes v k).reverse

/-- The bytes of an address or a tag as they are sent (R381, R382): addresses byte 0 first, a C-tag with its PCP and VID. -/
def State.frameHead (s : State) (p : Nat) (f : TxFrame) (dst : BitVec 48) (ethertype : Nat) : List Byte :=
  leBytes dst.toNat 6 ++ leBytes (s.mac .NET_MAC_LO .NET_MAC_HI (pkg1 p)).toNat 6 ++
  (match f.tag with | some (pcp, vid) => beBytes 0x8100 2 ++ beBytes (pcp * 8192 + vid) 2 | none => []) ++ beBytes ethertype 2

/-- The bytes of an axis frame, its FCS apart (R395). -/
def State.axisBytes (s : State) (p : Nat) (f : TxFrame) : List Byte :=
  match f.body with
  | .axis e seq restart stampNs pos vel =>
    s.frameHead p f s.groupMac (s.fld F.LS_CTRL_ethertype pkg) ++
    [1, BitVec.ofNat 8 (s.fld F.LS_CTRL_domain pkg), BitVec.ofNat 8 (b2n restart + 2 * b2n s.unqualified), 0] ++
    beBytes (s.fld F.LS_NODE_node_id pkg * 4096 + s.fld F.AXP_CFG_axis_id (pkg1 e)) 4 ++ beBytes seq.toNat 4 ++
    beBytes (s.reg .LS_LINE_DIGEST pkg).toNat 4 ++ beBytes stampNs 8 ++ beBytes pos.toNat 8 ++ beBytes vel.toNat 8 ++
    List.replicate 6 0
  | _ => []

/-- FRAME_TX_START: the idle link starts the head frame of the highest queue whose gate lets it (R384, R386); its stamp is
that of its start-of-frame delimiter plus tx_lat; an axis frame carries UNQUALIFIED while the bit is set (R393). -/
def frameTxStart (s : State) (p : Nat) (g : Time) : State :=
  if s.portUp p && (s.net p).wire.isNone then
    let s := s.at g
    match s.nextTx p with
    | none => s
    | some f =>
      let tx := g + picots (s.fld F.NET_LAT_tx_lat (pkg1 p))
      let sent : TxSent := { frame := f, stamp := tx, ptp := s.ptpOut f.body tx, bytes := s.axisBytes p f }
      let s := s.modNet p (fun n => { n with frames := n.frames.erase f, wire := some (f, g + picots f.wireTime), last := some sent })
      s.txStamp p f.body tx
  else s

/-- FRAME_TX_START. -/
def execFrameTxStart (p : Nat) (g : Time) (s : State) : Host.Outcome State Fault Refusal := .next (frameTxStart s p g)

end Sys2Proof.Machine
end

