-- ==== Sys2Proof/Machine/Sched.lean ====
section
/-! DEFINITION. The pricking and the shuttles' choice: a step becomes ready, is dispatched, is cut off; timers fire; messages
arrive (R71 to R75, R79, R95, R96, R113, R141, R143, R160, R162, R185). -/

namespace Sys2Proof.Machine

/-- A step that is ready: nothing of it has run (R79). -/
def Step.ready (k : Task) (a : Act) : Step :=
  { act := a, tl := k.deadline a.t, reserve := k.reserve a.t, running := false, w := k.c, wbuf := [], extra := 0,
    effs := [], stitches := k.stitches, cmps := k.cmps, capts := k.capts, pkts := [], rps := k.rps, fullRecs := [],
    lates := [], cutOff := false, single := false, tested := false }

/-- A command queue holds an accepted TASK for task `t`, not yet executed, with an acceptance stamp at or before `x`. -/
def State.taskOwed (s : State) (t : Nat) (x : Time) : Bool :=
  s.cqs.any (fun e => e.2.accepted && e.2.status.isNone && bitsOf (e.2.entry.getD 1 0) 0 8 == 1 &&
    (e.2.entry.getD 2 0).toNat == t && upTo e.2.accept x)

/-- An activation of task `t` with T at or before `x` is still on its way: a message, or a host command (R73). No activation with
a later T is served before it. -/
def State.owedBefore (s : State) (t : Nat) (x : Time) : Bool :=
  s.msgs.any (fun m => m.dst == t && upTo m.stamp x) || s.taskOwed t x

/-- STEP_READY: at T + S, never earlier, the first pending activation of a task makes a step ready (R74, R79); nothing
happens while the task has a step, moves, or has no context, and while its timer stands before that activation or another
that comes before it is still on its way (R73). The first
activation of a new run that waited for the run before starts that run (R209). -/
def stepReady (s : State) (t : Nat) : State :=
  match s.task? t with
  | none => s
  | some k =>
    match k.pend with
    | [] => s
    | a :: rest =>
      let timerFirst := match k.timer with | some x => before x a.t | none => false
      if k.mayStep && k.step.isNone && k.held && k.mig.isNone && s.dieActs k.die && !timerFirst && !s.owedBefore t a.t then
        let s := s.at (a.t + picots (s.settle k))
        let s := if k.restarting && upTo k.startStamp a.t then s.beginRun t k else s
        s.modTask t (fun k => { k with step := some (Step.ready k a), pend := rest })
      else s

/-- STEP_READY. -/
def execStepReady (t : Nat) (s : State) : Host.Outcome State Fault Refusal := .next (stepReady s t)

/-- Step `a` of task `x` comes before step `b` of task `y`: earlier deadline, then lower rank (R95). -/
def deadlineFirst (x : Task) (a : Step) (y : Task) (b : Step) : Bool :=
  if a.tl = b.tl then x.rank < y.rank else before a.tl b.tl

/-- The ready step with the earliest deadline on a shuttle (R95). -/
def State.nextOn (s : State) (d slot : Nat) : Option (Nat × Task × Step) :=
  s.tasks.foldl (fun best e =>
    if e.2.die = d ∧ e.2.slot = slot ∧ e.2.held = true ∧ e.2.mig = none then
      match e.2.step with
      | some st =>
        if st.running || st.cutOff then best
        else match best with
          | none => some (e.1, e.2, st)
          | some (t, y, b) => if deadlineFirst e.2 st y b then some (e.1, e.2, st) else some (t, y, b)
      | none => best
    else best) none

/-- The activation comes sooner than its source's minimum interval after the previous served one (R75). -/
def Task.tooSoon (k : Task) (a : Act) : Bool :=
  match k.source? a.src a.slot with
  | none => false
  | some x =>
    match k.served.find? (fun e => e.1 == (a.src, x.slot)) with
    | none => false
    | some e => before a.t (e.2 + nsT x.minNs)

/-- What becomes of an activation that comes too soon (R75); `k` is the task without it. -/
def State.tooSoonAct (s : State) (t : Nat) (k : Task) (a : Act) : State :=
  if dropsEarly a.src then s.setTask t { k with dropped := k.dropped + 1 }
  else (s.setTask t k).taskFault t 0x0B k.c.pc 0 a.t false

/-- The list of latest served activations with one more (R75). -/
def Task.serve (k : Task) (a : Act) : List ((Nat × Nat) × Time) :=
  let key := match k.source? a.src a.slot with
    | some x => (a.src, x.slot)
    | none => (a.src, a.slot)
  (key, a.t) :: k.served.filter (fun e => e.1 != key)

/-- The activation descriptor that WAITE's rd receives (R162). -/
def Act.descriptor (a : Act) : Word :=
  BitVec.ofNat 32 (a.src + (a.slot % 1024) * 16 + (a.event % 64) * 2 ^ 14 + b2n a.edge * 2 ^ 20)

/-- The working copy with which a step starts (R111, R113, R162). -/
def Task.startCtx (k : Task) (a : Act) : Ctx :=
  match k.resume with
  | .entry => { k.c with pc := (match k.source? a.src a.slot with | some x => x.entry | none => 0) }
  | .afterWait pc => { k.c with pc := pc }
  | .afterWaite pc rd => { k.c with pc := pc }.wg rd a.descriptor

/-- STEP_DISPATCH: a healthy shuttle whose die acts starts the ready step of earliest deadline (R95). The interval test of
R75 is made here: too soon, the activation is dropped and counted, or the task faults with ACTIVATION_RATE. Ground time can
no longer be set (R68). -/
def stepDispatch (s : State) (d slot : Nat) : State :=
  if s.dieActs d && ((s.die d).slots.getD slot Slot.reset).healthy && s.dbg.halt.isNone then
    match s.nextOn d slot with
    | none => s
    | some (t, k, st) =>
      if !st.tested && k.tooSoon st.act then s.tooSoonAct t { k with step := none } st.act
      else
        let st' := { st with running := true, tested := true, w := k.startCtx st.act }
        let s := s.setBit F.TIME_STATUS_first_step_done pkg true
        s.setTask t { k with step := some st', served := k.serve st.act, lastT := st.act.t, lastTl := st.tl }
  else s

/-- STEP_DISPATCH. -/
def execStepDispatch (d slot : Nat) (s : State) : Host.Outcome State Fault Refusal := .next (stepDispatch s d slot)

/-- The first pending activation is cut off before a step of it has started (R79, R96, R141). It is served by that, so the test of
R75 is made (log entry 78); `keep` keeps a halted step. -/
def State.cutPending (s : State) (t : Nat) (k : Task) (a : Act) (keep : Bool) : State :=
  let s := s.at (k.cutoff a.t)
  let k := { k with pend := k.pend.tail }
  if k.tooSoon a then s.tooSoonAct t k a
  else
    let k := { k with served := k.serve a }
    (s.setTask t k).overrun t k a.t keep

/-- STEP_CUT_OFF: at T + L − R a step that has not committed is cut off (R79, R96). That of a halted context keeps its working copy
until the resume (R143); while it is halted, later activations are cut off as their windows pass (R141). One cut off before it is
dispatched is served by that (log entry 78). -/
def stepCutOff (s : State) (t : Nat) : State :=
  match s.task? t with
  | none => s
  | some k =>
    if !s.dieActs k.die then s
    else
      match k.step with
      | some st =>
        if st.cutOff then
          match k.pend with
          | [] => s
          | a :: _ => if s.owedBefore t a.t then s else s.cutPending t k a true
        else
          let s := s.at (k.cutoff st.act.t)
          if !st.tested && k.tooSoon st.act then s.tooSoonAct t { k with step := none } st.act
          else
            let k := if st.tested then k else { k with served := k.serve st.act }
            let s := s.setTask t k
            if s.haltedTask k then s.cutHalted t k st else s.overrun t k st.act.t false
      | none =>
        match k.pend with
        | [] => s
        | a :: _ => if k.mayStep && !s.owedBefore t a.t then s.cutPending t k a false else s

/-- STEP_CUT_OFF. -/
def execStepCutOff (t : Nat) (s : State) : Host.Outcome State Fault Refusal := .next (stepCutOff s t)

/-- TIMER_FIRE: at the time the task set, its timer becomes a pending activation (R71, R160); one
that a draining run set at or after its STOP goes (R209). -/
def timerFire (s : State) (t : Nat) : State :=
  match s.task? t with
  | none => s
  | some k =>
    match k.timer with
    | none => s
    | some x =>
      if s.dieActs k.die then
        let s := (s.at x).setTask t { k with timer := none }
        if k.restarting && (match k.stopAt with | some ts => upTo ts x | none => false) then s
        else s.activate t
          { t := x, src := 7, slot := 0, event := 0, edge := false, k1 := 0, k2 := 0, k3 := 0, payload := [] }
      else s

/-- TIMER_FIRE. -/
def execTimerFire (t : Nat) (s : State) : Host.Outcome State Fault Refusal := .next (timerFire s t)

/-- The handle slot of the in-port with a number (R162, R204). -/
def Task.inPort (k : Task) (p : Nat) : Option Nat := k.slotOf 9 p

/-- The message in the pricking of its destination, where it activates the step at its stamp (R185): an in-port that the task does
not declare activates nothing (R202), a task that is gone or faulted discards it (R491). -/
def State.takeMsg (s : State) (m : Msg) : State :=
  match s.task? m.dst with
  | none => s.bump F.FLT_ACT_DROP_dropped pkg
  | some k =>
    match k.inPort m.port with
    | none => s
    | some slot =>
      s.activate m.dst { t := m.stamp, src := 2, slot := slot, event := 0, edge := false, k1 := m.rank, k2 := m.seq,
                         k3 := m.idx, payload := m.payload }

/-- MESSAGE_DELIVER: the `i`-th message on its way reaches the pricking of its destination, before its stamp (R73, R185), and behind
all that the same die has sent to that die before it (R40). -/
def messageDeliver (s : State) (i : Nat) : State :=
  match s.msgs[i]? with
  | none => s
  | some m =>
    if s.mayArrive m.die (s.msgTo m) m.ord then { s with msgs := s.msgs.eraseIdx i }.takeMsg m else s

/-- MESSAGE_DELIVER. -/
def execMessageDeliver (i : Nat) (s : State) : Host.Outcome State Fault Refusal := .next (messageDeliver s i)

end Sys2Proof.Machine
end

