-- ==== Sys2Proof/Machine/Faults.lean ====
section
/-! DEFINITION. Faults of shuttles, dies, links, management and memory, and what follows them (R41 to R44, R51, R489 to R511,
R551, R568). -/

namespace Sys2Proof.Machine

/-! ## Stopping tasks (R491, R492, R506, R568) -/

/-- A task stops for a cause outside any step, with code `code` at `tD` (R492): it holds no context and no reservation any more;
one that is faulted already keeps its first code (R568). -/
def State.stopPlaced (s : State) (t code : Nat) (tD : Time) : State :=
  match s.task? t with
  | none => s
  | some k =>
    let s := if k.state = .faulted then s else s.taskFaultAt t code tD
    let s := if code = 0x21 then s.setBit F.FLT_STATUS_no_capacity pkg true else s
    s.modTask t (fun k => { k with held := false, mig := none, step := none, memHeld := k.memHeld && (s.die k.die).live })

/-- Essential tasks before deferrable ones, then ascending rank (R497, R500). -/
def displacedFirst (a b : Nat × Task) : Bool :=
  if a.2.deferrable = b.2.deferrable then a.2.rank < b.2.rank else !a.2.deferrable

/-- A list of tasks with one more in that order. -/
def displacedInsert (a : Nat × Task) : List (Nat × Task) → List (Nat × Task)
  | [] => [a]
  | b :: r => if displacedFirst a b then a :: b :: r else b :: displacedInsert a r

/-- The deferrable tasks that may be stopped to make room for a task: dies in the order of R211, highest rank first (R506). -/
def State.victims (s : State) (t : Nat) (k : Task) : List Nat :=
  (s.candidates k k.affinity).flatMap (fun d =>
    ((s.tasks.filter (fun e => e.1 != t && e.2.held && e.2.deferrable && e.2.die == d)).foldr displacedInsert []).reverse.map
      (fun e => e.1))

/-- An essential task with no place: deferrable tasks stop one at a time until it is admitted (R506). The place, if one is
found, and how many tasks stopped. -/
def State.makeRoom (s : State) (t : Nat) (k : Task) (tD : Time) : List Nat → Option Spot × Nat × State
  | [] => (none, 0, s)
  | v :: rest =>
    let s := s.stopPlaced v 0x21 tD
    match s.place t k k.affinity false with
    | .inl p => (some p, 1, s)
    | .inr _ =>
      let r := s.makeRoom t k tD rest
      (r.1, r.2.1 + 1, r.2.2)

/-- A task whose step starts again from its first instruction (R495, R497, R500); a cut-off one is gone. -/
def Task.replay (k : Task) : Task :=
  match k.step with
  | none => k
  | some st =>
    if st.cutOff then { k with step := none }
    else { k with step := some { Step.ready k st.act with tested := st.tested } }

/-- A displaced task takes a place found for it (R224, R497, R500). -/
def State.takePlace (s : State) (t : Nat) (k : Task) (p : Spot) (tD : Time) : State :=
  let s := s.copyTask k p.die p.codeBase p.dataBase p.tables
  let s := if p.die = k.die then s else s.bump F.PLC_MIG_COUNT_count pkg
  (s.settleAt t k p tD).modTask t Task.replay

/-- A displaced task is placed, on its own die first where `own`, or handled by R506, a halted one too (log entry 94). The number
placed, the number stopped. -/
def State.displace (s : State) (t : Nat) (own : Bool) (tD : Time) : Nat × Nat × State :=
  match s.task? t with
  | none => (0, 0, s)
  | some k =>
    let k := { k with held := false, mig := none }
    let s := s.setTask t k
    let first := if own then s.placeOn t k k.die false else .inr []
    match first with
    | .inl p => (1, 0, s.takePlace t k p tD)
    | .inr _ =>
      match s.place t k k.affinity false with
      | .inl p => (1, 0, s.takePlace t k p tD)
      | .inr _ =>
        if k.deferrable then (0, 1, s.stopPlaced t 0x21 tD)
        else
          let r := s.makeRoom t k tD (s.victims t k)
          match r.1 with
          | some p => (1, r.2.1, r.2.2.takePlace t k p tD)
          | none => (0, r.2.1 + 1, r.2.2.stopPlaced t 0x21 tD)

/-- Several displaced tasks, in the order of R497 and R500. -/
def State.displaceAll (s : State) (own : Bool) (tD : Time) (l : List (Nat × Task)) : Nat × Nat × State :=
  let r := (l.foldr displacedInsert []).foldl (fun (acc : Nat × Nat × State) e =>
    let r := acc.2.2.displace e.1 own tD
    (acc.1 + r.1, acc.2.1 + r.2.1, r.2.2)) (0, 0, s)
  (r.1, r.2.1, r.2.2.rotChecks)

/-! ## Shuttle faults (R493 to R497) -/

/-- The SHUTTLE_FAULT record (R490). -/
def State.shuttleRec (s : State) (d slot cause took placed stopped : Nat) (g : Time) : State :=
  s.faultRec d (0x0A10 + d) 0x39 g
    ([BitVec.ofNat 8 d, BitVec.ofNat 8 slot, BitVec.ofNat 8 cause, BitVec.ofNat 8 took] ++ leBytes placed 2 ++ leBytes stopped 2)

/-- The shuttle is out of service: its steps go back to their first instruction, the capability fields change (R495, 1 and 2),
and no move to or from it goes on. -/
def State.shuttleOut (s : State) (d slot cause : Nat) : State :=
  let s := s.modDie d (fun x => { x with slots := x.slots.set slot { x.slots.getD slot Slot.reset with healthy := false } })
  let s := { s with tasks := s.tasks.map (fun (e : Nat × Task) =>
    let from_ := e.2.held && e.2.die == d && e.2.slot == slot
    let to_ := match e.2.mig with | some m => m.die == d && m.slot == slot | none => false
    if from_ then (e.1, { e.2.replay with mig := none }) else if to_ then (e.1, { e.2 with mig := none }) else e) }
  let s := s.setReg .DIE_SHUTTLE_FAULT (dieIx d) (BitVec.ofNat 32 (slot + 8 * cause))
  (s.bump F.FLT_UNIT_COUNT_shuttle pkg).capUpdate

/-- A shuttle fault at `g` (R493, R495 to R497). With a spare, or in the moving phase of a rotation that it takes part in, its
contexts go to that shuttle once it has loaded them; else they are placed one at a time. A spare that is already to load the
contexts of another is none; if it fails, those contexts are placed with its own. -/
def State.shuttleFault (s : State) (d slot cause : Nat) (g : Time) : State :=
  let sp := s.spareOf d
  let v := s.vacating d
  let rf := (s.die d).rotFrom
  let owed := match (s.die d).replay with | some (bad, o) => if slot = o then some bad else none | none => none
  let mine := fun (s : State) =>
    s.tasks.filter (fun e => e.2.held && e.2.die == d && (e.2.slot == slot || owed == some e.2.slot))
  let dest := if slot ≠ sp ∧ sp ≠ 7 ∧ (s.die d).replay = none then some sp
    else if sp = 7 ∧ rf ≠ 7 ∧ slot = v then some rf
    else if sp = 7 ∧ rf ≠ 7 ∧ slot = rf then some v else none
  let s := (s.at g).shuttleOut d slot cause
  if slot = sp ∧ owed = none then
    (s.setReg .SHT_ROLE (dieIx d) (BitVec.ofNat 32 (7 + 7 * 256))).shuttleRec d slot cause 0xFF 0 0 g
  else
    let s := s.setReg .SHT_ROLE (dieIx d) (BitVec.ofNat 32 ((if slot = sp then 7 else sp) + 7 * 256))
    let s := s.modDie d (fun x => { x with rotFrom := 7 })
    match dest with
    | some o => (s.modDie d (fun x => { x with replay := some (slot, o) })).shuttleRec d slot cause o (mine s).length 0 g
    | none =>
      let s := s.modDie d (fun x => { x with replay := if owed.isSome then none else x.replay })
      let r := s.displaceAll true g (mine s)
      r.2.2.shuttleRec d slot cause 0xFF r.1 r.2.1 g

/-- A shuttle of a die that acts and is in service. -/
def State.slotUp (s : State) (d slot : Nat) : Bool := s.dieActs d && ((s.die d).slots.getD slot Slot.reset).healthy

/-- SHUTTLE_CHECK_FAIL: the check of an instruction fails (causes 1 to 3 of R493). -/
def execShuttleCheckFail (d slot cause : Nat) (g : Time) (s : State) : Host.Outcome State Fault Refusal :=
  .next (if s.slotUp d slot && 1 ≤ cause && cause ≤ 3 then s.shuttleFault d slot cause g else s)

/-- A context of the shuttle could issue: it has a step, not cut off, and is not halted. -/
def State.issues (s : State) (d slot : Nat) : Bool :=
  s.tasks.any (fun e => e.2.held && e.2.die == d && e.2.slot == slot && e.2.step.any (fun st => !st.cutOff) && !s.haltedTask e.2)

/-- ISSUE_WATCHDOG: a ready context that is not halted has issued nothing for 64 cycles (cause 4 of R493). -/
def execIssueWatchdog (d slot : Nat) (g : Time) (s : State) : Host.Outcome State Fault Refusal :=
  .next (if s.slotUp d slot && s.issues d slot then s.shuttleFault d slot 4 g else s)

/-- SHUTTLE_REPLAY_LOAD: the shuttle that takes the contexts has loaded their committed copies, each into the context of the same
number; it is no spare any more (R495, 4 to 6). -/
def execShuttleReplayLoad (d : Nat) (g : Time) (s : State) : Host.Outcome State Fault Refusal :=
  .next (match (s.die d).replay with
    | none => s
    | some (bad, o) =>
      if s.dieActs d then
        let s := (s.at g).modDie d (fun x => { x with replay := none })
        let s := { s with tasks := s.tasks.map (fun (e : Nat × Task) =>
          if e.2.held && e.2.die == d && e.2.slot == bad then (e.1, { e.2 with slot := o }) else e) }
        s.setReg .SHT_ROLE (dieIx d) (BitVec.ofNat 32 (7 + 7 * 256))
      else s)

/-- BIST_DONE: the spare's BIST ends: a pass starts to empty the oldest-tested shuttle, a failure is a shuttle fault with cause 5
(R225, R227). -/
def execBistDone (d : Nat) (pass : Bool) (g : Time) (s : State) : Host.Outcome State Fault Refusal :=
  .next (if s.rotPhase d = 1 ∧ s.dieActs d = true then
      if pass then (s.at g).bistPass d g
      else (s.bumpMod F.DIE_BIST_COUNT_failed (dieIx d)).shuttleFault d (s.spareOf d) 5 g
    else s)

/-! ## Die fence (R498 to R502) -/

/-- A cause of R498 arises on die `d`: on die 0 it is a package fault (R499, R504); elsewhere die 0 is about to learn of it. -/
def State.fenceCause (s : State) (d cause : Nat) : State :=
  if d = 0 then s.packageFault 1
  else s.fenceWire d cause

/-- CLOCK_LOSS: the RC monitor, armed from the lock of the PLL, sees the loss of REFCLK or the PLL; the die's clock stops and its
pins are released (R51, R257, R523). Which of the two it was, and so refclk_ok, is a free value (log entry 108). -/
def execClockLoss (d : Nat) (g : Time) (s : State) : Host.Outcome State Fault Refusal :=
  .next (if bitOf (s.reg .CLK_STATUS pkg) d && s.present d && !s.boot.inReset && (s.die d).clockLost.isNone then
      let s := (s.at g).modDie d (fun x => { x with clockLost := some g })
      let s := s.bump F.CLK_LOSS_COUNT_count pkg
      let r := s.fresh
      let m := 2 ^ d + (if r.1.getLsbD 0 then 2 ^ (8 + d) else 0)
      let s := r.2.setReg .CLK_STATUS pkg (r.2.reg .CLK_STATUS pkg &&& ~~~(BitVec.ofNat 32 m))
      s.fenceCause d 1
    else s)

/-- SYNC_LANE_LOSS_TIMEOUT: cause 2 (R43). -/
def execSyncLaneLossTimeout (d : Nat) (g : Time) (s : State) : Host.Outcome State Fault Refusal :=
  .next (if d ≠ 0 ∧ (s.die d).live = true then
      let s := s.at g
      let s := s.setReg .TIME_STATUS pkg (s.reg .TIME_STATUS pkg &&& ~~~(BitVec.ofNat 32 (2 ^ (8 + d))))
      s.fenceCause d 2
    else s)

/-- PRICKING_UNCORRECTABLE: cause 4. -/
def execPrickingUncorrectable (d : Nat) (g : Time) (s : State) : Host.Outcome State Fault Refusal :=
  .next (if (s.die d).live then (s.at g).fenceCause d 4 else s)

/-- HORIZON_REPORT_TIMEOUT: cause 5. -/
def execHorizonReportTimeout (d : Nat) (g : Time) (s : State) : Host.Outcome State Fault Refusal :=
  .next (if (s.die d).live then (s.at g).fenceCause d 5 else s)

/-- A record that die 0 writes itself, in its place among those that wait for the horizon. -/
def State.record0 (s : State) (r : Rec) : State :=
  { (s.numberRec 0).receive 0 [r] with prods := s.prods + 1 }

/-- The GAP records of a fenced die that lost records (R490, R501): one to the fault event queue and one to every enabled event
queue that has received a record of the die. -/
def State.gapRecs (s : State) (d : Nat) (known : Bool) : State :=
  let x := s.die d
  let got := BitVec.ofNat 32 x.received
  if x.outbox.isEmpty then s
  else
    let first := got + 1
    let last := if known then s.reg .DIE_ORIGIN_COUNT (dieIx d) else first
    let bytes := [BitVec.ofNat 8 d, BitVec.ofNat 8 (b2n known), 0, 0] ++ wordBytes first ++ wordBytes last
    let feq := s.fld F.EQ_ROUTE_fault_eq pkg
    let eqs := (feq :: x.eqSeen.filter (fun n => s.bit F.EQ_CFG_en (pkg1 n))).eraseDups
    let s := eqs.foldl (fun s n => s.record0
      { stamp := x.report.getD 0, src := 0x0A28 + d, o1 := s.prods, o2 := 0, o3 := 0, ty := 0x3B, payload := pay bytes,
        eq := n, die := 0 }) s
    (s.setBit F.FLT_STATUS_gap_written pkg true).modDie d (fun x => { x with outbox := [] })

/-- The offsets of the die health block (R514). -/
def healthRegs : List Reg :=
  [.DIE_HEALTH, .DIE_SHUTTLE_FAULT, .DIE_ECC_COUNT, .DIE_ECC_ADDR, .DIE_SCRUB_CFG, .DIE_SCRUB_STATUS, .DIE_BIST_COUNT,
   .DIE_TRIPCHK, .DIE_ORIGIN_COUNT, .DIE_RELEASE]

/-- DIE_HEALTH as the state gives it (R510, R514): bist_stopped and trip_path_fault; state_readable is 1 until a fence. -/
def State.healthWord (s : State) (d : Nat) (readable : Bool) : Word :=
  let stopped := (s.die d).live && ((s.die d).healthyCount != 5 || s.fld F.PLC_ROT_PERIOD_period_ms pkg == 0)
  BitVec.ofNat 32 (b2n stopped + 2 * b2n (s.fld F.DIE_TRIPCHK_failed (dieIx d) != 0) + 4 * b2n readable)

/-- The fence-time snapshot of the health block (R55), by register offset within the die window. -/
def State.healthSnapshot (s : State) (d : Nat) : List (Nat × Word) :=
  healthRegs.map (fun r => (r.info.off, if r = .DIE_HEALTH then s.healthWord d true else s.reg r (dieIx d)))

/-- State_readable of a snapshot becomes 0. -/
def unreadable (l : List (Nat × Word)) : List (Nat × Word) :=
  l.map (fun e => if e.1 = 0x900000 then (e.1, putBits e.2 2 1 0) else e)

/-- The tasks of a fence (R500): those that use the fenced die stop with UNIT_LOST, the rest of its own are rescued or stop with
STATE_LOST. The number rescued, the number stopped. -/
def State.fenceTasks (s : State) (d : Nat) (readable : Bool) (tF : Time) : Nat × Nat × State :=
  let lost := s.tasks.filter (fun e => e.2.usesDie (fun x => x == d))
  let s := lost.foldl (fun s e => s.stopPlaced e.1 0x20 tF) s
  let own := s.tasks.filter (fun e => e.2.held && e.2.die == d)
  let s := { s with tasks := s.tasks.map (fun (e : Nat × Task) =>
    match e.2.mig with | some m => if m.die = d then (e.1, { e.2 with mig := none }) else e | none => e) }
  if readable then
    let r := s.displaceAll false tF own
    (r.1, lost.length + r.2.1, r.2.2)
  else (0, lost.length + own.length, (own.foldl (fun s e => s.stopPlaced e.1 0x22 tF) s).rotChecks)

/-- The fence of die `d` with cause `cause` at `tF` is settled, now that it is known whether the state can be read (R498, R500,
R501): tasks, GAP and DIE_FENCE records. -/
def State.fenceSettle (s : State) (d cause : Nat) (tF : Time) (readable : Bool) : State :=
  let s := s.modDie d (fun x => { x with fenceOpen := none, snapshot := if readable then x.snapshot else unreadable x.snapshot })
  let s := s.gapRecs d readable
  let r := s.fenceTasks d readable tF
  let s := r.2.2
  s.record0 { stamp := tF, src := 0x0A20 + d, o1 := s.prods, o2 := 0, o3 := 0, ty := 0x3A,
              payload := pay ([BitVec.ofNat 8 d, BitVec.ofNat 8 cause] ++ leBytes r.1 2 ++ leBytes r.2.1 2 ++
                timeBytes ((s.die d).report.getD 0)), eq := s.fld F.EQ_ROUTE_fault_eq pkg, die := 0 }

/-- The MGMT record (R490, R503, R505). -/
def State.mgmtRec (s : State) (kind cause : Nat) (g : Time) : State :=
  s.faultRec 0 0x0A30 0x3C g [BitVec.ofNat 8 kind, BitVec.ofNat 8 cause]

/-- A fence of die 1 takes the management pair there (R503, R505): the standby is lost, or the pair in control fails. -/
def State.fenceMgmt (s : State) (d : Nat) (g : Time) : State :=
  if d ≠ 1 then s
  else if s.boot.takeover || !s.boot.pair0 then s.packageFault 2
  else if s.boot.pair1Ok then ({ s with boot := { s.boot with pair1Ok := false } }).mgmtRec 1 4 g
  else s

/-- A live die other than 0 that has no link in service is fenced (R42). -/
def State.fenceCutOff (s : State) : State :=
  s.dieList.foldl (fun s d => if d ≠ 0 ∧ (s.die d).live = true ∧ (s.die d).links.any id = false then s.fenceWire d 3 else s) s

/-- The links of a fenced die leave service with it (R62; log entry 88). -/
def State.dropLinks (s : State) (d : Nat) : State := (List.range 4).foldl (fun s k => s.dropLink d k) s

/-- DIE_FENCE: die 0 learns of a cause of R498 at tF (R499): the die is no longer live, its snapshot is taken, the capability
fields change in one update with its links, and its tasks and records are handled, with cause 1 once it is known whether the
clock came back in time. -/
def dieFence (s : State) (d : Nat) (g : Time) : State :=
  match (s.die d).fenceDue with
  | none => s
  | some cause =>
    let s := s.at g
    let snap := s.healthSnapshot d
    let s := s.modDie d (fun x => { x with live := false, fenced := true, fenceDue := none, fenceOpen := some (cause, g),
                                           snapshot := snap })
    let s := (s.dropLinks d).fenceCutOff
    let s := s.setFld ⟨.FLT_FENCE_CAUSE, 4 * d, 4⟩ pkg cause
    let s := (s.fenceMgmt d g).capUpdate
    let s := if d = 1 then s.bmca else s
    if cause = 1 ∧ (s.die d).clockBack = false then s
    else s.fenceSettle d cause g (cause != 3)

/-- DIE_FENCE. -/
def execDieFence (d : Nat) (g : Time) (s : State) : Host.Outcome State Fault Refusal := .next (dieFence s d g)

/-- 10 µs. -/
def us10 : Time := nsT 10000

/-- CLOCK_RETURN: a lost clock comes back; within 10 µs the state of the fenced die can be read (R498). -/
def clockReturn (s : State) (d : Nat) (g : Time) : State :=
  match (s.die d).clockLost with
  | none => s
  | some t =>
    let s := s.at g
    let inTime := upTo g (t + us10)
    let s := s.modDie d (fun x => { x with clockBack := x.clockBack || inTime })
    let s := s.setReg .CLK_STATUS pkg (s.reg .CLK_STATUS pkg ||| BitVec.ofNat 32 (2 ^ d + 2 ^ (8 + d)))
    match (s.die d).fenceOpen with
    | some (cause, tF) => s.fenceSettle d cause tF inTime
    | none => s

/-- CLOCK_RETURN. -/
def execClockReturn (d : Nat) (g : Time) (s : State) : Host.Outcome State Fault Refusal := .next (clockReturn s d g)

/-- Fences whose clock has been away for more than 10 µs at `g` are settled: the state cannot be read (R498). -/
def State.fencesOverdue (s : State) (g : Time) : State :=
  s.dieList.foldl (fun s d =>
    match (s.die d).fenceOpen, (s.die d).clockLost with
    | some (cause, tF), some t => if before (t + us10) g then s.fenceSettle d cause tF false else s
    | _, _ => s) s

/-- HORIZON_REPORT. -/
def execHorizonReport (d : Nat) (g : Time) (s : State) : Host.Outcome State Fault Refusal :=
  .next (horizonReport (s.fencesOverdue g) d g)

/-! ## Ground links (R41, R42) -/

/-- LINK_RETRANSMIT: a retransmission that succeeds is a corrected fault. -/
def execLinkRetransmit (d k : Nat) (s : State) : Host.Outcome State Fault Refusal :=
  .next (if (s.die d).live && (s.die d).links.getD k false then s.bump F.FLT_CORR_COUNT_0_link pkg else s)

/-- A link leaves service. Where a die other than 0 has lost its last one, the update of the capability fields is left to the
fence, which changes them once (R62). -/
def State.linkLost (s : State) (d k : Nat) : State :=
  let s := (s.dropLink d k).fenceCutOff
  let s := if s.dieList.any (fun e => e != 0 && (s.die e).live && !(s.die e).links.any id) then s else s.capUpdate
  if (s.die 0).live && !(s.die 0).links.any id then s.fenceCause 0 3 else s

/-- LINK_OUT_OF_SERVICE: a link failed 16 retransmissions in a row; traffic takes the others. A die with no link left is fenced
with cause 3 (R42). The link leaves at both its ends (R41; log entry 88). -/
def execLinkOutOfService (d k : Nat) (g : Time) (s : State) : Host.Outcome State Fault Refusal :=
  .next (if (s.die d).live && (s.die d).links.getD k false then
      let s := (s.at g).bump F.FLT_UNIT_COUNT_other pkg
      (s.faultRec d (0x0A40 + d) 0x3E g [BitVec.ofNat 8 d, BitVec.ofNat 8 k]).linkLost d k
    else s)

/-! ## Management (R503, R505) -/

/-- The active management pair fails with a cause of R503: with a standby ready the takeover begins, else it is a package fault
(R504). -/
def State.mgmtFails (s : State) (cause : Nat) : State :=
  if s.boot.pair0 && !s.boot.takeover && s.boot.pair1Ok then
    { s with boot := { s.boot with pair0 := false, failCause := cause } }
  else if s.boot.pair0 || s.boot.takeover then s.packageFault 2
  else s

/-- MGMT_FAILURE (R503). -/
def execMgmtFailure (cause : Nat) (g : Time) (s : State) : Host.Outcome State Fault Refusal :=
  .next (if 1 ≤ cause ∧ cause ≤ 4 then (s.at g).mgmtFails cause else s)

/-- MGMT_WATCHDOG_EXPIRY: cause 2 of R503. -/
def execMgmtWatchdogExpiry (g : Time) (s : State) : Host.Outcome State Fault Refusal := .next ((s.at g).mgmtFails 2)

/-- MGMT_TAKEOVER_DONE: the standby pair has taken control; MGMT_ROLE says so in one update and a MGMT record of kind 0 is written
(R503). -/
def execMgmtTakeoverDone (g : Time) (s : State) : Host.Outcome State Fault Refusal :=
  .next (if !s.boot.pair0 && !s.boot.takeover && s.boot.pair1Ok && (s.die 1).live then
      let s := { s.at g with boot := { s.boot with takeover := true } }
      s.capUpdate.mgmtRec 0 s.boot.failCause g
    else s)

/-- STANDBY_LOST: the standby pair fails while the pair on die 0 is in control (R505). Which of the causes 1 to 3 of R503 it was
is a free value (log entry 6). -/
def execStandbyLost (g : Time) (s : State) : Host.Outcome State Fault Refusal :=
  .next (if s.boot.pair0 && !s.boot.takeover && s.boot.pair1Ok then
      let r := (s.at g).fresh
      let s := { r.2 with boot := { s.boot with pair1Ok := false } }
      s.capUpdate.mgmtRec 1 (1 + r.1.toNat % 3) g
    else s)

/-! ## Memory errors (R489, R511) -/

/-- Does byte offset `off` lie in a range? -/
def inRange (off : Nat) (r : Nat × Nat) : Bool := r.1 ≤ off && off < r.1 + r.2

/-- The tasks whose code, private segment or table copy on die `d` holds byte `off` (R511). -/
def State.tasksAt (s : State) (d off : Nat) : List Nat :=
  (s.tasks.filter (fun e => e.2.memHeld && e.2.die == d &&
    (inRange off (4 * e.2.codeBase, 4 * e.2.codeWords) || inRange off (e.2.dataBase, e.2.dataBytes) ||
      e.2.tables.any (fun x => inRange off (x.off, x.len))))).map (fun e => e.1)

/-- The bound queue of die `d` whose ring holds byte `off`. -/
def State.queueAt (s : State) (d off : Nat) : Option Nat :=
  (s.ques.find? (fun e => e.1 / 256 == d && e.2.bound && inRange off (e.2.base, 4 * e.2.cap))).map (fun e => e.1)

/-- An uncorrectable word found at `g` (R511): the tasks that hold it fault, a queue is reset, a free word becomes 0. -/
def State.badFound (s : State) (d off : Nat) (g : Time) : State :=
  let w := off / 4 * 4
  let ts := s.tasksAt d w
  if ts ≠ [] then
    let s := { s with ecc := (dieAddr d w :: s.ecc).eraseDups }
    ts.foldl (fun s t => match s.task? t with
      | some k => if k.state = .faulted then s else s.taskFaultAt t 0x06 g
      | none => s) s
  else
    match s.queueAt d w with
    | some q => { s with ecc := (dieAddr d w :: s.ecc).eraseDups }.queResetAll q g
    | none => (s.writeDieWord d w 0).bump F.DIE_SCRUB_STATUS_zeroed (dieIx d)

/-- SCRUB_UNCORRECTABLE: the scrubber finds an uncorrectable word, of die memory or of the context shadow of a task (R492, R511). -/
def execScrubUncorrectable (d off : Nat) (shadowOf : Option Nat) (g : Time) (s : State) : Host.Outcome State Fault Refusal :=
  .next (if s.dieActs d && off < 0x400000 then
      let s := (s.at g).sawBad d off shadowOf.isSome
      match shadowOf with
      | some t =>
        (match s.task? t with
         | some k => if k.held && k.die == d && k.state != .faulted then s.taskFaultAt t 0x06 g else s
         | none => s)
      | none => s.badFound d off g
    else s)

/-- SCRUB_CORRECTED_WORD: a single-bit error is corrected; the value that the word holds, or that a commit writes in that cycle,
stands (R511). -/
def execScrubCorrectedWord (d off : Nat) (committing : Bool) (s : State) : Host.Outcome State Fault Refusal :=
  .next (let _ := committing
    if s.dieActs d && off < 0x400000 then
      let s := { s with weak := s.weak.filter (fun w => w != dieAddr d (off / 4 * 4)) }
      (s.bump F.DIE_ECC_COUNT_corrected (dieIx d)).bump F.FLT_CORR_COUNT_0_ecc pkg
    else s)

/-- PCIE_CORRECTABLE_ERROR (R489). -/
def execPcieCorrectableError (s : State) : Host.Outcome State Fault Refusal := .next (s.bump F.FLT_CORR_COUNT_1_pcie pkg)

/-! ## Channel banks (R551) -/

/-- CHANNEL_BANK_OUT_OF_RANGE: the bit of PWR_STATUS clears; every driven pin of a timing bank of a live die fails its pad
readback. -/
def execChannelBankOutOfRange (d : Nat) (timing : Bool) (g : Time) (s : State) : Host.Outcome State Fault Refusal :=
  .next (if s.present d then
      let s := s.at g
      let b := (if timing then 8 else 16) + d
      let s := s.setReg .PWR_STATUS pkg (s.reg .PWR_STATUS pkg &&& ~~~(BitVec.ofNat 32 (2 ^ b)))
      if timing && (s.die d).live then
        (List.range 64).foldl (fun s i => if s.pinDriven (64 * d + i) then s.pinFault (64 * d + i) 3 0 g else s) s
      else s
    else s)

end Sys2Proof.Machine
end

