-- ==== Sys2Proof/Machine/MsgInstr.lean ====
section
/-! DEFINITION. SEND and RECV (R184 to R186), EVNT and RING (R194, R195) and CAMH (R196, R197). -/

namespace Sys2Proof.Machine

/-- The causes that concern a payload of `n` bytes at address `a` of the private segment, word-aligned (R156). -/
def payFaults (k : Task) (a n : Nat) : List (Option Nat) :=
  [failIf (k.privOff a n).isNone 0x02, failIf (a % 4 != 0) 0x03]

/-- The number of payload words that SEND checks (R185): min(gb, 8), at least one. -/
def sendWords (n : Word) : Nat := max 1 (min n.toNat 8)

/-- The effect of a SEND through a handle: a message, or an axis sample of exactly 4 words (R185). -/
def sendKind (r : Res) (h : Handle) (ws : List Word) : Option EffKind :=
  if hKind h = 8 then some (.send r.a r.b ws)
  else match ws with
    | [p0, p1, v0, v1] => some (.sample r.a (joinHalves p1 p0) (joinHalves v1 v0))
    | _ => none

/-- The lengths that SEND accepts (R185). -/
def sendLenOk (h : Handle) (n : Word) : Bool :=
  if hKind h = 8 then decide (1 ≤ n.toNat ∧ n.toNat ≤ 8) else n == 4

/-- SEND. -/
def bodySend (t : Nat) (ts : TReg) (ga gb : GReg) (h : Handle) : Body := fun s k st =>
  let a := (st.w.rg ga).toNat
  let n := sendWords (st.w.rg gb)
  let r := k.handle [7, 8] h
  guardMem s k.die (k.privOffs st a n) (payFaults k a (4 * n) ++ [failIf (s.privBads k st a n) 0x06, st.effFault (st.rt ts),
      failIf r.isNone 0x0D, failIf (!sendLenOk h (st.w.rg gb)) 0x11]) fun s =>
    match r with
    | none => .trap s 0x0D 0
    | some r =>
      match sendKind r h (s.privWords k st a n) with
      | none => .trap s 0x11 0
      | some e => .go s (st.addEff t k (st.rt ts) e)

/-- A handle of RECV names the host command port: slot 1,023, or a record that names it (R151). -/
def isHostPort (k : Task) (h : Handle) : Bool :=
  hKind h == 9 && (hSlot h == 1023 || (match k.resAt 9 (hSlot h) with | some r => r.a == 1023 | none => false))

/-- What RECV finds: the payload of the step's activation, if it came on the port of the handle (R186). -/
def recvPayload (k : Task) (st : Step) (h : Handle) : Option (List Word) :=
  if isHostPort k h then (if st.act.src = 1 then some (st.act.payload.take 8) else none)
  else if st.act.src = 2 then
    match k.resAt 9 (hSlot h), k.resAt 9 st.act.slot with
    | some r, some q => if r.a = q.a then some (st.act.payload.take 8) else none
    | _, _ => none
  else none

/-- RECV: the area of 8 words at ga is checked in every case (log entry 11). -/
def bodyRecv (rd ga : GReg) (h : Handle) : Body := fun s k st =>
  let a := (st.w.rg ga).toNat
  let p := recvPayload k st h
  let n := (p.getD []).length
  guardAll s (payFaults k a 32 ++ [failIf (st.storeLimit ((List.range n).map (fun i => a / 4 + i))) 0x07,
      failIf (!isHostPort k h && (k.handle [9] h).isNone) 0x0D]) fun _ =>
    match p with
    | some ws => goRd s (st.putWords (a / 4) ws) rd (BitVec.ofNat 32 ws.length) ⟨false, false, false, false⟩
    | none => goRd s st rd 0 ⟨true, false, false, false⟩

/-- Bytes of the private segment as the step sees them, from a word-aligned offset. -/
def State.privBytes (s : State) (k : Task) (st : Step) (o n : Nat) : List Byte :=
  (((s.privWords k st o ((n + 3) / 4)).map wordBytes).flatten).take n

/-- EVNT. -/
def bodyEvnt (t : Nat) (ga gb : GReg) (h : Handle) : Body := fun s k st =>
  let a := (st.w.rg ga).toNat
  let ty := (st.w.rg gb).toNat
  let r := k.handle [12] h
  guardMem s k.die (k.privOffs st a 4) (payFaults k a 15 ++ [failIf (s.privBads k st a 4) 0x06, st.effFault st.tl,
      failIf r.isNone 0x0D, failIf (decide (ty < 0x80 ∨ 0xFF < ty)) 0x11]) fun s =>
    match r with
    | none => .trap s 0x0D 0
    | some r => .go s (st.addEff t k st.tl (.event r.a r.b ty (s.privBytes k st a 15)))

/-- RING. -/
def bodyRing (t : Nat) (h : Handle) : Body := fun s k st =>
  let r := k.handle [13] h
  guardAll s [st.effFault st.tl, failIf r.isNone 0x0D] fun _ =>
    match r with
    | none => .trap s 0x0D 0
    | some r => .go s (st.addEff t k st.tl (.ring r.a))

/-! ## CAMH -/

/-- Word at byte `o` of a table copy. -/
def State.tableWord (s : State) (k : Task) (x : Table) (o : Nat) : Word := memWord s.dieMem (dieAddr k.die (x.off + o))

/-- The segment count exponent of a valid profile header at offset `o` (R196); none is BAD_TABLE. -/
def State.camShift (s : State) (k : Task) (x : Table) (o : Nat) : Option Nat :=
  if x.len < o + 8 then none
  else
    let w0 := s.tableWord k x o
    let sh := bitsOf w0 8 4
    if bitsOf w0 0 8 = 1 ∧ 1 ≤ sh ∧ sh ≤ 12 ∧ bitsOf w0 12 20 = 0 ∧ s.tableWord k x (o + 4) = 0 ∧
       o + 8 + 8 * (2 ^ sh + 1) ≤ x.len then some sh
    else none

/-- The cubic of R197 in exact integers: 2 × 65536³ × y + 65536³, floored over 2 × 65536³. -/
def camEval (p0 m0 p1 m1 : Int) (u : Nat) : Int :=
  let x : Int := u
  let d : Int := 65536
  let h00 := 2 * x ^ 3 - 3 * x ^ 2 * d + d ^ 3
  let h10 := x ^ 3 - 2 * x ^ 2 * d + x * d ^ 2
  let h01 := -2 * x ^ 3 + 3 * x ^ 2 * d
  let h11 := x ^ 3 - x ^ 2 * d
  (2 * (h00 * p0 + h10 * m0 + h01 * p1 + h11 * m1) + d ^ 3) / (2 * d ^ 3)

/-- The value of a profile before saturation (R197). -/
def State.camValue (s : State) (k : Task) (x : Table) (o sh : Nat) (ga : Word) : Int :=
  let seg := (ga >>> (32 - sh)).toNat
  let u := ((ga <<< sh) >>> 16).toNat
  let b := o + 8 + 8 * seg
  camEval (s.tableWord k x b).toInt (s.tableWord k x (b + 4)).toInt (s.tableWord k x (b + 8)).toInt
    (s.tableWord k x (b + 12)).toInt u

/-- The byte offsets on the die of the words that CAMH reads: the two of the header, where the table holds them, and with a
valid header the two points of the segment (R196, R197). -/
def State.camOffs (s : State) (k : Task) (x : Table) (o : Nat) (ga : Word) : List Nat :=
  (if x.len < o + 8 then []
   else match s.camShift k x o with
     | none => [o, o + 4]
     | some sh =>
       let b := o + 8 + 8 * (ga >>> (32 - sh)).toNat
       [o, o + 4, b, b + 4, b + 8, b + 12]).map (fun w => x.off + w)

/-- A word of a profile that CAMH reads has an uncorrectable error (R120). -/
def State.camBad (s : State) (k : Task) (x : Table) (o : Nat) (ga : Word) : Bool :=
  (s.camOffs k x o ga).any (fun w => s.badWord (dieAddr k.die w))

/-- CAMH: Z N from rd; C = 0; V = saturated. The lowest code is raised (R129). -/
def bodyCamh (rd ga gb : GReg) (h : Handle) : Body := fun s k st =>
  match (k.handle [14] h).bind (fun r => k.tables.find? (fun x => x.k == r.a)) with
  | none => .trap s 0x0D 0
  | some x =>
    let o := (st.w.rg gb).toNat
    if o % 8 ≠ 0 then .trap s 0x11 0
    else
      guardMem s k.die (s.camOffs k x o (st.w.rg ga)) [failIf (s.camBad k x o (st.w.rg ga)) 0x06,
          failIf (s.camShift k x o).isNone 0x14] fun s =>
        let r := s.camValue k x o ((s.camShift k x o).getD 0) (st.w.rg ga)
        let v := BitVec.ofInt 32 (sat32 r)
        goRd s st rd v (flagsSat v (outside32 r))

/-- SEND (R184). -/
def execSend (t : Nat) (ts : TReg) (ga gb : GReg) (h : Handle) (s : State) : Host.Outcome State Fault Refusal :=
  .next (s.issue t (.send t ts ga gb h) (bodySend t ts ga gb h))

/-- RECV (R184). -/
def execRecv (t : Nat) (rd ga : GReg) (h : Handle) (s : State) : Host.Outcome State Fault Refusal :=
  .next (s.issue t (.recv t rd ga h) (bodyRecv rd ga h))

/-- EVNT (R194). -/
def execEvnt (t : Nat) (ga gb : GReg) (h : Handle) (s : State) : Host.Outcome State Fault Refusal :=
  .next (s.issue t (.evnt t ga gb h) (bodyEvnt t ga gb h))

/-- RING (R195). -/
def execRing (t : Nat) (h : Handle) (s : State) : Host.Outcome State Fault Refusal :=
  .next (s.issue t (.ring t h) (bodyRing t h))

/-- CAMH (R196). -/
def execCamh (t : Nat) (rd ga gb : GReg) (h : Handle) (s : State) : Host.Outcome State Fault Refusal :=
  .next (s.issue t (.camh t rd ga gb h) (bodyCamh rd ga gb h))

end Sys2Proof.Machine
end

