-- ==== Sys2Proof/Machine/HoopInstr.lean ====
section
/-! DEFINITION. HOOPRD, HEVT and HCAN (R179 to R183, R361, R362). -/

namespace Sys2Proof.Machine

/-- The subscription that the angle of a hoop is read from as of T: src 3, unless R365 extrapolates the points (R361, R405). -/
def State.hoopAxis (s : State) (h : Nat) (t : Time) : Option Nat :=
  if s.hoopSrc h = 3 ∧ (s.hoop h).stAt t ≠ 6 then some (s.fld F.HOOP_SRC_index (hoopIx h) % 256) else none

/-- A read of a hoop as of T needs an entry that is gone (R83): of the three latest points as of T the oldest lies beyond the
16 kept (R362), or the angle is read from a feedback interface or a subscription whose entry is gone (R361). -/
def State.hoopLost (s : State) (h : Nat) (t : Time) : Bool :=
  let x := s.hoop h
  (match x.ptAt t with
  | some (i, _) => decide (16 ≤ i + min 2 (x.pts.length - 1 - i))
  | none => false) ||
  (s.hoopSrc h == 2 && s.fbLost (8 * (h / 4) + s.fld F.HOOP_SRC_index (hoopIx h) % 8) t) ||
  (match s.hoopAxis h t with | some e => (s.axsRead e t).lost | none => false)

/-- The step with the missed stamps of a HOOPRD whose angle is a LATE read of a subscription (R405, R406). -/
def Step.hoopLate (st : Step) (s : State) (h sel : Nat) : Step :=
  match s.hoopAxis h st.act.t with
  | some e => if sel < 2 then st.noteLate s e else st
  | none => st

/-- The value of a HOOPRD selector as of T (R180, R355, R361); none where no rule gives one. -/
def State.hoopValue (s : State) (h sel : Nat) (t : Time) : Option Word :=
  let x := s.hoop h
  match sel with
  | 0 => (s.accAt h t).map (fun a => s.hoopAngle h a)
  | 1 => (s.accAt h t).map (fun a => BitVec.ofInt 32 (Int.fdiv a (2 ^ 32)))
  | 2 => ((x.ptAt t).bind (fun p => p.2.per)).map (fun d => BitVec.ofNat 32 (min (Int.fdiv d 64).toNat 0xFFFFFFFF))
  | _ => some (BitVec.ofNat 32 (x.stAt t))

/-- HOOPRD: the hoop as of T (R180, R362); a value that no rule gives is a free value (log entry 6). -/
def bodyHooprd (rd ga : GReg) (h : Handle) : Body := fun s k st =>
  let sel := (st.w.rg ga).toNat
  match k.handle [5] h with
  | none => .trap s 0x0D 0
  | some r =>
    let t := st.act.t
    if 3 < sel then .trap s 0x11 0
    else if s.hoopLost r.a t then .trap s 0x0A (unitWord 5 r.a)
    else
      let (v, s) := match s.hoopValue r.a sel t with
        | some v => (v, s)
        | none => s.fresh
      let x := s.hoop r.a
      let code := x.stAt t
      let synth := match x.ptAt t with | some p => p.2.synth | none => false
      goRd s (st.hoopLate s r.a sel) rd v ⟨v == 0, v.msb, code != 2 && code != 6, synth⟩

/-- The descriptor of HEVT, if valid (R181); its target pin is looked at apart. -/
def hevtDesc (ws : List Word) : Option (HoopDesc × Option Nat) :=
  match ws with
  | [a, b, c, d] =>
    let limit := bitsOf d 0 16
    if a = b ∨ bitOf c 3 = true ∨ bitsOf c 14 18 ≠ 0 ∨ bitsOf d 16 16 ≠ 0 ∨ (bitOf c 1 = true ∧ limit = 0) then none
    else
      let slot := if bitOf c 0 then none else some (bitsOf c 4 10)
      some ({ start := a, stop := b, pin := none, hold := bitOf c 1, level := bitOf c 2, limitUs := limit }, slot)
  | _ => none

/-- HEVT: sets an angle event from T + L (R179, R181). -/
def bodyHevt (t : Nat) (ga gb : GReg) (h : Handle) : Body := fun s k st =>
  let a := (st.w.rg ga).toNat
  let slot := (st.w.rg gb).toNat
  let r := k.handle [5] h
  let d := hevtDesc (s.privWords k st a 4)
  let target := match d with
    | some (_, some p) => ((k.resAt 1 p).filter (fun q => q.flag && some q.c == r.map (fun r => r.a))).map (fun q => q.a)
    | _ => none
  let wantsPin := match d with | some (_, some _) => true | _ => false
  guardMem s k.die (k.privOffs st a 4) [failIf (k.privOff a 16).isNone 0x02, failIf (a % 8 != 0) 0x03,
      failIf (s.privBads k st a 4) 0x06, failIf (decide (128 ≤ st.effs.length)) 0x08, failIf r.isNone 0x0D,
      failIf (wantsPin && target.isNone) 0x0D, failIf (d.isNone || decide (63 < slot)) 0x11] fun s =>
    match r, d with
    | some r, some (d, _) =>
      .go s (st.addEff t k st.tl (.hevt r.a slot { d with pin := target } (hSlot h)))
    | _, _ => .trap s 0x11 0

/-- HCAN: cancels an event, or all the task holds, from T + L (R179, R366). -/
def bodyHcan (t : Nat) (ga : GReg) (h : Handle) : Body := fun s k st =>
  let v := (st.w.rg ga).toNat
  let r := k.handle [5] h
  guardAll s [failIf (decide (128 ≤ st.effs.length)) 0x08, failIf r.isNone 0x0D,
      failIf (decide (63 < v) && v != 0xFFFFFFFF) 0x11] fun _ =>
    match r with
    | some r => .go s (st.addEff t k st.tl (.hcan r.a (if v = 0xFFFFFFFF then none else some v)))
    | none => .trap s 0x0D 0

/-- HOOPRD (R179). -/
def execHooprd (t : Nat) (rd ga : GReg) (h : Handle) (s : State) : Host.Outcome State Fault Refusal :=
  .next (s.issue t (.hooprd t rd ga h) (bodyHooprd rd ga h))

/-- HEVT (R179). -/
def execHevt (t : Nat) (ga gb : GReg) (h : Handle) (s : State) : Host.Outcome State Fault Refusal :=
  .next (s.issue t (.hevt t ga gb h) (bodyHevt t ga gb h))

/-- HCAN (R179). -/
def execHcan (t : Nat) (ga : GReg) (h : Handle) (s : State) : Host.Outcome State Fault Refusal :=
  .next (s.issue t (.hcan t ga h) (bodyHcan t ga h))

end Sys2Proof.Machine
end

