-- ==== Sys2Proof/Machine/Debug.lean ====
section
/-! DEFINITION. Context halt, resume and single-step, breakpoints, inspection (R140 to R149), and the debug port (R539, R540). -/

namespace Sys2Proof.Machine

/-! ## Inspection (R147, R148) -/

/-- CTX_STATUS.state of a resident task (R148). A halted context reads 4 whatever it would do else (log entry 89). -/
def State.ctxState (s : State) (k : Task) : Nat :=
  if k.held && s.haltedTask k then 4
  else
    match k.state with
    | .faulted => 6
    | .loaded => 5
    | _ =>
      match k.step with
      | some st => if st.running then 3 else 2
      | none => if k.state = .stopped ∧ k.pend = [] then 5 else 1

/-- The copy of a context that an inspection shows: the working copy of a halted step in view 1, else the committed one. -/
def State.ctxView (s : State) (k : Task) (view : Bool) : Ctx :=
  match k.step with
  | some st => if view && s.haltedTask k then st.w else k.c
  | none => k.c

/-- The registers that a snapshot fills, with their values (R147, R148). After OVERRUN or ACTIVATION_RATE, where no instruction
faulted, pc is the committed one; a task that holds no context shows the last it held (log entries 91, 92). -/
def State.ctxWords (s : State) (d : Nat) (k : Task) (view : Bool) : List (RKey × Word) :=
  let c := s.ctxView k view
  let ix := dieIx d
  let cut := match k.step with | some st => st.cutOff | none => false
  let pc := if k.state = .faulted then k.faultPc else c.pc
  let st : Word := BitVec.ofNat 32 (1 + k.slot * 2 + k.ctx * 16 + s.ctxState k * 512 + b2n cut * 4096 + b2n k.brk * 8192 +
    (if k.state = .faulted then k.faultCode else 0) * 65536)
  let fl : Word := BitVec.ofNat 32 (pc % 262144 + b2n c.fl.z * 2 ^ 20 + b2n c.fl.n * 2 ^ 21 + b2n c.fl.c * 2 ^ 22 +
    b2n c.fl.v * 2 ^ 23 + c.rstack.length * 2 ^ 24)
  let old := c.rstack.reverse
  [((.CTX_STATUS, ix), st), ((.CTX_PC_FLAGS, ix), fl),
   ((.CTX_STEP_SEQ_LO, ix), loHalf k.seq), ((.CTX_STEP_SEQ_HI, ix), hiHalf k.seq),
   ((.CTX_TN_LO, ix), loHalf k.lastT), ((.CTX_TN_HI, ix), hiHalf k.lastT),
   ((.CTX_TL_LO, ix), loHalf k.lastTl), ((.CTX_TL_HI, ix), hiHalf k.lastTl),
   ((.CTX_A_LO, ix), loHalf c.a), ((.CTX_A_HI, ix), hiHalf c.a)] ++
  (List.range 16).map (fun n => ((.CTX_G, die1 d n), if n = 0 then 0 else c.g.toArray.getD n 0)) ++
  (List.range 4).map (fun n => ((.CTX_T_LO, die1 d n), loHalf (c.t.toArray.getD n 0))) ++
  (List.range 4).map (fun n => ((.CTX_T_HI, die1 d n), hiHalf (c.t.toArray.getD n 0))) ++
  (List.range 8).map (fun n => ((.CTX_RSTACK, die1 d n), (old.getD n 0).zeroExtend 32)) ++
  (List.range 16).map (fun n => ((.CTX_MARK, die1 d n), k.mark n))

/-- The same registers of a task that is not on the die: all fields 0 (R147). -/
def ctxZero (d : Nat) : List (RKey × Word) :=
  let ix := dieIx d
  [((.CTX_STATUS, ix), 0), ((.CTX_PC_FLAGS, ix), 0), ((.CTX_STEP_SEQ_LO, ix), 0), ((.CTX_STEP_SEQ_HI, ix), 0),
   ((.CTX_TN_LO, ix), 0), ((.CTX_TN_HI, ix), 0), ((.CTX_TL_LO, ix), 0), ((.CTX_TL_HI, ix), 0),
   ((.CTX_A_LO, ix), 0), ((.CTX_A_HI, ix), 0)] ++
  (List.range 16).map (fun n => ((.CTX_G, die1 d n), 0)) ++
  (List.range 4).map (fun n => ((.CTX_T_LO, die1 d n), 0)) ++
  (List.range 4).map (fun n => ((.CTX_T_HI, die1 d n), 0)) ++
  (List.range 8).map (fun n => ((.CTX_RSTACK, die1 d n), 0)) ++
  (List.range 16).map (fun n => ((.CTX_MARK, die1 d n), 0))

/-- Several registers set. -/
def State.setRegs (s : State) (l : List (RKey × Word)) : State := l.foldl (fun s e => s.setReg e.1.1 e.1.2 e.2) s

/-- A task resident on die `d` that is not moving. Between a shuttle fault and the load by the spare a task is none that moves (log
entry 92). -/
def State.taskOn (s : State) (t d : Nat) : Option Task :=
  match s.task? t with
  | some k => if k.die = d ∧ k.mig = none then some k else none
  | none => none

/-- A write of CTX_SEL: selects a task and takes a snapshot of its state (R147). It is exempt from R25. -/
def ctxSelW (s : State) (_ : Port) (d : Nat) (v : Word) : State :=
  let s := s.plainWrite .CTX_SEL (dieIx d) v
  match s.taskOn (bitsOf v 0 12) d with
  | some k => s.setRegs (s.ctxWords d k (bitOf v 12))
  | none => s.setRegs (ctxZero d)

/-! ## Halt, resume, single-step, breakpoints (R141 to R149) -/

/-- The task that CTX_SEL of a die selects. -/
def State.ctxSel (s : State) (d : Nat) : Nat := s.fld F.CTX_SEL_task_id (dieIx d)

/-- The DEBUG_HALT record of a halt that ends now, its breach and its count (R100, R142, R540). -/
def State.haltRec (s : State) (d : Nat) (entry : Time) : State :=
  (s.breach 4).detRec d 0x0A50 0x24 s.now (leBytes 0xFFFF 2 ++ leBytes 0 2 ++ timeBytes entry)

/-- Halt: at the next instruction boundary of a running step, or before the first instruction of the next (R149). No instruction
issues any more, so the context is halted from now on (log entry 89). -/
def ctxHaltDo (s : State) (t : Nat) (k : Task) : State := s.setTask t { k with halt := some s.now }

/-- The step of a context whose halt ends: a cut-off one is discarded, another goes on (R143). -/
def Step.resume (st : Step) : Option Step := if st.cutOff then none else some { st with single := false }

/-- Resume (R142, R143): the context's own halt ends, with one DEBUG_HALT record; a package halt goes on (R540). -/
def ctxResumeDo (s : State) (t : Nat) (k : Task) : State :=
  match k.halt with
  | none => s
  | some entry =>
    (s.setTask t { k with halt := none,
                          step := if s.dbg.halt.isSome then k.step else k.step.bind Step.resume }).haltRec k.die entry

/-- Single-step: one instruction of the halted step issues (R144). Between steps there is none: the request has no effect and sets
no status bit (log entry 89). -/
def ctxSingleDo (s : State) (t : Nat) (k : Task) : State :=
  s.setTask t { k with step := k.step.map (fun st => { st with single := true }) }

/-- A command of DBG_CTRL, checked in the order of R149. Bits of `v`: 0 halt, 1 resume, 2 single, 3 and 4 breakpoints. -/
def dbgCtrlWrite (s : State) (_ : Port) (d : Nat) (v : Word) : State :=
  let c := bitsOf v 0 5
  let ix := dieIx d
  let t := s.ctxSel d
  if c = 0 then s
  else if c ≠ 1 ∧ c ≠ 2 ∧ c ≠ 4 ∧ c ≠ 8 ∧ c ≠ 16 then s.setBit F.DBG_STATUS_state_reject ix true
  else if c ≠ 16 ∧ s.unlocked = false then s.setBit F.DBG_STATUS_locked_reject ix true
  else
    match s.taskOn t d with
    | none => s.setBit F.DBG_STATUS_not_here_reject ix true
    | some k =>
      let h := s.haltedTask k
      if (h && c == 1) || (!h && (c == 2 || c == 4)) then s.setBit F.DBG_STATUS_state_reject ix true
      else if c = 1 then ctxHaltDo s t k
      else if c = 2 then ctxResumeDo s t k
      else if c = 4 then ctxSingleDo s t k
      else s.setTask t { k with brk := c == 8 }

/-! ## The debug port (R539, R540) -/

/-- A 32-byte challenge of fresh random words; it is valid (R539). -/
def State.newChallenge (s : State) : State :=
  let s := (List.range 8).foldl (fun s k => let (w, s) := s.fresh; s.setReg .DBG_CHALLENGE (pkg1 k) w) s
  { s with dbg := { s.dbg with challengeValid := true } }

/-- The challenge is void: its registers read 0 (R542). -/
def State.voidChallenge (s : State) : State :=
  let s := (List.range 8).foldl (fun s k => s.setReg .DBG_CHALLENGE (pkg1 k) 0) s
  { s with dbg := { s.dbg with challengeValid := false } }

/-- Some context or the package is halted (R539). -/
def State.anyHalted (s : State) : Bool := s.dbg.halt.isSome || s.tasks.any (fun e => s.haltedTask e.2)

/-- Every unlock is refused: 8 failures, or debug_disabled (R539). -/
def State.unlockRefused (s : State) : Bool := s.fuses.debugDisabled || decide (8 ≤ s.fld F.DBG_LOCK_failures pkg)

/-- DBG_NEW_CHALLENGE (R539). -/
def dbgNewChallenge (s : State) : State :=
  if s.unlockRefused then s.setBit F.DBG_LOCK_refused pkg true else s.newChallenge

/-- DBG_SUBMIT: the check of the response begins (R539). -/
def dbgSubmit (s : State) : State :=
  if s.unlockRefused then s.setBit F.DBG_LOCK_refused pkg true
  else { s.setBit F.DBG_LOCK_busy pkg true with dbg := { s.dbg with checking := true } }

/-- The port is locked or unlocked, in DBG_LOCK and in DBG_STATUS of every die (R539). -/
def State.setUnlocked (s : State) (b : Bool) : State :=
  let s := s.setBit F.DBG_LOCK_unlocked pkg b
  s.dieList.foldl (fun s d => s.setBit F.DBG_STATUS_unlocked (dieIx d) b) s

/-- DBG_LOCK: refused while any context or the package is halted (R539). -/
def dbgLock (s : State) : State :=
  if s.anyHalted then s.setBit F.DBG_LOCK_cmd_reject pkg true else s.setUnlocked false

/-- A write of DBG_LOCK. -/
def dbgLockWrite (s : State) (_ : Port) (v : Word) : State :=
  let s := s.plainWrite .DBG_LOCK pkg v
  let s := if bitOf v 1 then dbgNewChallenge s else s
  let s := if bitOf v 2 then dbgSubmit s else s
  if bitOf v 3 then dbgLock s else s

/-- The response verifies (R536, R539): key hash equal to the fused one, signature over SHA-384 of challenge and serial. -/
def State.responseOk (s : State) : Bool :=
  let b := (List.range 50).flatMap (fun k => wordBytes (s.reg .DBG_RESPONSE (pkg1 k)))
  let ch := (List.range 8).flatMap (fun k => wordBytes (s.reg .DBG_CHALLENGE (pkg1 k)))
  let key := b.take 97
  s.dbg.challengeValid && s.fuses.debugKeyFused && (b.drop 193).all (fun x => x == 0) &&
  Config.sha384 key == s.fuses.debugKey &&
  Config.ecdsaP384Verify key ((b.drop 97).take 96) (Config.sha384 (ch ++ leBytes s.fuses.serial.toNat 8))

/-- DBG_UNLOCK_CHECK_DONE (R539): success unlocks; a failure counts and voids the challenge. -/
def dbgUnlockCheckDone (s : State) : State :=
  if s.dbg.checking then
    let ok := s.responseOk
    let s := { s.setBit F.DBG_LOCK_busy pkg false with dbg := { s.dbg with checking := false } }
    if ok then s.setUnlocked true
    else
      let s := (s.setFld F.DBG_LOCK_failures pkg (min 8 (s.fld F.DBG_LOCK_failures pkg + 1))).voidChallenge
      if s.unlockRefused then s.setBit F.DBG_LOCK_refused pkg true else s
  else s

/-- PACKAGE_DEBUG_HALT (R540): accepted while the port is unlocked and no halt is in force. -/
def packageHalt (s : State) : State :=
  if s.unlocked && s.dbg.halt.isNone then
    { s.setBit F.DBG_PKG_CTRL_halted pkg true with dbg := { s.dbg with halt := some s.now } }
  else s.setBit F.DBG_LOCK_cmd_reject pkg true

/-- A step of a package halt that was cut off meanwhile is discarded at the resume (R143, R540). -/
def Task.endHalt (k : Task) : Task :=
  match k.step with
  | some st => if st.cutOff && k.halt.isNone then { k with step := none } else k
  | none => k

/-- An instant of a frozen switch that lies at or before the halt moves on by its length (R289). -/
def shiftPast (entry len t : Time) : Time := if upTo t entry then t + len else t

/-- A switch after a halt: what it waits for comes later by the length of the halt (R289). -/
def SwSt.thaw (w : SwSt) (entry len : Time) : SwSt :=
  { w with calledAt := shiftPast entry len w.calledAt, lastOff := w.lastOff.map (shiftPast entry len),
           onAt := shiftPast entry len w.onAt, due := w.due.map (fun t => t + len), holdTo := w.holdTo.map (fun t => t + len) }

/-- A write or command with a stamp in a halt waits for its end (R289). -/
def Eff.thaw (e : Eff) (entry fin : Time) : Eff := if upTo entry e.stamp && before e.stamp fin then { e with stamp := fin } else e

/-- A carrier after a halt continues from its frozen position, so every later boundary is later by the length of the halt; a write or
command stamped in the halt takes effect after it, a START among them; a pair in its trip state ran on (R289, R290; log entry
99). -/
def CarSt.thaw (x : CarSt) (entry len : Time) : CarSt :=
  { x with bnd := if x.mode = .stopped then x.bnd else x.bnd + len,
           fx := x.fx.map (fun e => e.thaw entry (entry + len)),
           pairs := x.pairs.map (fun p => if p.tripped then p else { p with hi := p.hi.thaw entry len, lo := p.lo.thaw entry len }) }

/-- PACKAGE_DEBUG_RESUME (R540): one record covers the whole halt. -/
def packageResume (s : State) : State :=
  match s.dbg.halt with
  | none => s.setBit F.DBG_LOCK_cmd_reject pkg true
  | some entry =>
    let s := { s.setBit F.DBG_PKG_CTRL_halted pkg false with dbg := { s.dbg with halt := none } }
    let len := s.now - entry
    let s := { s with tasks := s.tasks.map (fun (e : Nat × Task) => (e.1, e.2.endHalt)),
                      cars := s.cars.map (fun (e : Nat × CarSt) => (e.1, e.2.thaw entry len)) }
    s.haltRec 0 entry

end Sys2Proof.Machine
end

