-- ==== Sys2Proof/Machine/Views.lean ====
section
/-! DEFINITION. What a read of a register returns: the held value, or the value that the state gives at the read. -/

namespace Sys2Proof.Machine

/-- The high half's register of a 64-bit value: the one after its low half (R19). -/
def Reg.hi (r : Reg) : Reg := allRegs.getD (r.ctorIdx + 1) r

/-- The low half's register of a 64-bit value. -/
def Reg.lo (r : Reg) : Reg := allRegs.getD (r.ctorIdx - 1) r

/-- A mask of 64 local units that satisfy `p`. -/
def mask64 (p : Nat → Bool) : BitVec 64 :=
  BitVec.ofNat 64 ((List.range 64).foldl (fun a k => if p k then a + 2 ^ k else a) 0)

/-! ## Identification, placer, shuttles -/

/-- ID_REVISION (R58): stepping B0, the fused grade, the die count. -/
def State.viewRevision (s : State) : Word := BitVec.ofNat 32 (0x10 + s.fuses.grade % 4 * 256 + s.variant.dies * 65536)

/-- GROUND_TOPOLOGY (R36): the fabric by variant, and the stored class 0 bound. -/
def State.viewTopology (s : State) : Word :=
  let t := match s.variant with
    | .d2 => 0x121
    | .d4 => 0x222
    | .d8 => 0x342
  (s.reg .GROUND_TOPOLOGY pkg &&& 0xFFFF0000) ||| t

/-- FUSE_POLICY (R542). -/
def State.viewPolicy (s : State) : Word :=
  let f := s.fuses
  BitVec.ofNat 32 (b2n f.signRequired + 2 * b2n f.debugDisabled + 4 * (f.fwRevoked % 4) + 16 * b2n f.taskKeyFused +
    32 * b2n f.debugKeyFused + 256 * (f.fwSecMin % 64))

/-- Word `k` of a hash whose byte 4k stands in bits [7:0] (R542). -/
def hashWord (x : BitVec 384) (k : Nat) : Word :=
  let b := fun (m : Nat) => x.extractLsb' (8 * (47 - m)) 8
  b (4 * k + 3) ++ b (4 * k + 2) ++ b (4 * k + 1) ++ b (4 * k)

/-- The code of TASK_STATE (R228's register, R208). -/
def TaskState.code : TaskState → Nat
  | .loaded => 1
  | .running => 2
  | .stopped => 3
  | .faulted => 4

/-- TASK_STATE_n. -/
def State.viewTask (s : State) (n : Nat) : Word :=
  match s.task? n with
  | none => 0
  | some k => BitVec.ofNat 32 (k.state.code + 16 * k.die + 128 * b2n (!k.deferrable) + 256 * (k.faultCode % 256) +
      65536 * (k.rank % 65536))

/-- A placer command, with the migration it asks for, is in progress. A move of a rotation is none: it changes no register but
those of R228 (log entry 96). -/
def State.placerBusy (s : State) : Bool :=
  s.cqs.any (fun e => e.2.accepted && e.2.status.isNone && isPlacerOp e.2.op) ||
    s.tasks.any (fun e => match e.2.mig with | some m => m.cmd.isSome | none => false)

/-- PLC_STATUS. -/
def State.viewPlc (s : State) : Word :=
  (s.reg .PLC_STATUS pkg &&& 0xFF01) ||| BitVec.ofNat 32 (2 * b2n s.placerBusy + 65536 * (s.tasks.length % 2048))

/-- PLC_BIND_IDX: the binding of the handle that PLC_BIND_SEL selects, of the task that PLC_RPT_SEL selects. -/
def State.viewBind (s : State) : Word :=
  let h : Handle := (s.reg .PLC_BIND_SEL pkg).extractLsb' 0 14
  match s.task? (s.fld F.PLC_RPT_SEL_task_id pkg) with
  | none => 0
  | some k =>
    match k.resAt (hKind h) (hSlot h) with
    | none => if hKind h = 9 ∧ hSlot h = 1023 then 0x800003FF else 0
    | some r =>
      if r.isQueue then
        if r.a < 65536 then
          let x := s.que r.a
          BitVec.ofNat 32 (2 ^ 31 + r.a + 65536 * (match x.dma with | some c => 8 * (r.a / 256) + c | none => 0))
        else 0
      else if r.kind = 14 then
        match k.tables.find? (fun x => x.k == r.a) with
        | some x => BitVec.ofNat 32 (2 ^ 31 + x.off)
        | none => 0
      else BitVec.ofNat 32 (2 ^ 31 + r.a)

/-- SHT_LOAD of a slot: U of R219 in thousandths, contexts that hold a task. -/
def State.viewLoad (s : State) (d x : Nat) : Word :=
  let l := s.tasks.filter (fun e => e.2.held && e.2.die == d && e.2.slot == x)
  BitVec.ofNat 32 (permille (utilOf (l.flatMap (fun e => s.demand e.2 d e.2.cross))) % 1024 + 65536 * l.length)

/-- SHT_LAST_BIST of a slot: whole seconds since it last passed; 0xFFFF where it was not tested. -/
def State.lastBistSeconds (s : State) (d x : Nat) : Nat :=
  match ((s.die d).slots.getD x Slot.reset).lastBist with
  | none => 0xFFFF
  | some t => min 0xFFFF ((dist s.now t).toNat / 64000000000)

/-- FLT_STATUS.test_degraded (R510). -/
def State.testDegraded (s : State) : Bool :=
  let per := s.fld F.PLC_ROT_PERIOD_period_ms pkg
  s.liveDies.any (fun d => (s.die d).healthyCount != 5 || per == 0 ||
    (List.range 5).any (fun x => ((s.die d).slots.getD x Slot.reset).healthy &&
      decide (10 * per < 1000 * s.lastBistSeconds d x)))

/-- The placement report of a task (R228's registers): PLC_RPT_LOC, CODE, DATA, WIN, LOAD. -/
def State.placeReport (s : State) (t : Nat) : List Word :=
  match s.task? t with
  | none => [0, 0, 0, 0, 0]
  | some k =>
    [BitVec.ofNat 32 (1 + 2 * k.die + 16 * k.slot + 128 * k.ctx + 4096 * b2n k.cross + 8192 * b2n k.mig.isSome),
     BitVec.ofNat 32 k.codeBase, BitVec.ofNat 32 k.dataBase,
     BitVec.ofNat 32 (s.settle k / 64 % 65536 + 65536 * ((if k.cross then 280 else 20))),
     BitVec.ofNat 32 (permille (utilOf (s.demand k k.die k.cross)) % 1024 + 65536 * k.reservation)]

/-! ## Units -/

/-- PIN_OWNER (R229). -/
def State.viewOwner (s : State) (p : Nat) : Word :=
  let o := (s.pin p).owner
  let (kind, i, u, low) := match o with
    | .free => (0, 0, 0, false)
    | .task t => (1, t, 0, false)
    | .car c n l => (2, c, n, l)
    | .fb n u => (3, n, u, false)
    | .hoop h u _ => (4, h, u, false)
  BitVec.ofNat 32 (kind + 16 * i + 65536 * u + 2 ^ 18 * b2n low + 2 ^ 20 * b2n (s.ownerRuns o))

/-- PIN_STATUS. -/
def State.viewPin (s : State) (p : Nat) : Word :=
  let rel := s.pinRelease p
  (s.reg .PIN_STATUS (pinIx p) &&& 0x3000000) |||
    BitVec.ofNat 32 (b2n (s.pin p).filt.out + 2 * b2n (s.pinLevel p) + 4 * b2n (rel == 0) + 8 * b2n (rel != 0) + 16 * rel +
      128 * b2n (s.pin p).failed + 256 * min 32 (s.pinDepth p) + 65536 * min 32 (s.pin p).caps.length)

/-- The next stitch in the queue of a pin, with PIN_NEXT_INFO; edges of carriers and interfaces stand in no queue (R233). -/
def State.viewNext (s : State) (p : Nat) : BitVec 64 × Word :=
  match (s.pin p).queue.filter (fun a => a.cls != 2) with
  | [] => (0, 0)
  | x :: _ => (x.stamp, BitVec.ofNat 32 (1 + 2 * b2n x.level + 4 * b2n (x.repl && !x.locked)))

/-- CAR_STATUS (R266): frozen under a package halt or a lost clock. -/
def State.viewCar (s : State) (c : Nat) : Word :=
  let m := match (s.car c).mode with
    | .stopped => 0
    | .armed => 1
    | .running => 2
  let m := if s.dbg.halt.isSome || (s.die (c / 16)).clockLost.isSome then 3 else m
  (s.reg .CAR_STATUS (carIx c) &&& 0x300) ||| BitVec.ofNat 32 (m + 8 * s.pairCount c + 64 * b2n (s.unitRuns 3 c))

/-- CAR_POS (R267): whole counts since the start of the period, and the direction. -/
def State.viewCarPos (s : State) (c : Nat) : Word :=
  let x := s.car c
  if x.mode = .running then
    let t := match s.dbg.halt with
      | some h => h
      | none => s.now
    let hp := s.carHp c
    let e := (dist t x.start).toNat
    if e ≤ hp then BitVec.ofNat 32 (e / 64) else BitVec.ofNat 32 (2 ^ 31 + (2 * hp - e) / 64)
  else 0

/-- PAIR_STATE: the switches, a turn-on that waits (R275), tripped, PAIR_OFF, fallback. -/
def State.viewPair (s : State) (c n : Nat) : Word :=
  let x := s.pair c n
  let waits := fun (low : Bool) =>
    let w := x.sw low
    w.due.isSome || (w.called && !w.on && (x.sw (!low)).on)
  BitVec.ofNat 32 (b2n x.hi.on + 2 * b2n x.lo.on + 4 * b2n (waits false || waits true) + 8 * b2n x.tripped +
    16 * b2n x.off + 32 * b2n x.fallback)

/-- TRIP_STATUS. -/
def State.viewTrip (s : State) (j : Nat) : Word :=
  let a := s.tripIsActive j
  (s.reg .TRIP_STATUS (tripIx j) &&& 0x300) |||
    BitVec.ofNat 32 (b2n a + 2 * b2n (s.trip j).latched + 4 * b2n (a && (s.trip j).waits.isSome) + 8 * b2n (s.unitRuns 2 j))

/-- FB_STATUS: the stored bits, locked (R298), comm_donor (R309). -/
def State.viewFb (s : State) (n : Nat) : Word :=
  (s.reg .FB_STATUS (fbIx n) &&& 0x1F7E) ||| BitVec.ofNat 32 (b2n (s.unitRuns 4 n) + 128 * b2n (s.isDonor n))

/-- HOOP_STATUS. -/
def State.viewHoop (s : State) (h : Nat) : Word :=
  (s.reg .HOOP_STATUS (hoopIx h) &&& 0x3FF18) |||
    BitVec.ofNat 32 ((s.hoop h).st + 32 * b2n (s.unitRuns 5 h) + 64 * min 1 (s.hoop h).bad)

/-- HOOP_TOOTH_INFO of the latest point. -/
def HoopPt.info (p : HoopPt) : Word :=
  BitVec.ofNat 32 (p.slot % 1024 + 1024 * b2n p.synth + 2048 * b2n p.back + 4096 * min 0xFFFFF p.width)

/-- QUE_CFG (R426). -/
def QueSt.cfgWord (x : QueSt) : Word :=
  BitVec.ofNat 32 (b2n x.bound + 2 * x.prodKind + 8 * x.consKind + 256 * (x.cap / 256 - 1) +
    (match x.dma with | some c => 65536 * (c % 8) + 2 ^ 19 | none => 0))

/-- QUE_STATUS. -/
def State.viewQue (s : State) (q : Nat) : Word :=
  let x := s.que q
  (s.reg .QUE_STATUS (queIx q) &&& 0x3000000) |||
    BitVec.ofNat 32 (x.stored + 2 ^ 17 * b2n x.dmaOpen + 2 ^ 18 * b2n x.req + 2 ^ 19 * b2n (s.queLocked q))

/-- RTR_STATUS: deliverable and winner are the state's (R488). -/
def State.viewRtr (s : State) (t : Nat) : Word :=
  (s.reg .RTR_STATUS (pkg1 t) &&& 0xD) |||
    (match s.winner t with | some c => BitVec.ofNat 32 (2 + 65536 * c.2.2) | none => 0)

/-- Contexts halted on a die. -/
def State.haltedCount (s : State) (d : Nat) : Nat :=
  (s.tasks.filter (fun e => e.2.held && e.2.die == d && s.haltedTask e.2)).length

/-! ## What a read returns -/

/-- The 64-bit value that a read of a low half captures (R19). -/
def State.view64 (s : State) (lo : Reg) (ix : Ix) : BitVec 64 :=
  let d := ix.d
  let p := 64 * d + ix.i
  let h := 4 * d + ix.i
  match lo with
  | .ID_SERIAL_LO => s.fuses.serial
  | .GT_NOW_LO => s.now
  | .PLANT_NOW_LO => s.now + s.plantOffset
  | .PIN_NEXT_LO => (s.viewNext p).1
  | .PINS_RELEASED_LO => mask64 (fun k => s.pinRelease (64 * d + k) != 0)
  | .PINS_FAILED_LO => mask64 (fun k => (s.pin (64 * d + k)).failed)
  | .FB_POS_LO => BitVec.ofInt 64 ((s.fb (8 * d + ix.i)).posAt s.now)
  | .FB_SPEED_LO => BitVec.ofInt 64 (s.fbSpeedAt (8 * d + ix.i) s.now).v
  | .HOOP_LAST_TOOTH_LO => match (s.hoop h).pts with | x :: _ => x.t | [] => 0
  | .HOOP_SLOTS_PENDING_LO => slotMask (s.pendingSlots h s.now)
  | .HOOP_SLOTS_ACTIVE_LO =>
    slotMask (((s.hoop h).evs.filter (fun (e : Nat × HoopEv) => e.2.active s.now)).map (fun e => e.1))
  | _ => s.reg64 lo lo.hi ix

/-- A hoop value at the read; 0 while the hoop has no point, a free value where no rule gives one (log entry 6). -/
def State.viewHoopValue (s : State) (h sel : Nat) : Word × State :=
  match s.hoopValue h sel s.now with
  | some v => (v, s)
  | none => if (s.hoop h).pts = [] then (0, s) else s.fresh

/-- The value of a 32-bit register at the read. -/
def State.view (s : State) (r : Reg) (ix : Ix) : Word × State :=
  let d := ix.d
  let p := 64 * d + ix.i
  let c := 16 * d + ix.i
  let j := 8 * d + ix.i
  let h := 4 * d + ix.i
  let q := 256 * d + ix.i
  match r with
  | .ID_DEVICE => (BitVec.ofNat 32 (0x1F5E + (0x5A00 + s.variant.dies) * 65536), s)
  | .ID_REVISION => (s.viewRevision, s)
  | .CAP_DIES_PRESENT => (BitVec.ofNat 32 (2 ^ s.variant.dies - 1), s)
  | .GROUND_TOPOLOGY => (s.viewTopology, s)
  | .TIME_STATUS => ((s.reg r ix &&& 0x7D) ||| BitVec.ofNat 32 (2 * b2n s.anyRunning +
      256 * s.dieMask (fun d => (s.die d).live && (s.die d).clockLost.isNone)), s)
  | .PLC_STATUS => (s.viewPlc, s)
  | .PLC_BIND_IDX => (s.viewBind, s)
  | .TASK_STATE => (s.viewTask ix.i, s)
  | .SHT_LOAD => (s.viewLoad d ix.i, s)
  | .SHT_LAST_BIST => (BitVec.ofNat 32 (s.lastBistSeconds d ix.i), s)
  | .PIN_OWNER => (s.viewOwner p, s)
  | .PIN_STATUS => (s.viewPin p, s)
  | .PIN_CAL =>
    if (s.die d).live then (Config.pinTrim p s.freeCount, { s with freeCount := s.freeCount + 1 }) else (0, s)
  | .CAR_STATUS => (s.viewCar c, s)
  | .CAR_POS => (s.viewCarPos c, s)
  | .PAIR_STATE => (s.viewPair c ix.j, s)
  | .TRIP_STATUS => (s.viewTrip j, s)
  | .TRIPS_LATCHED => (BitVec.ofNat 32 ((List.range 8).foldl (fun a k => if (s.trip (8 * d + k)).latched then a + 2 ^ k else a) 0), s)
  | .FB_STATUS => (s.viewFb j, s)
  | .FB_COMM_STATE => ((s.reg r ix &&& 0x70) ||| BitVec.ofNat 32 (s.fb j).hall, s)
  | .FB_PROBE_STATUS => ((s.reg r ix &&& 2) ||| BitVec.ofNat 32 (b2n ((s.fb j).arm.any (fun a => upTo a s.now))), s)
  | .HOOP_STATUS => (s.viewHoop h, s)
  | .HOOP_ANGLE => s.viewHoopValue h 0
  | .HOOP_REVS => s.viewHoopValue h 1
  | .HOOP_PERIOD => s.viewHoopValue h 2
  | .AXS_STATUS => ((s.reg r ix &&& 3) ||| BitVec.ofNat 32 (4 * b2n (s.axsLocked ix.i)), s)
  | .QUE_CFG => ((s.que q).cfgWord, s)
  | .QUE_BASE => (BitVec.ofNat 32 (s.que q).base, s)
  | .QUE_STATUS => (s.viewQue q, s)
  | .QUE_FREE => (BitVec.ofNat 32 (s.que q).freeNow, s)
  | .QUE_GEN => (BitVec.ofNat 32 (s.que q).gen, s)
  | .QUE_WR_PTR => (BitVec.ofNat 32 ((s.que q).visEnd % max 1 (s.que q).cap), s)
  | .QUE_RD_PTR => (BitVec.ofNat 32 ((s.que q).rel % max 1 (s.que q).cap), s)
  | .REC_LAG => (BitVec.ofNat 32 s.recLag, s)
  | .RTR_STATUS => (s.viewRtr ix.i, s)
  | .FLT_STATUS => ((s.reg r ix &&& 0xD) ||| BitVec.ofNat 32 (2 * b2n s.testDegraded), s)
  | .DIE_HEALTH => (s.healthWord d true, s)
  | .FUSE_POLICY => (s.viewPolicy, s)
  | .TASK_KEY_HASH => (if s.fuses.taskKeyFused then hashWord s.fuses.taskKey ix.i else s.reg r ix, s)
  | .DBG_STATUS => ((s.reg r ix &&& 0xF) ||| BitVec.ofNat 32 (256 * min 255 (s.haltedCount d)), s)
  | _ => (s.reg r ix, s)

end Sys2Proof.Machine
end

