-- ==== Sys2Proof/Machine/HostAccess.lean ====
section
/-! DEFINITION. Accesses through BAR0 from every port (R12 to R25, R52 to R57, R522): which register or memory byte an offset
names, what a read returns and does, and what a write does. -/

namespace Sys2Proof.Machine

/-! ## Ports (R19 to R22) -/

/-- The number of a port in State.ports. -/
def portNum : Port → Nat
  | .pcie => 0
  | .qspi => 1
  | .mgmt0 => 2
  | .mgmt1 => 3
  | .debug => 4

/-- An access port. -/
def State.port (s : State) (p : Port) : PortSt := nmGet s.ports (portNum p) PortSt.reset

/-- The state with an access port changed. -/
def State.modPort (s : State) (p : Port) (f : PortSt → PortSt) : State :=
  { s with ports := nmPut s.ports (portNum p) (f (s.port p)) }

/-- An access reaches the block: the part is not in reset, PERST# does not hold the PCIe port, and before READY only the
identification block, the block at 0x0001_0000 and the range from 0x0100_0000 to 0x01FF_FFFF answer (R522). The management
cores, which bring the part up, are not held back. -/
def State.reaches (s : State) (p : Port) (a : Nat) : Bool :=
  !s.boot.inReset && !(p == .pcie && s.boot.perst) &&
    (s.ready || p == .mgmt0 || p == .mgmt1 || a < 0x20000 || (0x01000000 ≤ a && a < 0x02000000))

/-- A management pair writes only while it is in control: that of die 0 from its start until it fails, the standby of die 1 after a
takeover (R31, R503). Every other port writes at any time. -/
def State.mayWrite (s : State) : Port → Bool
  | .mgmt0 => s.boot.pair0
  | .mgmt1 => s.boot.takeover
  | _ => true

/-- The window of die `d` answers: the die is present and not fenced (R54, R55). -/
def State.windowUp (s : State) (d : Nat) : Bool := s.present d && !(s.die d).fenced

/-- An access to the window of an absent or fenced die (R54, R55). -/
def State.absentAccess (s : State) : State := s.bump F.ABSENT_ACCESS_COUNT_count pkg

/-- A copy of a register that exists: die 0 to 7, every index below its count. -/
def keyOk (k : RKey) : Bool :=
  k.2.d < 8 && (match k.1.info.dims with
    | [] => true
    | [(_, n)] => k.2.i < n
    | [(_, n), (_, m)] => k.2.i < n && k.2.j < m
    | (_, n) :: (_, m) :: (_, l) :: _ => k.2.i < n && k.2.j < m && k.2.k < l)

/-! ## BAR2 and the configuration header (R451, R452) -/

/-- Offset `a` of the PCIe port names BAR2 offset `a - 0x1000_0000` (log entry 110). -/
def inBar2 (p : Port) (a : Nat) : Bool := p == .pcie && decide (0x10000000 ≤ a ∧ a < 0x10010000)

/-- The PCIe function answers an access to BAR2: the part is not in reset and PERST# is released. -/
def State.bar2Up (s : State) : Bool := !s.boot.inReset && !s.boot.perst

/-- A word of BAR2 (R452): the MSI-X table, whose entries are address, upper address, data and vector control with the mask bit, and
the PBA; every other offset reads 0. -/
def State.bar2Read (s : State) (o : Nat) : Word :=
  if o < 0x400 then
    (if o / 4 % 4 = 3 then BitVec.ofNat 32 (b2n (s.pcie.msixMask.getLsbD (o / 16))) else nmGet s.pcie.table (o / 4) 0)
  else if o = 0x8000 then loHalf s.pcie.pba
  else if o = 0x8004 then hiHalf s.pcie.pba
  else 0

/-- The mask bit of entry `t` is written; a pending message of an entry that is unmasked goes out (R452). -/
def State.setMsixMask (s : State) (t : Nat) (m : Bool) : State :=
  let b : BitVec 64 := BitVec.ofNat 64 (2 ^ t)
  let x := s.pcie
  if m then { s with pcie := { x with msixMask := x.msixMask ||| b } }
  else
    let s := { s with pcie := { x with msixMask := x.msixMask &&& ~~~b, pba := x.pba &&& ~~~b } }
    if x.pba.getLsbD t then s.msix t else s

/-- A write of a word of BAR2 (R452): a word of the MSI-X table, whose address is a multiple of 4; every other offset ignores it. -/
def State.bar2Write (s : State) (o : Nat) (v : Word) : State :=
  if 0x400 ≤ o then s
  else if o / 4 % 4 = 3 then s.setMsixMask (o / 16) (bitOf v 0)
  else { s with pcie := { s.pcie with table := nmPut s.pcie.table (o / 4) (if o / 4 % 4 = 0 then v &&& ~~~3 else v) } }

/-- The words of the type 0 configuration header that R451 fixes, by offset: identities, revision and class, the two 64-bit
non-prefetchable BARs at base 0, subsystem. -/
def State.configHeader (s : State) : List (Nat × Word) :=
  [(0x00, BitVec.ofNat 32 (0x1F5E + (0x5A00 + s.variant.dies) * 65536)), (0x08, BitVec.ofNat 32 (0x10 + 0x118000 * 256)),
   (0x10, 4), (0x14, 0), (0x18, 4), (0x1C, 0), (0x20, 0), (0x24, 0), (0x2C, BitVec.ofNat 32 (0x1F5E + s.fuses.subsystem * 65536))]

/-! ## Reads -/

/-- The RC fields of a register clear, but for a read through the debug port (R14, R17). -/
def State.rcClear (s : State) (p : Port) (r : Reg) (ix : Ix) : State :=
  if p = .debug ∨ r.info.rc = 0 then s else s.setReg r ix (s.reg r ix &&& ~~~(BitVec.ofNat 32 r.info.rc))

/-- A read of a low half captures the 64-bit value; with it the information of a stitch or a tooth (R19, R20). -/
def State.readLo (s : State) (p : Port) (r : Reg) (ix : Ix) : Word × State :=
  let v := s.view64 r ix
  let s' := s.modPort p (fun x => { x with capture := hiHalf v })
  (loHalf v,
    match r with
    | .PIN_NEXT_LO => s'.modPort p (fun x => { x with pinInfo := (s.viewNext (64 * ix.d + ix.i)).2 })
    | .HOOP_LAST_TOOTH_LO => s'.modPort p (fun x => { x with toothInfo :=
        match (s.hoop (4 * ix.d + ix.i)).pts with | y :: _ => y.info | [] => 0 })
    | _ => s')

/-- A read of a register that answers. -/
def State.readKey (s : State) (p : Port) (k : RKey) : Word × State :=
  match k.1 with
  | .RTR_CLAIM => rtrClaimRead s p k.2.i
  | .PIN_NEXT_INFO => ((s.port p).pinInfo, s)
  | .HOOP_TOOTH_INFO => ((s.port p).toothInfo, s)
  | r =>
    if r.info.half = 1 then s.readLo p r k.2
    else if r.info.half = 2 then ((s.port p).capture, s)
    else
      let x := s.view r k.2
      (x.1, x.2.rcClear p r k.2)

/-- A read of an offset of a die window that answers: die memory or a register (R53, R57). -/
def State.readWindow (s : State) (p : Port) (d o : Nat) : Word × State :=
  if o < 0x400000 then (memWord s.dieMem (dieAddr d o), s)
  else match regSearch true d o allRegs with
    | some k => s.readKey p k
    | none => (0, s)

/-- An access of any width at `a` meets the window of an absent or fenced die: it completes and is counted once (R24, R54, R55). -/
def State.meetsNone (s : State) (p : Port) (a : Nat) : Bool :=
  s.reaches p a && decide (0x08000000 ≤ a ∧ a < 0x10000000) && !s.windowUp ((a - 0x08000000) / 0x01000000)

/-- What such a window reads as: 0, but for the health block of a fenced die (R55). -/
def State.goneWord (s : State) (a : Nat) : Word :=
  let d := (a - 0x08000000) / 0x01000000
  let o := a % 0x01000000
  if s.present d && decide (0x900000 ≤ o ∧ o < 0xA00000) then nmGet (s.die d).snapshot o 0 else 0

/-- A 32-bit read at a BAR0 offset, or of BAR2 (R18, R24, R52 to R57, R452, R457). -/
def State.hostRead (s : State) (p : Port) (a : Nat) : Word × State :=
  if inBar2 p a then (if s.bar2Up && a % 4 == 0 then s.bar2Read (a - 0x10000000) else 0, s)
  else if s.meetsNone p a then (s.goneWord a, s.absentAccess)
  else if !s.reaches p a || a % 4 != 0 || 0x10000000 ≤ a then (0, s)
  else if 0x08000000 ≤ a then s.readWindow p ((a - 0x08000000) / 0x01000000) (a % 0x01000000)
  else if 0x01800000 ≤ a && a < 0x01880000 then (memWord s.ring (a - 0x01800000), s)
  else match regSearch false 0 a allRegs with
    | some k => s.readKey p k
    | none => (0, s)

/-- A read of `n` bytes (R23, R24): of 8, the two halves in one atomic access; of 1 or 2, from die memory; any other completes and
returns 0. -/
def State.hostReadN (s : State) (p : Port) (a n : Nat) : BitVec 64 × State :=
  if n = 4 then ((s.hostRead p a).1.zeroExtend 64, (s.hostRead p a).2)
  else if s.meetsNone p a then (if n = 8 ∧ a % 8 = 0 then joinHalves (s.goneWord (a + 4)) (s.goneWord a) else 0, s.absentAccess)
  else if n = 8 ∧ a % 8 = 0 then
    let x := s.hostRead p a
    let y := x.2.hostRead p (a + 4)
    (joinHalves y.1 x.1, y.2)
  else if (n = 1 ∨ n = 2) ∧ a % n = 0 ∧ s.reaches p a = true ∧ 0x08000000 ≤ a ∧ a < 0x10000000 ∧ a % 0x01000000 < 0x400000 then
    (BitVec.ofNat 64 (leNat (memReadList s.dieMem (dieAddr ((a - 0x08000000) / 0x01000000) (a % 0x01000000)) n)), s)
  else (0, s)

/-- A read of `n` bytes whose data the port keeps. -/
def State.readN (s : State) (p : Port) (a n : Nat) : State :=
  let x := s.hostReadN p a n
  x.2.modPort p (fun y => { y with rd := loHalf x.1, rdHi := hiHalf x.1 })

/-- A 32-bit read whose data the port keeps. -/
def State.readAt (s : State) (p : Port) (a : Nat) : State := s.readN p a 4

/-! ## Writes -/

/-- The write_reject bit that a host write to a locked unit sets, where this chapter's units are locked as a whole by a
running task (R25, R266, R298, R379); none where the write is accepted or the unit's own write judges. -/
def State.lockBit (s : State) (k : RKey) : Option (Fld × Ix) :=
  let o := k.1.info.off
  let d := k.2.d
  let i := k.2.i
  if !k.1.info.win || (k.1.info.rw == 0 && k.1 != .TRIP_CMD) || k.1 == .HOOP_EVT_SEL then none
  else if 0x680000 ≤ o ∧ o < 0x6C0000 then
    (if s.unitRuns 3 (16 * d + i) then some (F.CAR_STATUS_write_reject, carIx (16 * d + i)) else none)
  else if 0x6C0000 ≤ o ∧ o < 0x700000 then
    (if s.unitRuns 2 (8 * d + i) then some (F.TRIP_STATUS_write_reject, tripIx (8 * d + i)) else none)
  else if 0x700000 ≤ o ∧ o < 0x780000 then
    (if s.unitRuns 4 (8 * d + i) then some (F.FB_STATUS_write_reject, fbIx (8 * d + i)) else none)
  else if 0x780000 ≤ o ∧ o < 0x800000 then
    (if s.unitRuns 5 (4 * d + i) then some (F.HOOP_STATUS_write_reject, hoopIx (4 * d + i)) else none)
  else none

/-- Both halves of a 64-bit register set, each by its own write mask. -/
def State.plainWrite64 (s : State) (lo : Reg) (ix : Ix) (l h : Word) : State :=
  (s.plainWrite lo ix l).plainWrite lo.hi ix h

/-- A write of FB_IDX_VALUE: both halves or, where the interface refuses it, none (R345). -/
def State.fbIdxValueWrite (s : State) (n : Nat) (l h : Word) : State :=
  let ix := fbIx n
  let old := s.bit F.FB_STATUS_cfg_reject ix
  let t := (s.setBit F.FB_STATUS_cfg_reject ix false).fbCfgWrite .FB_IDX_VALUE_HI n h
  if t.bit F.FB_STATUS_cfg_reject ix then s.setBit F.FB_STATUS_cfg_reject ix true
  else (t.setBit F.FB_STATUS_cfg_reject ix old).setReg .FB_IDX_VALUE_LO ix l

/-- A 64-bit register written at once (R21): `lo` names its low half. -/
def State.write64 (s : State) (p : Port) (lo : Reg) (ix : Ix) (l h : Word) : State :=
  match lo with
  | .GT_SET_LO =>
    let s' := gtSetW s p l h
    if s.bit F.TIME_STATUS_first_step_done pkg then s' else s'.rebaseReports
  | .PLANT_OFFSET_LO => plantOffsetW s p l h
  | .TRIP_ROUTE_LO => (s.plainWrite64 lo ix l h).tripRouteChanged (8 * ix.d + ix.i)
  | .FB_IDX_VALUE_LO => s.fbIdxValueWrite (8 * ix.d + ix.i) l h
  | .NET_GATE_BASE_LO => netBankW s .NET_GATE_BASE_HI ix l h
  | .LS_GROUP_MAC_LO => lsGroupMacW s p l h
  | .CQ_BASE_LO => cqBaseWrite s p ix.i l h
  | .EQ_BASE_LO => eqBaseWrite s p ix.i l h
  | .RTR_PRIV_EN_LO => targetGate s p ix.i (fun s => (s.plainWrite64 lo ix l h).wake)
  | .DMA_HEAD_LO => dmaCfgWrite s (8 * ix.d + ix.i) (fun s => s.plainWrite64 lo ix l h)
  | .DMA_HWIN_BASE_LO => dmaCfgWrite s (8 * ix.d + ix.i) (fun s => s.plainWrite64 lo ix l h)
  | _ => s.plainWrite64 lo ix l h

/-- A write of PLC_RPT_SEL: a snapshot of a task's placement. -/
def plcRptSel (s : State) (v : Word) : State :=
  let s := s.plainWrite .PLC_RPT_SEL pkg v
  let l := s.placeReport (bitsOf v 0 12)
  s.setRegs [((.PLC_RPT_LOC, pkg), l.getD 0 0), ((.PLC_RPT_CODE, pkg), l.getD 1 0), ((.PLC_RPT_DATA, pkg), l.getD 2 0),
    ((.PLC_RPT_WIN, pkg), l.getD 3 0), ((.PLC_RPT_LOAD, pkg), l.getD 4 0)]

/-- A write of DBG_PKG_CTRL (R540): one command at a time. -/
def dbgPkgWrite (s : State) (v : Word) : State :=
  if bitOf v 0 && bitOf v 1 then s.setBit F.DBG_LOCK_cmd_reject pkg true
  else if bitOf v 0 then packageHalt s
  else if bitOf v 1 then packageResume s
  else s

/-- The effect of an accepted 32-bit write on a register of the package block. -/
def State.writePkg (s : State) (p : Port) (r : Reg) (ix : Ix) (v : Word) : State :=
  let i := ix.i
  match r with
  | .GT_SLEW => gtSlewW s p v
  | .TIME_CTRL => timeCtrlW s p v
  | .LOG_CTRL => logCtrlW s p v
  | .PLC_ROT_PERIOD =>
    let n := bitsOf v 0 20
    if n = 0 ∨ (1000 ≤ n ∧ n ≤ 600000) then s.plainWrite r ix v else s
  | .PLC_RPT_SEL => plcRptSel s v
  | .NET_CTRL => netCtrlW s p i v
  | .NET_GATE_CTRL => netGateCtrlW s p i v
  | .NET_GATE_CYCLE | .NET_GATE_ENTRY => netBankW s r ix 0 v
  | .NET_PTP_CTRL => netPtpW s p false v
  | .NET_PTP_INTERVALS => netPtpW s p true v
  | .NET_SERVO | .NET_SERVO_GAIN | .NET_QUAL => netServoW s p r v
  | .LS_CTRL | .LS_NODE | .LS_LINE_DIGEST => lsWrite s p r v
  | .AXP_CFG | .AXP_PERIOD => axpWrite s p r i v
  | .AXS_CFG | .AXS_SRC | .AXS_PERIOD | .AXS_ALLOW => axsWrite s p r i v
  | .CQ_CFG => cqCfgWrite s p i v
  | .CQ_NEXT_SEQ => cqNextSeqWrite s p i v
  | .EQ_CFG => eqCfgWrite s p i v
  | .EQ_HEAD => eqHeadWriteReg s p i v
  | .RTR_COMPLETE => rtrCompleteWrite s p i v
  | .RTR_CTRL | .RTR_IDLE | .RTR_STATUS => rtrTargetWrite s p r i v
  | .RTR_SRC => rtrSrcWrite s p i v
  | .RTR_DOORBELL => rtrDoorbellWrite s p v
  | .CQ_DOORBELL => cqDoorbellWrite s p i v
  | .RST_CTRL => rstCtrlWrite s p v
  | .BOOT_CTRL => bootCtrlWrite s p v
  | .TASK_KEY_HASH => taskKeyHashWrite s p i v
  | .DBG_LOCK => dbgLockWrite s p v
  | .DBG_PKG_CTRL => dbgPkgWrite s v
  | r => s.plainWrite r ix v

/-- The effect of an accepted 32-bit write on a register of a die window. -/
def State.writeDieReg (s : State) (p : Port) (r : Reg) (ix : Ix) (v : Word) : State :=
  let d := ix.d
  let i := ix.i
  match r with
  | .CTX_SEL => ctxSelW s p d v
  | .DBG_CTRL => dbgCtrlWrite s p d v
  | .PIN_CTRL => pinCtrlWrite s p (64 * d + i) v
  | .PIN_CMD => pinCmdWrite s p (64 * d + i) v
  | .PIN_CAP_SEL => pinCapSelWrite s p (64 * d + i) v
  | .CAR_HALF_PERIOD => carHalfPeriodWrite s p (16 * d + i) v
  | .CAR_PHASE => carPhaseWrite s p (16 * d + i) v
  | .PAIR_CFG => pairCfgWrite s p (16 * d + i) ix.j v
  | .PAIR_DT | .PAIR_MINPULSE => pairTimeWrite s r (16 * d + i) ix.j v
  | .TRIP_CMD => tripCmdWrite s p (8 * d + i) v
  | .TRIP_CTRL => tripCtrlWrite s p (8 * d + i) v
  | .FB_PROBE_CMD => fbProbeCmdWrite s p (8 * d + i) v
  | .FB_STATUS | .FB_PROBE_STATUS => s.plainWrite r ix v
  | .HOOP_STATUS => s.plainWrite r ix v
  | .HOOP_EVT_SEL => hoopEvtSelWrite s p (4 * d + i) v
  | .QUE_HOST_REL => queHostRel s p (256 * d + i) v
  | .QUE_IDLE | .QUE_MARK_HI | .QUE_MARK_LO | .QUE_FLUSH | .QUE_HOST_SRC => queCfgWrite s p r (256 * d + i) v
  | .DMA_CMD => dmaCmdWrite s p (8 * d + i) v
  | .DMA_APPEND => dmaAppendWrite s p (8 * d + i) v
  | .DMA_CTRL | .DMA_HWIN_SIZE => dmaCfgWrite s (8 * d + i) (fun s => s.plainWrite r ix v)
  | .DIE_SCRUB_CFG => if 60 ≤ bitsOf v 0 11 ∧ bitsOf v 0 11 ≤ 1440 then s.plainWrite r ix v else s
  | r =>
    if r.info.rw = 0 then s.plainWrite r ix v
    else if 0x700000 ≤ r.info.off ∧ r.info.off < 0x780000 then s.fbCfgWrite r (8 * d + i) v
    else if 0x780000 ≤ r.info.off ∧ r.info.off < 0x800000 then s.hoopCfgWrite r (4 * d + i) v
    else s.plainWrite r ix v

/-- A write of the low half of an RW 64-bit register goes to the port's staging register (R21). -/
def State.stage (s : State) (p : Port) (k : RKey) (v : Word) : State :=
  if k.1.info.rw = 0 then s else s.modPort p (fun x => { x with staged := some (regAddr k, v) })

/-- A write of a high half: with the staged low half, or with the low half as it stands (R21, R22). -/
def State.writeHi (s : State) (p : Port) (k : RKey) (v : Word) : State :=
  if k.1.info.rw = 0 then s
  else
    let lo := k.1.lo
    match (s.port p).staged with
    | some (a, w) =>
      if a = regAddr (lo, k.2) then (s.modPort p (fun x => { x with staged := none })).write64 p lo k.2 w v
      else s.write64 p lo k.2 (s.reg lo k.2) v
    | none => s.write64 p lo k.2 (s.reg lo k.2) v

/-- A write of a register that answers, but for the configuration digest. -/
def State.writeKey (s : State) (p : Port) (k : RKey) (v : Word) : State :=
  match s.lockBit k with
  | some (f, ix) => s.setBit f ix true
  | none =>
    if k.1.info.half = 1 then s.stage p k v
    else if k.1.info.half = 2 then s.writeHi p k v
    else if k.1.info.win then s.writeDieReg p k.1 k.2 v
    else s.writePkg p k.1 k.2 v

/-- The RW bits of a register, with those of its low half. -/
def State.rwPart (s : State) (k : RKey) : BitVec 64 :=
  joinHalves (s.reg k.1 k.2 &&& BitVec.ofNat 32 k.1.info.rw)
    (if k.1.info.half = 2 then s.reg k.1.lo k.2 &&& BitVec.ofNat 32 k.1.lo.info.rw else 0)

/-- A register of a block that the configuration digest covers (R206). -/
def digestReg (k : RKey) : Bool :=
  if k.1.info.win then 0x600000 ≤ k.1.info.off && k.1.info.off < 0x800000
  else 0x180000 ≤ k.1.info.off && k.1.info.off < 0x200000

/-- A write of a register that answers; a configuration change forms CONFIG_DIGEST anew (R206). -/
def State.writeCfg (s : State) (p : Port) (k : RKey) (v : Word) : State :=
  let s' := s.writeKey p k v
  if digestReg k && s'.rwPart k != s.rwPart k then s'.updateDigest else s'

/-- A 32-bit write of a register from a port (R18, R25, R31, R54, R55, R522). -/
def State.hostWriteReg (s : State) (p : Port) (k : RKey) (v : Word) : State :=
  if !keyOk k || !s.reaches p (regAddr k) || !s.mayWrite p then s
  else if k.1.info.win && !s.windowUp k.2.d then s.absentAccess
  else s.writeCfg p k v

/-- A write of `n` bytes to die memory from a port (R24, R31, R54, R55, R57). -/
def State.dieMemWrite (s : State) (p : Port) (d off n : Nat) (v : BitVec 64) : State :=
  if 0x400000 ≤ off || 8 ≤ d || !s.reaches p (0x08000000 + 0x01000000 * d + off) || !s.mayWrite p then s
  else if !s.windowUp d then s.absentAccess
  else if !(n == 1 || n == 2 || n == 4 || n == 8) || off % n != 0 then s
  else if s.rangeHeld d off n then s.bump F.MEM_WRITE_REJECT_COUNT_count pkg
  else s.writeDie d off (leBytes v.toNat n)

/-- A 32-bit write at a BAR0 offset, or of BAR2 (R18, R24, R31, R52 to R57, R452, R457). -/
def State.hostWrite (s : State) (p : Port) (a : Nat) (v : Word) : State :=
  if inBar2 p a then (if s.bar2Up && a % 4 == 0 then s.bar2Write (a - 0x10000000) v else s)
  else if !s.reaches p a || !s.mayWrite p || 0x10000000 ≤ a then s
  else if s.meetsNone p a then s.absentAccess
  else if a % 4 != 0 then s
  else if 0x08000000 ≤ a then
    let d := (a - 0x08000000) / 0x01000000
    let o := a % 0x01000000
    if o < 0x400000 then s.dieMemWrite p d o 4 (v.zeroExtend 64)
    else match regSearch true d o allRegs with
      | some k => s.hostWriteReg p k v
      | none => s
  else if 0x01800000 ≤ a && a < 0x01880000 then s.spaceWrite true (a - 0x01800000) (wordBytes v)
  else match regSearch false 0 a allRegs with
    | some k => s.hostWriteReg p k v
    | none => s

/-- A write of `n` bytes at a BAR0 offset (R23, R24): of 8, the two halves in one atomic access; to die memory of any width; any other
completes and is ignored. -/
def State.hostWriteN (s : State) (p : Port) (a n : Nat) (v : BitVec 64) : State :=
  if n = 4 then s.hostWrite p a (loHalf v)
  else if 0x08000000 ≤ a ∧ a < 0x10000000 ∧ a % 0x01000000 < 0x400000 then
    s.dieMemWrite p ((a - 0x08000000) / 0x01000000) (a % 0x01000000) n v
  else if s.meetsNone p a then (if s.mayWrite p then s.absentAccess else s)
  else if n = 8 ∧ a % 8 = 0 then (s.hostWrite p a (loHalf v)).hostWrite p (a + 4) (hiHalf v)
  else s

end Sys2Proof.Machine
end

