-- ==== Sys2Proof/Machine/HostCmds.lean ====
section
/-! DEFINITION. The commands that are accesses of a port: each is the access at its register (R19 to R25), and what the
register's own rule makes of it. -/

namespace Sys2Proof.Machine

/-! ## Registers and memory (R16, R19, R21, R25, R54, R57) -/

/-- An access width in bytes; one that is no number of bytes is as undefined as one of 3 (R24). -/
def widthBytes (width : Nat) : Nat := if width % 8 = 0 then width / 8 else 3

/-- REG64_LO_READ: a read; one of 64 bits is the access of both halves (R23). -/
def execReg64LoRead (port : Port) (a : Access) (s : State) : Host.Outcome State Fault Refusal :=
  .next (s.readN port a.off (widthBytes a.width))

/-- REG64_HI_WRITE: a write; one of 64 bits stands at the low half and is the access of both (R23). -/
def execReg64HiWrite (port : Port) (a : Access) (v : BitVec 64) (s : State) : Host.Outcome State Fault Refusal :=
  .next (s.hostWriteN port a.off (widthBytes a.width) v)

/-- RC_FIELD_READ: a read. -/
def execRcFieldRead (port : Port) (a : Access) (s : State) : Host.Outcome State Fault Refusal :=
  .next (s.readN port a.off (widthBytes a.width))

/-- REGISTER_WRITE. -/
def execRegisterWrite (port : Port) (a : Access) (v : BitVec 64) (s : State) : Host.Outcome State Fault Refusal :=
  .next (s.hostWriteN port a.off (widthBytes a.width) v)

/-- ABSENT_DIE_ACCESS (R54, R55): no effect where the offset lies in no window of an absent or fenced die. -/
def execAbsentDieAccess (port : Port) (a : Access) (write : Bool) (s : State) : Host.Outcome State Fault Refusal :=
  .next (if decide (0x08000000 ≤ a.off ∧ a.off < 0x10000000) && !s.windowUp ((a.off - 0x08000000) / 0x01000000) then
      (if write then s.hostWriteN port a.off (widthBytes a.width) 0 else s.readN port a.off (widthBytes a.width))
    else s)

/-- DIE_MEMORY_WRITE (R57): `width` in bits. -/
def execDieMemoryWrite (port : Port) (d off width : Nat) (v : BitVec 64) (s : State) : Host.Outcome State Fault Refusal :=
  .next (s.dieMemWrite port d off (widthBytes width) v)

/-! ## Quad-SPI (R455, R456) -/

/-- A QSPI read returns 0 from an offset that is not a word of BAR0; the access acts on the register (R455, R456). -/
def execQspiRead32 (off : Nat) (s : State) : Host.Outcome State Fault Refusal := .next (s.readAt .qspi off)

/-- QSPI_WRITE32: when CS# rises. -/
def execQspiWrite32 (off : Nat) (v : Word) (s : State) : Host.Outcome State Fault Refusal := .next (s.hostWrite .qspi off v)

/-- QSPI_READ_TIMEOUT: the read acts on the register; the result is discarded and 0 is driven. -/
def execQspiReadTimeout (off : Nat) (s : State) : Host.Outcome State Fault Refusal :=
  .next ((s.readAt .qspi off).modPort .qspi (fun x => { x with rd := 0 }))

/-! ## Pins, carriers, trips -/

/-- PIN_FAULT_CLEAR (R255). -/
def execPinFaultClear (port : Port) (p : Nat) (s : State) : Host.Outcome State Fault Refusal :=
  .next (s.hostWriteReg port (.PIN_CMD, pinIx p) 1)

/-- PIN_CTRL_WRITE (R262). -/
def execPinCtrlWrite (port : Port) (p : Nat) (v : Word) (s : State) : Host.Outcome State Fault Refusal :=
  .next (s.hostWriteReg port (.PIN_CTRL, pinIx p) v)

/-- PIN_CAP_SEL_WRITE (R261). -/
def execPinCapSelWrite (port : Port) (p : Nat) (v : Word) (s : State) : Host.Outcome State Fault Refusal :=
  .next (s.hostWriteReg port (.PIN_CAP_SEL, pinIx p) v)

/-- PAIR_CFG_WRITE (R265). -/
def execPairCfgWrite (port : Port) (c n : Nat) (v : Word) (s : State) : Host.Outcome State Fault Refusal :=
  .next (s.hostWriteReg port (.PAIR_CFG, pairIx c n) v)

/-- TRIP_CMD_CLEAR (R283). -/
def execTripCmdClear (port : Port) (j : Nat) (s : State) : Host.Outcome State Fault Refusal :=
  .next (s.hostWriteReg port (.TRIP_CMD, tripIx j) 1)

/-- TRIP_CTRL_WRITE (R566). -/
def execTripCtrlWrite (port : Port) (j : Nat) (v : Word) (g : Time) (s : State) : Host.Outcome State Fault Refusal :=
  .next ((s.at g).hostWriteReg port (.TRIP_CTRL, tripIx j) v)

/-! ## Feedback, hoops -/

/-- PROBE_ARM (R337). -/
def execProbeArm (port : Port) (n : Nat) (g : Time) (s : State) : Host.Outcome State Fault Refusal :=
  .next ((s.at g).hostWriteReg port (.FB_PROBE_CMD, fbIx n) 1)

/-- FB_MODE_WRITE (R297). -/
def execFbModeWrite (port : Port) (n : Nat) (v : Word) (g : Time) (s : State) : Host.Outcome State Fault Refusal :=
  .next ((s.at g).hostWriteReg port (.FB_CTRL, fbIx n) v)

/-- HOOP_ENABLE (R379): HOOP_CTRL written with en = 1. -/
def execHoopEnable (port : Port) (h : Nat) (v : Word) (g : Time) (s : State) : Host.Outcome State Fault Refusal :=
  .next ((s.at g).hostWriteReg port (.HOOP_CTRL, hoopIx h) (v ||| 1))

/-- HOOP_DISABLE (R379): HOOP_CTRL written with en = 0. -/
def execHoopDisable (port : Port) (h : Nat) (v : Word) (g : Time) (s : State) : Host.Outcome State Fault Refusal :=
  .next ((s.at g).hostWriteReg port (.HOOP_CTRL, hoopIx h) (v &&& ~~~1))

/-- HOOP_EVT_SEL_WRITE (R378). -/
def execHoopEvtSelWrite (port : Port) (h : Nat) (v : Word) (s : State) : Host.Outcome State Fault Refusal :=
  .next (s.hostWriteReg port (.HOOP_EVT_SEL, hoopIx h) v)

/-! ## Network -/

/-- NET_PTP_CTRL_WRITE (R389): the control register, or with `intervals` the message intervals. -/
def execNetPtpCtrlWrite (port : Port) (intervals : Bool) (v : Word) (g : Time) (s : State) :
    Host.Outcome State Fault Refusal :=
  .next ((s.at g).hostWriteReg port (if intervals then .NET_PTP_INTERVALS else .NET_PTP_CTRL, pkg) v)

/-- GATE_SWAP (R387): NET_GATE_CTRL written with swap = 1. -/
def execGateSwap (port : Port) (p : Nat) (v : Word) (s : State) : Host.Outcome State Fault Refusal :=
  .next (s.hostWriteReg port (.NET_GATE_CTRL, pkg1 p) (v ||| 4))

/-! ## Queues, DMA -/

/-- QUE_HOST_REL_WRITE (R418). -/
def execQueHostRelWrite (port : Port) (q : Nat) (v : Word) (g : Time) (s : State) : Host.Outcome State Fault Refusal :=
  .next ((s.at g).hostWriteReg port (.QUE_HOST_REL, queIx q) v)

/-- DMA_START (R433). -/
def execDmaStart (port : Port) (c : Nat) (s : State) : Host.Outcome State Fault Refusal :=
  .next (s.hostWriteReg port (.DMA_CMD, dmaIx c) 1)

/-- DMA_ABORT (R441). -/
def execDmaAbort (port : Port) (c : Nat) (s : State) : Host.Outcome State Fault Refusal :=
  .next (s.hostWriteReg port (.DMA_CMD, dmaIx c) 2)

/-- DMA_APPEND (R447). -/
def execDmaAppend (port : Port) (c : Nat) (v : Word) (s : State) : Host.Outcome State Fault Refusal :=
  .next (s.hostWriteReg port (.DMA_APPEND, dmaIx c) v)

/-! ## Command and event queues, router -/

/-- CQ_DOORBELL (R459). -/
def execCqDoorbell (port : Port) (q : Nat) (v : Word) (s : State) : Host.Outcome State Fault Refusal :=
  .next (s.hostWriteReg port (.CQ_DOORBELL, pkg1 q) v)

/-- CQ_ENABLE (R466): CQ_CFG written with en = 1. -/
def execCqEnable (port : Port) (q : Nat) (v : Word) (s : State) : Host.Outcome State Fault Refusal :=
  .next (s.hostWriteReg port (.CQ_CFG, pkg1 q) (v ||| 1))

/-- CQ_BASE_HI_WRITE (R487). -/
def execCqBaseHiWrite (port : Port) (q : Nat) (v : Word) (s : State) : Host.Outcome State Fault Refusal :=
  .next (s.hostWriteReg port (.CQ_BASE_HI, pkg1 q) v)

/-- EQ_ENABLE (R468): EQ_CFG written with en = 1. -/
def execEqEnable (port : Port) (n : Nat) (v : Word) (s : State) : Host.Outcome State Fault Refusal :=
  .next (s.hostWriteReg port (.EQ_CFG, pkg1 n) (v ||| 1))

/-- EQ_HEAD_WRITE (R468). -/
def execEqHeadWrite (port : Port) (n : Nat) (v : Word) (s : State) : Host.Outcome State Fault Refusal :=
  .next (s.hostWriteReg port (.EQ_HEAD, pkg1 n) v)

/-- RTR_DOORBELL (R476). -/
def execRtrDoorbell (port : Port) (v : Word) (s : State) : Host.Outcome State Fault Refusal :=
  .next (s.hostWriteReg port (.RTR_DOORBELL, pkg) v)

/-- RTR_CLAIM (R479): a read of the register. -/
def execRtrClaim (port : Port) (t : Nat) (s : State) : Host.Outcome State Fault Refusal :=
  .next (if t < 18 then s.readAt port (regAddr (.RTR_CLAIM, pkg1 t)) else s)

/-- RTR_COMPLETE (R479). -/
def execRtrComplete (port : Port) (t : Nat) (v : Word) (s : State) : Host.Outcome State Fault Refusal :=
  .next (s.hostWriteReg port (.RTR_COMPLETE, pkg1 t) v)

/-! ## Inspection and debug -/

/-- CTX_SEL_WRITE (R147). -/
def execCtxSelWrite (port : Port) (d : Nat) (v : Word) (s : State) : Host.Outcome State Fault Refusal :=
  .next (s.hostWriteReg port (.CTX_SEL, dieIx d) v)

/-- PLC_RPT_SEL_WRITE (R228). -/
def execPlcRptSelWrite (port : Port) (v : Word) (s : State) : Host.Outcome State Fault Refusal :=
  .next (s.hostWriteReg port (.PLC_RPT_SEL, pkg) v)

/-- CTX_HALT (R141, R149). -/
def execCtxHalt (port : Port) (d : Nat) (s : State) : Host.Outcome State Fault Refusal :=
  .next (s.hostWriteReg port (.DBG_CTRL, dieIx d) 1)

/-- CTX_RESUME (R143). -/
def execCtxResume (port : Port) (d : Nat) (s : State) : Host.Outcome State Fault Refusal :=
  .next (s.hostWriteReg port (.DBG_CTRL, dieIx d) 2)

/-- CTX_SINGLE_STEP (R144). -/
def execCtxSingleStep (port : Port) (d : Nat) (s : State) : Host.Outcome State Fault Refusal :=
  .next (s.hostWriteReg port (.DBG_CTRL, dieIx d) 4)

/-- BRK_ENABLE (R140). -/
def execBrkEnable (port : Port) (d : Nat) (s : State) : Host.Outcome State Fault Refusal :=
  .next (s.hostWriteReg port (.DBG_CTRL, dieIx d) 8)

/-- BRK_DISABLE (R140). -/
def execBrkDisable (port : Port) (d : Nat) (s : State) : Host.Outcome State Fault Refusal :=
  .next (s.hostWriteReg port (.DBG_CTRL, dieIx d) 16)

/-- DBG_NEW_CHALLENGE (R539). -/
def execDbgNewChallenge (port : Port) (s : State) : Host.Outcome State Fault Refusal :=
  .next (s.hostWriteReg port (.DBG_LOCK, pkg) 2)

/-- DBG_SUBMIT (R539). -/
def execDbgSubmit (port : Port) (s : State) : Host.Outcome State Fault Refusal :=
  .next (s.hostWriteReg port (.DBG_LOCK, pkg) 4)

/-- DBG_UNLOCK_CHECK_DONE (R539). -/
def execDbgUnlockCheckDone (s : State) : Host.Outcome State Fault Refusal := .next (dbgUnlockCheckDone s)

/-- DBG_LOCK (R539). -/
def execDbgLock (port : Port) (s : State) : Host.Outcome State Fault Refusal :=
  .next (s.hostWriteReg port (.DBG_LOCK, pkg) 8)

/-- PACKAGE_DEBUG_HALT (R540). -/
def execPackageDebugHalt (port : Port) (g : Time) (s : State) : Host.Outcome State Fault Refusal :=
  .next ((s.at g).hostWriteReg port (.DBG_PKG_CTRL, pkg) 1)

/-- PACKAGE_DEBUG_RESUME (R540). -/
def execPackageDebugResume (port : Port) (g : Time) (s : State) : Host.Outcome State Fault Refusal :=
  .next ((s.at g).hostWriteReg port (.DBG_PKG_CTRL, pkg) 2)

/-! ## Reset, boot, task key -/

/-- RST_CTRL_RESET (R541): the write of RST_CTRL; the block at 0x0001_0000 is decoded before READY too (R522). -/
def execRstCtrlReset (port : Port) (v : Word) (s : State) : Host.Outcome State Fault Refusal :=
  .next (s.hostWriteReg port (.RST_CTRL, pkg) v)

/-- BOOT_GO (R533): the write of BOOT_CTRL. -/
def execBootGo (port : Port) (v : Word) (s : State) : Host.Outcome State Fault Refusal :=
  .next (s.hostWriteReg port (.BOOT_CTRL, pkg) v)

/-- TASK_KEY_LOCK_WRITE (R538): W1S. -/
def execTaskKeyLockWrite (port : Port) (v : Word) (s : State) : Host.Outcome State Fault Refusal :=
  .next (s.hostWriteReg port (.TASK_KEY_LOCK, pkg) v)

/-! ## Time and log -/

/-- GT_SLEW_WRITE (R67). -/
def execGtSlewWrite (port : Port) (v : Word) (g : Time) (s : State) : Host.Outcome State Fault Refusal :=
  .next ((s.at g).hostWriteReg port (.GT_SLEW, pkg) v)

/-- GT_SET (R68): the write of GT_SET_HI. -/
def execGtSet (port : Port) (hi : Word) (s : State) : Host.Outcome State Fault Refusal :=
  .next (s.hostWriteReg port (.GT_SET_HI, pkg) hi)

/-- PLANT_OFFSET_WRITE (R69): the write of PLANT_OFFSET_HI. -/
def execPlantOffsetWrite (port : Port) (hi : Word) (s : State) : Host.Outcome State Fault Refusal :=
  .next (s.hostWriteReg port (.PLANT_OFFSET_HI, pkg) hi)

/-- TIME_CTRL_WRITE (R391). -/
def execTimeCtrlWrite (port : Port) (v : Word) (g : Time) (s : State) : Host.Outcome State Fault Refusal :=
  .next ((s.at g).hostWriteReg port (.TIME_CTRL, pkg) v)

/-- LOG_CTRL_WRITE (R101). -/
def execLogCtrlWrite (port : Port) (v : Word) (s : State) : Host.Outcome State Fault Refusal :=
  .next (s.hostWriteReg port (.LOG_CTRL, pkg) v)

end Sys2Proof.Machine
end

