-- ==== Sys2Proof/Machine/PwmInstr.lean ====
section
/-! DEFINITION. PWMW and PWMC (R171 to R174). -/

namespace Sys2Proof.Machine

/-- The selector and value of PWMW are in the table of R172; `m` = pairs configured on the carrier. -/
def pwmwOk (m : Nat) (ga gb : Word) : Bool :=
  let pair := bitsOf gb 0 2
  let field := bitsOf gb 4 4
  let dither := bitsOf gb 8 4
  bitsOf gb 2 2 == 0 && bitsOf gb 12 20 == 0 &&
  (if field = 0 then decide (pair < m)
   else pair == 0 && dither == 0 &&
     (if field = 1 then decide (1 ≤ ga.toNat) && decide (ga.toNat ≤ 16777216)
      else field == 2 && decide (ga.toNat < 2 ^ 31)))

/-- PWMW: a stamped write of a carrier quantity. -/
def bodyPwmw (t : Nat) (ts : TReg) (ga gb : GReg) (h : Handle) : Body := fun s k st =>
  let r := k.handle [3] h
  let c := match r with | some r => r.a | none => 0
  let x := st.rt ts
  let v := st.w.rg ga
  let sel := st.w.rg gb
  guardAll s [failIf r.isNone 0x0D, st.effFault x, failIf (!pwmwOk (s.pairCount c) v sel) 0x11] fun _ =>
    .go s (st.addEff t k x (.pwmw c (bitsOf sel 0 2) (bitsOf sel 4 4) (bitsOf sel 8 4) v))

/-- The command word of PWMC fits the kind of its handle (R174). -/
def pwmcOk (kind : Nat) (ga : Word) : Bool :=
  bitsOf ga 6 26 == 0 && (if kind = 3 then decide (bitsOf ga 0 4 ≤ 3) else bitsOf ga 0 4 == 4)

/-- PWMC: a stamped carrier or trip command. -/
def bodyPwmc (t : Nat) (ts : TReg) (ga : GReg) (h : Handle) : Body := fun s k st =>
  let x := st.rt ts
  let v := st.w.rg ga
  match k.handle [2, 3] h with
  | none => guardAll s [some 0x0D, st.effFault x] fun _ => .go s st
  | some r =>
    guardAll s [st.effFault x, failIf (!pwmcOk r.kind v) 0x11] fun _ =>
      .go s (st.addEff t k x
        (if r.kind = 3 then .pwmc r.a (bitsOf v 4 2) (bitsOf v 0 4) else .tripClear r.a))

/-- PWMW (R171). -/
def execPwmw (t : Nat) (ts : TReg) (ga gb : GReg) (h : Handle) (s : State) : Host.Outcome State Fault Refusal :=
  .next (s.issue t (.pwmw t ts ga gb h) (bodyPwmw t ts ga gb h))

/-- PWMC (R171). -/
def execPwmc (t : Nat) (ts : TReg) (ga : GReg) (h : Handle) (s : State) : Host.Outcome State Fault Refusal :=
  .next (s.issue t (.pwmc t ts ga h) (bodyPwmc t ts ga h))

end Sys2Proof.Machine
end

