-- ==== Sys2Proof/Machine/Dispatch.lean ====
section
/-! DEFINITION. The effect of every command on everything but the queue of waiting commands: one arm per constructor of
Instr, each one direct call of its meaning. -/

namespace Sys2Proof.Machine

/-- The effect of a command. -/
def exec (i : Instr) (s : State) : Host.Outcome State Fault Refusal :=
  match i with
  | .add t rd ra rb => Sys2Proof.Machine.execAdd t rd ra rb s
  | .sub t rd ra rb => Sys2Proof.Machine.execSub t rd ra rb s
  | .and t rd ra rb => Sys2Proof.Machine.execAnd t rd ra rb s
  | .or t rd ra rb => Sys2Proof.Machine.execOr t rd ra rb s
  | .xor t rd ra rb => Sys2Proof.Machine.execXor t rd ra rb s
  | .shl t rd ra rb => Sys2Proof.Machine.execShl t rd ra rb s
  | .shr t rd ra rb => Sys2Proof.Machine.execShr t rd ra rb s
  | .sra t rd ra rb => Sys2Proof.Machine.execSra t rd ra rb s
  | .min t rd ra rb => Sys2Proof.Machine.execMin t rd ra rb s
  | .max t rd ra rb => Sys2Proof.Machine.execMax t rd ra rb s
  | .adds t rd ra rb => Sys2Proof.Machine.execAdds t rd ra rb s
  | .subs t rd ra rb => Sys2Proof.Machine.execSubs t rd ra rb s
  | .cmp t ra rb => Sys2Proof.Machine.execCmp t ra rb s
  | .addi t rd ra imm => Sys2Proof.Machine.execAddi t rd ra imm s
  | .andi t rd ra imm => Sys2Proof.Machine.execAndi t rd ra imm s
  | .ori t rd ra imm => Sys2Proof.Machine.execOri t rd ra imm s
  | .xori t rd ra imm => Sys2Proof.Machine.execXori t rd ra imm s
  | .lui t rd imm => Sys2Proof.Machine.execLui t rd imm s
  | .limm t rd ext => Sys2Proof.Machine.execLimm t rd ext s
  | .mul t rd ra rb => Sys2Proof.Machine.execMul t rd ra rb s
  | .mulh t rd ra rb => Sys2Proof.Machine.execMulh t rd ra rb s
  | .mulhu t rd ra rb => Sys2Proof.Machine.execMulhu t rd ra rb s
  | .mac t ra rb => Sys2Proof.Machine.execMac t ra rb s
  | .macr t rd ra => Sys2Proof.Machine.execMacr t rd ra s
  | .qmul t rd ra rb => Sys2Proof.Machine.execQmul t rd ra rb s
  | .divu t rd ra rb => Sys2Proof.Machine.execDivu t rd ra rb s
  | .divs t rd ra rb => Sys2Proof.Machine.execDivs t rd ra rb s
  | .remu t rd ra rb => Sys2Proof.Machine.execRemu t rd ra rb s
  | .beq t ra rb off => Sys2Proof.Machine.execBeq t ra rb off s
  | .bne t ra rb off => Sys2Proof.Machine.execBne t ra rb off s
  | .blt t ra rb off => Sys2Proof.Machine.execBlt t ra rb off s
  | .bge t ra rb off => Sys2Proof.Machine.execBge t ra rb off s
  | .bltu t ra rb off => Sys2Proof.Machine.execBltu t ra rb off s
  | .bgeu t ra rb off => Sys2Proof.Machine.execBgeu t ra rb off s
  | .jmp t ra off => Sys2Proof.Machine.execJmp t ra off s
  | .call t ra off => Sys2Proof.Machine.execCall t ra off s
  | .ret t => Sys2Proof.Machine.execRet t s
  | .ldb t rd ra off => Sys2Proof.Machine.execLdb t rd ra off s
  | .ldh t rd ra off => Sys2Proof.Machine.execLdh t rd ra off s
  | .ldw t rd ra off => Sys2Proof.Machine.execLdw t rd ra off s
  | .ldd t td ra off => Sys2Proof.Machine.execLdd t td ra off s
  | .stb t ra rb off => Sys2Proof.Machine.execStb t ra rb off s
  | .sth t ra rb off => Sys2Proof.Machine.execSth t ra rb off s
  | .stw t ra rb off => Sys2Proof.Machine.execStw t ra rb off s
  | .std t ra tb off => Sys2Proof.Machine.execStd t ra tb off s
  | .tmov t f => Sys2Proof.Machine.execTmov t f s
  | .tadd t td ta gb => Sys2Proof.Machine.execTadd t td ta gb s
  | .taddi t td ta u ext => Sys2Proof.Machine.execTaddi t td ta u ext s
  | .tsub t td ta tb => Sys2Proof.Machine.execTsub t td ta tb s
  | .tcmp t ta tb => Sys2Proof.Machine.execTcmp t ta tb s
  | .tlead t td ta => Sys2Proof.Machine.execTlead t td ta s
  | .tcvt t rd ta tb u => Sys2Proof.Machine.execTcvt t rd ta tb u s
  | .tnow t m => Sys2Proof.Machine.execTnow t m s
  | .brk t => Sys2Proof.Machine.execBrk t s
  | .nop t => Sys2Proof.Machine.execNop t s
  | .endStep t => Sys2Proof.Machine.execEndStep t s
  | .wait t ta => Sys2Proof.Machine.execWait t ta s
  | .waite t rd timer => Sys2Proof.Machine.execWaite t rd timer s
  | .stch t ts ga h => Sys2Proof.Machine.execStch t ts ga h s
  | .stchr t ts ga h => Sys2Proof.Machine.execStchr t ts ga h s
  | .capt t td ga h => Sys2Proof.Machine.execCapt t td ga h s
  | .captp t td h => Sys2Proof.Machine.execCaptp t td h s
  | .pwmw t ts ga gb h => Sys2Proof.Machine.execPwmw t ts ga gb h s
  | .pwmc t ts ga h => Sys2Proof.Machine.execPwmc t ts ga h s
  | .fbrd t td ga h => Sys2Proof.Machine.execFbrd t td ga h s
  | .fbspd t td h => Sys2Proof.Machine.execFbspd t td h s
  | .fbcmp t tc ga gb h => Sys2Proof.Machine.execFbcmp t tc ga gb h s
  | .hooprd t rd ga h => Sys2Proof.Machine.execHooprd t rd ga h s
  | .hevt t ga gb h => Sys2Proof.Machine.execHevt t ga gb h s
  | .hcan t ga h => Sys2Proof.Machine.execHcan t ga h s
  | .send t ts ga gb h => Sys2Proof.Machine.execSend t ts ga gb h s
  | .recv t rd ga h => Sys2Proof.Machine.execRecv t rd ga h s
  | .qput t ga h => Sys2Proof.Machine.execQput t ga h s
  | .qrsv t rd ga h => Sys2Proof.Machine.execQrsv t rd ga h s
  | .qend t h => Sys2Proof.Machine.execQend t h s
  | .qget t rd h => Sys2Proof.Machine.execQget t rd h s
  | .qmark t h => Sys2Proof.Machine.execQmark t h s
  | .qrew t h => Sys2Proof.Machine.execQrew t h s
  | .qrel t h => Sys2Proof.Machine.execQrel t h s
  | .qlvl t rd ga h => Sys2Proof.Machine.execQlvl t rd ga h s
  | .evnt t ga gb h => Sys2Proof.Machine.execEvnt t ga gb h s
  | .ring t h => Sys2Proof.Machine.execRing t h s
  | .camh t rd ga gb h => Sys2Proof.Machine.execCamh t rd ga gb h s
  | .crc t rd ra rb n => Sys2Proof.Machine.execCrc t rd ra rb n s
  | .fault t code => Sys2Proof.Machine.execFault t code s
  | .stepReady t => Sys2Proof.Machine.execStepReady t s
  | .stepDispatch d slot => Sys2Proof.Machine.execStepDispatch d slot s
  | .stepCutOff t => Sys2Proof.Machine.execStepCutOff t s
  | .timerFire t => Sys2Proof.Machine.execTimerFire t s
  | .messageDeliver ix => Sys2Proof.Machine.execMessageDeliver ix s
  | .cmdNop q => Sys2Proof.Machine.execCmdNop q s
  | .task q => Sys2Proof.Machine.execTask q s
  | .load q => Sys2Proof.Machine.execLoad q s
  | .start q => Sys2Proof.Machine.execStart q s
  | .stop q => Sys2Proof.Machine.execStop q s
  | .unload q => Sys2Proof.Machine.execUnload q s
  | .setAffinity q => Sys2Proof.Machine.execSetAffinity q s
  | .setSplit q => Sys2Proof.Machine.execSetSplit q s
  | .stopFallback t => Sys2Proof.Machine.execStopFallback t s
  | .taskFaultFallback t => Sys2Proof.Machine.execTaskFaultFallback t s
  | .migrationStart t g => Sys2Proof.Machine.execMigrationStart t g s
  | .migrationEnd t g => Sys2Proof.Machine.execMigrationEnd t g s
  | .migrationTimeout q g => Sys2Proof.Machine.execMigrationTimeout q g s
  | .rotationStart d g => Sys2Proof.Machine.execRotationStart d g s
  | .bistDone d pass g => Sys2Proof.Machine.execBistDone d pass g s
  | .rotationDefer d g => Sys2Proof.Machine.execRotationDefer d g s
  | .pinInputEdge p stamp level => Sys2Proof.Machine.execPinInputEdge p stamp level s
  | .pinFilterAccept p => Sys2Proof.Machine.execPinFilterAccept p s
  | .stitchLock p => Sys2Proof.Machine.execStitchLock p s
  | .stitchApply p => Sys2Proof.Machine.execStitchApply p s
  | .engineDisagree p g => Sys2Proof.Machine.execEngineDisagree p g s
  | .readbackMismatch p m g => Sys2Proof.Machine.execReadbackMismatch p m g s
  | .pinFaultClear port p => Sys2Proof.Machine.execPinFaultClear port p s
  | .pinCtrlWrite port p v => Sys2Proof.Machine.execPinCtrlWrite port p v s
  | .pinCapSelWrite port p v => Sys2Proof.Machine.execPinCapSelWrite port p v s
  | .carrierStartApply c => Sys2Proof.Machine.execCarrierStartApply c s
  | .carrierBoundary c => Sys2Proof.Machine.execCarrierBoundary c s
  | .carrierMidpoint c => Sys2Proof.Machine.execCarrierMidpoint c s
  | .phaseHoldEnd c => Sys2Proof.Machine.execPhaseHoldEnd c s
  | .pwmStoppedWriteApply c => Sys2Proof.Machine.execPwmStoppedWriteApply c s
  | .referenceEdge c n => Sys2Proof.Machine.execReferenceEdge c n s
  | .deadTimeExpiry c n => Sys2Proof.Machine.execDeadTimeExpiry c n s
  | .minPulseExpiry c n => Sys2Proof.Machine.execMinPulseExpiry c n s
  | .pairCfgWrite port c n v => Sys2Proof.Machine.execPairCfgWrite port c n v s
  | .tripInputEdge j stamp level => Sys2Proof.Machine.execTripInputEdge j stamp level s
  | .tripFilterAccept j => Sys2Proof.Machine.execTripFilterAccept j s
  | .blankWindowEnd j => Sys2Proof.Machine.execBlankWindowEnd j s
  | .tripClearApply j => Sys2Proof.Machine.execTripClearApply j s
  | .tripCmdClear port j => Sys2Proof.Machine.execTripCmdClear port j s
  | .tripCtrlWrite port j v g => Sys2Proof.Machine.execTripCtrlWrite port j v g s
  | .tripCheck j filterOk forceOk g => Sys2Proof.Machine.execTripCheck j filterOk forceOk g s
  | .fbCountEdge n => Sys2Proof.Machine.execFbCountEdge n s
  | .commCodeChange n => Sys2Proof.Machine.execCommCodeChange n s
  | .fbIndexEdge n => Sys2Proof.Machine.execFbIndexEdge n s
  | .fbProbeEdge n => Sys2Proof.Machine.execFbProbeEdge n s
  | .probeArm port n g => Sys2Proof.Machine.execProbeArm port n g s
  | .serialFrameStart n => Sys2Proof.Machine.execSerialFrameStart n s
  | .serialFrameVisible n crossedLate measured asked came => Sys2Proof.Machine.execSerialFrameVisible n crossedLate measured asked came s
  | .fbStandstill n => Sys2Proof.Machine.execFbStandstill n s
  | .fbModeWrite port n v g => Sys2Proof.Machine.execFbModeWrite port n v g s
  | .fbCompareArmApply n => Sys2Proof.Machine.execFbCompareArmApply n s
  | .fbCompareDisarmApply n => Sys2Proof.Machine.execFbCompareDisarmApply n s
  | .hoopTooth h => Sys2Proof.Machine.execHoopTooth h s
  | .hoopIndexEdge h => Sys2Proof.Machine.execHoopIndexEdge h s
  | .hoopMissingTooth h => Sys2Proof.Machine.execHoopMissingTooth h s
  | .hoopStall h => Sys2Proof.Machine.execHoopStall h s
  | .hoopCoastExpiry h => Sys2Proof.Machine.execHoopCoastExpiry h s
  | .hevtApply h => Sys2Proof.Machine.execHevtApply h s
  | .hcanApply h => Sys2Proof.Machine.execHcanApply h s
  | .hoopEventStart h slot => Sys2Proof.Machine.execHoopEventStart h slot s
  | .hoopEventEnd h slot => Sys2Proof.Machine.execHoopEventEnd h slot s
  | .hoopEnable port h v g => Sys2Proof.Machine.execHoopEnable port h v g s
  | .hoopDisable port h v g => Sys2Proof.Machine.execHoopDisable port h v g s
  | .hoopEvtSelWrite port h v => Sys2Proof.Machine.execHoopEvtSelWrite port h v s
  | .netLinkChange p up g => Sys2Proof.Machine.execNetLinkChange p up g s
  | .axisFrameRx p h f raw => Sys2Proof.Machine.execAxisFrameRx p h f raw s
  | .ptpSyncRx p h seq originNs corr twoStep raw => Sys2Proof.Machine.execPtpSyncRx p h seq originNs corr twoStep raw s
  | .ptpFollowUpRx p h seq originNs corr raw => Sys2Proof.Machine.execPtpFollowUpRx p h seq originNs corr raw s
  | .ptpDelayReqRx p h m raw => Sys2Proof.Machine.execPtpDelayReqRx p h m raw s
  | .ptpDelayRespRx p h seq rxNs corr raw => Sys2Proof.Machine.execPtpDelayRespRx p h seq rxNs corr raw s
  | .ptpPdelayReqRx p h m raw => Sys2Proof.Machine.execPtpPdelayReqRx p h m raw s
  | .ptpPdelayRespRx p h m rxNs twoStep raw => Sys2Proof.Machine.execPtpPdelayRespRx p h m rxNs twoStep raw s
  | .ptpPdelayRespFollowUpRx p h seq txNs corr raw => Sys2Proof.Machine.execPtpPdelayRespFollowUpRx p h seq txNs corr raw s
  | .ptpAnnounceRx p h m raw => Sys2Proof.Machine.execPtpAnnounceRx p h m raw s
  | .ptpSignalingRx p h v raw => Sys2Proof.Machine.execPtpSignalingRx p h v raw s
  | .ptpTxInterval p m g => Sys2Proof.Machine.execPtpTxInterval p m g s
  | .ptpSyncTimeout g => Sys2Proof.Machine.execPtpSyncTimeout g s
  | .ptpAnnounceTimeout p g => Sys2Proof.Machine.execPtpAnnounceTimeout p g s
  | .netPtpCtrlWrite port intervals v g => Sys2Proof.Machine.execNetPtpCtrlWrite port intervals v g s
  | .gateCycleStart p => Sys2Proof.Machine.execGateCycleStart p s
  | .gateEntryEnd p => Sys2Proof.Machine.execGateEntryEnd p s
  | .gateSwap port p v => Sys2Proof.Machine.execGateSwap port p v s
  | .frameTxStart p g => Sys2Proof.Machine.execFrameTxStart p g s
  | .frameTxEnd p => Sys2Proof.Machine.execFrameTxEnd p s
  | .gateDrop p q => Sys2Proof.Machine.execGateDrop p q s
  | .axpSamplePost ix => Sys2Proof.Machine.execAxpSamplePost ix s
  | .queuePacketPublish q => Sys2Proof.Machine.execQueuePacketPublish q s
  | .qrelApply q => Sys2Proof.Machine.execQrelApply q s
  | .queueFlushTimeout q => Sys2Proof.Machine.execQueueFlushTimeout q s
  | .queuePointerMismatch q g => Sys2Proof.Machine.execQueuePointerMismatch q g s
  | .queHostRelWrite port q v g => Sys2Proof.Machine.execQueHostRelWrite port q v g s
  | .dmaStart port c => Sys2Proof.Machine.execDmaStart port c s
  | .dmaAbort port c => Sys2Proof.Machine.execDmaAbort port c s
  | .dmaAppend port c v => Sys2Proof.Machine.execDmaAppend port c v s
  | .dmaDescFetchDone c => Sys2Proof.Machine.execDmaDescFetchDone c s
  | .dmaPacingMet c g => Sys2Proof.Machine.execDmaPacingMet c g s
  | .dmaBeatDone c g => Sys2Proof.Machine.execDmaBeatDone c g s
  | .dmaBeatError c ecc g => Sys2Proof.Machine.execDmaBeatError c ecc g s
  | .dmaLengthWordWrite c g => Sys2Proof.Machine.execDmaLengthWordWrite c g s
  | .dmaTailReadDone c ok g => Sys2Proof.Machine.execDmaTailReadDone c ok g s
  | .dmaParkReread c => Sys2Proof.Machine.execDmaParkReread c s
  | .cqDoorbell port q v => Sys2Proof.Machine.execCqDoorbell port q v s
  | .cqEntryDecode q g => Sys2Proof.Machine.execCqEntryDecode q g s
  | .cqRingReadFail q => Sys2Proof.Machine.execCqRingReadFail q s
  | .commandComplete q g => Sys2Proof.Machine.execCommandComplete q g s
  | .cqEnable port q v => Sys2Proof.Machine.execCqEnable port q v s
  | .cqBaseHiWrite port q v => Sys2Proof.Machine.execCqBaseHiWrite port q v s
  | .horizonReport d g => Sys2Proof.Machine.execHorizonReport d g s
  | .eqEnable port n v => Sys2Proof.Machine.execEqEnable port n v s
  | .eqHeadWrite port n v => Sys2Proof.Machine.execEqHeadWrite port n v s
  | .horizonReportTimeout d g => Sys2Proof.Machine.execHorizonReportTimeout d g s
  | .rtrDoorbell port v => Sys2Proof.Machine.execRtrDoorbell port v s
  | .routerNotify t => Sys2Proof.Machine.execRouterNotify t s
  | .rtrClaim port t => Sys2Proof.Machine.execRtrClaim port t s
  | .rtrComplete port t v => Sys2Proof.Machine.execRtrComplete port t v s
  | .groupHoldoffExpiry g => Sys2Proof.Machine.execGroupHoldoffExpiry g s
  | .mailboxPost t words => Sys2Proof.Machine.execMailboxPost t words s
  | .qspiWrite32 off v => Sys2Proof.Machine.execQspiWrite32 off v s
  | .qspiRead32 off => Sys2Proof.Machine.execQspiRead32 off s
  | .qspiReadTimeout off => Sys2Proof.Machine.execQspiReadTimeout off s
  | .linkOnlyReset => Sys2Proof.Machine.execLinkOnlyReset s
  | .reg64LoRead port a => Sys2Proof.Machine.execReg64LoRead port a s
  | .reg64HiWrite port a v => Sys2Proof.Machine.execReg64HiWrite port a v s
  | .rcFieldRead port a => Sys2Proof.Machine.execRcFieldRead port a s
  | .registerWrite port a v => Sys2Proof.Machine.execRegisterWrite port a v s
  | .absentDieAccess port a write => Sys2Proof.Machine.execAbsentDieAccess port a write s
  | .dieMemoryWrite port d off width v => Sys2Proof.Machine.execDieMemoryWrite port d off width v s
  | .ctxSelWrite port d v => Sys2Proof.Machine.execCtxSelWrite port d v s
  | .plcRptSelWrite port v => Sys2Proof.Machine.execPlcRptSelWrite port v s
  | .ctxHalt port d => Sys2Proof.Machine.execCtxHalt port d s
  | .ctxResume port d => Sys2Proof.Machine.execCtxResume port d s
  | .ctxSingleStep port d => Sys2Proof.Machine.execCtxSingleStep port d s
  | .brkEnable port d => Sys2Proof.Machine.execBrkEnable port d s
  | .brkDisable port d => Sys2Proof.Machine.execBrkDisable port d s
  | .dbgNewChallenge port => Sys2Proof.Machine.execDbgNewChallenge port s
  | .dbgSubmit port => Sys2Proof.Machine.execDbgSubmit port s
  | .dbgUnlockCheckDone => Sys2Proof.Machine.execDbgUnlockCheckDone s
  | .dbgLock port => Sys2Proof.Machine.execDbgLock port s
  | .packageDebugHalt port g => Sys2Proof.Machine.execPackageDebugHalt port g s
  | .packageDebugResume port g => Sys2Proof.Machine.execPackageDebugResume port g s
  | .gtSlewWrite port v g => Sys2Proof.Machine.execGtSlewWrite port v g s
  | .slewApply => Sys2Proof.Machine.execSlewApply s
  | .gtSet port hi => Sys2Proof.Machine.execGtSet port hi s
  | .plantOffsetWrite port hi => Sys2Proof.Machine.execPlantOffsetWrite port hi s
  | .timeCtrlWrite port v g => Sys2Proof.Machine.execTimeCtrlWrite port v g s
  | .logCtrlWrite port v => Sys2Proof.Machine.execLogCtrlWrite port v s
  | .logGapClose d g => Sys2Proof.Machine.execLogGapClose d g s
  | .linkRetransmit d k => Sys2Proof.Machine.execLinkRetransmit d k s
  | .linkOutOfService d k g => Sys2Proof.Machine.execLinkOutOfService d k g s
  | .syncLaneLossTimeout d g => Sys2Proof.Machine.execSyncLaneLossTimeout d g s
  | .clockLoss d g => Sys2Proof.Machine.execClockLoss d g s
  | .shuttleCheckFail d slot cause g => Sys2Proof.Machine.execShuttleCheckFail d slot cause g s
  | .issueWatchdog d slot g => Sys2Proof.Machine.execIssueWatchdog d slot g s
  | .shuttleReplayLoad d g => Sys2Proof.Machine.execShuttleReplayLoad d g s
  | .prickingUncorrectable d g => Sys2Proof.Machine.execPrickingUncorrectable d g s
  | .dieFence d g => Sys2Proof.Machine.execDieFence d g s
  | .mgmtFailure cause g => Sys2Proof.Machine.execMgmtFailure cause g s
  | .mgmtWatchdogExpiry g => Sys2Proof.Machine.execMgmtWatchdogExpiry g s
  | .mgmtTakeoverDone g => Sys2Proof.Machine.execMgmtTakeoverDone g s
  | .standbyLost g => Sys2Proof.Machine.execStandbyLost g s
  | .packageFault cause => Sys2Proof.Machine.execPackageFault cause s
  | .scrubUncorrectable d off shadowOf g => Sys2Proof.Machine.execScrubUncorrectable d off shadowOf g s
  | .channelBankOutOfRange d timing g => Sys2Proof.Machine.execChannelBankOutOfRange d timing g s
  | .supplyOutOfRange rail => Sys2Proof.Machine.execSupplyOutOfRange rail s
  | .porRelease => Sys2Proof.Machine.execPorRelease s
  | .sysRstNAssert => Sys2Proof.Machine.execSysRstNAssert s
  | .perstAssert => Sys2Proof.Machine.execPerstAssert s
  | .rstCtrlReset port v => Sys2Proof.Machine.execRstCtrlReset port v s
  | .packageResetEnd => Sys2Proof.Machine.execPackageResetEnd s
  | .fuseLoadDone ok => Sys2Proof.Machine.execFuseLoadDone ok s
  | .pllLock d => Sys2Proof.Machine.execPllLock d s
  | .dieCoreEnable d => Sys2Proof.Machine.execDieCoreEnable d s
  | .sramClearStart d => Sys2Proof.Machine.execSramClearStart d s
  | .sramClearEnd d ok => Sys2Proof.Machine.execSramClearEnd d ok s
  | .shuttleSlotEnable d slot => Sys2Proof.Machine.execShuttleSlotEnable d slot s
  | .mgmtPairEnable d => Sys2Proof.Machine.execMgmtPairEnable d s
  | .releasePathSelfTest d pass => Sys2Proof.Machine.execReleasePathSelfTest d pass s
  | .dieStartCheck d aligned links digestOk => Sys2Proof.Machine.execDieStartCheck d aligned links digestOk s
  | .flashImageReadDone slot image => Sys2Proof.Machine.execFlashImageReadDone slot image s
  | .bootGo port v => Sys2Proof.Machine.execBootGo port v s
  | .fwVerifyDone => Sys2Proof.Machine.execFwVerifyDone s
  | .standbyImageCheckDone g => Sys2Proof.Machine.execStandbyImageCheckDone g s
  | .readySet => Sys2Proof.Machine.execReadySet s
  | .taskKeyLockWrite port v => Sys2Proof.Machine.execTaskKeyLockWrite port v s
  | .effectArrival ix => Sys2Proof.Machine.execEffectArrival ix s
  | .fbInputEdge n l stamp level => Sys2Proof.Machine.execFbInputEdge n l stamp level s
  | .clockReturn d g => Sys2Proof.Machine.execClockReturn d g s
  | .channelBankInRange d timing => Sys2Proof.Machine.execChannelBankInRange d timing s
  | .perstRelease => Sys2Proof.Machine.execPerstRelease s
  | .pcieConfigWrite bme d3hot => Sys2Proof.Machine.execPcieConfigWrite bme d3hot s
  | .scrubCorrectedWord d off committing => Sys2Proof.Machine.execScrubCorrectedWord d off committing s
  | .pcieCorrectableError => Sys2Proof.Machine.execPcieCorrectableError s

end Sys2Proof.Machine
end

