-- ==== Sys2Proof/Machine/Step.lean ====
section
/-! DEFINITION. One step of the part: the command at the front of the queue is carried out; on an empty queue ground time
counts one core cycle (R67, log entry 22). -/

namespace Sys2Proof.Machine

/-- Nothing is commanded: once die 0's core has been enabled one core cycle passes, whatever fault short of a package reset is in
force (R70, R524). -/
def idle (s : State) : State := if (s.die 0).core && !s.boot.inReset then s.tick else s

/-- Take the command at the front of the queue and carry it out with the queue's rest. -/
def step (s : State) : Host.Outcome State Fault Refusal :=
  match s.pending with
  | [] => .next (idle s)
  | c :: rest => exec c { s with pending := rest }

/-- The state with the command that a table word spells put at the front of its queue; unchanged where it spells none. -/
def State.withFetchWord (s : State) (nbits w : Nat) : State :=
  match decodeTableWord nbits w with
  | some c => { s with pending := c :: s.pending }
  | none => s

end Sys2Proof.Machine
end

