-- ==== Sys2Proof/WellFormed.lean ====
section
/-! DEFINITION. Well-formed commands: every number an operand gives names something the part has (R33, R52). -/

namespace Sys2Proof

/-- A die number (R33). -/
def okDie (x : Nat) : Bool := decide (x < 8)

/-- A shuttle slot of a die (R33). -/
def okShuttle (x : Nat) : Bool := decide (x < 5)

/-- A slot of a hoop (R366). -/
def okEvSlot (x : Nat) : Bool := decide (x < 64)

/-- A firmware image slot of the flash. -/
def okFwSlot (x : Nat) : Bool := decide (x < 2)

/-- A target of the event router (R475). -/
def okTarget (x : Nat) : Bool := decide (x < 18)

/-- A task ID (R207). -/
def okTask (x : Nat) : Bool := decide (x < 4096)

/-- A network port (R380). -/
def okNetPort (x : Nat) : Bool := decide (x < 2)

/-- A timing pin (R33). -/
def okPin (x : Nat) : Bool := decide (x < 512)

/-- A hardware queue (R33). -/
def okQueue (x : Nat) : Bool := decide (x < 2048)

/-- An egress queue of a network port (R384). -/
def okEgress (x : Nat) : Bool := decide (x < 8)

/-- A command queue (R458). -/
def okCmdQueue (x : Nat) : Bool := decide (x < 16)

/-- An event queue (R467). -/
def okEvQueue (x : Nat) : Bool := decide (x < 16)

/-- A DMA channel (R33). -/
def okDma (x : Nat) : Bool := decide (x < 64)

/-- A carrier (R33). -/
def okCarrier (x : Nat) : Bool := decide (x < 128)

/-- A pair of a carrier (R263). -/
def okPair (x : Nat) : Bool := decide (x < 4)

/-- A feedback interface (R33). -/
def okFeedback (x : Nat) : Bool := decide (x < 64)

/-- A trip (R33). -/
def okTrip (x : Nat) : Bool := decide (x < 64)

/-- A hoop (R33). -/
def okHoop (x : Nat) : Bool := decide (x < 32)

/-- A ground link of a die (R33). -/
def okLink (x : Nat) : Bool := decide (x < 4)

/-- A publish entry of the axis tables (R398). -/
def okAxisEntry (x : Nat) : Bool := decide (x < 64)

/-- A supply rail (R516). -/
def okRail (x : Nat) : Bool := decide (x < 5)

/-- A group of the event router (R480). -/
def okGroup (x : Nat) : Bool := decide (x < 64)

/-- A BAR0 offset (R52). -/
def okBar0 (x : Nat) : Bool := decide (x < 0x10000000)
/-- An offset of BAR0, or from the PCIe port one of BAR2, which is 64 KiB (R451). -/
def okAccess (p : Port) (x : Nat) : Bool := decide (x < 0x10000000 ∨ (p = .pcie ∧ x < 0x10010000))

/-- A byte offset in die memory (R53). -/
def okDieByte (x : Nat) : Bool := decide (x < 0x400000)

/-- An access width in bits (R24). -/
def okWidth (x : Nat) : Bool := x == 8 || x == 16 || x == 32 || x == 64

/-- A command whose operands lie in their ranges. -/
def Instr.wellFormed : Instr → Bool
  | .add t _ _ _ => okTask t
  | .sub t _ _ _ => okTask t
  | .and t _ _ _ => okTask t
  | .or t _ _ _ => okTask t
  | .xor t _ _ _ => okTask t
  | .shl t _ _ _ => okTask t
  | .shr t _ _ _ => okTask t
  | .sra t _ _ _ => okTask t
  | .min t _ _ _ => okTask t
  | .max t _ _ _ => okTask t
  | .adds t _ _ _ => okTask t
  | .subs t _ _ _ => okTask t
  | .cmp t _ _ => okTask t
  | .addi t _ _ _ => okTask t
  | .andi t _ _ _ => okTask t
  | .ori t _ _ _ => okTask t
  | .xori t _ _ _ => okTask t
  | .lui t _ _ => okTask t
  | .limm t _ _ => okTask t
  | .mul t _ _ _ => okTask t
  | .mulh t _ _ _ => okTask t
  | .mulhu t _ _ _ => okTask t
  | .mac t _ _ => okTask t
  | .macr t _ _ => okTask t
  | .qmul t _ _ _ => okTask t
  | .divu t _ _ _ => okTask t
  | .divs t _ _ _ => okTask t
  | .remu t _ _ _ => okTask t
  | .beq t _ _ _ => okTask t
  | .bne t _ _ _ => okTask t
  | .blt t _ _ _ => okTask t
  | .bge t _ _ _ => okTask t
  | .bltu t _ _ _ => okTask t
  | .bgeu t _ _ _ => okTask t
  | .jmp t _ _ => okTask t
  | .call t _ _ => okTask t
  | .ret t => okTask t
  | .ldb t _ _ _ => okTask t
  | .ldh t _ _ _ => okTask t
  | .ldw t _ _ _ => okTask t
  | .ldd t _ _ _ => okTask t
  | .stb t _ _ _ => okTask t
  | .sth t _ _ _ => okTask t
  | .stw t _ _ _ => okTask t
  | .std t _ _ _ => okTask t
  | .tmov t _ => okTask t
  | .tadd t _ _ _ => okTask t
  | .taddi t _ _ _ _ => okTask t
  | .tsub t _ _ _ => okTask t
  | .tcmp t _ _ => okTask t
  | .tlead t _ _ => okTask t
  | .tcvt t _ _ _ _ => okTask t
  | .tnow t _ => okTask t
  | .brk t => okTask t
  | .nop t => okTask t
  | .endStep t => okTask t
  | .wait t _ => okTask t
  | .waite t _ _ => okTask t
  | .stch t _ _ _ => okTask t
  | .stchr t _ _ _ => okTask t
  | .capt t _ _ _ => okTask t
  | .captp t _ _ => okTask t
  | .pwmw t _ _ _ _ => okTask t
  | .pwmc t _ _ _ => okTask t
  | .fbrd t _ _ _ => okTask t
  | .fbspd t _ _ => okTask t
  | .fbcmp t _ _ _ _ => okTask t
  | .hooprd t _ _ _ => okTask t
  | .hevt t _ _ _ => okTask t
  | .hcan t _ _ => okTask t
  | .send t _ _ _ _ => okTask t
  | .recv t _ _ _ => okTask t
  | .qput t _ _ => okTask t
  | .qrsv t _ _ _ => okTask t
  | .qend t _ => okTask t
  | .qget t _ _ => okTask t
  | .qmark t _ => okTask t
  | .qrew t _ => okTask t
  | .qrel t _ => okTask t
  | .qlvl t _ _ _ => okTask t
  | .evnt t _ _ _ => okTask t
  | .ring t _ => okTask t
  | .camh t _ _ _ _ => okTask t
  | .crc t _ _ _ _ => okTask t
  | .fault t _ => okTask t
  | .stepReady t => okTask t
  | .stepDispatch d slot => okDie d && okShuttle slot
  | .stepCutOff t => okTask t
  | .timerFire t => okTask t
  | .messageDeliver _ => true
  | .cmdNop q => okCmdQueue q
  | .task q => okCmdQueue q
  | .load q => okCmdQueue q.queue
  | .start q => okCmdQueue q
  | .stop q => okCmdQueue q
  | .unload q => okCmdQueue q.queue
  | .setAffinity q => okCmdQueue q
  | .setSplit q => okCmdQueue q
  | .stopFallback t => okTask t
  | .taskFaultFallback t => okTask t
  | .migrationStart t _ => okTask t
  | .migrationEnd t _ => okTask t
  | .migrationTimeout q _ => okCmdQueue q
  | .rotationStart d _ => okDie d
  | .bistDone d _ _ => okDie d
  | .rotationDefer d _ => okDie d
  | .pinInputEdge p _ _ => okPin p
  | .pinFilterAccept p => okPin p
  | .stitchLock p => okPin p
  | .stitchApply p => okPin p
  | .engineDisagree p _ => okPin p
  | .readbackMismatch p _ _ => okPin p
  | .pinFaultClear _ p => okPin p
  | .pinCtrlWrite _ p _ => okPin p
  | .pinCapSelWrite _ p _ => okPin p
  | .carrierStartApply c => okCarrier c
  | .carrierBoundary c => okCarrier c
  | .carrierMidpoint c => okCarrier c
  | .phaseHoldEnd c => okCarrier c
  | .pwmStoppedWriteApply c => okCarrier c
  | .referenceEdge c n => okCarrier c && okPair n
  | .deadTimeExpiry c n => okCarrier c && okPair n
  | .minPulseExpiry c n => okCarrier c && okPair n
  | .pairCfgWrite _ c n _ => okCarrier c && okPair n
  | .tripInputEdge j _ _ => okTrip j
  | .tripFilterAccept j => okTrip j
  | .blankWindowEnd j => okTrip j
  | .tripClearApply j => okTrip j
  | .tripCmdClear _ j => okTrip j
  | .tripCtrlWrite _ j _ _ => okTrip j
  | .tripCheck j _ _ _ => okTrip j
  | .fbCountEdge n => okFeedback n
  | .commCodeChange n => okFeedback n
  | .fbIndexEdge n => okFeedback n
  | .fbProbeEdge n => okFeedback n
  | .probeArm _ n _ => okFeedback n
  | .serialFrameStart n => okFeedback n
  | .serialFrameVisible n _ _ _ _ => okFeedback n
  | .fbStandstill n => okFeedback n
  | .fbModeWrite _ n _ _ => okFeedback n
  | .fbCompareArmApply n => okFeedback n
  | .fbCompareDisarmApply n => okFeedback n
  | .hoopTooth h => okHoop h
  | .hoopIndexEdge h => okHoop h
  | .hoopMissingTooth h => okHoop h
  | .hoopStall h => okHoop h
  | .hoopCoastExpiry h => okHoop h
  | .hevtApply h => okHoop h
  | .hcanApply h => okHoop h
  | .hoopEventStart h slot => okHoop h && okEvSlot slot
  | .hoopEventEnd h slot => okHoop h && okEvSlot slot
  | .hoopEnable _ h _ _ => okHoop h
  | .hoopDisable _ h _ _ => okHoop h
  | .hoopEvtSelWrite _ h _ => okHoop h
  | .netLinkChange p _ _ => okNetPort p
  | .axisFrameRx p _ f _ => okNetPort p && decide (f.node < 1024 ∧ f.axis < 64 ∧ f.version < 256)
  | .ptpSyncRx p _ _ _ _ _ _ => okNetPort p
  | .ptpFollowUpRx p _ _ _ _ _ => okNetPort p
  | .ptpDelayReqRx p _ _ _ => okNetPort p
  | .ptpDelayRespRx p _ _ _ _ _ => okNetPort p
  | .ptpPdelayReqRx p _ _ _ => okNetPort p
  | .ptpPdelayRespRx p _ _ _ _ _ => okNetPort p
  | .ptpPdelayRespFollowUpRx p _ _ _ _ _ => okNetPort p
  | .ptpAnnounceRx p _ _ _ => okNetPort p
  | .ptpSignalingRx p _ _ _ => okNetPort p
  | .ptpTxInterval p _ _ => okNetPort p
  | .ptpSyncTimeout _ => true
  | .ptpAnnounceTimeout p _ => okNetPort p
  | .netPtpCtrlWrite _ _ _ _ => true
  | .gateCycleStart p => okNetPort p
  | .gateEntryEnd p => okNetPort p
  | .gateSwap _ p _ => okNetPort p
  | .frameTxStart p _ => okNetPort p
  | .frameTxEnd p => okNetPort p
  | .gateDrop p q => okNetPort p && okEgress q
  | .axpSamplePost i => okAxisEntry i
  | .queuePacketPublish q => okQueue q
  | .qrelApply q => okQueue q
  | .queueFlushTimeout q => okQueue q
  | .queuePointerMismatch q _ => okQueue q
  | .queHostRelWrite _ q _ _ => okQueue q
  | .dmaStart _ c => okDma c
  | .dmaAbort _ c => okDma c
  | .dmaAppend _ c _ => okDma c
  | .dmaDescFetchDone c => okDma c
  | .dmaPacingMet c _ => okDma c
  | .dmaBeatDone c _ => okDma c
  | .dmaBeatError c _ _ => okDma c
  | .dmaLengthWordWrite c _ => okDma c
  | .dmaTailReadDone c _ _ => okDma c
  | .dmaParkReread c => okDma c
  | .cqDoorbell _ q _ => okCmdQueue q
  | .cqEntryDecode q _ => okCmdQueue q
  | .cqRingReadFail q => okCmdQueue q
  | .commandComplete q _ => okCmdQueue q
  | .cqEnable _ q _ => okCmdQueue q
  | .cqBaseHiWrite _ q _ => okCmdQueue q
  | .horizonReport d _ => okDie d
  | .eqEnable _ n _ => okEvQueue n
  | .eqHeadWrite _ n _ => okEvQueue n
  | .horizonReportTimeout d _ => okDie d
  | .rtrDoorbell _ _ => true
  | .routerNotify t => okTarget t
  | .rtrClaim _ t => okTarget t
  | .rtrComplete _ t _ => okTarget t
  | .groupHoldoffExpiry g => okGroup g
  | .mailboxPost t _ => okTarget t
  | .qspiWrite32 off _ => okBar0 off
  | .qspiRead32 off => okBar0 off
  | .qspiReadTimeout off => okBar0 off
  | .linkOnlyReset => true
  | .reg64LoRead _ a => okBar0 a.off && okWidth a.width
  | .reg64HiWrite _ a _ => okBar0 a.off && okWidth a.width
  | .rcFieldRead p a => okAccess p a.off && okWidth a.width
  | .registerWrite p a _ => okAccess p a.off && okWidth a.width
  | .absentDieAccess _ a _ => okBar0 a.off && okWidth a.width
  | .dieMemoryWrite _ d off width _ => okDie d && okDieByte off && okWidth width
  | .ctxSelWrite _ d _ => okDie d
  | .plcRptSelWrite _ _ => true
  | .ctxHalt _ d => okDie d
  | .ctxResume _ d => okDie d
  | .ctxSingleStep _ d => okDie d
  | .brkEnable _ d => okDie d
  | .brkDisable _ d => okDie d
  | .dbgNewChallenge _ => true
  | .dbgSubmit _ => true
  | .dbgUnlockCheckDone => true
  | .dbgLock _ => true
  | .packageDebugHalt _ _ => true
  | .packageDebugResume _ _ => true
  | .gtSlewWrite _ _ _ => true
  | .slewApply => true
  | .gtSet _ _ => true
  | .plantOffsetWrite _ _ => true
  | .timeCtrlWrite _ _ _ => true
  | .logCtrlWrite _ _ => true
  | .logGapClose d _ => okDie d
  | .linkRetransmit d k => okDie d && okLink k
  | .linkOutOfService d k _ => okDie d && okLink k
  | .syncLaneLossTimeout d _ => okDie d
  | .clockLoss d _ => okDie d
  | .shuttleCheckFail d slot _ _ => okDie d && okShuttle slot
  | .issueWatchdog d slot _ => okDie d && okShuttle slot
  | .shuttleReplayLoad d _ => okDie d
  | .prickingUncorrectable d _ => okDie d
  | .dieFence d _ => okDie d
  | .mgmtFailure _ _ => true
  | .mgmtWatchdogExpiry _ => true
  | .mgmtTakeoverDone _ => true
  | .standbyLost _ => true
  | .packageFault _ => true
  | .scrubUncorrectable d off _ _ => okDie d && okDieByte off
  | .channelBankOutOfRange d _ _ => okDie d
  | .supplyOutOfRange rail => okRail rail
  | .porRelease => true
  | .sysRstNAssert => true
  | .perstAssert => true
  | .rstCtrlReset _ _ => true
  | .packageResetEnd => true
  | .fuseLoadDone _ => true
  | .pllLock d => okDie d
  | .dieCoreEnable d => okDie d
  | .sramClearStart d => okDie d
  | .sramClearEnd d _ => okDie d
  | .shuttleSlotEnable d slot => okDie d && okShuttle slot
  | .mgmtPairEnable d => okDie d
  | .releasePathSelfTest d _ => okDie d
  | .dieStartCheck d _ _ _ => okDie d
  | .flashImageReadDone slot _ => okFwSlot slot
  | .bootGo _ _ => true
  | .fwVerifyDone => true
  | .standbyImageCheckDone _ => true
  | .readySet => true
  | .taskKeyLockWrite _ _ => true
  | .effectArrival _ => true
  | .fbInputEdge n _ _ _ => okFeedback n
  | .clockReturn d _ => okDie d
  | .channelBankInRange d _ => okDie d
  | .perstRelease => true
  | .pcieConfigWrite _ _ => true
  | .scrubCorrectedWord d off _ => okDie d && okDieByte off
  | .pcieCorrectableError => true

end Sys2Proof
end

