-- ==== Sys2Proof/Safety.lean ====
section
/-! DEFINITION. What a run may rely on, in the terms the statements use: memories in canonical form, a shuttle that issues an
instruction, the state after it, a read or write that a port carries out. -/

namespace Sys2Proof.Machine

/-- Die memory, ring memory and host memory are in canonical form. -/
def State.memOk (s : State) : Bool := Memory.wf s.dieMem && Memory.wf s.ring && Memory.wf s.hostMem

/-- Task `t` of state `s` runs a step `st` whose next instruction is `i`, `n` words long, and its shuttle issues it now. The step is
not one that was cut off while halted (R144), and no word of memory waits for a single-bit error to be corrected (R120). -/
def State.AtInstr (s : State) (t : Nat) (i : Instr) (k : Task) (st : Step) (n : Nat) : Prop :=
  s.task? t = some k ∧ k.step = some st ∧ s.mayIssue k st = true ∧ s.fetch t k st.w.pc = .inr (i, n) ∧ st.cutOff = false ∧ s.weak = []

/-- The state with step `st` of task `t` carried on; a single step is over (R144). -/
def State.carryOn (s : State) (t : Nat) (k : Task) (st : Step) : State :=
  s.setTask t { k with step := some { st with single := false } }

/-- The step at the next instruction: `n` words further. -/
def Step.past (st : Step) (n : Nat) : Step := { st with w := { st.w with pc := st.w.pc + n } }

/-- The state in which the instruction, `n` words long, has written `r` to general register `rd` and nothing else. -/
def State.toReg (s : State) (t : Nat) (k : Task) (st : Step) (n : Nat) (rd : GReg) (r : Word) : State :=
  s.carryOn t k ((st.past n).wg rd r)

/-- The state in which the instruction has written `r` to `rd`, Z and N from `r`, and C and V as given. -/
def State.toRegF (s : State) (t : Nat) (k : Task) (st : Step) (n : Nat) (rd : GReg) (r : Word) (c v : Bool) : State :=
  s.carryOn t k (((st.past n).wg rd r).wf ⟨r == 0, r.msb, c, v⟩)

/-- A unit takes the effect: it is no record, no source to post and no message (R91). -/
def EffKind.toUnit : EffKind → Bool
  | .send _ _ _ => false
  | .event _ _ _ _ => false
  | .ring _ => false
  | _ => true

/-- A write of port `p` to register `k` is carried out: the port reaches it and may write, it exists, and its die window answers. -/
def State.Opens (s : State) (p : Port) (k : RKey) : Prop :=
  keyOk k = true ∧ s.reaches p (regAddr k) = true ∧ s.mayWrite p = true ∧ (k.1.info.win = true → s.windowUp k.2.d = true)

/-- The two switches of a pair are not on together, and a switch that waits to turn on has its partner off (R275). -/
def PairSt.safe (x : PairSt) : Bool :=
  !(x.hi.on && x.lo.on) && !(x.hi.due.isSome && x.lo.on) && !(x.lo.due.isSome && x.hi.on) && !(x.hi.due.isSome && x.lo.due.isSome)

/-- What a write of register `k` leaves when its own effect on `s` is `t`: a change of a configuration register forms
CONFIG_DIGEST anew (R206). -/
def State.wrote (s : State) (k : RKey) (t : State) : State :=
  if digestReg k && t.rwPart k != s.rwPart k then t.updateDigest else t

/-- BAR0 offset `a` is the place of register `k` (R12, R24). -/
def AtReg (a : Nat) (k : RKey) : Prop :=
  a % 4 = 0 ∧ regAt a = some k ∧ ¬(0x01800000 ≤ a ∧ a < 0x01880000) ∧ (a < 0x08000000 ∨ 0x400000 ≤ a % 0x01000000)

/-- A read of offset `a` by port `p` answers from register `k`: the port reaches it and its die window answers (R54, R522). -/
def State.Reads (s : State) (p : Port) (a : Nat) (k : RKey) : Prop :=
  AtReg a k ∧ s.reaches p a = true ∧ (0x08000000 ≤ a → s.windowUp ((a - 0x08000000) / 0x01000000) = true)

/-- What the port holds after a read of up to 32 bits that answers `v`. -/
def State.gave (s : State) (p : Port) (v : Word) : State := s.modPort p (fun x => { x with rd := v, rdHi := 0 })

/-- What the port holds after a 64-bit read that answers `v` (R23). -/
def State.gave64 (s : State) (p : Port) (v : BitVec 64) : State :=
  s.modPort p (fun x => { x with rd := loHalf v, rdHi := hiHalf v })

/-- The low half that a write of the high half of register `lo` takes with it: the half staged for it, which the write uses up, or the
low half as it stands (R21, R22). -/
def State.lowHalf (s : State) (p : Port) (lo : RKey) : Word × State :=
  match (s.port p).staged with
  | some (a, w) => if a = regAddr lo then (w, s.modPort p (fun x => { x with staged := none })) else (s.reg lo.1 lo.2, s)
  | none => (s.reg lo.1 lo.2, s)

end Sys2Proof.Machine
end

