-- ==== Sys2Proof/Laws/Access.lean ====
section
/-! SUPPORT. What an access of a port to a register does, once for every register. -/

namespace Sys2Proof.Machine

/-- A write that reaches its register has the register's effect. -/
theorem State.Opens.write {s : State} {p : Port} {k : RKey} (h : s.Opens p k) (v : Word) :
    s.hostWriteReg p k v = s.wrote k (s.writeKey p k v) := by
  obtain ⟨h1, h2, h3, h4⟩ := h
  have hw : (k.1.info.win && !s.windowUp k.2.d) = false := by
    cases hk : k.1.info.win
    · rfl
    · simp [h4 hk]
  simp [State.hostWriteReg, h1, h2, h3, hw, State.writeCfg, State.wrote]

/-- What `wrote` leaves, where the register's own effect is known. -/
theorem State.Opens.write_eq {s t : State} {p : Port} {k : RKey} (h : s.Opens p k) {v : Word} (ht : s.writeKey p k v = t) :
    s.hostWriteReg p k v = s.wrote k t := by
  rw [h.write, ht]

end Sys2Proof.Machine
end

