-- ==== Sys2Proof/Laws/Issue.lean ====
section
/-! SUPPORT. What issuing an instruction does, once for every body. -/

namespace Sys2Proof.Machine

/-- Where no single-bit error waits, nothing is corrected. -/
theorem State.corrected_nil {s : State} (h : s.weak = []) (d : Nat) (offs : List Nat) : s.corrected d offs = s := by
  unfold State.corrected
  induction offs with
  | nil => rfl
  | cons o r ih => simpa [State.correctWord, h] using ih

/-- A shuttle that issues instruction `i` runs its body on the step with the PC already past it. -/
theorem State.AtInstr.issue {s : State} {t : Nat} {i : Instr} {k : Task} {st : Step} {n : Nat} (h : s.AtInstr t i k st n)
    (body : Body) : s.issue t i body = (body s k (st.past n)).finish t k st st.w.pc := by
  obtain ⟨h1, h2, h3, h4, -, h6⟩ := h
  simp [State.issue, h1, h2, h3, h4, State.corrected_nil h6, Step.past, Step.goto]

theorem State.AtInstr.notCut {s : State} {t : Nat} {i : Instr} {k : Task} {st : Step} {n : Nat} (h : s.AtInstr t i k st n) :
    st.cutOff = false := h.2.2.2.2.1

theorem State.AtInstr.noWeak {s : State} {t : Nat} {i : Instr} {k : Task} {st : Step} {n : Nat} (h : s.AtInstr t i k st n) :
    s.weak = [] := h.2.2.2.2.2

/-- An instruction that reads words of memory with no single-bit error among them. -/
theorem State.AtInstr.guardMem {s : State} {t : Nat} {i : Instr} {k : Task} {st : Step} {n : Nat} (h : s.AtInstr t i k st n)
    (d : Nat) (offs : List Nat) (causes : List (Option Nat)) (hl : lowest causes = none) (f : State → IRes) :
    guardMem s d offs causes f = f s := by
  simp [Machine.guardMem, hl, State.corrected_nil h.noWeak]

theorem State.AtInstr.task {s : State} {t : Nat} {i : Instr} {k : Task} {st : Step} {n : Nat} (h : s.AtInstr t i k st n) :
    s.task? t = some k := h.1

/-- An instruction that goes on leaves the state its body answers, with the step it answers. -/
theorem State.AtInstr.go {s : State} {t : Nat} {i : Instr} {k : Task} {st st' : Step} {n : Nat} (h : s.AtInstr t i k st n)
    {body : Body} {s' : State} (hb : body s k (st.past n) = .go s' st') (ht : s'.task? t = some k) :
    s.issue t i body = s'.carryOn t k st' := by
  simp [h.issue, hb, IRes.finish, State.modTask, ht, State.carryOn, Step.settle]

/-- An instruction that only changes its step. -/
theorem State.AtInstr.goOn {s : State} {t : Nat} {i : Instr} {k : Task} {st st' : Step} {n : Nat} (h : s.AtInstr t i k st n)
    {body : Body} (hb : body s k (st.past n) = .go s st') : s.issue t i body = s.carryOn t k st' :=
  h.go hb h.task

/-- An instruction that faults. -/
theorem State.AtInstr.trap {s : State} {t : Nat} {i : Instr} {k : Task} {st : Step} {n : Nat} (h : s.AtInstr t i k st n)
    {body : Body} {s' : State} {code info : Nat} (hb : body s k (st.past n) = .trap s' code info) :
    s.issue t i body = s'.instrFault t k st st.w.pc code info := by
  simp [h.issue, hb, IRes.finish, h.notCut]

/-- An instruction that commits its step. -/
theorem State.AtInstr.commit {s : State} {t : Nat} {i : Instr} {k : Task} {st st' : Step} {n : Nat} (h : s.AtInstr t i k st n)
    {body : Body} {next : Resume} {tm : Option Time} (hb : body s k (st.past n) = .commit s st' next tm) :
    s.issue t i body = s.commit t k st' next tm := by
  simp [h.issue, hb, IRes.finish, h.task, h.notCut]

/-- A write to g0 is discarded, and g0 reads as 0 (R110). -/
@[simp] theorem Ctx.wg_zero (c : Ctx) (v : Word) : c.wg 0 v = c := by simp [Ctx.wg]
@[simp] theorem Ctx.rg_zero (c : Ctx) : c.rg 0 = 0 := by simp [Ctx.rg]

/-- Moving past an instruction changes the PC only. -/
@[simp] theorem Step.past_rg (st : Step) (n : Nat) (r : GReg) : (st.past n).w.rg r = st.w.rg r := by
  simp [Step.past, Ctx.rg]
@[simp] theorem Step.past_rt (st : Step) (n : Nat) (r : TReg) : (st.past n).rt r = st.rt r := by
  simp [Step.past, Step.rt]
@[simp] theorem Step.past_pc (st : Step) (n : Nat) : (st.past n).w.pc = st.w.pc + n := rfl
@[simp] theorem Step.past_fl (st : Step) (n : Nat) : (st.past n).w.fl = st.w.fl := rfl
@[simp] theorem Step.past_a (st : Step) (n : Nat) : (st.past n).w.a = st.w.a := rfl
@[simp] theorem Step.past_rstack (st : Step) (n : Nat) : (st.past n).w.rstack = st.w.rstack := rfl
@[simp] theorem Step.past_act (st : Step) (n : Nat) : (st.past n).act = st.act := rfl
@[simp] theorem Step.past_tl (st : Step) (n : Nat) : (st.past n).tl = st.tl := rfl
@[simp] theorem Step.past_effs (st : Step) (n : Nat) : (st.past n).effs = st.effs := rfl
@[simp] theorem Step.past_wbuf (st : Step) (n : Nat) : (st.past n).wbuf = st.wbuf := rfl
@[simp] theorem Step.past_pkts (st : Step) (n : Nat) : (st.past n).pkts = st.pkts := rfl

end Sys2Proof.Machine
end

