-- ==== Sys2Proof/Laws/Maps.lean ====
section
/-! SUPPORT. Sparse maps and byte memory: reading what was written, leaving the rest alone, and the canonical form. -/

namespace Sys2Proof.Machine

variable {κ α : Type} [DecidableEq κ]

@[simp] theorem amGet_amPut_self (lt : κ → κ → Bool) (m : List (κ × α)) (k : κ) (v d : α) :
    amGet (amPut lt m k v) k d = v := by
  induction m with
  | nil => simp [amPut, amGet]
  | cons e r ih =>
    obtain ⟨k', v'⟩ := e
    by_cases h : k' = k
    · simp [amPut, amGet, h]
    · by_cases h2 : lt k k' <;> simp [amPut, amGet, h, h2, ih]

theorem amGet_amPut_ne (lt : κ → κ → Bool) (m : List (κ × α)) (k j : κ) (v d : α) (hne : j ≠ k) :
    amGet (amPut lt m k v) j d = amGet m j d := by
  induction m with
  | nil => simp [amPut, amGet, Ne.symm hne]
  | cons e r ih =>
    obtain ⟨k', v'⟩ := e
    by_cases h : k' = k
    · subst h; simp [amPut, amGet, Ne.symm hne]
    · by_cases h2 : lt k k'
      · simp [amPut, amGet, h, h2, Ne.symm hne]
      · by_cases h3 : k' = j
        · subst h3; simp [amPut, amGet, h, h2]
        · simp [amPut, amGet, h, h2, h3, ih]

@[simp] theorem nmGet_nmPut_self (m : List (Nat × α)) (k : Nat) (v d : α) : nmGet (nmPut m k v) k d = v := by
  simp [nmGet, nmPut]

theorem nmGet_nmPut_ne (m : List (Nat × α)) (k j : Nat) (v d : α) (h : j ≠ k) : nmGet (nmPut m k v) j d = nmGet m j d := by
  simp [nmGet, nmPut, amGet_amPut_ne _ _ _ _ _ _ h]

@[simp] theorem nmGet?_nmPut_self (m : List (Nat × α)) (k : Nat) (v : α) : nmGet? (nmPut m k v) k = some v := by
  induction m with
  | nil => simp [nmPut, amPut, nmGet?]
  | cons e r ih =>
    obtain ⟨k', v'⟩ := e
    by_cases h : k' = k
    · simp [nmPut, amPut, nmGet?, h]
    · by_cases h2 : k < k'
      · simp [nmPut, amPut, nmGet?, h, h2]
      · simpa [nmPut, amPut, nmGet?, h, h2] using ih

theorem nmGet?_nmPut_ne (m : List (Nat × α)) (k j : Nat) (v : α) (hne : j ≠ k) : nmGet? (nmPut m k v) j = nmGet? m j := by
  induction m with
  | nil => simp [nmPut, amPut, nmGet?, Ne.symm hne]
  | cons e r ih =>
    obtain ⟨k', v'⟩ := e
    by_cases h : k' = k
    · subst h; simp [nmPut, amPut, nmGet?, Ne.symm hne]
    · by_cases h2 : k < k'
      · simp [nmPut, amPut, nmGet?, h, h2, Ne.symm hne]
      · by_cases h3 : k' = j
        · subst h3; simp [nmPut, amPut, nmGet?, h, h2]
        · simpa [nmPut, amPut, nmGet?, h, h2, h3] using ih

@[simp] theorem nmPut_nmPut (m : List (Nat × α)) (k : Nat) (v w : α) : nmPut (nmPut m k v) k w = nmPut m k w := by
  induction m with
  | nil => simp [nmPut, amPut]
  | cons e r ih =>
    obtain ⟨k', v'⟩ := e
    by_cases h : k' = k
    · simp [nmPut, amPut, h]
    · by_cases h2 : k < k'
      · simp [nmPut, amPut, h, h2]
      · simpa [nmPut, amPut, h, h2] using ih

/-! ## Byte memory -/

theorem amGet_filter_ne (m : List (Nat × α)) (k : Nat) (d : α) :
    amGet (m.filter (fun e => e.1 != k)) k d = d := by
  induction m with
  | nil => rfl
  | cons e r ih =>
    obtain ⟨k', v'⟩ := e
    by_cases h : k' = k
    · subst h; simpa using ih
    · simp [amGet, h, ih]

theorem amGet_filter_other (m : List (Nat × α)) (k j : Nat) (d : α) (hne : j ≠ k) :
    amGet (m.filter (fun e => e.1 != k)) j d = amGet m j d := by
  induction m with
  | nil => rfl
  | cons e r ih =>
    obtain ⟨k', v'⟩ := e
    by_cases h : k' = k
    · subst h; simp [amGet, Ne.symm hne, ih]
    · by_cases h2 : k' = j
      · subst h2; simp [amGet, h]
      · simp [amGet, h, h2, ih]

@[simp] theorem memRead_memWrite_self (m : List Host.Cell) (a : Nat) (v : Byte) : memRead (memWrite m a v) a = v := by
  unfold memRead memWrite
  split
  · simpa [*] using amGet_filter_ne m a v
  · exact amGet_amPut_self _ _ _ _ _

theorem memRead_memWrite_ne (m : List Host.Cell) (a b : Nat) (v : Byte) (h : b ≠ a) :
    memRead (memWrite m a v) b = memRead m b := by
  unfold memRead memWrite
  split
  · exact amGet_filter_other _ _ _ _ h
  · exact amGet_amPut_ne _ _ _ _ _ _ h

/-- Outside the bytes that a byte list is written to, memory reads as before. -/
theorem memRead_memWriteList_outside (m : List Host.Cell) (a b : Nat) (l : List Byte) (h : b < a ∨ a + l.length ≤ b) :
    memRead (memWriteList m a l) b = memRead m b := by
  induction l generalizing m a with
  | nil => rfl
  | cons x r ih =>
    simp only [memWriteList]
    rw [ih _ _ (by simp at h; omega), memRead_memWrite_ne _ _ _ _ (by simp at h; omega)]

/-- A byte list that was written reads back. -/
theorem memRead_memWriteList_at (m : List Host.Cell) (a i : Nat) (l : List Byte) (h : i < l.length) :
    memRead (memWriteList m a l) (a + i) = l[i] := by
  induction l generalizing m a i with
  | nil => simp at h
  | cons x r ih =>
    cases i with
    | zero => simp only [memWriteList]; rw [memRead_memWriteList_outside _ _ _ _ (by omega)]; simp
    | succ i =>
      simp only [memWriteList]
      have := ih (memWrite m a x) (a + 1) i (by simpa using h)
      rw [show a + (i + 1) = a + 1 + i by omega, this]; rfl

/-- Outside the four bytes of a word that is written, memory reads as before. -/
theorem memRead_memPutWord_outside (m : List Host.Cell) (a b : Nat) (v : Word) (h : b < a ∨ a + 4 ≤ b) :
    memRead (memPutWord m a v) b = memRead m b := by
  unfold memPutWord
  rw [memRead_memWrite_ne _ _ _ _ (by omega), memRead_memWrite_ne _ _ _ _ (by omega),
    memRead_memWrite_ne _ _ _ _ (by omega), memRead_memWrite_ne _ _ _ _ (by omega)]

/-- A word that was written reads back. -/
@[simp] theorem memWord_memPutWord (m : List Host.Cell) (a : Nat) (v : Word) : memWord (memPutWord m a v) a = v := by
  unfold memWord memPutWord
  have e0 : memRead (memWrite (memWrite (memWrite (memWrite m a (v.extractLsb' 0 8)) (a + 1) (v.extractLsb' 8 8))
      (a + 2) (v.extractLsb' 16 8)) (a + 3) (v.extractLsb' 24 8)) a = v.extractLsb' 0 8 := by
    rw [memRead_memWrite_ne _ _ _ _ (by omega), memRead_memWrite_ne _ _ _ _ (by omega),
      memRead_memWrite_ne _ _ _ _ (by omega), memRead_memWrite_self]
  have e1 : memRead (memWrite (memWrite (memWrite (memWrite m a (v.extractLsb' 0 8)) (a + 1) (v.extractLsb' 8 8))
      (a + 2) (v.extractLsb' 16 8)) (a + 3) (v.extractLsb' 24 8)) (a + 1) = v.extractLsb' 8 8 := by
    rw [memRead_memWrite_ne _ _ _ _ (by omega), memRead_memWrite_ne _ _ _ _ (by omega), memRead_memWrite_self]
  have e2 : memRead (memWrite (memWrite (memWrite (memWrite m a (v.extractLsb' 0 8)) (a + 1) (v.extractLsb' 8 8))
      (a + 2) (v.extractLsb' 16 8)) (a + 3) (v.extractLsb' 24 8)) (a + 2) = v.extractLsb' 16 8 := by
    rw [memRead_memWrite_ne _ _ _ _ (by omega), memRead_memWrite_self]
  rw [e0, e1, e2, memRead_memWrite_self]
  ext i hi
  simp only [BitVec.getElem_append, BitVec.getElem_extractLsb']
  split
  · rw [← BitVec.getLsbD_eq_getElem]; congr 1; omega
  · split
    · rw [← BitVec.getLsbD_eq_getElem]; congr 1; omega
    · split
      · rw [← BitVec.getLsbD_eq_getElem]; congr 1; omega
      · rw [← BitVec.getLsbD_eq_getElem]; congr 1; omega

/-! ## The canonical form -/

/-- The keys of a list rise strictly. -/
theorem wf_iff (m : List Host.Cell) :
    Memory.wf m = true ↔ (m.Pairwise (fun x y => x.1 < y.1)) ∧ ∀ e ∈ m, e.2 ≠ memDefault := by
  have key : ∀ (r : List Host.Cell) (lo : Nat), risingFrom lo r = true ↔ (∀ e ∈ r, lo < e.1) ∧ r.Pairwise (fun x y => x.1 < y.1) := by
    intro r
    induction r with
    | nil => simp [risingFrom]
    | cons e t ih =>
      intro lo
      obtain ⟨a, v⟩ := e
      simp only [risingFrom, Bool.and_eq_true, decide_eq_true_eq, ih, List.mem_cons, List.pairwise_cons]
      constructor
      · rintro ⟨h1, h2, h3⟩
        refine ⟨?_, h2, h3⟩
        rintro e (rfl | he)
        · exact h1
        · exact Nat.lt_trans h1 (h2 e he)
      · rintro ⟨h1, h2, h3⟩
        exact ⟨h1 (a, v) (Or.inl rfl), h2, h3⟩
  cases m with
  | nil => simp [Memory.wf]
  | cons e t =>
    obtain ⟨a, v⟩ := e
    simp only [Memory.wf, Bool.and_eq_true, key, List.pairwise_cons, List.all_eq_true, bne_iff_ne, ne_eq]

theorem memWrite_wf (m : List Host.Cell) (a : Nat) (v : Byte) (h : Memory.wf m = true) : Memory.wf (memWrite m a v) = true := by
  rw [wf_iff] at h ⊢
  obtain ⟨h1, h2⟩ := h
  unfold memWrite
  split
  · exact ⟨h1.filter _, fun e he => h2 e (List.mem_of_mem_filter he)⟩
  · rename_i hv
    have key : ∀ r : List Host.Cell, r.Pairwise (fun x y => x.1 < y.1) →
        (nmPut r a v).Pairwise (fun x y => x.1 < y.1) ∧ (∀ e ∈ nmPut r a v, e = (a, v) ∨ e ∈ r) := by
      intro r
      induction r with
      | nil => intro _; simp [nmPut, amPut]
      | cons e t ih =>
        obtain ⟨k, w⟩ := e
        intro hr
        rw [List.pairwise_cons] at hr
        obtain ⟨g1, g2⟩ := ih hr.2
        unfold nmPut amPut
        by_cases hk : k = a
        · subst hk
          simp only [if_true, List.pairwise_cons, List.mem_cons]
          exact ⟨⟨fun y hy => hr.1 y hy, hr.2⟩, fun e he => he.elim Or.inl (fun x => Or.inr (Or.inr x))⟩
        · by_cases hl : a < k
          · simp only [hk, hl, if_false, decide_true, if_true, List.pairwise_cons, List.mem_cons]
            refine ⟨⟨?_, hr.1, hr.2⟩, fun e he => he⟩
            rintro y (rfl | hy)
            · exact hl
            · exact Nat.lt_trans hl (hr.1 y hy)
          · simp only [hk, hl, if_false, decide_false, Bool.false_eq_true, List.pairwise_cons, List.mem_cons]
            refine ⟨⟨?_, g1⟩, ?_⟩
            · intro y hy
              rcases g2 y hy with rfl | hy
              · exact Nat.lt_of_le_of_ne (Nat.le_of_not_lt hl) hk
              · exact hr.1 y hy
            · rintro e (rfl | he)
              · exact Or.inr (Or.inl rfl)
              · exact (g2 e he).elim Or.inl (fun x => Or.inr (Or.inr x))
    obtain ⟨g1, g2⟩ := key m h1
    refine ⟨g1, fun e he => ?_⟩
    rcases g2 e he with rfl | he
    · exact hv
    · exact h2 e he

theorem memWriteList_wf (m : List Host.Cell) (a : Nat) (l : List Byte) (h : Memory.wf m = true) :
    Memory.wf (memWriteList m a l) = true := by
  induction l generalizing m a with
  | nil => exact h
  | cons b r ih => exact ih _ _ (memWrite_wf _ _ _ h)

theorem memPutWord_wf (m : List Host.Cell) (a : Nat) (v : Word) (h : Memory.wf m = true) :
    Memory.wf (memPutWord m a v) = true :=
  memWrite_wf _ _ _ (memWrite_wf _ _ _ (memWrite_wf _ _ _ (memWrite_wf _ _ _ h)))

theorem memPutWords_wf (m : List Host.Cell) (a : Nat) (l : List Word) (h : Memory.wf m = true) :
    Memory.wf (memPutWords m a l) = true := by
  induction l generalizing m a with
  | nil => exact h
  | cons w r ih => exact ih _ _ (memPutWord_wf _ _ _ h)

theorem memClear_wf (m : List Host.Cell) (lo n : Nat) (h : Memory.wf m = true) : Memory.wf (memClear m lo n) = true := by
  rw [wf_iff] at h ⊢
  exact ⟨h.1.filter _, fun e he => h.2 e (List.mem_of_mem_filter he)⟩

end Sys2Proof.Machine
end

