-- ==== Sys2Proof/Laws/State.lean ====
section
/-! SUPPORT. What each named update of the state leaves alone, and that each reads back. -/

namespace Sys2Proof.Machine

@[simp] theorem State.setReg_fields (s : State) (r : Reg) (ix : Ix) (v : Word) :
    (s.setReg r ix v).pending = s.pending ∧
    (s.setReg r ix v).variant = s.variant ∧
    (s.setReg r ix v).fuses = s.fuses ∧
    (s.setReg r ix v).straps = s.straps ∧
    (s.setReg r ix v).ports = s.ports ∧
    (s.setReg r ix v).now = s.now ∧
    (s.setReg r ix v).slew = s.slew ∧
    (s.setReg r ix v).slewFrac = s.slewFrac ∧
    (s.setReg r ix v).slewPend = s.slewPend ∧
    (s.setReg r ix v).dieMem = s.dieMem ∧
    (s.setReg r ix v).ring = s.ring ∧
    (s.setReg r ix v).hostMem = s.hostMem ∧
    (s.setReg r ix v).ecc = s.ecc ∧
    (s.setReg r ix v).weak = s.weak ∧
    (s.setReg r ix v).tasks = s.tasks ∧
    (s.setReg r ix v).flight = s.flight ∧
    (s.setReg r ix v).msgs = s.msgs ∧
    (s.setReg r ix v).sent = s.sent ∧
    (s.setReg r ix v).dies = s.dies ∧
    (s.setReg r ix v).boot = s.boot ∧
    (s.setReg r ix v).dbg = s.dbg ∧
    (s.setReg r ix v).pcie = s.pcie ∧
    (s.setReg r ix v).recs = s.recs ∧
    (s.setReg r ix v).posts = s.posts ∧
    (s.setReg r ix v).cqs = s.cqs ∧
    (s.setReg r ix v).cqLast = s.cqLast ∧
    (s.setReg r ix v).cqTime = s.cqTime ∧
    (s.setReg r ix v).eqs = s.eqs ∧
    (s.setReg r ix v).groups = s.groups ∧
    (s.setReg r ix v).claims = s.claims ∧
    (s.setReg r ix v).coreIrq = s.coreIrq ∧
    (s.setReg r ix v).asleep = s.asleep ∧
    (s.setReg r ix v).prods = s.prods ∧
    (s.setReg r ix v).pins = s.pins ∧
    (s.setReg r ix v).cars = s.cars ∧
    (s.setReg r ix v).trips = s.trips ∧
    (s.setReg r ix v).fbs = s.fbs ∧
    (s.setReg r ix v).hoops = s.hoops ∧
    (s.setReg r ix v).ques = s.ques ∧
    (s.setReg r ix v).dmas = s.dmas ∧
    (s.setReg r ix v).nets = s.nets ∧
    (s.setReg r ix v).ptpPorts = s.ptpPorts ∧
    (s.setReg r ix v).ptp = s.ptp ∧
    (s.setReg r ix v).axps = s.axps ∧
    (s.setReg r ix v).axss = s.axss ∧
    (s.setReg r ix v).freeCount = s.freeCount := 
  ⟨rfl, rfl, rfl, rfl, rfl, rfl, rfl, rfl, rfl, rfl, rfl, rfl, rfl, rfl, rfl, rfl, rfl, rfl, rfl, rfl, rfl, rfl, rfl, rfl, rfl, rfl, rfl, rfl, rfl, rfl, rfl, rfl, rfl, rfl, rfl, rfl, rfl, rfl, rfl, rfl, rfl, rfl, rfl, rfl, rfl, rfl⟩

@[simp] theorem State.setFld_fields (s : State) (f : Fld) (ix : Ix) (v : Nat) :
    (s.setFld f ix v).pending = s.pending ∧
    (s.setFld f ix v).variant = s.variant ∧
    (s.setFld f ix v).fuses = s.fuses ∧
    (s.setFld f ix v).straps = s.straps ∧
    (s.setFld f ix v).ports = s.ports ∧
    (s.setFld f ix v).now = s.now ∧
    (s.setFld f ix v).slew = s.slew ∧
    (s.setFld f ix v).slewFrac = s.slewFrac ∧
    (s.setFld f ix v).slewPend = s.slewPend ∧
    (s.setFld f ix v).dieMem = s.dieMem ∧
    (s.setFld f ix v).ring = s.ring ∧
    (s.setFld f ix v).hostMem = s.hostMem ∧
    (s.setFld f ix v).ecc = s.ecc ∧
    (s.setFld f ix v).weak = s.weak ∧
    (s.setFld f ix v).tasks = s.tasks ∧
    (s.setFld f ix v).flight = s.flight ∧
    (s.setFld f ix v).msgs = s.msgs ∧
    (s.setFld f ix v).sent = s.sent ∧
    (s.setFld f ix v).dies = s.dies ∧
    (s.setFld f ix v).boot = s.boot ∧
    (s.setFld f ix v).dbg = s.dbg ∧
    (s.setFld f ix v).pcie = s.pcie ∧
    (s.setFld f ix v).recs = s.recs ∧
    (s.setFld f ix v).posts = s.posts ∧
    (s.setFld f ix v).cqs = s.cqs ∧
    (s.setFld f ix v).cqLast = s.cqLast ∧
    (s.setFld f ix v).cqTime = s.cqTime ∧
    (s.setFld f ix v).eqs = s.eqs ∧
    (s.setFld f ix v).groups = s.groups ∧
    (s.setFld f ix v).claims = s.claims ∧
    (s.setFld f ix v).coreIrq = s.coreIrq ∧
    (s.setFld f ix v).asleep = s.asleep ∧
    (s.setFld f ix v).prods = s.prods ∧
    (s.setFld f ix v).pins = s.pins ∧
    (s.setFld f ix v).cars = s.cars ∧
    (s.setFld f ix v).trips = s.trips ∧
    (s.setFld f ix v).fbs = s.fbs ∧
    (s.setFld f ix v).hoops = s.hoops ∧
    (s.setFld f ix v).ques = s.ques ∧
    (s.setFld f ix v).dmas = s.dmas ∧
    (s.setFld f ix v).nets = s.nets ∧
    (s.setFld f ix v).ptpPorts = s.ptpPorts ∧
    (s.setFld f ix v).ptp = s.ptp ∧
    (s.setFld f ix v).axps = s.axps ∧
    (s.setFld f ix v).axss = s.axss ∧
    (s.setFld f ix v).freeCount = s.freeCount := 
  ⟨rfl, rfl, rfl, rfl, rfl, rfl, rfl, rfl, rfl, rfl, rfl, rfl, rfl, rfl, rfl, rfl, rfl, rfl, rfl, rfl, rfl, rfl, rfl, rfl, rfl, rfl, rfl, rfl, rfl, rfl, rfl, rfl, rfl, rfl, rfl, rfl, rfl, rfl, rfl, rfl, rfl, rfl, rfl, rfl, rfl, rfl⟩

@[simp] theorem State.setBit_fields (s : State) (f : Fld) (ix : Ix) (v : Bool) :
    (s.setBit f ix v).pending = s.pending ∧
    (s.setBit f ix v).variant = s.variant ∧
    (s.setBit f ix v).fuses = s.fuses ∧
    (s.setBit f ix v).straps = s.straps ∧
    (s.setBit f ix v).ports = s.ports ∧
    (s.setBit f ix v).now = s.now ∧
    (s.setBit f ix v).slew = s.slew ∧
    (s.setBit f ix v).slewFrac = s.slewFrac ∧
    (s.setBit f ix v).slewPend = s.slewPend ∧
    (s.setBit f ix v).dieMem = s.dieMem ∧
    (s.setBit f ix v).ring = s.ring ∧
    (s.setBit f ix v).hostMem = s.hostMem ∧
    (s.setBit f ix v).ecc = s.ecc ∧
    (s.setBit f ix v).weak = s.weak ∧
    (s.setBit f ix v).tasks = s.tasks ∧
    (s.setBit f ix v).flight = s.flight ∧
    (s.setBit f ix v).msgs = s.msgs ∧
    (s.setBit f ix v).sent = s.sent ∧
    (s.setBit f ix v).dies = s.dies ∧
    (s.setBit f ix v).boot = s.boot ∧
    (s.setBit f ix v).dbg = s.dbg ∧
    (s.setBit f ix v).pcie = s.pcie ∧
    (s.setBit f ix v).recs = s.recs ∧
    (s.setBit f ix v).posts = s.posts ∧
    (s.setBit f ix v).cqs = s.cqs ∧
    (s.setBit f ix v).cqLast = s.cqLast ∧
    (s.setBit f ix v).cqTime = s.cqTime ∧
    (s.setBit f ix v).eqs = s.eqs ∧
    (s.setBit f ix v).groups = s.groups ∧
    (s.setBit f ix v).claims = s.claims ∧
    (s.setBit f ix v).coreIrq = s.coreIrq ∧
    (s.setBit f ix v).asleep = s.asleep ∧
    (s.setBit f ix v).prods = s.prods ∧
    (s.setBit f ix v).pins = s.pins ∧
    (s.setBit f ix v).cars = s.cars ∧
    (s.setBit f ix v).trips = s.trips ∧
    (s.setBit f ix v).fbs = s.fbs ∧
    (s.setBit f ix v).hoops = s.hoops ∧
    (s.setBit f ix v).ques = s.ques ∧
    (s.setBit f ix v).dmas = s.dmas ∧
    (s.setBit f ix v).nets = s.nets ∧
    (s.setBit f ix v).ptpPorts = s.ptpPorts ∧
    (s.setBit f ix v).ptp = s.ptp ∧
    (s.setBit f ix v).axps = s.axps ∧
    (s.setBit f ix v).axss = s.axss ∧
    (s.setBit f ix v).freeCount = s.freeCount := 
  ⟨rfl, rfl, rfl, rfl, rfl, rfl, rfl, rfl, rfl, rfl, rfl, rfl, rfl, rfl, rfl, rfl, rfl, rfl, rfl, rfl, rfl, rfl, rfl, rfl, rfl, rfl, rfl, rfl, rfl, rfl, rfl, rfl, rfl, rfl, rfl, rfl, rfl, rfl, rfl, rfl, rfl, rfl, rfl, rfl, rfl, rfl⟩

@[simp] theorem State.bump_fields (s : State) (f : Fld) (ix : Ix) :
    (s.bump f ix).pending = s.pending ∧
    (s.bump f ix).variant = s.variant ∧
    (s.bump f ix).fuses = s.fuses ∧
    (s.bump f ix).straps = s.straps ∧
    (s.bump f ix).ports = s.ports ∧
    (s.bump f ix).now = s.now ∧
    (s.bump f ix).slew = s.slew ∧
    (s.bump f ix).slewFrac = s.slewFrac ∧
    (s.bump f ix).slewPend = s.slewPend ∧
    (s.bump f ix).dieMem = s.dieMem ∧
    (s.bump f ix).ring = s.ring ∧
    (s.bump f ix).hostMem = s.hostMem ∧
    (s.bump f ix).ecc = s.ecc ∧
    (s.bump f ix).weak = s.weak ∧
    (s.bump f ix).tasks = s.tasks ∧
    (s.bump f ix).flight = s.flight ∧
    (s.bump f ix).msgs = s.msgs ∧
    (s.bump f ix).sent = s.sent ∧
    (s.bump f ix).dies = s.dies ∧
    (s.bump f ix).boot = s.boot ∧
    (s.bump f ix).dbg = s.dbg ∧
    (s.bump f ix).pcie = s.pcie ∧
    (s.bump f ix).recs = s.recs ∧
    (s.bump f ix).posts = s.posts ∧
    (s.bump f ix).cqs = s.cqs ∧
    (s.bump f ix).cqLast = s.cqLast ∧
    (s.bump f ix).cqTime = s.cqTime ∧
    (s.bump f ix).eqs = s.eqs ∧
    (s.bump f ix).groups = s.groups ∧
    (s.bump f ix).claims = s.claims ∧
    (s.bump f ix).coreIrq = s.coreIrq ∧
    (s.bump f ix).asleep = s.asleep ∧
    (s.bump f ix).prods = s.prods ∧
    (s.bump f ix).pins = s.pins ∧
    (s.bump f ix).cars = s.cars ∧
    (s.bump f ix).trips = s.trips ∧
    (s.bump f ix).fbs = s.fbs ∧
    (s.bump f ix).hoops = s.hoops ∧
    (s.bump f ix).ques = s.ques ∧
    (s.bump f ix).dmas = s.dmas ∧
    (s.bump f ix).nets = s.nets ∧
    (s.bump f ix).ptpPorts = s.ptpPorts ∧
    (s.bump f ix).ptp = s.ptp ∧
    (s.bump f ix).axps = s.axps ∧
    (s.bump f ix).axss = s.axss ∧
    (s.bump f ix).freeCount = s.freeCount := 
  ⟨rfl, rfl, rfl, rfl, rfl, rfl, rfl, rfl, rfl, rfl, rfl, rfl, rfl, rfl, rfl, rfl, rfl, rfl, rfl, rfl, rfl, rfl, rfl, rfl, rfl, rfl, rfl, rfl, rfl, rfl, rfl, rfl, rfl, rfl, rfl, rfl, rfl, rfl, rfl, rfl, rfl, rfl, rfl, rfl, rfl, rfl⟩

@[simp] theorem State.plainWrite_fields (s : State) (r : Reg) (ix : Ix) (v : Word) :
    (s.plainWrite r ix v).pending = s.pending ∧
    (s.plainWrite r ix v).variant = s.variant ∧
    (s.plainWrite r ix v).fuses = s.fuses ∧
    (s.plainWrite r ix v).straps = s.straps ∧
    (s.plainWrite r ix v).ports = s.ports ∧
    (s.plainWrite r ix v).now = s.now ∧
    (s.plainWrite r ix v).slew = s.slew ∧
    (s.plainWrite r ix v).slewFrac = s.slewFrac ∧
    (s.plainWrite r ix v).slewPend = s.slewPend ∧
    (s.plainWrite r ix v).dieMem = s.dieMem ∧
    (s.plainWrite r ix v).ring = s.ring ∧
    (s.plainWrite r ix v).hostMem = s.hostMem ∧
    (s.plainWrite r ix v).ecc = s.ecc ∧
    (s.plainWrite r ix v).weak = s.weak ∧
    (s.plainWrite r ix v).tasks = s.tasks ∧
    (s.plainWrite r ix v).flight = s.flight ∧
    (s.plainWrite r ix v).msgs = s.msgs ∧
    (s.plainWrite r ix v).sent = s.sent ∧
    (s.plainWrite r ix v).dies = s.dies ∧
    (s.plainWrite r ix v).boot = s.boot ∧
    (s.plainWrite r ix v).dbg = s.dbg ∧
    (s.plainWrite r ix v).pcie = s.pcie ∧
    (s.plainWrite r ix v).recs = s.recs ∧
    (s.plainWrite r ix v).posts = s.posts ∧
    (s.plainWrite r ix v).cqs = s.cqs ∧
    (s.plainWrite r ix v).cqLast = s.cqLast ∧
    (s.plainWrite r ix v).cqTime = s.cqTime ∧
    (s.plainWrite r ix v).eqs = s.eqs ∧
    (s.plainWrite r ix v).groups = s.groups ∧
    (s.plainWrite r ix v).claims = s.claims ∧
    (s.plainWrite r ix v).coreIrq = s.coreIrq ∧
    (s.plainWrite r ix v).asleep = s.asleep ∧
    (s.plainWrite r ix v).prods = s.prods ∧
    (s.plainWrite r ix v).pins = s.pins ∧
    (s.plainWrite r ix v).cars = s.cars ∧
    (s.plainWrite r ix v).trips = s.trips ∧
    (s.plainWrite r ix v).fbs = s.fbs ∧
    (s.plainWrite r ix v).hoops = s.hoops ∧
    (s.plainWrite r ix v).ques = s.ques ∧
    (s.plainWrite r ix v).dmas = s.dmas ∧
    (s.plainWrite r ix v).nets = s.nets ∧
    (s.plainWrite r ix v).ptpPorts = s.ptpPorts ∧
    (s.plainWrite r ix v).ptp = s.ptp ∧
    (s.plainWrite r ix v).axps = s.axps ∧
    (s.plainWrite r ix v).axss = s.axss ∧
    (s.plainWrite r ix v).freeCount = s.freeCount := 
  ⟨rfl, rfl, rfl, rfl, rfl, rfl, rfl, rfl, rfl, rfl, rfl, rfl, rfl, rfl, rfl, rfl, rfl, rfl, rfl, rfl, rfl, rfl, rfl, rfl, rfl, rfl, rfl, rfl, rfl, rfl, rfl, rfl, rfl, rfl, rfl, rfl, rfl, rfl, rfl, rfl, rfl, rfl, rfl, rfl, rfl, rfl⟩

@[simp] theorem State.setReg64_fields (s : State) (lo hi : Reg) (ix : Ix) (v : BitVec 64) :
    (s.setReg64 lo hi ix v).pending = s.pending ∧
    (s.setReg64 lo hi ix v).variant = s.variant ∧
    (s.setReg64 lo hi ix v).fuses = s.fuses ∧
    (s.setReg64 lo hi ix v).straps = s.straps ∧
    (s.setReg64 lo hi ix v).ports = s.ports ∧
    (s.setReg64 lo hi ix v).now = s.now ∧
    (s.setReg64 lo hi ix v).slew = s.slew ∧
    (s.setReg64 lo hi ix v).slewFrac = s.slewFrac ∧
    (s.setReg64 lo hi ix v).slewPend = s.slewPend ∧
    (s.setReg64 lo hi ix v).dieMem = s.dieMem ∧
    (s.setReg64 lo hi ix v).ring = s.ring ∧
    (s.setReg64 lo hi ix v).hostMem = s.hostMem ∧
    (s.setReg64 lo hi ix v).ecc = s.ecc ∧
    (s.setReg64 lo hi ix v).weak = s.weak ∧
    (s.setReg64 lo hi ix v).tasks = s.tasks ∧
    (s.setReg64 lo hi ix v).flight = s.flight ∧
    (s.setReg64 lo hi ix v).msgs = s.msgs ∧
    (s.setReg64 lo hi ix v).sent = s.sent ∧
    (s.setReg64 lo hi ix v).dies = s.dies ∧
    (s.setReg64 lo hi ix v).boot = s.boot ∧
    (s.setReg64 lo hi ix v).dbg = s.dbg ∧
    (s.setReg64 lo hi ix v).pcie = s.pcie ∧
    (s.setReg64 lo hi ix v).recs = s.recs ∧
    (s.setReg64 lo hi ix v).posts = s.posts ∧
    (s.setReg64 lo hi ix v).cqs = s.cqs ∧
    (s.setReg64 lo hi ix v).cqLast = s.cqLast ∧
    (s.setReg64 lo hi ix v).cqTime = s.cqTime ∧
    (s.setReg64 lo hi ix v).eqs = s.eqs ∧
    (s.setReg64 lo hi ix v).groups = s.groups ∧
    (s.setReg64 lo hi ix v).claims = s.claims ∧
    (s.setReg64 lo hi ix v).coreIrq = s.coreIrq ∧
    (s.setReg64 lo hi ix v).asleep = s.asleep ∧
    (s.setReg64 lo hi ix v).prods = s.prods ∧
    (s.setReg64 lo hi ix v).pins = s.pins ∧
    (s.setReg64 lo hi ix v).cars = s.cars ∧
    (s.setReg64 lo hi ix v).trips = s.trips ∧
    (s.setReg64 lo hi ix v).fbs = s.fbs ∧
    (s.setReg64 lo hi ix v).hoops = s.hoops ∧
    (s.setReg64 lo hi ix v).ques = s.ques ∧
    (s.setReg64 lo hi ix v).dmas = s.dmas ∧
    (s.setReg64 lo hi ix v).nets = s.nets ∧
    (s.setReg64 lo hi ix v).ptpPorts = s.ptpPorts ∧
    (s.setReg64 lo hi ix v).ptp = s.ptp ∧
    (s.setReg64 lo hi ix v).axps = s.axps ∧
    (s.setReg64 lo hi ix v).axss = s.axss ∧
    (s.setReg64 lo hi ix v).freeCount = s.freeCount := 
  ⟨rfl, rfl, rfl, rfl, rfl, rfl, rfl, rfl, rfl, rfl, rfl, rfl, rfl, rfl, rfl, rfl, rfl, rfl, rfl, rfl, rfl, rfl, rfl, rfl, rfl, rfl, rfl, rfl, rfl, rfl, rfl, rfl, rfl, rfl, rfl, rfl, rfl, rfl, rfl, rfl, rfl, rfl, rfl, rfl, rfl, rfl⟩

@[simp] theorem State.setDie_fields (s : State) (d : Nat) (x : Die) :
    (s.setDie d x).pending = s.pending ∧
    (s.setDie d x).variant = s.variant ∧
    (s.setDie d x).fuses = s.fuses ∧
    (s.setDie d x).straps = s.straps ∧
    (s.setDie d x).regs = s.regs ∧
    (s.setDie d x).ports = s.ports ∧
    (s.setDie d x).now = s.now ∧
    (s.setDie d x).slew = s.slew ∧
    (s.setDie d x).slewFrac = s.slewFrac ∧
    (s.setDie d x).slewPend = s.slewPend ∧
    (s.setDie d x).dieMem = s.dieMem ∧
    (s.setDie d x).ring = s.ring ∧
    (s.setDie d x).hostMem = s.hostMem ∧
    (s.setDie d x).ecc = s.ecc ∧
    (s.setDie d x).weak = s.weak ∧
    (s.setDie d x).tasks = s.tasks ∧
    (s.setDie d x).flight = s.flight ∧
    (s.setDie d x).msgs = s.msgs ∧
    (s.setDie d x).sent = s.sent ∧
    (s.setDie d x).boot = s.boot ∧
    (s.setDie d x).dbg = s.dbg ∧
    (s.setDie d x).pcie = s.pcie ∧
    (s.setDie d x).recs = s.recs ∧
    (s.setDie d x).posts = s.posts ∧
    (s.setDie d x).cqs = s.cqs ∧
    (s.setDie d x).cqLast = s.cqLast ∧
    (s.setDie d x).cqTime = s.cqTime ∧
    (s.setDie d x).eqs = s.eqs ∧
    (s.setDie d x).groups = s.groups ∧
    (s.setDie d x).claims = s.claims ∧
    (s.setDie d x).coreIrq = s.coreIrq ∧
    (s.setDie d x).asleep = s.asleep ∧
    (s.setDie d x).prods = s.prods ∧
    (s.setDie d x).pins = s.pins ∧
    (s.setDie d x).cars = s.cars ∧
    (s.setDie d x).trips = s.trips ∧
    (s.setDie d x).fbs = s.fbs ∧
    (s.setDie d x).hoops = s.hoops ∧
    (s.setDie d x).ques = s.ques ∧
    (s.setDie d x).dmas = s.dmas ∧
    (s.setDie d x).nets = s.nets ∧
    (s.setDie d x).ptpPorts = s.ptpPorts ∧
    (s.setDie d x).ptp = s.ptp ∧
    (s.setDie d x).axps = s.axps ∧
    (s.setDie d x).axss = s.axss ∧
    (s.setDie d x).freeCount = s.freeCount := 
  ⟨rfl, rfl, rfl, rfl, rfl, rfl, rfl, rfl, rfl, rfl, rfl, rfl, rfl, rfl, rfl, rfl, rfl, rfl, rfl, rfl, rfl, rfl, rfl, rfl, rfl, rfl, rfl, rfl, rfl, rfl, rfl, rfl, rfl, rfl, rfl, rfl, rfl, rfl, rfl, rfl, rfl, rfl, rfl, rfl, rfl, rfl⟩

@[simp] theorem State.modDie_fields (s : State) (d : Nat) (f : Die → Die) :
    (s.modDie d f).pending = s.pending ∧
    (s.modDie d f).variant = s.variant ∧
    (s.modDie d f).fuses = s.fuses ∧
    (s.modDie d f).straps = s.straps ∧
    (s.modDie d f).regs = s.regs ∧
    (s.modDie d f).ports = s.ports ∧
    (s.modDie d f).now = s.now ∧
    (s.modDie d f).slew = s.slew ∧
    (s.modDie d f).slewFrac = s.slewFrac ∧
    (s.modDie d f).slewPend = s.slewPend ∧
    (s.modDie d f).dieMem = s.dieMem ∧
    (s.modDie d f).ring = s.ring ∧
    (s.modDie d f).hostMem = s.hostMem ∧
    (s.modDie d f).ecc = s.ecc ∧
    (s.modDie d f).weak = s.weak ∧
    (s.modDie d f).tasks = s.tasks ∧
    (s.modDie d f).flight = s.flight ∧
    (s.modDie d f).msgs = s.msgs ∧
    (s.modDie d f).sent = s.sent ∧
    (s.modDie d f).boot = s.boot ∧
    (s.modDie d f).dbg = s.dbg ∧
    (s.modDie d f).pcie = s.pcie ∧
    (s.modDie d f).recs = s.recs ∧
    (s.modDie d f).posts = s.posts ∧
    (s.modDie d f).cqs = s.cqs ∧
    (s.modDie d f).cqLast = s.cqLast ∧
    (s.modDie d f).cqTime = s.cqTime ∧
    (s.modDie d f).eqs = s.eqs ∧
    (s.modDie d f).groups = s.groups ∧
    (s.modDie d f).claims = s.claims ∧
    (s.modDie d f).coreIrq = s.coreIrq ∧
    (s.modDie d f).asleep = s.asleep ∧
    (s.modDie d f).prods = s.prods ∧
    (s.modDie d f).pins = s.pins ∧
    (s.modDie d f).cars = s.cars ∧
    (s.modDie d f).trips = s.trips ∧
    (s.modDie d f).fbs = s.fbs ∧
    (s.modDie d f).hoops = s.hoops ∧
    (s.modDie d f).ques = s.ques ∧
    (s.modDie d f).dmas = s.dmas ∧
    (s.modDie d f).nets = s.nets ∧
    (s.modDie d f).ptpPorts = s.ptpPorts ∧
    (s.modDie d f).ptp = s.ptp ∧
    (s.modDie d f).axps = s.axps ∧
    (s.modDie d f).axss = s.axss ∧
    (s.modDie d f).freeCount = s.freeCount := 
  ⟨rfl, rfl, rfl, rfl, rfl, rfl, rfl, rfl, rfl, rfl, rfl, rfl, rfl, rfl, rfl, rfl, rfl, rfl, rfl, rfl, rfl, rfl, rfl, rfl, rfl, rfl, rfl, rfl, rfl, rfl, rfl, rfl, rfl, rfl, rfl, rfl, rfl, rfl, rfl, rfl, rfl, rfl, rfl, rfl, rfl, rfl⟩

@[simp] theorem State.setTask_fields (s : State) (t : Nat) (k : Task) :
    (s.setTask t k).pending = s.pending ∧
    (s.setTask t k).variant = s.variant ∧
    (s.setTask t k).fuses = s.fuses ∧
    (s.setTask t k).straps = s.straps ∧
    (s.setTask t k).regs = s.regs ∧
    (s.setTask t k).ports = s.ports ∧
    (s.setTask t k).now = s.now ∧
    (s.setTask t k).slew = s.slew ∧
    (s.setTask t k).slewFrac = s.slewFrac ∧
    (s.setTask t k).slewPend = s.slewPend ∧
    (s.setTask t k).dieMem = s.dieMem ∧
    (s.setTask t k).ring = s.ring ∧
    (s.setTask t k).hostMem = s.hostMem ∧
    (s.setTask t k).ecc = s.ecc ∧
    (s.setTask t k).weak = s.weak ∧
    (s.setTask t k).flight = s.flight ∧
    (s.setTask t k).msgs = s.msgs ∧
    (s.setTask t k).sent = s.sent ∧
    (s.setTask t k).dies = s.dies ∧
    (s.setTask t k).boot = s.boot ∧
    (s.setTask t k).dbg = s.dbg ∧
    (s.setTask t k).pcie = s.pcie ∧
    (s.setTask t k).recs = s.recs ∧
    (s.setTask t k).posts = s.posts ∧
    (s.setTask t k).cqs = s.cqs ∧
    (s.setTask t k).cqLast = s.cqLast ∧
    (s.setTask t k).cqTime = s.cqTime ∧
    (s.setTask t k).eqs = s.eqs ∧
    (s.setTask t k).groups = s.groups ∧
    (s.setTask t k).claims = s.claims ∧
    (s.setTask t k).coreIrq = s.coreIrq ∧
    (s.setTask t k).asleep = s.asleep ∧
    (s.setTask t k).prods = s.prods ∧
    (s.setTask t k).pins = s.pins ∧
    (s.setTask t k).cars = s.cars ∧
    (s.setTask t k).trips = s.trips ∧
    (s.setTask t k).fbs = s.fbs ∧
    (s.setTask t k).hoops = s.hoops ∧
    (s.setTask t k).ques = s.ques ∧
    (s.setTask t k).dmas = s.dmas ∧
    (s.setTask t k).nets = s.nets ∧
    (s.setTask t k).ptpPorts = s.ptpPorts ∧
    (s.setTask t k).ptp = s.ptp ∧
    (s.setTask t k).axps = s.axps ∧
    (s.setTask t k).axss = s.axss ∧
    (s.setTask t k).freeCount = s.freeCount := 
  ⟨rfl, rfl, rfl, rfl, rfl, rfl, rfl, rfl, rfl, rfl, rfl, rfl, rfl, rfl, rfl, rfl, rfl, rfl, rfl, rfl, rfl, rfl, rfl, rfl, rfl, rfl, rfl, rfl, rfl, rfl, rfl, rfl, rfl, rfl, rfl, rfl, rfl, rfl, rfl, rfl, rfl, rfl, rfl, rfl, rfl, rfl⟩

@[simp] theorem State.setPin_fields (s : State) (p : Nat) (x : PinSt) :
    (s.setPin p x).pending = s.pending ∧
    (s.setPin p x).variant = s.variant ∧
    (s.setPin p x).fuses = s.fuses ∧
    (s.setPin p x).straps = s.straps ∧
    (s.setPin p x).regs = s.regs ∧
    (s.setPin p x).ports = s.ports ∧
    (s.setPin p x).now = s.now ∧
    (s.setPin p x).slew = s.slew ∧
    (s.setPin p x).slewFrac = s.slewFrac ∧
    (s.setPin p x).slewPend = s.slewPend ∧
    (s.setPin p x).dieMem = s.dieMem ∧
    (s.setPin p x).ring = s.ring ∧
    (s.setPin p x).hostMem = s.hostMem ∧
    (s.setPin p x).ecc = s.ecc ∧
    (s.setPin p x).weak = s.weak ∧
    (s.setPin p x).tasks = s.tasks ∧
    (s.setPin p x).flight = s.flight ∧
    (s.setPin p x).msgs = s.msgs ∧
    (s.setPin p x).sent = s.sent ∧
    (s.setPin p x).dies = s.dies ∧
    (s.setPin p x).boot = s.boot ∧
    (s.setPin p x).dbg = s.dbg ∧
    (s.setPin p x).pcie = s.pcie ∧
    (s.setPin p x).recs = s.recs ∧
    (s.setPin p x).posts = s.posts ∧
    (s.setPin p x).cqs = s.cqs ∧
    (s.setPin p x).cqLast = s.cqLast ∧
    (s.setPin p x).cqTime = s.cqTime ∧
    (s.setPin p x).eqs = s.eqs ∧
    (s.setPin p x).groups = s.groups ∧
    (s.setPin p x).claims = s.claims ∧
    (s.setPin p x).coreIrq = s.coreIrq ∧
    (s.setPin p x).asleep = s.asleep ∧
    (s.setPin p x).prods = s.prods ∧
    (s.setPin p x).cars = s.cars ∧
    (s.setPin p x).trips = s.trips ∧
    (s.setPin p x).fbs = s.fbs ∧
    (s.setPin p x).hoops = s.hoops ∧
    (s.setPin p x).ques = s.ques ∧
    (s.setPin p x).dmas = s.dmas ∧
    (s.setPin p x).nets = s.nets ∧
    (s.setPin p x).ptpPorts = s.ptpPorts ∧
    (s.setPin p x).ptp = s.ptp ∧
    (s.setPin p x).axps = s.axps ∧
    (s.setPin p x).axss = s.axss ∧
    (s.setPin p x).freeCount = s.freeCount := 
  ⟨rfl, rfl, rfl, rfl, rfl, rfl, rfl, rfl, rfl, rfl, rfl, rfl, rfl, rfl, rfl, rfl, rfl, rfl, rfl, rfl, rfl, rfl, rfl, rfl, rfl, rfl, rfl, rfl, rfl, rfl, rfl, rfl, rfl, rfl, rfl, rfl, rfl, rfl, rfl, rfl, rfl, rfl, rfl, rfl, rfl, rfl⟩

@[simp] theorem State.modPin_fields (s : State) (p : Nat) (f : PinSt → PinSt) :
    (s.modPin p f).pending = s.pending ∧
    (s.modPin p f).variant = s.variant ∧
    (s.modPin p f).fuses = s.fuses ∧
    (s.modPin p f).straps = s.straps ∧
    (s.modPin p f).regs = s.regs ∧
    (s.modPin p f).ports = s.ports ∧
    (s.modPin p f).now = s.now ∧
    (s.modPin p f).slew = s.slew ∧
    (s.modPin p f).slewFrac = s.slewFrac ∧
    (s.modPin p f).slewPend = s.slewPend ∧
    (s.modPin p f).dieMem = s.dieMem ∧
    (s.modPin p f).ring = s.ring ∧
    (s.modPin p f).hostMem = s.hostMem ∧
    (s.modPin p f).ecc = s.ecc ∧
    (s.modPin p f).weak = s.weak ∧
    (s.modPin p f).tasks = s.tasks ∧
    (s.modPin p f).flight = s.flight ∧
    (s.modPin p f).msgs = s.msgs ∧
    (s.modPin p f).sent = s.sent ∧
    (s.modPin p f).dies = s.dies ∧
    (s.modPin p f).boot = s.boot ∧
    (s.modPin p f).dbg = s.dbg ∧
    (s.modPin p f).pcie = s.pcie ∧
    (s.modPin p f).recs = s.recs ∧
    (s.modPin p f).posts = s.posts ∧
    (s.modPin p f).cqs = s.cqs ∧
    (s.modPin p f).cqLast = s.cqLast ∧
    (s.modPin p f).cqTime = s.cqTime ∧
    (s.modPin p f).eqs = s.eqs ∧
    (s.modPin p f).groups = s.groups ∧
    (s.modPin p f).claims = s.claims ∧
    (s.modPin p f).coreIrq = s.coreIrq ∧
    (s.modPin p f).asleep = s.asleep ∧
    (s.modPin p f).prods = s.prods ∧
    (s.modPin p f).cars = s.cars ∧
    (s.modPin p f).trips = s.trips ∧
    (s.modPin p f).fbs = s.fbs ∧
    (s.modPin p f).hoops = s.hoops ∧
    (s.modPin p f).ques = s.ques ∧
    (s.modPin p f).dmas = s.dmas ∧
    (s.modPin p f).nets = s.nets ∧
    (s.modPin p f).ptpPorts = s.ptpPorts ∧
    (s.modPin p f).ptp = s.ptp ∧
    (s.modPin p f).axps = s.axps ∧
    (s.modPin p f).axss = s.axss ∧
    (s.modPin p f).freeCount = s.freeCount := 
  ⟨rfl, rfl, rfl, rfl, rfl, rfl, rfl, rfl, rfl, rfl, rfl, rfl, rfl, rfl, rfl, rfl, rfl, rfl, rfl, rfl, rfl, rfl, rfl, rfl, rfl, rfl, rfl, rfl, rfl, rfl, rfl, rfl, rfl, rfl, rfl, rfl, rfl, rfl, rfl, rfl, rfl, rfl, rfl, rfl, rfl, rfl⟩

@[simp] theorem State.setCar_fields (s : State) (c : Nat) (x : CarSt) :
    (s.setCar c x).pending = s.pending ∧
    (s.setCar c x).variant = s.variant ∧
    (s.setCar c x).fuses = s.fuses ∧
    (s.setCar c x).straps = s.straps ∧
    (s.setCar c x).regs = s.regs ∧
    (s.setCar c x).ports = s.ports ∧
    (s.setCar c x).now = s.now ∧
    (s.setCar c x).slew = s.slew ∧
    (s.setCar c x).slewFrac = s.slewFrac ∧
    (s.setCar c x).slewPend = s.slewPend ∧
    (s.setCar c x).dieMem = s.dieMem ∧
    (s.setCar c x).ring = s.ring ∧
    (s.setCar c x).hostMem = s.hostMem ∧
    (s.setCar c x).ecc = s.ecc ∧
    (s.setCar c x).weak = s.weak ∧
    (s.setCar c x).tasks = s.tasks ∧
    (s.setCar c x).flight = s.flight ∧
    (s.setCar c x).msgs = s.msgs ∧
    (s.setCar c x).sent = s.sent ∧
    (s.setCar c x).dies = s.dies ∧
    (s.setCar c x).boot = s.boot ∧
    (s.setCar c x).dbg = s.dbg ∧
    (s.setCar c x).pcie = s.pcie ∧
    (s.setCar c x).recs = s.recs ∧
    (s.setCar c x).posts = s.posts ∧
    (s.setCar c x).cqs = s.cqs ∧
    (s.setCar c x).cqLast = s.cqLast ∧
    (s.setCar c x).cqTime = s.cqTime ∧
    (s.setCar c x).eqs = s.eqs ∧
    (s.setCar c x).groups = s.groups ∧
    (s.setCar c x).claims = s.claims ∧
    (s.setCar c x).coreIrq = s.coreIrq ∧
    (s.setCar c x).asleep = s.asleep ∧
    (s.setCar c x).prods = s.prods ∧
    (s.setCar c x).pins = s.pins ∧
    (s.setCar c x).trips = s.trips ∧
    (s.setCar c x).fbs = s.fbs ∧
    (s.setCar c x).hoops = s.hoops ∧
    (s.setCar c x).ques = s.ques ∧
    (s.setCar c x).dmas = s.dmas ∧
    (s.setCar c x).nets = s.nets ∧
    (s.setCar c x).ptpPorts = s.ptpPorts ∧
    (s.setCar c x).ptp = s.ptp ∧
    (s.setCar c x).axps = s.axps ∧
    (s.setCar c x).axss = s.axss ∧
    (s.setCar c x).freeCount = s.freeCount := 
  ⟨rfl, rfl, rfl, rfl, rfl, rfl, rfl, rfl, rfl, rfl, rfl, rfl, rfl, rfl, rfl, rfl, rfl, rfl, rfl, rfl, rfl, rfl, rfl, rfl, rfl, rfl, rfl, rfl, rfl, rfl, rfl, rfl, rfl, rfl, rfl, rfl, rfl, rfl, rfl, rfl, rfl, rfl, rfl, rfl, rfl, rfl⟩

@[simp] theorem State.modCar_fields (s : State) (c : Nat) (f : CarSt → CarSt) :
    (s.modCar c f).pending = s.pending ∧
    (s.modCar c f).variant = s.variant ∧
    (s.modCar c f).fuses = s.fuses ∧
    (s.modCar c f).straps = s.straps ∧
    (s.modCar c f).regs = s.regs ∧
    (s.modCar c f).ports = s.ports ∧
    (s.modCar c f).now = s.now ∧
    (s.modCar c f).slew = s.slew ∧
    (s.modCar c f).slewFrac = s.slewFrac ∧
    (s.modCar c f).slewPend = s.slewPend ∧
    (s.modCar c f).dieMem = s.dieMem ∧
    (s.modCar c f).ring = s.ring ∧
    (s.modCar c f).hostMem = s.hostMem ∧
    (s.modCar c f).ecc = s.ecc ∧
    (s.modCar c f).weak = s.weak ∧
    (s.modCar c f).tasks = s.tasks ∧
    (s.modCar c f).flight = s.flight ∧
    (s.modCar c f).msgs = s.msgs ∧
    (s.modCar c f).sent = s.sent ∧
    (s.modCar c f).dies = s.dies ∧
    (s.modCar c f).boot = s.boot ∧
    (s.modCar c f).dbg = s.dbg ∧
    (s.modCar c f).pcie = s.pcie ∧
    (s.modCar c f).recs = s.recs ∧
    (s.modCar c f).posts = s.posts ∧
    (s.modCar c f).cqs = s.cqs ∧
    (s.modCar c f).cqLast = s.cqLast ∧
    (s.modCar c f).cqTime = s.cqTime ∧
    (s.modCar c f).eqs = s.eqs ∧
    (s.modCar c f).groups = s.groups ∧
    (s.modCar c f).claims = s.claims ∧
    (s.modCar c f).coreIrq = s.coreIrq ∧
    (s.modCar c f).asleep = s.asleep ∧
    (s.modCar c f).prods = s.prods ∧
    (s.modCar c f).pins = s.pins ∧
    (s.modCar c f).trips = s.trips ∧
    (s.modCar c f).fbs = s.fbs ∧
    (s.modCar c f).hoops = s.hoops ∧
    (s.modCar c f).ques = s.ques ∧
    (s.modCar c f).dmas = s.dmas ∧
    (s.modCar c f).nets = s.nets ∧
    (s.modCar c f).ptpPorts = s.ptpPorts ∧
    (s.modCar c f).ptp = s.ptp ∧
    (s.modCar c f).axps = s.axps ∧
    (s.modCar c f).axss = s.axss ∧
    (s.modCar c f).freeCount = s.freeCount := 
  ⟨rfl, rfl, rfl, rfl, rfl, rfl, rfl, rfl, rfl, rfl, rfl, rfl, rfl, rfl, rfl, rfl, rfl, rfl, rfl, rfl, rfl, rfl, rfl, rfl, rfl, rfl, rfl, rfl, rfl, rfl, rfl, rfl, rfl, rfl, rfl, rfl, rfl, rfl, rfl, rfl, rfl, rfl, rfl, rfl, rfl, rfl⟩

@[simp] theorem State.setTrip_fields (s : State) (j : Nat) (x : TripSt) :
    (s.setTrip j x).pending = s.pending ∧
    (s.setTrip j x).variant = s.variant ∧
    (s.setTrip j x).fuses = s.fuses ∧
    (s.setTrip j x).straps = s.straps ∧
    (s.setTrip j x).regs = s.regs ∧
    (s.setTrip j x).ports = s.ports ∧
    (s.setTrip j x).now = s.now ∧
    (s.setTrip j x).slew = s.slew ∧
    (s.setTrip j x).slewFrac = s.slewFrac ∧
    (s.setTrip j x).slewPend = s.slewPend ∧
    (s.setTrip j x).dieMem = s.dieMem ∧
    (s.setTrip j x).ring = s.ring ∧
    (s.setTrip j x).hostMem = s.hostMem ∧
    (s.setTrip j x).ecc = s.ecc ∧
    (s.setTrip j x).weak = s.weak ∧
    (s.setTrip j x).tasks = s.tasks ∧
    (s.setTrip j x).flight = s.flight ∧
    (s.setTrip j x).msgs = s.msgs ∧
    (s.setTrip j x).sent = s.sent ∧
    (s.setTrip j x).dies = s.dies ∧
    (s.setTrip j x).boot = s.boot ∧
    (s.setTrip j x).dbg = s.dbg ∧
    (s.setTrip j x).pcie = s.pcie ∧
    (s.setTrip j x).recs = s.recs ∧
    (s.setTrip j x).posts = s.posts ∧
    (s.setTrip j x).cqs = s.cqs ∧
    (s.setTrip j x).cqLast = s.cqLast ∧
    (s.setTrip j x).cqTime = s.cqTime ∧
    (s.setTrip j x).eqs = s.eqs ∧
    (s.setTrip j x).groups = s.groups ∧
    (s.setTrip j x).claims = s.claims ∧
    (s.setTrip j x).coreIrq = s.coreIrq ∧
    (s.setTrip j x).asleep = s.asleep ∧
    (s.setTrip j x).prods = s.prods ∧
    (s.setTrip j x).pins = s.pins ∧
    (s.setTrip j x).cars = s.cars ∧
    (s.setTrip j x).fbs = s.fbs ∧
    (s.setTrip j x).hoops = s.hoops ∧
    (s.setTrip j x).ques = s.ques ∧
    (s.setTrip j x).dmas = s.dmas ∧
    (s.setTrip j x).nets = s.nets ∧
    (s.setTrip j x).ptpPorts = s.ptpPorts ∧
    (s.setTrip j x).ptp = s.ptp ∧
    (s.setTrip j x).axps = s.axps ∧
    (s.setTrip j x).axss = s.axss ∧
    (s.setTrip j x).freeCount = s.freeCount := 
  ⟨rfl, rfl, rfl, rfl, rfl, rfl, rfl, rfl, rfl, rfl, rfl, rfl, rfl, rfl, rfl, rfl, rfl, rfl, rfl, rfl, rfl, rfl, rfl, rfl, rfl, rfl, rfl, rfl, rfl, rfl, rfl, rfl, rfl, rfl, rfl, rfl, rfl, rfl, rfl, rfl, rfl, rfl, rfl, rfl, rfl, rfl⟩

@[simp] theorem State.modTrip_fields (s : State) (j : Nat) (f : TripSt → TripSt) :
    (s.modTrip j f).pending = s.pending ∧
    (s.modTrip j f).variant = s.variant ∧
    (s.modTrip j f).fuses = s.fuses ∧
    (s.modTrip j f).straps = s.straps ∧
    (s.modTrip j f).regs = s.regs ∧
    (s.modTrip j f).ports = s.ports ∧
    (s.modTrip j f).now = s.now ∧
    (s.modTrip j f).slew = s.slew ∧
    (s.modTrip j f).slewFrac = s.slewFrac ∧
    (s.modTrip j f).slewPend = s.slewPend ∧
    (s.modTrip j f).dieMem = s.dieMem ∧
    (s.modTrip j f).ring = s.ring ∧
    (s.modTrip j f).hostMem = s.hostMem ∧
    (s.modTrip j f).ecc = s.ecc ∧
    (s.modTrip j f).weak = s.weak ∧
    (s.modTrip j f).tasks = s.tasks ∧
    (s.modTrip j f).flight = s.flight ∧
    (s.modTrip j f).msgs = s.msgs ∧
    (s.modTrip j f).sent = s.sent ∧
    (s.modTrip j f).dies = s.dies ∧
    (s.modTrip j f).boot = s.boot ∧
    (s.modTrip j f).dbg = s.dbg ∧
    (s.modTrip j f).pcie = s.pcie ∧
    (s.modTrip j f).recs = s.recs ∧
    (s.modTrip j f).posts = s.posts ∧
    (s.modTrip j f).cqs = s.cqs ∧
    (s.modTrip j f).cqLast = s.cqLast ∧
    (s.modTrip j f).cqTime = s.cqTime ∧
    (s.modTrip j f).eqs = s.eqs ∧
    (s.modTrip j f).groups = s.groups ∧
    (s.modTrip j f).claims = s.claims ∧
    (s.modTrip j f).coreIrq = s.coreIrq ∧
    (s.modTrip j f).asleep = s.asleep ∧
    (s.modTrip j f).prods = s.prods ∧
    (s.modTrip j f).pins = s.pins ∧
    (s.modTrip j f).cars = s.cars ∧
    (s.modTrip j f).fbs = s.fbs ∧
    (s.modTrip j f).hoops = s.hoops ∧
    (s.modTrip j f).ques = s.ques ∧
    (s.modTrip j f).dmas = s.dmas ∧
    (s.modTrip j f).nets = s.nets ∧
    (s.modTrip j f).ptpPorts = s.ptpPorts ∧
    (s.modTrip j f).ptp = s.ptp ∧
    (s.modTrip j f).axps = s.axps ∧
    (s.modTrip j f).axss = s.axss ∧
    (s.modTrip j f).freeCount = s.freeCount := 
  ⟨rfl, rfl, rfl, rfl, rfl, rfl, rfl, rfl, rfl, rfl, rfl, rfl, rfl, rfl, rfl, rfl, rfl, rfl, rfl, rfl, rfl, rfl, rfl, rfl, rfl, rfl, rfl, rfl, rfl, rfl, rfl, rfl, rfl, rfl, rfl, rfl, rfl, rfl, rfl, rfl, rfl, rfl, rfl, rfl, rfl, rfl⟩

@[simp] theorem State.setFb_fields (s : State) (n : Nat) (x : FbSt) :
    (s.setFb n x).pending = s.pending ∧
    (s.setFb n x).variant = s.variant ∧
    (s.setFb n x).fuses = s.fuses ∧
    (s.setFb n x).straps = s.straps ∧
    (s.setFb n x).regs = s.regs ∧
    (s.setFb n x).ports = s.ports ∧
    (s.setFb n x).now = s.now ∧
    (s.setFb n x).slew = s.slew ∧
    (s.setFb n x).slewFrac = s.slewFrac ∧
    (s.setFb n x).slewPend = s.slewPend ∧
    (s.setFb n x).dieMem = s.dieMem ∧
    (s.setFb n x).ring = s.ring ∧
    (s.setFb n x).hostMem = s.hostMem ∧
    (s.setFb n x).ecc = s.ecc ∧
    (s.setFb n x).weak = s.weak ∧
    (s.setFb n x).tasks = s.tasks ∧
    (s.setFb n x).flight = s.flight ∧
    (s.setFb n x).msgs = s.msgs ∧
    (s.setFb n x).sent = s.sent ∧
    (s.setFb n x).dies = s.dies ∧
    (s.setFb n x).boot = s.boot ∧
    (s.setFb n x).dbg = s.dbg ∧
    (s.setFb n x).pcie = s.pcie ∧
    (s.setFb n x).recs = s.recs ∧
    (s.setFb n x).posts = s.posts ∧
    (s.setFb n x).cqs = s.cqs ∧
    (s.setFb n x).cqLast = s.cqLast ∧
    (s.setFb n x).cqTime = s.cqTime ∧
    (s.setFb n x).eqs = s.eqs ∧
    (s.setFb n x).groups = s.groups ∧
    (s.setFb n x).claims = s.claims ∧
    (s.setFb n x).coreIrq = s.coreIrq ∧
    (s.setFb n x).asleep = s.asleep ∧
    (s.setFb n x).prods = s.prods ∧
    (s.setFb n x).pins = s.pins ∧
    (s.setFb n x).cars = s.cars ∧
    (s.setFb n x).trips = s.trips ∧
    (s.setFb n x).hoops = s.hoops ∧
    (s.setFb n x).ques = s.ques ∧
    (s.setFb n x).dmas = s.dmas ∧
    (s.setFb n x).nets = s.nets ∧
    (s.setFb n x).ptpPorts = s.ptpPorts ∧
    (s.setFb n x).ptp = s.ptp ∧
    (s.setFb n x).axps = s.axps ∧
    (s.setFb n x).axss = s.axss ∧
    (s.setFb n x).freeCount = s.freeCount := 
  ⟨rfl, rfl, rfl, rfl, rfl, rfl, rfl, rfl, rfl, rfl, rfl, rfl, rfl, rfl, rfl, rfl, rfl, rfl, rfl, rfl, rfl, rfl, rfl, rfl, rfl, rfl, rfl, rfl, rfl, rfl, rfl, rfl, rfl, rfl, rfl, rfl, rfl, rfl, rfl, rfl, rfl, rfl, rfl, rfl, rfl, rfl⟩

@[simp] theorem State.modFb_fields (s : State) (n : Nat) (f : FbSt → FbSt) :
    (s.modFb n f).pending = s.pending ∧
    (s.modFb n f).variant = s.variant ∧
    (s.modFb n f).fuses = s.fuses ∧
    (s.modFb n f).straps = s.straps ∧
    (s.modFb n f).regs = s.regs ∧
    (s.modFb n f).ports = s.ports ∧
    (s.modFb n f).now = s.now ∧
    (s.modFb n f).slew = s.slew ∧
    (s.modFb n f).slewFrac = s.slewFrac ∧
    (s.modFb n f).slewPend = s.slewPend ∧
    (s.modFb n f).dieMem = s.dieMem ∧
    (s.modFb n f).ring = s.ring ∧
    (s.modFb n f).hostMem = s.hostMem ∧
    (s.modFb n f).ecc = s.ecc ∧
    (s.modFb n f).weak = s.weak ∧
    (s.modFb n f).tasks = s.tasks ∧
    (s.modFb n f).flight = s.flight ∧
    (s.modFb n f).msgs = s.msgs ∧
    (s.modFb n f).sent = s.sent ∧
    (s.modFb n f).dies = s.dies ∧
    (s.modFb n f).boot = s.boot ∧
    (s.modFb n f).dbg = s.dbg ∧
    (s.modFb n f).pcie = s.pcie ∧
    (s.modFb n f).recs = s.recs ∧
    (s.modFb n f).posts = s.posts ∧
    (s.modFb n f).cqs = s.cqs ∧
    (s.modFb n f).cqLast = s.cqLast ∧
    (s.modFb n f).cqTime = s.cqTime ∧
    (s.modFb n f).eqs = s.eqs ∧
    (s.modFb n f).groups = s.groups ∧
    (s.modFb n f).claims = s.claims ∧
    (s.modFb n f).coreIrq = s.coreIrq ∧
    (s.modFb n f).asleep = s.asleep ∧
    (s.modFb n f).prods = s.prods ∧
    (s.modFb n f).pins = s.pins ∧
    (s.modFb n f).cars = s.cars ∧
    (s.modFb n f).trips = s.trips ∧
    (s.modFb n f).hoops = s.hoops ∧
    (s.modFb n f).ques = s.ques ∧
    (s.modFb n f).dmas = s.dmas ∧
    (s.modFb n f).nets = s.nets ∧
    (s.modFb n f).ptpPorts = s.ptpPorts ∧
    (s.modFb n f).ptp = s.ptp ∧
    (s.modFb n f).axps = s.axps ∧
    (s.modFb n f).axss = s.axss ∧
    (s.modFb n f).freeCount = s.freeCount := 
  ⟨rfl, rfl, rfl, rfl, rfl, rfl, rfl, rfl, rfl, rfl, rfl, rfl, rfl, rfl, rfl, rfl, rfl, rfl, rfl, rfl, rfl, rfl, rfl, rfl, rfl, rfl, rfl, rfl, rfl, rfl, rfl, rfl, rfl, rfl, rfl, rfl, rfl, rfl, rfl, rfl, rfl, rfl, rfl, rfl, rfl, rfl⟩

@[simp] theorem State.setHoop_fields (s : State) (h : Nat) (x : HoopSt) :
    (s.setHoop h x).pending = s.pending ∧
    (s.setHoop h x).variant = s.variant ∧
    (s.setHoop h x).fuses = s.fuses ∧
    (s.setHoop h x).straps = s.straps ∧
    (s.setHoop h x).regs = s.regs ∧
    (s.setHoop h x).ports = s.ports ∧
    (s.setHoop h x).now = s.now ∧
    (s.setHoop h x).slew = s.slew ∧
    (s.setHoop h x).slewFrac = s.slewFrac ∧
    (s.setHoop h x).slewPend = s.slewPend ∧
    (s.setHoop h x).dieMem = s.dieMem ∧
    (s.setHoop h x).ring = s.ring ∧
    (s.setHoop h x).hostMem = s.hostMem ∧
    (s.setHoop h x).ecc = s.ecc ∧
    (s.setHoop h x).weak = s.weak ∧
    (s.setHoop h x).tasks = s.tasks ∧
    (s.setHoop h x).flight = s.flight ∧
    (s.setHoop h x).msgs = s.msgs ∧
    (s.setHoop h x).sent = s.sent ∧
    (s.setHoop h x).dies = s.dies ∧
    (s.setHoop h x).boot = s.boot ∧
    (s.setHoop h x).dbg = s.dbg ∧
    (s.setHoop h x).pcie = s.pcie ∧
    (s.setHoop h x).recs = s.recs ∧
    (s.setHoop h x).posts = s.posts ∧
    (s.setHoop h x).cqs = s.cqs ∧
    (s.setHoop h x).cqLast = s.cqLast ∧
    (s.setHoop h x).cqTime = s.cqTime ∧
    (s.setHoop h x).eqs = s.eqs ∧
    (s.setHoop h x).groups = s.groups ∧
    (s.setHoop h x).claims = s.claims ∧
    (s.setHoop h x).coreIrq = s.coreIrq ∧
    (s.setHoop h x).asleep = s.asleep ∧
    (s.setHoop h x).prods = s.prods ∧
    (s.setHoop h x).pins = s.pins ∧
    (s.setHoop h x).cars = s.cars ∧
    (s.setHoop h x).trips = s.trips ∧
    (s.setHoop h x).fbs = s.fbs ∧
    (s.setHoop h x).ques = s.ques ∧
    (s.setHoop h x).dmas = s.dmas ∧
    (s.setHoop h x).nets = s.nets ∧
    (s.setHoop h x).ptpPorts = s.ptpPorts ∧
    (s.setHoop h x).ptp = s.ptp ∧
    (s.setHoop h x).axps = s.axps ∧
    (s.setHoop h x).axss = s.axss ∧
    (s.setHoop h x).freeCount = s.freeCount := 
  ⟨rfl, rfl, rfl, rfl, rfl, rfl, rfl, rfl, rfl, rfl, rfl, rfl, rfl, rfl, rfl, rfl, rfl, rfl, rfl, rfl, rfl, rfl, rfl, rfl, rfl, rfl, rfl, rfl, rfl, rfl, rfl, rfl, rfl, rfl, rfl, rfl, rfl, rfl, rfl, rfl, rfl, rfl, rfl, rfl, rfl, rfl⟩

@[simp] theorem State.modHoop_fields (s : State) (h : Nat) (f : HoopSt → HoopSt) :
    (s.modHoop h f).pending = s.pending ∧
    (s.modHoop h f).variant = s.variant ∧
    (s.modHoop h f).fuses = s.fuses ∧
    (s.modHoop h f).straps = s.straps ∧
    (s.modHoop h f).regs = s.regs ∧
    (s.modHoop h f).ports = s.ports ∧
    (s.modHoop h f).now = s.now ∧
    (s.modHoop h f).slew = s.slew ∧
    (s.modHoop h f).slewFrac = s.slewFrac ∧
    (s.modHoop h f).slewPend = s.slewPend ∧
    (s.modHoop h f).dieMem = s.dieMem ∧
    (s.modHoop h f).ring = s.ring ∧
    (s.modHoop h f).hostMem = s.hostMem ∧
    (s.modHoop h f).ecc = s.ecc ∧
    (s.modHoop h f).weak = s.weak ∧
    (s.modHoop h f).tasks = s.tasks ∧
    (s.modHoop h f).flight = s.flight ∧
    (s.modHoop h f).msgs = s.msgs ∧
    (s.modHoop h f).sent = s.sent ∧
    (s.modHoop h f).dies = s.dies ∧
    (s.modHoop h f).boot = s.boot ∧
    (s.modHoop h f).dbg = s.dbg ∧
    (s.modHoop h f).pcie = s.pcie ∧
    (s.modHoop h f).recs = s.recs ∧
    (s.modHoop h f).posts = s.posts ∧
    (s.modHoop h f).cqs = s.cqs ∧
    (s.modHoop h f).cqLast = s.cqLast ∧
    (s.modHoop h f).cqTime = s.cqTime ∧
    (s.modHoop h f).eqs = s.eqs ∧
    (s.modHoop h f).groups = s.groups ∧
    (s.modHoop h f).claims = s.claims ∧
    (s.modHoop h f).coreIrq = s.coreIrq ∧
    (s.modHoop h f).asleep = s.asleep ∧
    (s.modHoop h f).prods = s.prods ∧
    (s.modHoop h f).pins = s.pins ∧
    (s.modHoop h f).cars = s.cars ∧
    (s.modHoop h f).trips = s.trips ∧
    (s.modHoop h f).fbs = s.fbs ∧
    (s.modHoop h f).ques = s.ques ∧
    (s.modHoop h f).dmas = s.dmas ∧
    (s.modHoop h f).nets = s.nets ∧
    (s.modHoop h f).ptpPorts = s.ptpPorts ∧
    (s.modHoop h f).ptp = s.ptp ∧
    (s.modHoop h f).axps = s.axps ∧
    (s.modHoop h f).axss = s.axss ∧
    (s.modHoop h f).freeCount = s.freeCount := 
  ⟨rfl, rfl, rfl, rfl, rfl, rfl, rfl, rfl, rfl, rfl, rfl, rfl, rfl, rfl, rfl, rfl, rfl, rfl, rfl, rfl, rfl, rfl, rfl, rfl, rfl, rfl, rfl, rfl, rfl, rfl, rfl, rfl, rfl, rfl, rfl, rfl, rfl, rfl, rfl, rfl, rfl, rfl, rfl, rfl, rfl, rfl⟩

@[simp] theorem State.setQue_fields (s : State) (q : Nat) (x : QueSt) :
    (s.setQue q x).pending = s.pending ∧
    (s.setQue q x).variant = s.variant ∧
    (s.setQue q x).fuses = s.fuses ∧
    (s.setQue q x).straps = s.straps ∧
    (s.setQue q x).regs = s.regs ∧
    (s.setQue q x).ports = s.ports ∧
    (s.setQue q x).now = s.now ∧
    (s.setQue q x).slew = s.slew ∧
    (s.setQue q x).slewFrac = s.slewFrac ∧
    (s.setQue q x).slewPend = s.slewPend ∧
    (s.setQue q x).dieMem = s.dieMem ∧
    (s.setQue q x).ring = s.ring ∧
    (s.setQue q x).hostMem = s.hostMem ∧
    (s.setQue q x).ecc = s.ecc ∧
    (s.setQue q x).weak = s.weak ∧
    (s.setQue q x).tasks = s.tasks ∧
    (s.setQue q x).flight = s.flight ∧
    (s.setQue q x).msgs = s.msgs ∧
    (s.setQue q x).sent = s.sent ∧
    (s.setQue q x).dies = s.dies ∧
    (s.setQue q x).boot = s.boot ∧
    (s.setQue q x).dbg = s.dbg ∧
    (s.setQue q x).pcie = s.pcie ∧
    (s.setQue q x).recs = s.recs ∧
    (s.setQue q x).posts = s.posts ∧
    (s.setQue q x).cqs = s.cqs ∧
    (s.setQue q x).cqLast = s.cqLast ∧
    (s.setQue q x).cqTime = s.cqTime ∧
    (s.setQue q x).eqs = s.eqs ∧
    (s.setQue q x).groups = s.groups ∧
    (s.setQue q x).claims = s.claims ∧
    (s.setQue q x).coreIrq = s.coreIrq ∧
    (s.setQue q x).asleep = s.asleep ∧
    (s.setQue q x).prods = s.prods ∧
    (s.setQue q x).pins = s.pins ∧
    (s.setQue q x).cars = s.cars ∧
    (s.setQue q x).trips = s.trips ∧
    (s.setQue q x).fbs = s.fbs ∧
    (s.setQue q x).hoops = s.hoops ∧
    (s.setQue q x).dmas = s.dmas ∧
    (s.setQue q x).nets = s.nets ∧
    (s.setQue q x).ptpPorts = s.ptpPorts ∧
    (s.setQue q x).ptp = s.ptp ∧
    (s.setQue q x).axps = s.axps ∧
    (s.setQue q x).axss = s.axss ∧
    (s.setQue q x).freeCount = s.freeCount := 
  ⟨rfl, rfl, rfl, rfl, rfl, rfl, rfl, rfl, rfl, rfl, rfl, rfl, rfl, rfl, rfl, rfl, rfl, rfl, rfl, rfl, rfl, rfl, rfl, rfl, rfl, rfl, rfl, rfl, rfl, rfl, rfl, rfl, rfl, rfl, rfl, rfl, rfl, rfl, rfl, rfl, rfl, rfl, rfl, rfl, rfl, rfl⟩

@[simp] theorem State.modQue_fields (s : State) (q : Nat) (f : QueSt → QueSt) :
    (s.modQue q f).pending = s.pending ∧
    (s.modQue q f).variant = s.variant ∧
    (s.modQue q f).fuses = s.fuses ∧
    (s.modQue q f).straps = s.straps ∧
    (s.modQue q f).regs = s.regs ∧
    (s.modQue q f).ports = s.ports ∧
    (s.modQue q f).now = s.now ∧
    (s.modQue q f).slew = s.slew ∧
    (s.modQue q f).slewFrac = s.slewFrac ∧
    (s.modQue q f).slewPend = s.slewPend ∧
    (s.modQue q f).dieMem = s.dieMem ∧
    (s.modQue q f).ring = s.ring ∧
    (s.modQue q f).hostMem = s.hostMem ∧
    (s.modQue q f).ecc = s.ecc ∧
    (s.modQue q f).weak = s.weak ∧
    (s.modQue q f).tasks = s.tasks ∧
    (s.modQue q f).flight = s.flight ∧
    (s.modQue q f).msgs = s.msgs ∧
    (s.modQue q f).sent = s.sent ∧
    (s.modQue q f).dies = s.dies ∧
    (s.modQue q f).boot = s.boot ∧
    (s.modQue q f).dbg = s.dbg ∧
    (s.modQue q f).pcie = s.pcie ∧
    (s.modQue q f).recs = s.recs ∧
    (s.modQue q f).posts = s.posts ∧
    (s.modQue q f).cqs = s.cqs ∧
    (s.modQue q f).cqLast = s.cqLast ∧
    (s.modQue q f).cqTime = s.cqTime ∧
    (s.modQue q f).eqs = s.eqs ∧
    (s.modQue q f).groups = s.groups ∧
    (s.modQue q f).claims = s.claims ∧
    (s.modQue q f).coreIrq = s.coreIrq ∧
    (s.modQue q f).asleep = s.asleep ∧
    (s.modQue q f).prods = s.prods ∧
    (s.modQue q f).pins = s.pins ∧
    (s.modQue q f).cars = s.cars ∧
    (s.modQue q f).trips = s.trips ∧
    (s.modQue q f).fbs = s.fbs ∧
    (s.modQue q f).hoops = s.hoops ∧
    (s.modQue q f).dmas = s.dmas ∧
    (s.modQue q f).nets = s.nets ∧
    (s.modQue q f).ptpPorts = s.ptpPorts ∧
    (s.modQue q f).ptp = s.ptp ∧
    (s.modQue q f).axps = s.axps ∧
    (s.modQue q f).axss = s.axss ∧
    (s.modQue q f).freeCount = s.freeCount := 
  ⟨rfl, rfl, rfl, rfl, rfl, rfl, rfl, rfl, rfl, rfl, rfl, rfl, rfl, rfl, rfl, rfl, rfl, rfl, rfl, rfl, rfl, rfl, rfl, rfl, rfl, rfl, rfl, rfl, rfl, rfl, rfl, rfl, rfl, rfl, rfl, rfl, rfl, rfl, rfl, rfl, rfl, rfl, rfl, rfl, rfl, rfl⟩

@[simp] theorem State.setEq_fields (s : State) (n : Nat) (x : EqSt) :
    (s.setEq n x).pending = s.pending ∧
    (s.setEq n x).variant = s.variant ∧
    (s.setEq n x).fuses = s.fuses ∧
    (s.setEq n x).straps = s.straps ∧
    (s.setEq n x).ports = s.ports ∧
    (s.setEq n x).now = s.now ∧
    (s.setEq n x).slew = s.slew ∧
    (s.setEq n x).slewFrac = s.slewFrac ∧
    (s.setEq n x).slewPend = s.slewPend ∧
    (s.setEq n x).dieMem = s.dieMem ∧
    (s.setEq n x).ring = s.ring ∧
    (s.setEq n x).hostMem = s.hostMem ∧
    (s.setEq n x).ecc = s.ecc ∧
    (s.setEq n x).weak = s.weak ∧
    (s.setEq n x).tasks = s.tasks ∧
    (s.setEq n x).flight = s.flight ∧
    (s.setEq n x).msgs = s.msgs ∧
    (s.setEq n x).sent = s.sent ∧
    (s.setEq n x).dies = s.dies ∧
    (s.setEq n x).boot = s.boot ∧
    (s.setEq n x).dbg = s.dbg ∧
    (s.setEq n x).pcie = s.pcie ∧
    (s.setEq n x).recs = s.recs ∧
    (s.setEq n x).posts = s.posts ∧
    (s.setEq n x).cqs = s.cqs ∧
    (s.setEq n x).cqLast = s.cqLast ∧
    (s.setEq n x).cqTime = s.cqTime ∧
    (s.setEq n x).groups = s.groups ∧
    (s.setEq n x).claims = s.claims ∧
    (s.setEq n x).coreIrq = s.coreIrq ∧
    (s.setEq n x).asleep = s.asleep ∧
    (s.setEq n x).prods = s.prods ∧
    (s.setEq n x).pins = s.pins ∧
    (s.setEq n x).cars = s.cars ∧
    (s.setEq n x).trips = s.trips ∧
    (s.setEq n x).fbs = s.fbs ∧
    (s.setEq n x).hoops = s.hoops ∧
    (s.setEq n x).ques = s.ques ∧
    (s.setEq n x).dmas = s.dmas ∧
    (s.setEq n x).nets = s.nets ∧
    (s.setEq n x).ptpPorts = s.ptpPorts ∧
    (s.setEq n x).ptp = s.ptp ∧
    (s.setEq n x).axps = s.axps ∧
    (s.setEq n x).axss = s.axss ∧
    (s.setEq n x).freeCount = s.freeCount := 
  ⟨rfl, rfl, rfl, rfl, rfl, rfl, rfl, rfl, rfl, rfl, rfl, rfl, rfl, rfl, rfl, rfl, rfl, rfl, rfl, rfl, rfl, rfl, rfl, rfl, rfl, rfl, rfl, rfl, rfl, rfl, rfl, rfl, rfl, rfl, rfl, rfl, rfl, rfl, rfl, rfl, rfl, rfl, rfl, rfl, rfl⟩

@[simp] theorem State.modPort_fields (s : State) (p : Port) (f : PortSt → PortSt) :
    (s.modPort p f).pending = s.pending ∧
    (s.modPort p f).variant = s.variant ∧
    (s.modPort p f).fuses = s.fuses ∧
    (s.modPort p f).straps = s.straps ∧
    (s.modPort p f).regs = s.regs ∧
    (s.modPort p f).now = s.now ∧
    (s.modPort p f).slew = s.slew ∧
    (s.modPort p f).slewFrac = s.slewFrac ∧
    (s.modPort p f).slewPend = s.slewPend ∧
    (s.modPort p f).dieMem = s.dieMem ∧
    (s.modPort p f).ring = s.ring ∧
    (s.modPort p f).hostMem = s.hostMem ∧
    (s.modPort p f).ecc = s.ecc ∧
    (s.modPort p f).weak = s.weak ∧
    (s.modPort p f).tasks = s.tasks ∧
    (s.modPort p f).flight = s.flight ∧
    (s.modPort p f).msgs = s.msgs ∧
    (s.modPort p f).sent = s.sent ∧
    (s.modPort p f).dies = s.dies ∧
    (s.modPort p f).boot = s.boot ∧
    (s.modPort p f).dbg = s.dbg ∧
    (s.modPort p f).pcie = s.pcie ∧
    (s.modPort p f).recs = s.recs ∧
    (s.modPort p f).posts = s.posts ∧
    (s.modPort p f).cqs = s.cqs ∧
    (s.modPort p f).cqLast = s.cqLast ∧
    (s.modPort p f).cqTime = s.cqTime ∧
    (s.modPort p f).eqs = s.eqs ∧
    (s.modPort p f).groups = s.groups ∧
    (s.modPort p f).claims = s.claims ∧
    (s.modPort p f).coreIrq = s.coreIrq ∧
    (s.modPort p f).asleep = s.asleep ∧
    (s.modPort p f).prods = s.prods ∧
    (s.modPort p f).pins = s.pins ∧
    (s.modPort p f).cars = s.cars ∧
    (s.modPort p f).trips = s.trips ∧
    (s.modPort p f).fbs = s.fbs ∧
    (s.modPort p f).hoops = s.hoops ∧
    (s.modPort p f).ques = s.ques ∧
    (s.modPort p f).dmas = s.dmas ∧
    (s.modPort p f).nets = s.nets ∧
    (s.modPort p f).ptpPorts = s.ptpPorts ∧
    (s.modPort p f).ptp = s.ptp ∧
    (s.modPort p f).axps = s.axps ∧
    (s.modPort p f).axss = s.axss ∧
    (s.modPort p f).freeCount = s.freeCount := 
  ⟨rfl, rfl, rfl, rfl, rfl, rfl, rfl, rfl, rfl, rfl, rfl, rfl, rfl, rfl, rfl, rfl, rfl, rfl, rfl, rfl, rfl, rfl, rfl, rfl, rfl, rfl, rfl, rfl, rfl, rfl, rfl, rfl, rfl, rfl, rfl, rfl, rfl, rfl, rfl, rfl, rfl, rfl, rfl, rfl, rfl, rfl⟩

@[simp] theorem State.writeDieWord_fields (s : State) (d off : Nat) (v : Word) :
    (s.writeDieWord d off v).pending = s.pending ∧
    (s.writeDieWord d off v).variant = s.variant ∧
    (s.writeDieWord d off v).fuses = s.fuses ∧
    (s.writeDieWord d off v).straps = s.straps ∧
    (s.writeDieWord d off v).regs = s.regs ∧
    (s.writeDieWord d off v).ports = s.ports ∧
    (s.writeDieWord d off v).now = s.now ∧
    (s.writeDieWord d off v).slew = s.slew ∧
    (s.writeDieWord d off v).slewFrac = s.slewFrac ∧
    (s.writeDieWord d off v).slewPend = s.slewPend ∧
    (s.writeDieWord d off v).ring = s.ring ∧
    (s.writeDieWord d off v).hostMem = s.hostMem ∧
    (s.writeDieWord d off v).tasks = s.tasks ∧
    (s.writeDieWord d off v).flight = s.flight ∧
    (s.writeDieWord d off v).msgs = s.msgs ∧
    (s.writeDieWord d off v).sent = s.sent ∧
    (s.writeDieWord d off v).dies = s.dies ∧
    (s.writeDieWord d off v).boot = s.boot ∧
    (s.writeDieWord d off v).dbg = s.dbg ∧
    (s.writeDieWord d off v).pcie = s.pcie ∧
    (s.writeDieWord d off v).recs = s.recs ∧
    (s.writeDieWord d off v).posts = s.posts ∧
    (s.writeDieWord d off v).cqs = s.cqs ∧
    (s.writeDieWord d off v).cqLast = s.cqLast ∧
    (s.writeDieWord d off v).cqTime = s.cqTime ∧
    (s.writeDieWord d off v).eqs = s.eqs ∧
    (s.writeDieWord d off v).groups = s.groups ∧
    (s.writeDieWord d off v).claims = s.claims ∧
    (s.writeDieWord d off v).coreIrq = s.coreIrq ∧
    (s.writeDieWord d off v).asleep = s.asleep ∧
    (s.writeDieWord d off v).prods = s.prods ∧
    (s.writeDieWord d off v).pins = s.pins ∧
    (s.writeDieWord d off v).cars = s.cars ∧
    (s.writeDieWord d off v).trips = s.trips ∧
    (s.writeDieWord d off v).fbs = s.fbs ∧
    (s.writeDieWord d off v).hoops = s.hoops ∧
    (s.writeDieWord d off v).ques = s.ques ∧
    (s.writeDieWord d off v).dmas = s.dmas ∧
    (s.writeDieWord d off v).nets = s.nets ∧
    (s.writeDieWord d off v).ptpPorts = s.ptpPorts ∧
    (s.writeDieWord d off v).ptp = s.ptp ∧
    (s.writeDieWord d off v).axps = s.axps ∧
    (s.writeDieWord d off v).axss = s.axss ∧
    (s.writeDieWord d off v).freeCount = s.freeCount := 
  ⟨rfl, rfl, rfl, rfl, rfl, rfl, rfl, rfl, rfl, rfl, rfl, rfl, rfl, rfl, rfl, rfl, rfl, rfl, rfl, rfl, rfl, rfl, rfl, rfl, rfl, rfl, rfl, rfl, rfl, rfl, rfl, rfl, rfl, rfl, rfl, rfl, rfl, rfl, rfl, rfl, rfl, rfl, rfl, rfl⟩

@[simp] theorem State.writeDie_fields (s : State) (d off : Nat) (bs : List Byte) :
    (s.writeDie d off bs).pending = s.pending ∧
    (s.writeDie d off bs).variant = s.variant ∧
    (s.writeDie d off bs).fuses = s.fuses ∧
    (s.writeDie d off bs).straps = s.straps ∧
    (s.writeDie d off bs).regs = s.regs ∧
    (s.writeDie d off bs).ports = s.ports ∧
    (s.writeDie d off bs).now = s.now ∧
    (s.writeDie d off bs).slew = s.slew ∧
    (s.writeDie d off bs).slewFrac = s.slewFrac ∧
    (s.writeDie d off bs).slewPend = s.slewPend ∧
    (s.writeDie d off bs).ring = s.ring ∧
    (s.writeDie d off bs).hostMem = s.hostMem ∧
    (s.writeDie d off bs).tasks = s.tasks ∧
    (s.writeDie d off bs).flight = s.flight ∧
    (s.writeDie d off bs).msgs = s.msgs ∧
    (s.writeDie d off bs).sent = s.sent ∧
    (s.writeDie d off bs).dies = s.dies ∧
    (s.writeDie d off bs).boot = s.boot ∧
    (s.writeDie d off bs).dbg = s.dbg ∧
    (s.writeDie d off bs).pcie = s.pcie ∧
    (s.writeDie d off bs).recs = s.recs ∧
    (s.writeDie d off bs).posts = s.posts ∧
    (s.writeDie d off bs).cqs = s.cqs ∧
    (s.writeDie d off bs).cqLast = s.cqLast ∧
    (s.writeDie d off bs).cqTime = s.cqTime ∧
    (s.writeDie d off bs).eqs = s.eqs ∧
    (s.writeDie d off bs).groups = s.groups ∧
    (s.writeDie d off bs).claims = s.claims ∧
    (s.writeDie d off bs).coreIrq = s.coreIrq ∧
    (s.writeDie d off bs).asleep = s.asleep ∧
    (s.writeDie d off bs).prods = s.prods ∧
    (s.writeDie d off bs).pins = s.pins ∧
    (s.writeDie d off bs).cars = s.cars ∧
    (s.writeDie d off bs).trips = s.trips ∧
    (s.writeDie d off bs).fbs = s.fbs ∧
    (s.writeDie d off bs).hoops = s.hoops ∧
    (s.writeDie d off bs).ques = s.ques ∧
    (s.writeDie d off bs).dmas = s.dmas ∧
    (s.writeDie d off bs).nets = s.nets ∧
    (s.writeDie d off bs).ptpPorts = s.ptpPorts ∧
    (s.writeDie d off bs).ptp = s.ptp ∧
    (s.writeDie d off bs).axps = s.axps ∧
    (s.writeDie d off bs).axss = s.axss ∧
    (s.writeDie d off bs).freeCount = s.freeCount := 
  ⟨rfl, rfl, rfl, rfl, rfl, rfl, rfl, rfl, rfl, rfl, rfl, rfl, rfl, rfl, rfl, rfl, rfl, rfl, rfl, rfl, rfl, rfl, rfl, rfl, rfl, rfl, rfl, rfl, rfl, rfl, rfl, rfl, rfl, rfl, rfl, rfl, rfl, rfl, rfl, rfl, rfl, rfl, rfl, rfl⟩

@[simp] theorem State.absentAccess_fields (s : State)  :
    (s.absentAccess).pending = s.pending ∧
    (s.absentAccess).variant = s.variant ∧
    (s.absentAccess).fuses = s.fuses ∧
    (s.absentAccess).straps = s.straps ∧
    (s.absentAccess).ports = s.ports ∧
    (s.absentAccess).now = s.now ∧
    (s.absentAccess).slew = s.slew ∧
    (s.absentAccess).slewFrac = s.slewFrac ∧
    (s.absentAccess).slewPend = s.slewPend ∧
    (s.absentAccess).dieMem = s.dieMem ∧
    (s.absentAccess).ring = s.ring ∧
    (s.absentAccess).hostMem = s.hostMem ∧
    (s.absentAccess).ecc = s.ecc ∧
    (s.absentAccess).weak = s.weak ∧
    (s.absentAccess).tasks = s.tasks ∧
    (s.absentAccess).flight = s.flight ∧
    (s.absentAccess).msgs = s.msgs ∧
    (s.absentAccess).sent = s.sent ∧
    (s.absentAccess).dies = s.dies ∧
    (s.absentAccess).boot = s.boot ∧
    (s.absentAccess).dbg = s.dbg ∧
    (s.absentAccess).pcie = s.pcie ∧
    (s.absentAccess).recs = s.recs ∧
    (s.absentAccess).posts = s.posts ∧
    (s.absentAccess).cqs = s.cqs ∧
    (s.absentAccess).cqLast = s.cqLast ∧
    (s.absentAccess).cqTime = s.cqTime ∧
    (s.absentAccess).eqs = s.eqs ∧
    (s.absentAccess).groups = s.groups ∧
    (s.absentAccess).claims = s.claims ∧
    (s.absentAccess).coreIrq = s.coreIrq ∧
    (s.absentAccess).asleep = s.asleep ∧
    (s.absentAccess).prods = s.prods ∧
    (s.absentAccess).pins = s.pins ∧
    (s.absentAccess).cars = s.cars ∧
    (s.absentAccess).trips = s.trips ∧
    (s.absentAccess).fbs = s.fbs ∧
    (s.absentAccess).hoops = s.hoops ∧
    (s.absentAccess).ques = s.ques ∧
    (s.absentAccess).dmas = s.dmas ∧
    (s.absentAccess).nets = s.nets ∧
    (s.absentAccess).ptpPorts = s.ptpPorts ∧
    (s.absentAccess).ptp = s.ptp ∧
    (s.absentAccess).axps = s.axps ∧
    (s.absentAccess).axss = s.axss ∧
    (s.absentAccess).freeCount = s.freeCount := 
  ⟨rfl, rfl, rfl, rfl, rfl, rfl, rfl, rfl, rfl, rfl, rfl, rfl, rfl, rfl, rfl, rfl, rfl, rfl, rfl, rfl, rfl, rfl, rfl, rfl, rfl, rfl, rfl, rfl, rfl, rfl, rfl, rfl, rfl, rfl, rfl, rfl, rfl, rfl, rfl, rfl, rfl, rfl, rfl, rfl, rfl, rfl⟩

@[simp] theorem State.at_fields (s : State) (t : Time) :
    (s.at t).pending = s.pending ∧
    (s.at t).variant = s.variant ∧
    (s.at t).fuses = s.fuses ∧
    (s.at t).straps = s.straps ∧
    (s.at t).regs = s.regs ∧
    (s.at t).ports = s.ports ∧
    (s.at t).slew = s.slew ∧
    (s.at t).slewFrac = s.slewFrac ∧
    (s.at t).slewPend = s.slewPend ∧
    (s.at t).dieMem = s.dieMem ∧
    (s.at t).ring = s.ring ∧
    (s.at t).hostMem = s.hostMem ∧
    (s.at t).ecc = s.ecc ∧
    (s.at t).weak = s.weak ∧
    (s.at t).tasks = s.tasks ∧
    (s.at t).flight = s.flight ∧
    (s.at t).msgs = s.msgs ∧
    (s.at t).sent = s.sent ∧
    (s.at t).dies = s.dies ∧
    (s.at t).boot = s.boot ∧
    (s.at t).dbg = s.dbg ∧
    (s.at t).pcie = s.pcie ∧
    (s.at t).recs = s.recs ∧
    (s.at t).posts = s.posts ∧
    (s.at t).cqs = s.cqs ∧
    (s.at t).cqLast = s.cqLast ∧
    (s.at t).cqTime = s.cqTime ∧
    (s.at t).eqs = s.eqs ∧
    (s.at t).groups = s.groups ∧
    (s.at t).claims = s.claims ∧
    (s.at t).coreIrq = s.coreIrq ∧
    (s.at t).asleep = s.asleep ∧
    (s.at t).prods = s.prods ∧
    (s.at t).pins = s.pins ∧
    (s.at t).cars = s.cars ∧
    (s.at t).trips = s.trips ∧
    (s.at t).fbs = s.fbs ∧
    (s.at t).hoops = s.hoops ∧
    (s.at t).ques = s.ques ∧
    (s.at t).dmas = s.dmas ∧
    (s.at t).nets = s.nets ∧
    (s.at t).ptpPorts = s.ptpPorts ∧
    (s.at t).ptp = s.ptp ∧
    (s.at t).axps = s.axps ∧
    (s.at t).axss = s.axss ∧
    (s.at t).freeCount = s.freeCount := by
  unfold State.at
  split <;> exact ⟨rfl, rfl, rfl, rfl, rfl, rfl, rfl, rfl, rfl, rfl, rfl, rfl, rfl, rfl, rfl, rfl, rfl, rfl, rfl, rfl, rfl, rfl, rfl, rfl, rfl, rfl, rfl, rfl, rfl, rfl, rfl, rfl, rfl, rfl, rfl, rfl, rfl, rfl, rfl, rfl, rfl, rfl, rfl, rfl, rfl, rfl⟩

/-! ## Reading back -/

@[simp] theorem State.reg_setReg (s : State) (r : Reg) (ix : Ix) (v : Word) : (s.setReg r ix v).reg r ix = v := by
  simp [State.reg, State.setReg]

theorem State.reg_setReg_ne (s : State) (r q : Reg) (ix jx : Ix) (v : Word) (h : (q, jx) ≠ (r, ix)) :
    (s.setReg r ix v).reg q jx = s.reg q jx := by
  have : (s.setReg r ix v).regInit (q, jx) = s.regInit (q, jx) := rfl
  simp only [State.reg, State.setReg] at this ⊢
  rw [amGet_amPut_ne _ _ _ _ _ _ h]; rfl

@[simp] theorem State.die_setDie (s : State) (d : Nat) (x : Die) : (s.setDie d x).die d = x := by
  simp [State.die, State.setDie]

@[simp] theorem State.task_setTask (s : State) (t : Nat) (k : Task) : (s.setTask t k).task? t = some k := by
  simp [State.task?, State.setTask]

theorem State.task_setTask_ne (s : State) (t u : Nat) (k : Task) (h : u ≠ t) : (s.setTask t k).task? u = s.task? u := by
  simp [State.task?, State.setTask, nmGet?_nmPut_ne _ _ _ _ h]

@[simp] theorem State.pin_setPin (s : State) (p : Nat) (x : PinSt) : (s.setPin p x).pin p = x := by
  simp [State.pin, State.setPin]

@[simp] theorem State.car_setCar (s : State) (c : Nat) (x : CarSt) : (s.setCar c x).car c = x := by
  simp [State.car, State.setCar]

@[simp] theorem State.trip_setTrip (s : State) (j : Nat) (x : TripSt) : (s.setTrip j x).trip j = x := by
  simp [State.trip, State.setTrip]

@[simp] theorem State.fb_setFb (s : State) (n : Nat) (x : FbSt) : (s.setFb n x).fb n = x := by
  simp [State.fb, State.setFb]

@[simp] theorem State.hoop_setHoop (s : State) (h : Nat) (x : HoopSt) : (s.setHoop h x).hoop h = x := by
  simp [State.hoop, State.setHoop]

@[simp] theorem State.que_setQue (s : State) (q : Nat) (x : QueSt) : (s.setQue q x).que q = x := by
  simp [State.que, State.setQue]

@[simp] theorem State.port_modPort (s : State) (p : Port) (f : PortSt → PortSt) : (s.modPort p f).port p = f (s.port p) := by
  simp [State.port, State.modPort]

end Sys2Proof.Machine
end

