-- ==== Sys2Proof/Laws/Units.lean ====
section
/-! SUPPORT. Moving ground time on changes nothing but the time; a unit that is set reads back, and setting it again forgets
the first value. -/

namespace Sys2Proof.Machine

/-! ## Ground time -/

@[simp] theorem State.at_regs (s : State) (x : Time) : (s.at x).regs = s.regs := by simp [State.at]; split <;> rfl
@[simp] theorem State.at_fuses (s : State) (x : Time) : (s.at x).fuses = s.fuses := by simp [State.at]; split <;> rfl
@[simp] theorem State.at_variant (s : State) (x : Time) : (s.at x).variant = s.variant := by simp [State.at]; split <;> rfl
@[simp] theorem State.at_straps (s : State) (x : Time) : (s.at x).straps = s.straps := by simp [State.at]; split <;> rfl
@[simp] theorem State.at_dies (s : State) (x : Time) : (s.at x).dies = s.dies := by simp [State.at]; split <;> rfl
@[simp] theorem State.at_boot (s : State) (x : Time) : (s.at x).boot = s.boot := by simp [State.at]; split <;> rfl
@[simp] theorem State.at_dbg (s : State) (x : Time) : (s.at x).dbg = s.dbg := by simp [State.at]; split <;> rfl
@[simp] theorem State.at_tasks (s : State) (x : Time) : (s.at x).tasks = s.tasks := by simp [State.at]; split <;> rfl
@[simp] theorem State.at_pins (s : State) (x : Time) : (s.at x).pins = s.pins := by simp [State.at]; split <;> rfl
@[simp] theorem State.at_cars (s : State) (x : Time) : (s.at x).cars = s.cars := by simp [State.at]; split <;> rfl
@[simp] theorem State.at_trips (s : State) (x : Time) : (s.at x).trips = s.trips := by simp [State.at]; split <;> rfl
@[simp] theorem State.at_fbs (s : State) (x : Time) : (s.at x).fbs = s.fbs := by simp [State.at]; split <;> rfl
@[simp] theorem State.at_hoops (s : State) (x : Time) : (s.at x).hoops = s.hoops := by simp [State.at]; split <;> rfl
@[simp] theorem State.at_ques (s : State) (x : Time) : (s.at x).ques = s.ques := by simp [State.at]; split <;> rfl
@[simp] theorem State.at_dmas (s : State) (x : Time) : (s.at x).dmas = s.dmas := by simp [State.at]; split <;> rfl
@[simp] theorem State.at_cqs (s : State) (x : Time) : (s.at x).cqs = s.cqs := by simp [State.at]; split <;> rfl
@[simp] theorem State.at_ports (s : State) (x : Time) : (s.at x).ports = s.ports := by simp [State.at]; split <;> rfl
@[simp] theorem State.at_msgs (s : State) (x : Time) : (s.at x).msgs = s.msgs := by simp [State.at]; split <;> rfl
@[simp] theorem State.at_flight (s : State) (x : Time) : (s.at x).flight = s.flight := by simp [State.at]; split <;> rfl
@[simp] theorem State.at_dieMem (s : State) (x : Time) : (s.at x).dieMem = s.dieMem := by simp [State.at]; split <;> rfl
@[simp] theorem State.at_ring (s : State) (x : Time) : (s.at x).ring = s.ring := by simp [State.at]; split <;> rfl
@[simp] theorem State.at_hostMem (s : State) (x : Time) : (s.at x).hostMem = s.hostMem := by simp [State.at]; split <;> rfl
@[simp] theorem State.at_pending (s : State) (x : Time) : (s.at x).pending = s.pending := by simp [State.at]; split <;> rfl
@[simp] theorem State.at_prods (s : State) (x : Time) : (s.at x).prods = s.prods := by simp [State.at]; split <;> rfl
@[simp] theorem State.at_reg (s : State) (x : Time) (r : Machine.Reg) (ix : Ix) : (s.at x).reg r ix = s.reg r ix := by
  simp [State.reg, State.regInit]
@[simp] theorem State.at_reg64 (s : State) (x : Time) (r q : Machine.Reg) (ix : Ix) : (s.at x).reg64 r q ix = s.reg64 r q ix := by
  simp [State.reg64]
@[simp] theorem State.at_bit (s : State) (x : Time) (f : Fld) (ix : Ix) : (s.at x).bit f ix = s.bit f ix := by simp [State.bit]
@[simp] theorem State.at_fld (s : State) (x : Time) (f : Fld) (ix : Ix) : (s.at x).fld f ix = s.fld f ix := by simp [State.fld]
@[simp] theorem State.at_die (s : State) (x : Time) (d : Nat) : (s.at x).die d = s.die d := by simp [State.die]
@[simp] theorem State.at_task? (s : State) (x : Time) (t : Nat) : (s.at x).task? t = s.task? t := by simp [State.task?]
@[simp] theorem State.at_pkgFault (s : State) (x : Time) : (s.at x).pkgFault = s.pkgFault := by simp [State.pkgFault]
@[simp] theorem State.at_dieRuns (s : State) (x : Time) (d : Nat) : (s.at x).dieRuns d = s.dieRuns d := by
  simp [State.dieRuns, State.present]
@[simp] theorem State.at_dieActs (s : State) (x : Time) (d : Nat) : (s.at x).dieActs d = s.dieActs d := by simp [State.dieActs]
@[simp] theorem State.at_unitRuns (s : State) (x : Time) (k i : Nat) : (s.at x).unitRuns k i = s.unitRuns k i := by
  simp [State.unitRuns]
@[simp] theorem State.at_pin (s : State) (x : Time) (p : Nat) : (s.at x).pin p = s.pin p := by simp [State.pin]
@[simp] theorem State.at_car (s : State) (x : Time) (p : Nat) : (s.at x).car p = s.car p := by simp [State.car]
@[simp] theorem State.at_trip (s : State) (x : Time) (p : Nat) : (s.at x).trip p = s.trip p := by simp [State.trip]
@[simp] theorem State.at_fb (s : State) (x : Time) (n : Nat) : (s.at x).fb n = s.fb n := by simp [State.fb]
@[simp] theorem State.at_hoop (s : State) (x : Time) (n : Nat) : (s.at x).hoop n = s.hoop n := by simp [State.hoop]
@[simp] theorem State.at_que (s : State) (x : Time) (q : Nat) : (s.at x).que q = s.que q := by simp [State.que]
@[simp] theorem State.at_dma (s : State) (x : Time) (c : Nat) : (s.at x).dma c = s.dma c := by simp [State.dma]

/-! ## Units -/

@[simp] theorem State.setPin_setPin (s : State) (p : Nat) (x y : PinSt) : (s.setPin p x).setPin p y = s.setPin p y := by
  simp [State.setPin]
@[simp] theorem State.setCar_setCar (s : State) (p : Nat) (x y : CarSt) : (s.setCar p x).setCar p y = s.setCar p y := by
  simp [State.setCar]
@[simp] theorem State.setTrip_setTrip (s : State) (p : Nat) (x y : TripSt) : (s.setTrip p x).setTrip p y = s.setTrip p y := by
  simp [State.setTrip]
@[simp] theorem State.setFb_setFb (s : State) (n : Nat) (x y : FbSt) : (s.setFb n x).setFb n y = s.setFb n y := by
  simp [State.setFb]
@[simp] theorem State.setHoop_setHoop (s : State) (n : Nat) (x y : HoopSt) : (s.setHoop n x).setHoop n y = s.setHoop n y := by
  simp [State.setHoop]
@[simp] theorem State.fb_setFb_ne (s : State) {m n : Nat} (x : FbSt) (h : m ≠ n) : (s.setFb n x).fb m = s.fb m := by
  simp [State.fb, State.setFb, nmGet_nmPut_ne _ _ _ _ _ h]

end Sys2Proof.Machine
end

