-- ==== Sys2Proof/Certificates/Slice0/Obligations.lean ====
section
/-! DEFINITION. The statements for the provers. -/

open Sys2Proof Sys2Proof.Machine

/-- A step carries out the command at the front of the queue, on the state with the queue's rest. -/
def Obligations.StepRunsFrontCommand : Prop :=
  ∀ (s : State) (c : Instr) (rest : List Instr), s.pending = c :: rest → step s = exec c { s with pending := rest }

/-- R110: g0 reads as 0, and a write to g0 is discarded; every other register reads back what was written, and the write changes
no other register.
R132, R127: the result and the flags of each three-register ALU instruction; everything else stays.
R132, R198: the result and the flags of the ALU instructions with an immediate, of LUI and LIMM, and of CRC. -/
def Obligations.AluResults : Prop :=
  (
    ∀ (st : Step) (r q : GReg) (v : Word),
      st.w.rg 0 = 0 ∧ st.wg 0 v = st ∧ (r ≠ 0 → (st.wg r v).w.rg r = v) ∧ (q ≠ r → (st.wg r v).w.rg q = st.w.rg q)
  ) ∧ (
    ∀ (s : State) (t : Nat) (k : Task) (st : Step) (n : Nat) (rd ra rb : GReg) (a b : Word) (m : Nat),
      st.w.rg ra = a → st.w.rg rb = b → m = b.toNat % 32 →
      (s.AtInstr t (.add t rd ra rb) k st n → exec (.add t rd ra rb) s =
        .next (s.toRegF t k st n rd (a + b) (decide (2 ^ 32 ≤ a.toNat + b.toNat)) (outside32 (a.toInt + b.toInt)))) ∧
      (s.AtInstr t (.sub t rd ra rb) k st n → exec (.sub t rd ra rb) s =
        .next (s.toRegF t k st n rd (a - b) (decide (a.toNat < b.toNat)) (outside32 (a.toInt - b.toInt)))) ∧
      (s.AtInstr t (.and t rd ra rb) k st n → exec (.and t rd ra rb) s =
        .next (s.toRegF t k st n rd (a &&& b) false false)) ∧
      (s.AtInstr t (.or t rd ra rb) k st n → exec (.or t rd ra rb) s =
        .next (s.toRegF t k st n rd (a ||| b) false false)) ∧
      (s.AtInstr t (.xor t rd ra rb) k st n → exec (.xor t rd ra rb) s =
        .next (s.toRegF t k st n rd (a ^^^ b) false false)) ∧
      (s.AtInstr t (.shl t rd ra rb) k st n → exec (.shl t rd ra rb) s =
        .next (s.toRegF t k st n rd (a <<< m) (decide (m ≠ 0) && a.getLsbD (32 - m)) false)) ∧
      (s.AtInstr t (.shr t rd ra rb) k st n → exec (.shr t rd ra rb) s =
        .next (s.toRegF t k st n rd (a >>> m) (decide (m ≠ 0) && a.getLsbD (m - 1)) false)) ∧
      (s.AtInstr t (.sra t rd ra rb) k st n → exec (.sra t rd ra rb) s =
        .next (s.toRegF t k st n rd (a.sshiftRight m) (decide (m ≠ 0) && a.getLsbD (m - 1)) false)) ∧
      (s.AtInstr t (.min t rd ra rb) k st n → exec (.min t rd ra rb) s =
        .next (s.toRegF t k st n rd (BitVec.ofInt 32 (min a.toInt b.toInt)) false false)) ∧
      (s.AtInstr t (.max t rd ra rb) k st n → exec (.max t rd ra rb) s =
        .next (s.toRegF t k st n rd (BitVec.ofInt 32 (max a.toInt b.toInt)) false false)) ∧
      (s.AtInstr t (.adds t rd ra rb) k st n → exec (.adds t rd ra rb) s =
        .next (s.toRegF t k st n rd (BitVec.ofInt 32 (sat32 (a.toInt + b.toInt))) false (outside32 (a.toInt + b.toInt)))) ∧
      (s.AtInstr t (.subs t rd ra rb) k st n → exec (.subs t rd ra rb) s =
        .next (s.toRegF t k st n rd (BitVec.ofInt 32 (sat32 (a.toInt - b.toInt))) false (outside32 (a.toInt - b.toInt)))) ∧
      (s.AtInstr t (.cmp t ra rb) k st n → exec (.cmp t ra rb) s =
        .next (s.carryOn t k ((st.past n).wf
          ⟨a == b, (a - b).msb, decide (a.toNat < b.toNat), outside32 (a.toInt - b.toInt)⟩)))
  ) ∧ (
    ∀ (s : State) (t : Nat) (k : Task) (st : Step) (n : Nat) (rd ra rb : GReg) (m : BitVec 18) (e a : Word) (l : CrcLen),
      st.w.rg ra = a →
      (s.AtInstr t (.addi t rd ra m) k st n → exec (.addi t rd ra m) s =
        .next (s.toRegF t k st n rd (a + m.signExtend 32) (decide (2 ^ 32 ≤ a.toNat + (m.signExtend 32).toNat))
          (outside32 (a.toInt + m.toInt)))) ∧
      (s.AtInstr t (.andi t rd ra m) k st n → exec (.andi t rd ra m) s =
        .next (s.toRegF t k st n rd (a &&& m.zeroExtend 32) false false)) ∧
      (s.AtInstr t (.ori t rd ra m) k st n → exec (.ori t rd ra m) s =
        .next (s.toRegF t k st n rd (a ||| m.zeroExtend 32) false false)) ∧
      (s.AtInstr t (.xori t rd ra m) k st n → exec (.xori t rd ra m) s =
        .next (s.toRegF t k st n rd (a ^^^ m.zeroExtend 32) false false)) ∧
      (s.AtInstr t (.lui t rd m) k st n → exec (.lui t rd m) s =
        .next (s.toReg t k st n rd (m.zeroExtend 32 <<< 14))) ∧
      (s.AtInstr t (.limm t rd e) k st n → exec (.limm t rd e) s = .next (s.toReg t k st n rd e)) ∧
      (s.AtInstr t (.crc t rd ra rb l) k st n → exec (.crc t rd ra rb l) s =
        .next (s.toRegF t k st n rd (crcBytes a
          ((wordBytes (st.w.rg rb)).take (match l with | .one => 1 | .two => 2 | .four => 4))) false false))
  )

/-- R133: multiply and accumulate.
R134: divide; a divisor of 0 is not a fault. -/
def Obligations.MultiplyDivideResults : Prop :=
  (
    ∀ (s : State) (t : Nat) (k : Task) (st : Step) (n : Nat) (rd ra rb : GReg) (a b : Word) (p x r q : Int),
      st.w.rg ra = a → st.w.rg rb = b → p = a.toInt * b.toInt → x = st.w.a.toInt + p → q = (p + 32768) / 65536 →
      r = (if a.toNat % 64 = 0 then st.w.a.toInt else (st.w.a.toInt + 2 ^ (a.toNat % 64 - 1)) / 2 ^ (a.toNat % 64)) →
      (s.AtInstr t (.mul t rd ra rb) k st n → exec (.mul t rd ra rb) s =
        .next (s.toRegF t k st n rd (a * b) false (outside32 p))) ∧
      (s.AtInstr t (.mulh t rd ra rb) k st n → exec (.mulh t rd ra rb) s =
        .next (s.toRegF t k st n rd ((BitVec.ofInt 64 p).extractLsb' 32 32) false false)) ∧
      (s.AtInstr t (.mulhu t rd ra rb) k st n → exec (.mulhu t rd ra rb) s =
        .next (s.toRegF t k st n rd ((a.zeroExtend 64 * b.zeroExtend 64).extractLsb' 32 32) false false)) ∧
      (s.AtInstr t (.mac t ra rb) k st n → exec (.mac t ra rb) s =
        .next (s.carryOn t k { st.past n with w := { (st.past n).w with
          a := BitVec.ofInt 64 (sat64 x),
          fl := { st.w.fl with v := st.w.fl.v || outside64 x } } })) ∧
      (s.AtInstr t (.macr t rd ra) k st n → exec (.macr t rd ra) s =
        .next (s.toRegF t k { st with w := { st.w with a := 0 } } n rd (BitVec.ofInt 32 (sat32 r)) false (outside32 r))) ∧
      (s.AtInstr t (.qmul t rd ra rb) k st n → exec (.qmul t rd ra rb) s =
        .next (s.toRegF t k st n rd (BitVec.ofInt 32 (sat32 q)) false (outside32 q)))
  ) ∧ (
    ∀ (s : State) (t : Nat) (k : Task) (st : Step) (n : Nat) (rd ra rb : GReg) (a b : Word),
      st.w.rg ra = a → st.w.rg rb = b →
      (s.AtInstr t (.divu t rd ra rb) k st n → exec (.divu t rd ra rb) s =
        .next (s.toRegF t k st n rd (if b = 0 then 0xFFFFFFFF else BitVec.ofNat 32 (a.toNat / b.toNat)) false (b == 0))) ∧
      (s.AtInstr t (.divs t rd ra rb) k st n → exec (.divs t rd ra rb) s =
        .next (s.toRegF t k st n rd
          (if b = 0 then 0xFFFFFFFF else if a = 0x80000000 ∧ b = 0xFFFFFFFF then 0x7FFFFFFF
            else BitVec.ofInt 32 (a.toInt.tdiv b.toInt)) false
          (b == 0 || (a == 0x80000000 && b == 0xFFFFFFFF)))) ∧
      (s.AtInstr t (.remu t rd ra rb) k st n → exec (.remu t rd ra rb) s =
        .next (s.toRegF t k st n rd (if b = 0 then 0xFFFFFFFF else BitVec.ofNat 32 (a.toNat % b.toNat)) false (b == 0)))
  )

/-- R135, R116: a conditional branch goes to the offset of the next instruction plus its offset when its condition holds and
that lies inside the code, goes on when the condition does not hold, and faults with SEGMENT_VIOLATION when the target lies
outside the code; it writes nothing else.
R136, R116, R129: JMP, CALL and RET, and the faults of each, the lowest code first. -/
def Obligations.BranchesAndCalls : Prop :=
  (
    ∀ (s : State) (t : Nat) (k : Task) (st : Step) (n : Nat) (ra rb : GReg) (off : BitVec 18) (a b : Word) (f : Flags) (x : Nat)
      (i : Instr) (taken : Bool),
      st.w.rg ra = a → st.w.rg rb = b → f = st.w.fl → x = (BitVec.ofNat 32 (st.w.pc + n) + off.signExtend 32).toNat →
      ((i = .beq t ra rb off ∧ taken = if ra = 0 ∧ rb = 0 then f.z else decide (a = b)) ∨
       (i = .bne t ra rb off ∧ taken = if ra = 0 ∧ rb = 0 then !f.z else decide (a ≠ b)) ∨
       (i = .blt t ra rb off ∧ taken = if ra = 0 ∧ rb = 0 then decide (f.n ≠ f.v) else decide (a.toInt < b.toInt)) ∨
       (i = .bge t ra rb off ∧ taken = if ra = 0 ∧ rb = 0 then decide (f.n = f.v) else decide (b.toInt ≤ a.toInt)) ∨
       (i = .bltu t ra rb off ∧ taken = if ra = 0 ∧ rb = 0 then f.c else decide (a.toNat < b.toNat)) ∨
       (i = .bgeu t ra rb off ∧ taken = if ra = 0 ∧ rb = 0 then !f.c else decide (b.toNat ≤ a.toNat))) →
      s.AtInstr t i k st n →
      (taken = false → exec i s = .next (s.carryOn t k (st.past n))) ∧
      (taken = true → x < k.codeWords → exec i s = .next (s.carryOn t k (st.goto x))) ∧
      (taken = true → k.codeWords ≤ x → exec i s = .next (s.instrFault t k st st.w.pc 0x02 0))
  ) ∧ (
    ∀ (s : State) (t : Nat) (k : Task) (st : Step) (n : Nat) (ra : GReg) (off : BitVec 18) (base x : Nat),
      base = (if ra = 0 then st.w.pc + n else (st.w.rg ra).toNat) →
      x = (BitVec.ofNat 32 base + off.signExtend 32).toNat →
      (s.AtInstr t (.jmp t ra off) k st n →
        (x < k.codeWords → exec (.jmp t ra off) s = .next (s.carryOn t k (st.goto x))) ∧
        (k.codeWords ≤ x → exec (.jmp t ra off) s = .next (s.instrFault t k st st.w.pc 0x02 0))) ∧
      (s.AtInstr t (.call t ra off) k st n →
        (x < k.codeWords → st.w.rstack.length < 8 → exec (.call t ra off) s =
          .next (s.carryOn t k { st with w :=
            { st.w with pc := x, rstack := BitVec.ofNat 18 (st.w.pc + n) :: st.w.rstack } })) ∧
        (k.codeWords ≤ x → exec (.call t ra off) s = .next (s.instrFault t k st st.w.pc 0x02 0)) ∧
        (x < k.codeWords → 8 ≤ st.w.rstack.length → exec (.call t ra off) s =
          .next (s.instrFault t k st st.w.pc 0x04 0))) ∧
      (s.AtInstr t (.ret t) k st n →
        (st.w.rstack = [] → exec (.ret t) s = .next (s.instrFault t k st st.w.pc 0x05 0)) ∧
        (∀ y r, st.w.rstack = y :: r → y.toNat < k.codeWords →
          exec (.ret t) s = .next (s.carryOn t k { st with w := { st.w with pc := y.toNat, rstack := r } })) ∧
        (∀ y r, st.w.rstack = y :: r → k.codeWords ≤ y.toNat →
          exec (.ret t) s = .next (s.instrFault t k st st.w.pc 0x02 0)))
  )

/-- R137, R117, R118, R120, R129: a load whose address lies in the task's memory, is aligned and whose word is readable
writes the zero-extended value to rd; otherwise it faults with the lowest code. A load stores nothing.
R137, R117, R118, R120: LDD puts the two words at its address, the first one low, into td; outside the task's memory, misaligned
or with an uncorrectable word it faults.
R86, R119, R137: a store puts the low bytes of rb into its word of the step's write buffer and leaves all of memory
alone; outside the private segment, misaligned, or beyond 256 entries it faults with the lowest code.
R137, R119: STD buffers two words and leaves all of memory alone. -/
def Obligations.LoadsAndStores : Prop :=
  (
    ∀ (s : State) (t : Nat) (k : Task) (st : Step) (n size : Nat) (rd ra : GReg) (off : BitVec 18) (i : Instr) (a : Nat) (p : Place)
      (w : Word) (bad : Bool),
      ((i = .ldb t rd ra off ∧ size = 1) ∨ (i = .ldh t rd ra off ∧ size = 2) ∨ (i = .ldw t rd ra off ∧ size = 4)) →
      a = (st.w.rg ra + off.signExtend 32 * BitVec.ofNat 32 size).toNat → p = k.place a size →
      s.placeWord k st p = (w, bad) → s.AtInstr t i k st n →
      (p ≠ .out → a % size = 0 → bad = false → exec i s =
        .next (s.toReg t k st n rd (BitVec.ofNat 32 (w.toNat / 256 ^ (a % 4) % 256 ^ size)))) ∧
      (p = .out → exec i s = .next (s.instrFault t k st st.w.pc 0x02 0)) ∧
      (p ≠ .out → a % size ≠ 0 → exec i s = .next (s.instrFault t k st st.w.pc 0x03 0)) ∧
      (p ≠ .out → a % size = 0 → bad = true → exec i s = .next (s.instrFault t k st st.w.pc 0x06
        (match p with | .priv o => k.dataBase + o / 4 * 4 | .table o => o / 4 * 4 | .out => 0)))
  ) ∧ (
    ∀ (s : State) (t : Nat) (k : Task) (st : Step) (n : Nat) (td : TDst) (ra : GReg) (off : BitVec 18) (a : Nat),
      a = (st.w.rg ra + off.signExtend 32 * 8#32).toNat → s.AtInstr t (.ldd t td ra off) k st n →
      (a + 8 ≤ k.dataBytes → a % 8 = 0 → s.privBad k st a = false → s.privBad k st (a + 4) = false →
        exec (.ldd t td ra off) s =
          .next (s.carryOn t k ((st.past n).wt td (s.privWord k st (a + 4) ++ s.privWord k st a)))) ∧
      (∀ o, k.place a 8 = .table o → a % 8 = 0 →
        s.badWord (dieAddr k.die o) = false → s.badWord (dieAddr k.die (o + 4)) = false →
        exec (.ldd t td ra off) s =
          .next (s.carryOn t k ((st.past n).wt td (memWord s.dieMem (dieAddr k.die ((o + 4) / 4 * 4)) ++
            memWord s.dieMem (dieAddr k.die (o / 4 * 4)))))) ∧
      (k.place a 8 = .out → exec (.ldd t td ra off) s = .next (s.instrFault t k st st.w.pc 0x02 0)) ∧
      (k.place a 8 ≠ .out → a % 8 ≠ 0 → exec (.ldd t td ra off) s = .next (s.instrFault t k st st.w.pc 0x03 0)) ∧
      (a + 8 ≤ k.dataBytes → a % 8 = 0 → (s.privBad k st a = true ∨ s.privBad k st (a + 4) = true) →
        exec (.ldd t td ra off) s = .next (s.instrFault t k st st.w.pc 0x06
          (if s.privBad k st a then k.dataBase + a / 4 * 4 else k.dataBase + (a + 4) / 4 * 4))) ∧
      (∀ o, k.place a 8 = .table o → a % 8 = 0 →
        (s.badWord (dieAddr k.die (o / 4 * 4)) = true ∨ s.badWord (dieAddr k.die (o / 4 * 4 + 4)) = true) →
        exec (.ldd t td ra off) s = .next (s.instrFault t k st st.w.pc 0x06
          (if s.badWord (dieAddr k.die (o / 4 * 4)) then o / 4 * 4 else o / 4 * 4 + 4)))
  ) ∧ (
    ∀ (s : State) (t : Nat) (k : Task) (st : Step) (n size : Nat) (ra rb : GReg) (off : BitVec 18) (i : Instr) (a : Nat) (w : Word),
      ((i = .stb t ra rb off ∧ size = 1) ∨ (i = .sth t ra rb off ∧ size = 2) ∨ (i = .stw t ra rb off ∧ size = 4)) →
      a = (st.w.rg ra + off.signExtend 32 * BitVec.ofNat 32 size).toNat → w = s.privWord k st a → s.AtInstr t i k st n →
      (a + size ≤ k.dataBytes → a % size = 0 → st.storeLimit [a / 4] = false → exec i s =
        .next (s.carryOn t k { st.past n with wbuf := nmPut st.wbuf (a / 4) (mergeWord w (st.w.rg rb) (a % 4) size) })) ∧
      (k.dataBytes < a + size → exec i s = .next (s.instrFault t k st st.w.pc 0x02 0)) ∧
      (a + size ≤ k.dataBytes → a % size ≠ 0 → exec i s = .next (s.instrFault t k st st.w.pc 0x03 0)) ∧
      (a + size ≤ k.dataBytes → a % size = 0 → st.storeLimit [a / 4] = true →
        exec i s = .next (s.instrFault t k st st.w.pc 0x07 0))
  ) ∧ (
    ∀ (s : State) (t : Nat) (k : Task) (st : Step) (n : Nat) (ra : GReg) (tb : TReg) (off : BitVec 18) (a : Nat),
      a = (st.w.rg ra + off.signExtend 32 * 8#32).toNat → s.AtInstr t (.std t ra tb off) k st n →
      (a + 8 ≤ k.dataBytes → a % 8 = 0 → st.storeLimit [a / 4, a / 4 + 1] = false → exec (.std t ra tb off) s =
        .next (s.carryOn t k ({ st.past n with
          wbuf := nmPut (nmPut st.wbuf (a / 4) (loHalf (st.rt tb))) (a / 4 + 1) (hiHalf (st.rt tb)) }))) ∧
      (k.dataBytes < a + 8 → exec (.std t ra tb off) s = .next (s.instrFault t k st st.w.pc 0x02 0)) ∧
      (a + 8 ≤ k.dataBytes → a % 8 ≠ 0 → exec (.std t ra tb off) s = .next (s.instrFault t k st st.w.pc 0x03 0)) ∧
      (a + 8 ≤ k.dataBytes → a % 8 = 0 → st.storeLimit [a / 4, a / 4 + 1] = true →
        exec (.std t ra tb off) s = .next (s.instrFault t k st st.w.pc 0x07 0))
  )

/-- R86, R119: after a store of 1, 2 or 4 bytes, a load of the same bytes by the same step returns the low bytes of the value
stored, zero-extended, and every other word of the segment reads as before. -/
def Obligations.LoadAfterStore : Prop :=
  ∀ (s : State) (k : Task) (st : Step) (a size : Nat) (v : Word) (st' : Step),
    (size = 1 ∨ size = 2 ∨ size = 4) → a < 2 ^ 32 → a % size = 0 → a + size ≤ k.dataBytes →
    st' = st.putWord (a / 4) (mergeWord (s.privWord k st a) v (a % 4) size) →
    s.load k st' (BitVec.ofNat 32 a) size = .inr (BitVec.ofNat 32 (v.toNat % 256 ^ size)) ∧
    (∀ o, o / 4 ≠ a / 4 → s.privWord k st' o = s.privWord k st o) ∧
    (∀ o, o / 4 = a / 4 → ∀ j < 32, (j < 8 * (a % 4) ∨ 8 * (a % 4 + size) ≤ j) →
      (s.privWord k st' o).getLsbD j = (s.privWord k st o).getLsbD j)

/-- R138: the time instructions.
R139, R140, R126: TNOW writes only its mark, BRK counts or halts its context, NOP only moves on. -/
def Obligations.TimeInstructionResults : Prop :=
  (
    ∀ (s : State) (t : Nat) (k : Task) (st : Step) (n : Nat) (td : TDst) (ta tb : TReg) (rd ga gb : GReg) (u : TUnit) (e : Word)
      (a b d : Time) (q : Int),
      st.rt ta = a → st.rt tb = b → d = a - b →
      q = Int.fdiv d.toInt (match u with | .ps => 1 | .ns => 64 | .us => 64000) →
      (s.AtInstr t (.tmov t (.move td ta)) k st n → exec (.tmov t (.move td ta)) s =
        .next (s.carryOn t k ((st.past n).wt td a))) ∧
      (s.AtInstr t (.tmov t (.lo rd ta)) k st n → exec (.tmov t (.lo rd ta)) s =
        .next (s.toReg t k st n rd (a.extractLsb' 0 32))) ∧
      (s.AtInstr t (.tmov t (.hi rd ta)) k st n → exec (.tmov t (.hi rd ta)) s =
        .next (s.toReg t k st n rd (a.extractLsb' 32 32))) ∧
      (s.AtInstr t (.tmov t (.pair td ga gb)) k st n → exec (.tmov t (.pair td ga gb)) s =
        .next (s.carryOn t k ((st.past n).wt td (st.w.rg gb ++ st.w.rg ga)))) ∧
      (s.AtInstr t (.tadd t td ta gb) k st n → exec (.tadd t td ta gb) s =
        .next (s.carryOn t k ((st.past n).wt td (a + (st.w.rg gb).signExtend 64)))) ∧
      (s.AtInstr t (.taddi t td ta u e) k st n → exec (.taddi t td ta u e) s =
        .next (s.carryOn t k ((st.past n).wt td
          (a + e.signExtend 64 * (match u with | .ps => 1 | .ns => 64 | .us => 64000))))) ∧
      (s.AtInstr t (.tsub t td ta tb) k st n → exec (.tsub t td ta tb) s =
        .next (s.carryOn t k (((st.past n).wt td d).wf ⟨d == 0, d.msb, false, false⟩))) ∧
      (s.AtInstr t (.tcmp t ta tb) k st n → exec (.tcmp t ta tb) s =
        .next (s.carryOn t k ((st.past n).wf
          ⟨d == 0, decide (d.toInt < 0), decide (d.toInt < 0), false⟩))) ∧
      (s.AtInstr t (.tlead t td ta) k st n → exec (.tlead t td ta) s =
        .next (s.carryOn t k (((st.past n).wt td (if (a - st.tl).toInt < 0 then st.tl else a)).wf
          { st.w.fl with c := decide ((a - st.tl).toInt < 0) }))) ∧
      (s.AtInstr t (.tcvt t rd ta tb u) k st n → exec (.tcvt t rd ta tb u) s =
        .next (s.toRegF t k st n rd (BitVec.ofInt 32 (sat32 q)) false (outside32 q)))
  ) ∧ (
    ∀ (s : State) (t : Nat) (k : Task) (st : Step) (n : Nat) (m : GReg) (x : Int),
      x = sat32 (((k.cutoff st.act.t) - s.now).toInt / 64) →
      (s.AtInstr t (.nop t) k st n → exec (.nop t) s = .next (s.carryOn t k (st.past n))) ∧
      (s.AtInstr t (.tnow t m) k st n → exec (.tnow t m) s =
        .next (s.carryOn t { k with marks := nmPut k.marks m.val (BitVec.ofInt 32 (min x (k.mark m.val).toInt)) }
          (st.past n))) ∧
      (s.AtInstr t (.brk t) k st n → (s.unlocked = false ∨ k.brk = false) → exec (.brk t) s =
        .next ((s.bump F.BRK_COUNT_count (dieIx k.die)).carryOn t k (st.past n))) ∧
      (s.AtInstr t (.brk t) k st n → s.unlocked = true → k.brk = true → exec (.brk t) s =
        .next (s.carryOn t { k with halt := some (k.halt.getD s.now) } (st.past n)))
  )

/-- R88, R158 to R162, R199: END, WAIT and WAITE commit the whole step as one action, WAIT and WAITE with a timer set it, and the
next step starts at its source's entry offset, after the WAIT, or after the WAITE with rd written; with a packet open, a timer
before T + L or no timer source they fault with the lowest code; FAULT is the task fault SOFTWARE with the task's own code. -/
def Obligations.EndWaitCommit : Prop :=
  ∀ (s : State) (t : Nat) (k : Task) (st : Step) (n : Nat) (ta : TReg) (rd : GReg) (code : BitVec 16) (i : Instr) (next : Resume),
    (s.AtInstr t (.endStep t) k st n → st.pkts = [] →
      exec (.endStep t) s = .next (s.commit t k (st.past n) .entry none)) ∧
    (s.AtInstr t (.endStep t) k st n → st.pkts ≠ [] →
      exec (.endStep t) s = .next (s.instrFault t k st st.w.pc 0x13 0)) ∧
    (((i = .wait t ta ∧ next = .afterWait (st.w.pc + n)) ∨ (i = .waite t rd (some ta) ∧ next = .afterWaite (st.w.pc + n) rd)) →
      s.AtInstr t i k st n →
      (st.pkts = [] → before (st.rt ta) st.tl = false → k.hasTimer = true →
        exec i s = .next (s.commit t k (st.past n) next (some (st.rt ta)))) ∧
      (before (st.rt ta) st.tl = true → exec i s = .next (s.instrFault t k st st.w.pc 0x09 0)) ∧
      (before (st.rt ta) st.tl = false → k.hasTimer = false → exec i s = .next (s.instrFault t k st st.w.pc 0x11 0)) ∧
      (before (st.rt ta) st.tl = false → k.hasTimer = true → st.pkts ≠ [] →
        exec i s = .next (s.instrFault t k st st.w.pc 0x13 0))) ∧
    (s.AtInstr t (.waite t rd none) k st n → st.pkts = [] →
      exec (.waite t rd none) s = .next (s.commit t k (st.past n) (.afterWaite (st.w.pc + n) rd) none)) ∧
    (s.AtInstr t (.waite t rd none) k st n → st.pkts ≠ [] →
      exec (.waite t rd none) s = .next (s.instrFault t k st st.w.pc 0x13 0)) ∧
    (∀ (k' : Task) (a : Act) (x : Source) (pc : Nat),
      (k'.resume = .entry → k'.source? a.src a.slot = some x → k'.startCtx a = { k'.c with pc := x.entry }) ∧
      (k'.resume = .afterWait pc → k'.startCtx a = { k'.c with pc := pc }) ∧
      (k'.resume = .afterWaite pc rd → k'.startCtx a = { k'.c with pc := pc }.wg rd (BitVec.ofNat 32
        (a.src + a.slot % 1024 * 2 ^ 4 + a.event % 64 * 2 ^ 14 + (if a.edge then 2 ^ 20 else 0))))) ∧
    (s.AtInstr t (.fault t code) k st n →
      exec (.fault t code) s = .next (s.instrFault t k st st.w.pc 0x0F code.toNat) ∧
      (s.now ≠ k.cutoff st.act.t →
        exec (.fault t code) s = .next (s.taskFault t 0x0F st.w.pc code.toNat st.act.t false)))

/-- R88, R90, R111, R91: after a commit the task has its step's registers, flags and read points, no step, and a step sequence one
higher, and no other task changes; each word it stored is in memory and nothing else of memory has changed; every effect of the
step is on its way: to its unit, as a message, or as a source to post. -/
def Obligations.CommitIsWhole : Prop :=
  ∀ (s s' : State) (t : Nat) (k : Task) (st : Step) (next : Resume) (tm : Option Time), s' = s.commit t k st next tm →
    (∃ k', s'.task? t = some k' ∧ k'.c = st.w ∧ k'.step = none ∧ k'.seq = k.seq + 1 ∧ k'.resume = next ∧ k'.rps = st.rps ∧
      k'.stitches = st.stitches ∧ k'.capts = st.capts ∧ k'.cmps = st.cmps ∧ k'.timer = (if tm.isSome then tm else k.timer)) ∧
    (∀ u, u ≠ t → s'.task? u = s.task? u) ∧
    (st.fullRecs = [] → st.lates = [] → s'.regs = s.regs) ∧
    (∀ a, (∀ e ∈ st.wbuf, a < dieAddr k.die (k.dataBase + 4 * e.1) ∨ dieAddr k.die (k.dataBase + 4 * e.1) + 4 ≤ a) →
      memRead s'.dieMem a = memRead s.dieMem a) ∧
    ((st.wbuf.map Prod.fst).Nodup → ∀ e ∈ st.wbuf, memWord s'.dieMem (dieAddr k.die (k.dataBase + 4 * e.1)) = e.2) ∧
    (∀ e ∈ st.effs,
      (∀ dst port ws, e.kind = .send dst port ws →
        ∃ o, (⟨e.stamp, e.rank, e.seq, e.idx, e.task, dst, port, ws, k.die, o⟩ : Msg) ∈ s'.msgs) ∧
      (∀ src, e.kind = .ring src → (e.stamp, src) ∈ s'.posts) ∧
      (e.kind.toUnit = true → ∃ o, { e with die := k.die, ord := o } ∈ s'.flight))

/-- R164 to R167: STCH and STCHR set a stitch on a pin of the task, within its stamp order and its 32 places, beyond which they
fault; STCHR replaces the replaceable stitch the task holds there, or is refused with C set and counted when that one is too near;
STCH turns a held one into an ordinary one.
R168 to R170, R83: CAPT reads the capture of a given age as of T, from a pin or a trip; where there is none td is 0, Z is set and
C is the level before the first; an entry that newer ones have overwritten is HISTORY_LOST; an age out of range is BAD_OPERAND.
CAPTP takes the oldest capture after the consumption point and moves that point; where every entry kept is newer than T it is HISTORY_LOST. -/
def Obligations.PinInstructions : Prop :=
  (
    ∀ (s : State) (t : Nat) (k : Task) (st : Step) (n : Nat) (ts : TReg) (ga : GReg) (h : Handle) (r : Res) (x : Time)
      (plain : List (Time × Bool)),
      k.ownPinOf h = some r → s.cmpTargets t st r.a = false → (st.w.rg ga).toNat ≤ 1 → x = st.rt ts → before x st.tl = false →
      st.effs.length < 128 → plain = (st.onPin r.a).map (fun e => (e.1, false)) →
      (s.AtInstr t (.stch t ts ga h) k st n →
        (beforeAny x plain = false → s.stitchCount t r.a st.act.t plain ≤ 32 →
          exec (.stch t ts ga h) s = .next (s.carryOn t k
            (((st.past n).setPinStitches r.a (plain ++ [(x, false)])).addEff t k x (.stitch r.a (st.w.rg ga == 1) false none)))) ∧
        (beforeAny x plain = true → exec (.stch t ts ga h) s = .next (s.instrFault t k st st.w.pc 0x0C 0)) ∧
        (beforeAny x plain = false → 32 < s.stitchCount t r.a st.act.t plain →
          exec (.stch t ts ga h) s = .next (s.instrFault t k st st.w.pc 0x10 0))) ∧
      (s.AtInstr t (.stchr t ts ga h) k st n → st.held r.a = none →
        (beforeAny x plain = false → s.stitchCount t r.a st.act.t plain ≤ 32 →
          exec (.stchr t ts ga h) s = .next (s.carryOn t k
            ((((st.past n).setPinStitches r.a (plain ++ [(x, true)])).wf { st.w.fl with c := false }).addEff t k x
              (.stitch r.a (st.w.rg ga == 1) true none)))) ∧
        (beforeAny x plain = true → exec (.stchr t ts ga h) s = .next (s.instrFault t k st st.w.pc 0x0C 0)) ∧
        (beforeAny x plain = false → 32 < s.stitchCount t r.a st.act.t plain →
          exec (.stchr t ts ga h) s = .next (s.instrFault t k st st.w.pc 0x10 0))) ∧
      (s.AtInstr t (.stchr t ts ga h) k st n → ∀ old l, st.held r.a = some old → upTo old (st.tl + 6400#64) = false →
        l = (st.onPin r.a).filter (fun e => !(e.2 && before st.tl e.1)) →
        (beforeAny x l = false → s.stitchCount t r.a st.act.t l ≤ 32 →
          exec (.stchr t ts ga h) s = .next (s.carryOn t k
            ((((st.past n).setPinStitches r.a (l ++ [(x, true)])).wf { st.w.fl with c := false }).addEff t k x
              (.stitch r.a (st.w.rg ga == 1) true (some old))))) ∧
        (beforeAny x l = true → exec (.stchr t ts ga h) s = .next (s.instrFault t k st st.w.pc 0x0C 0)) ∧
        (beforeAny x l = false → 32 < s.stitchCount t r.a st.act.t l →
          exec (.stchr t ts ga h) s = .next (s.instrFault t k st st.w.pc 0x10 0))) ∧
      (s.AtInstr t (.stchr t ts ga h) k st n → ∀ old, st.held r.a = some old → upTo old (st.tl + 6400#64) = true →
        exec (.stchr t ts ga h) s = .next ((s.bump F.PIN_REFUSE_COUNT_count (pinIx r.a)).carryOn t k
          ((st.past n).wf { st.w.fl with c := true })))
  ) ∧ (
    ∀ (s : State) (t : Nat) (k : Task) (st : Step) (n : Nat) (td : TDst) (ga : GReg) (h : Handle) (r : Res) (age : Nat) (v : Bool),
      age = (st.w.rg ga).toNat → v = (s.trip r.a).latchedAt st.act.t →
      (s.AtInstr t (.capt t td ga h) k st n → k.handle [1, 2] h = some r → r.kind = 1 →
        (∀ i x l, (asOf (s.pin r.a).caps st.act.t)[age]? = some (i, x, l) → age ≤ 31 → i < 32 → exec (.capt t td ga h) s =
          .next (s.carryOn t k (((st.past n).wt td x).wf { st.w.fl with z := false, n := false, c := l }))) ∧
        ((asOf (s.pin r.a).caps st.act.t)[age]? = none → age ≤ 31 → (s.pin r.a).caps.length ≤ 32 → exec (.capt t td ga h) s =
          .next (s.carryOn t k (((st.past n).wt td 0).wf
            { st.w.fl with z := true, n := false, c := (s.pin r.a).capInit }))) ∧
        (∀ i x l, (asOf (s.pin r.a).caps st.act.t)[age]? = some (i, x, l) → age ≤ 31 → 32 ≤ i → exec (.capt t td ga h) s =
          .next (s.instrFault t k st st.w.pc 0x0A (0x1000 + r.a % 4096))) ∧
        ((asOf (s.pin r.a).caps st.act.t)[age]? = none → age ≤ 31 → 32 < (s.pin r.a).caps.length → exec (.capt t td ga h) s =
          .next (s.instrFault t k st st.w.pc 0x0A (0x1000 + r.a % 4096))) ∧
        (31 < age → exec (.capt t td ga h) s = .next (s.instrFault t k st st.w.pc 0x11 0))) ∧
      (s.AtInstr t (.capt t td ga h) k st n → k.handle [1, 2] h = some r → r.kind = 2 →
        (∀ i x l, (asOf (s.trip r.a).hist st.act.t)[age]? = some (i, x, l) → age ≤ 7 → i < 8 → exec (.capt t td ga h) s =
          .next (s.carryOn t k (((st.past n).wt td x).wf { st.w.fl with z := false, c := l, v := v }))) ∧
        ((asOf (s.trip r.a).hist st.act.t)[age]? = none → age ≤ 7 → (s.trip r.a).hist.length ≤ 8 → exec (.capt t td ga h) s =
          .next (s.carryOn t k (((st.past n).wt td 0).wf { st.w.fl with z := true, c := (s.trip r.a).level0, v := v }))) ∧
        (∀ i x l, (asOf (s.trip r.a).hist st.act.t)[age]? = some (i, x, l) → age ≤ 7 → 8 ≤ i → exec (.capt t td ga h) s =
          .next (s.instrFault t k st st.w.pc 0x0A (0x2000 + r.a % 4096))) ∧
        ((asOf (s.trip r.a).hist st.act.t)[age]? = none → age ≤ 7 → 8 < (s.trip r.a).hist.length → exec (.capt t td ga h) s =
          .next (s.instrFault t k st st.w.pc 0x0A (0x2000 + r.a % 4096))) ∧
        (7 < age → exec (.capt t td ga h) s = .next (s.instrFault t k st st.w.pc 0x11 0))) ∧
      (s.AtInstr t (.captp t td h) k st n → k.ownPinOf h = some r →
        (∀ i x l, ((asOf (s.pin r.a).caps st.act.t).filter
            (fun e => before (nmGet st.capts r.a k.startStamp) e.2.1)).getLast? = some (i, x, l) → i < 32 →
          exec (.captp t td h) s = .next (s.carryOn t k
            (({ st.past n with capts := nmPut st.capts r.a x }.wt td x).wf { st.w.fl with z := false, c := l }))) ∧
        (∀ i x l, ((asOf (s.pin r.a).caps st.act.t).filter
            (fun e => before (nmGet st.capts r.a k.startStamp) e.2.1)).getLast? = some (i, x, l) → 32 ≤ i →
          exec (.captp t td h) s = .next (s.instrFault t k st st.w.pc 0x0A (0x1000 + r.a % 4096))) ∧
        (((asOf (s.pin r.a).caps st.act.t).filter
            (fun e => before (nmGet st.capts r.a k.startStamp) e.2.1)) = [] →
          (allNewer (s.pin r.a).caps 32 st.act.t = false → exec (.captp t td h) s =
            .next (s.carryOn t k (((st.past n).wt td 0).wf { st.w.fl with z := true, c := false }))) ∧
          (allNewer (s.pin r.a).caps 32 st.act.t = true → exec (.captp t td h) s =
            .next (s.instrFault t k st st.w.pc 0x0A (0x1000 + r.a % 4096)))))
  )

/-- R171 to R174: PWMW and PWMC add one stamped effect on a carrier, or on a trip, and change nothing else.
R179 to R183: HOOPRD reads the hoop as of T (a value that no rule gives is a free one), HEVT sets an angle event and HCAN
cancels one, or all, from T + L. -/
def Obligations.CarrierAndHoopInstructions : Prop :=
  (
    ∀ (s : State) (t : Nat) (k : Task) (st : Step) (n : Nat) (ts : TReg) (ga gb : GReg) (h : Handle) (r : Res) (v sel : Word),
      v = st.w.rg ga → sel = st.w.rg gb → st.effs.length < 128 → before (st.rt ts) st.tl = false →
      (s.AtInstr t (.pwmw t ts ga gb h) k st n → k.handle [3] h = some r → pwmwOk (s.pairCount r.a) v sel = true →
        exec (.pwmw t ts ga gb h) s = .next (s.carryOn t k ((st.past n).addEff t k (st.rt ts)
          (.pwmw r.a (bitsOf sel 0 2) (bitsOf sel 4 4) (bitsOf sel 8 4) v)))) ∧
      (s.AtInstr t (.pwmc t ts ga h) k st n → k.handle [2, 3] h = some r → r.kind = 3 → v.toNat < 64 → v.toNat % 16 ≤ 3 →
        exec (.pwmc t ts ga h) s = .next (s.carryOn t k ((st.past n).addEff t k (st.rt ts)
          (.pwmc r.a (v.toNat / 16) (v.toNat % 16))))) ∧
      (s.AtInstr t (.pwmc t ts ga h) k st n → k.handle [2, 3] h = some r → r.kind = 2 → v.toNat < 64 → v.toNat % 16 = 4 →
        exec (.pwmc t ts ga h) s = .next (s.carryOn t k ((st.past n).addEff t k (st.rt ts) (.tripClear r.a))))
  ) ∧ (
    ∀ (s : State) (t : Nat) (k : Task) (st : Step) (n : Nat) (rd ga gb : GReg) (h : Handle) (r : Res),
      k.handle [5] h = some r →
      (s.AtInstr t (.hooprd t rd ga h) k st n → (st.w.rg ga).toNat ≤ 3 → s.hoopLost r.a st.act.t = false →
        ∀ c synth : Bool, c = ((s.hoop r.a).stAt st.act.t != 2 && (s.hoop r.a).stAt st.act.t != 6) →
        synth = ((s.hoop r.a).ptAt st.act.t).any (fun p => p.2.synth) →
        (∀ v, s.hoopValue r.a (st.w.rg ga).toNat st.act.t = some v → exec (.hooprd t rd ga h) s = .next (s.carryOn t k
          ((((st.past n).hoopLate s r.a (st.w.rg ga).toNat).wg rd v).wf ⟨v == 0, v.msb, c, synth⟩))) ∧
        (s.hoopValue r.a (st.w.rg ga).toNat st.act.t = none → ∃ v, exec (.hooprd t rd ga h) s =
          .next ({ s with freeCount := s.freeCount + 1 }.carryOn t k
            ((((st.past n).hoopLate s r.a (st.w.rg ga).toNat).wg rd v).wf ⟨v == 0, v.msb, c, synth⟩)))) ∧
      (s.AtInstr t (.hooprd t rd ga h) k st n → (st.w.rg ga).toNat ≤ 3 → s.hoopLost r.a st.act.t = true →
        exec (.hooprd t rd ga h) s = .next (s.instrFault t k st st.w.pc 0x0A (0x5000 + r.a % 4096))) ∧
      (s.AtInstr t (.hooprd t rd ga h) k st n → 3 < (st.w.rg ga).toNat →
        exec (.hooprd t rd ga h) s = .next (s.instrFault t k st st.w.pc 0x11 0)) ∧
      (s.AtInstr t (.hevt t ga gb h) k st n → ∀ d, (st.w.rg ga).toNat + 16 ≤ k.dataBytes → (st.w.rg ga).toNat % 8 = 0 →
        s.privBads k st (st.w.rg ga).toNat 4 = false → st.effs.length < 128 → (st.w.rg gb).toNat ≤ 63 →
        hevtDesc (s.privWords k st (st.w.rg ga).toNat 4) = some (d, none) → exec (.hevt t ga gb h) s =
          .next (s.carryOn t k ((st.past n).addEff t k st.tl
            (.hevt r.a (st.w.rg gb).toNat { d with pin := none } (hSlot h))))) ∧
      (s.AtInstr t (.hevt t ga gb h) k st n → ∀ d p pin, (st.w.rg ga).toNat + 16 ≤ k.dataBytes → (st.w.rg ga).toNat % 8 = 0 →
        s.privBads k st (st.w.rg ga).toNat 4 = false → st.effs.length < 128 → (st.w.rg gb).toNat ≤ 63 →
        hevtDesc (s.privWords k st (st.w.rg ga).toNat 4) = some (d, some p) → k.resAt 1 p = some pin → pin.flag = true →
        pin.c = r.a → exec (.hevt t ga gb h) s = .next (s.carryOn t k ((st.past n).addEff t k st.tl
          (.hevt r.a (st.w.rg gb).toNat { d with pin := some pin.a } (hSlot h))))) ∧
      (s.AtInstr t (.hcan t ga h) k st n → st.effs.length < 128 → (st.w.rg ga).toNat ≤ 63 → exec (.hcan t ga h) s =
          .next (s.carryOn t k ((st.past n).addEff t k st.tl (.hcan r.a (some (st.w.rg ga).toNat))))) ∧
      (s.AtInstr t (.hcan t ga h) k st n → st.effs.length < 128 → st.w.rg ga = 0xFFFFFFFF → exec (.hcan t ga h) s =
          .next (s.carryOn t k ((st.past n).addEff t k st.tl (.hcan r.a none))))
  )

/-- R175 to R178: FBRD gives the position or a stamp as of T, FBSPD the speed as of T, and FBCMP arms or disarms the compare from
T + L; a read of an interface whose entry has been overwritten is HISTORY_LOST, a LATE read of a subscription is noted in the step. -/
def Obligations.FeedbackInstructions : Prop :=
  ∀ (s : State) (t : Nat) (k : Task) (st : Step) (n : Nat) (td : TDst) (tc : TReg) (ga gb : GReg) (h : Handle) (r : Res),
    (s.AtInstr t (.fbrd t td ga h) k st n → k.handle [4, 6] h = some r → r.kind = 4 → st.w.rg ga = 0 →
      s.fbLost r.a st.act.t = false → lostAt ((s.fb r.a).idx.map (fun e => e.stamp)) 8 st.act.t = false →
      ∀ bad : Bool, bad = ((s.fb r.a).frames.find? (fun e => upTo e.vis st.act.t)).any (fun e => !e.good) →
      exec (.fbrd t td ga h) s = .next (s.carryOn t k
        (((st.past n).wt td (count64 ((s.fb r.a).posAt st.act.t))).wf
          (tdFlags (count64 ((s.fb r.a).posAt st.act.t)) bad ((s.fb r.a).mismatchAt st.act.t))))) ∧
    (∀ i, ((i = .fbrd t td ga h ∧ st.w.rg ga = 0 ∧ s.fbLost r.a st.act.t = true) ∨
        (i = .fbspd t td h ∧ s.fbSpeedLost r.a st.act.t = true)) → s.AtInstr t i k st n → k.handle [4, 6] h = some r → r.kind = 4 →
      exec i s = .next (s.instrFault t k st st.w.pc 0x0A (0x4000 + r.a % 4096))) ∧
    (s.AtInstr t (.fbrd t td ga h) k st n → k.handle [4, 6] h = some r → r.kind = 4 →
      lostAt ((s.fb r.a).idx.map (fun e => e.stamp)) 8 st.act.t = false → ∀ v : Option (BitVec 64),
      ((st.w.rg ga = 1 ∧ lostAt ((s.fb r.a).probes.map (fun e => e.1)) 8 st.act.t = false ∧
          v = ((s.fb r.a).probes.find? (fun e => upTo e.1 st.act.t)).map (fun e => count64 e.2)) ∨
        (st.w.rg ga = 2 ∧ v = ((s.fb r.a).idx.find? (fun e => upTo e.stamp st.act.t)).map (fun e => count64 e.pz)) ∨
        (st.w.rg ga = 3 ∧ lostAt (s.fb r.a).a.edges 16 st.act.t = false ∧ lostAt (s.fb r.a).b.edges 16 st.act.t = false ∧
          v = laterOpt ((s.fb r.a).a.edges.find? (fun e => upTo e st.act.t))
            ((s.fb r.a).b.edges.find? (fun e => upTo e st.act.t)))) →
      (∀ x, v = some x → exec (.fbrd t td ga h) s = .next (s.carryOn t k
        (((st.past n).wt td x).wf (tdFlags x false ((s.fb r.a).mismatchAt st.act.t))))) ∧
      (v = none → ∃ x, exec (.fbrd t td ga h) s = .next ({ s with freeCount := s.freeCount + 2 }.carryOn t k
        (((st.past n).wt td x).wf (tdFlags x true ((s.fb r.a).mismatchAt st.act.t)))))) ∧
    (s.AtInstr t (.fbrd t td ga h) k st n → k.handle [4, 6] h = some r → r.kind = 6 → ∀ rd, rd = s.axsRead r.a st.act.t →
      rd.lost = false → (st.w.rg ga = 0 ∨ st.w.rg ga = 3) →
      exec (.fbrd t td ga h) s = .next (s.carryOn t k
        ((((st.past n).noteLate s r.a).wt td (if st.w.rg ga = 0 then rd.pos st.act.t else rd.stamp)).wf
          (tdFlags (if st.w.rg ga = 0 then rd.pos st.act.t else rd.stamp) rd.late false)))) ∧
    (s.AtInstr t (.fbspd t td h) k st n → k.handle [4, 6] h = some r → r.kind = 6 → ∀ rd, rd = s.axsRead r.a st.act.t →
      rd.lost = false → exec (.fbspd t td h) s = .next (s.carryOn t k
        ((((st.past n).noteLate s r.a).wt td rd.vel).wf (tdFlags rd.vel rd.late false)))) ∧
    (s.AtInstr t (.fbspd t td h) k st n → k.handle [4, 6] h = some r → r.kind = 4 → s.fbSpeedLost r.a st.act.t = false →
      exec (.fbspd t td h) s = .next (s.carryOn t k
        (((st.past n).wt td (count64 (s.fbSpeedAt r.a st.act.t).v)).wf
          (tdFlags (count64 (s.fbSpeedAt r.a st.act.t).v) (!(s.fbSpeedAt r.a st.act.t).valid)
            (s.fbSpeedAt r.a st.act.t).standstill)))) ∧
    (s.AtInstr t (.fbcmp t tc ga gb h) k st n → k.handle [4] h = some r → st.effs.length < 128 →
      st.w.rg gb = 1 → wrap48 (st.rt tc).toInt = (st.rt tc).toInt →
      exec (.fbcmp t tc ga gb h) s = .next (s.carryOn t k
        ({ st.past n with
            cmps := nmPut st.cmps r.a ⟨st.tl, k.seq.toNat, st.effs.length, true, none, st.w.rg ga == 0⟩ }.addEff t k st.tl
          (.fbArm r.a (st.rt tc).toInt (st.w.rg ga).toInt none (hSlot h))))) ∧
    (s.AtInstr t (.fbcmp t tc ga gb h) k st n → k.handle [4] h = some r → st.effs.length < 128 → ∀ (pin : Res) (slot act : Nat),
      slot < 1024 → act ≤ 2 → st.w.rg gb = BitVec.ofNat 32 (3 + 4 * act + 16 * slot) → k.resAt 1 slot = some pin →
      pin.flag = false → pin.a / 64 = r.a / 8 → wrap48 (st.rt tc).toInt = (st.rt tc).toInt →
      exec (.fbcmp t tc ga gb h) s = .next (s.carryOn t k
        ({ st.past n with
            cmps := nmPut st.cmps r.a ⟨st.tl, k.seq.toNat, st.effs.length, true, some pin.a, st.w.rg ga == 0⟩ }.addEff t k st.tl
          (.fbArm r.a (st.rt tc).toInt (st.w.rg ga).toInt (some (pin.a, act)) (hSlot h))))) ∧
    (s.AtInstr t (.fbcmp t tc ga gb h) k st n → k.handle [4] h = some r → st.effs.length < 128 →
      st.w.rg gb = 0 →
      ∃ c : Cmp, c.arm = false ∧ c.stamp = st.tl ∧ c.pin = none ∧ exec (.fbcmp t tc ga gb h) s = .next (s.carryOn t k
        ({ st.past n with cmps := nmPut st.cmps r.a c }.addEff t k st.tl (.fbDisarm r.a))))

/-- R184 to R186, R194 to R197: SEND, EVNT and RING add their effect with the payload read; RECV writes the payload of the
step's activation; CAMH interpolates a profile. -/
def Obligations.MessageInstructions : Prop :=
  ∀ (s : State) (t : Nat) (k : Task) (st : Step) (n : Nat) (ts : TReg) (rd ga gb : GReg) (h : Handle) (r : Res) (a m : Nat),
    a = (st.w.rg ga).toNat → m = (st.w.rg gb).toNat →
    (s.AtInstr t (.send t ts ga gb h) k st n → k.handle [7, 8] h = some r → hKind h = 8 → 1 ≤ m → m ≤ 8 →
      a + 4 * m ≤ k.dataBytes → a % 4 = 0 → s.privBads k st a m = false → st.effs.length < 128 →
      before (st.rt ts) st.tl = false → exec (.send t ts ga gb h) s =
        .next (s.carryOn t k ((st.past n).addEff t k (st.rt ts) (.send r.a r.b (s.privWords k st a m))))) ∧
    (s.AtInstr t (.send t ts ga gb h) k st n → k.handle [7, 8] h = some r → hKind h = 7 → m = 4 →
      a + 16 ≤ k.dataBytes → a % 4 = 0 → s.privBads k st a 4 = false → st.effs.length < 128 →
      before (st.rt ts) st.tl = false → exec (.send t ts ga gb h) s =
        .next (s.carryOn t k ((st.past n).addEff t k (st.rt ts) (.sample r.a
          (s.privWord k st (a + 4) ++ s.privWord k st a) (s.privWord k st (a + 12) ++ s.privWord k st (a + 8)))))) ∧
    (s.AtInstr t (.recv t rd ga h) k st n → k.handle [9] h = some r → recvPayload k st h = none →
      a + 32 ≤ k.dataBytes → a % 4 = 0 → st.storeLimit [] = false → exec (.recv t rd ga h) s =
        .next (s.carryOn t k (((st.past n).wg rd 0).wf ⟨true, false, false, false⟩))) ∧
    (s.AtInstr t (.recv t rd ga h) k st n → k.handle [9] h = some r → ∀ ws, recvPayload k st h = some ws →
      a + 32 ≤ k.dataBytes → a % 4 = 0 → st.storeLimit ((List.range ws.length).map (fun i => a / 4 + i)) = false →
      exec (.recv t rd ga h) s = .next (s.carryOn t k
        ((((st.past n).putWords (a / 4) ws).wg rd (BitVec.ofNat 32 ws.length)).wf ⟨false, false, false, false⟩))) ∧
    (s.AtInstr t (.evnt t ga gb h) k st n → k.handle [12] h = some r → 0x80 ≤ m → m ≤ 0xFF → a + 15 ≤ k.dataBytes →
      a % 4 = 0 → s.privBads k st a 4 = false → st.effs.length < 128 → exec (.evnt t ga gb h) s =
        .next (s.carryOn t k ((st.past n).addEff t k st.tl (.event r.a r.b m (s.privBytes k st a 15))))) ∧
    (s.AtInstr t (.ring t h) k st n → k.handle [13] h = some r → st.effs.length < 128 → exec (.ring t h) s =
        .next (s.carryOn t k ((st.past n).addEff t k st.tl (.ring r.a)))) ∧
    (s.AtInstr t (.camh t rd ga gb h) k st n → ∀ x sh, k.handle [14] h = some r →
      k.tables.find? (fun x => x.k == r.a) = some x → m % 8 = 0 → s.camShift k x m = some sh →
      s.camBad k x m (st.w.rg ga) = false → exec (.camh t rd ga gb h) s =
        .next (s.toRegF t k st n rd (BitVec.ofInt 32 (sat32 (s.camValue k x m sh (st.w.rg ga)))) false
          (outside32 (s.camValue k x m sh (st.w.rg ga)))))

/-- R187 to R190: QPUT, QRSV and QEND on the producer side of a queue: a packet that fits becomes an effect at T + L, one that does not
sets C and is noted as a failed reservation; the words of a void packet go nowhere; QPUT beyond the reserved length faults.
R191 to R193: QGET reads the item at the read point, or the idle item with C set where there is none as of T; QMARK, QREW and QREL
move the marks and release what was read at T + L; QLVL reads the levels and the generation. -/
def Obligations.QueueInstructions : Prop :=
  (
    ∀ (s : State) (t : Nat) (k : Task) (st : Step) (n : Nat) (rd ga : GReg) (h : Handle) (r : Res) (p : OpenPkt) (m : Nat),
      k.handle [10] h = some r → m = (st.w.rg ga).toNat → st.entries < 256 → st.effs.length < 128 →
      (s.AtInstr t (.qput t ga h) k st n → st.openAt (hSlot h) = none → 2 ≤ s.queueFree st r.a →
        exec (.qput t ga h) s = .next (s.carryOn t k
          ((((st.past n).addEff t k st.tl (.packet r.a [st.w.rg ga])).addWord).wf { st.w.fl with c := false }))) ∧
      (s.AtInstr t (.qput t ga h) k st n → st.openAt (hSlot h) = none → s.queueFree st r.a < 2 →
        exec (.qput t ga h) s = .next (s.carryOn t k (((st.past n).addFull s r.a 2).wf { st.w.fl with c := true }))) ∧
      (s.AtInstr t (.qput t ga h) k st n → st.openAt (hSlot h) = some p → p.isVoid = false → p.words.length < p.size →
        exec (.qput t ga h) s = .next (s.carryOn t k
          (((st.past n).setPkt { p with words := p.words ++ [st.w.rg ga] }).addWord))) ∧
      (s.AtInstr t (.qput t ga h) k st n → st.openAt (hSlot h) = some p → p.isVoid = false → p.size ≤ p.words.length →
        exec (.qput t ga h) s = .next (s.instrFault t k st st.w.pc 0x12 0)) ∧
      (s.AtInstr t (.qrsv t rd ga h) k st n → st.openAt (hSlot h) = none → 1 ≤ m → m ≤ 65535 → m + 1 ≤ s.queueFree st r.a →
        exec (.qrsv t rd ga h) s = .next (s.carryOn t k
          ((({ st.past n with pkts := st.pkts ++ [(⟨hSlot h, r.a, m, [], false⟩ : OpenPkt)] }.addWord).wg rd
            (BitVec.ofNat 32 (s.queueFree st r.a))).wf ⟨BitVec.ofNat 32 (s.queueFree st r.a) == 0,
              (BitVec.ofNat 32 (s.queueFree st r.a)).msb, false, st.w.fl.v⟩))) ∧
      (s.AtInstr t (.qput t ga h) k st n → st.openAt (hSlot h) = some p → p.isVoid = true →
        exec (.qput t ga h) s = .next (s.carryOn t k (st.past n))) ∧
      (s.AtInstr t (.qrsv t rd ga h) k st n → st.openAt (hSlot h) = none → 1 ≤ m → m ≤ 65535 → s.queueFree st r.a < m + 1 →
        exec (.qrsv t rd ga h) s = .next (s.carryOn t k
          ((({ st.past n with pkts := st.pkts ++ [(⟨hSlot h, r.a, m, [], true⟩ : OpenPkt)] }.addFull s r.a (m + 1)).wg rd
            (BitVec.ofNat 32 (s.queueFree st r.a))).wf ⟨BitVec.ofNat 32 (s.queueFree st r.a) == 0,
              (BitVec.ofNat 32 (s.queueFree st r.a)).msb, true, st.w.fl.v⟩))) ∧
      (s.AtInstr t (.qend t h) k st n → st.openAt (hSlot h) = some p → p.isVoid = true →
        exec (.qend t h) s = .next (s.carryOn t k
          (({ st.past n with pkts := st.pkts.filter (fun x => x.slot != p.slot) }.addFull s r.a (p.size + 1)).wf
            { st.w.fl with c := true }))) ∧
      (s.AtInstr t (.qend t h) k st n → st.openAt (hSlot h) = some p → p.isVoid = false →
        exec (.qend t h) s = .next (s.carryOn t k
          (({ st.past n with pkts := st.pkts.filter (fun x => x.slot != p.slot) }.addEff t k st.tl
            (.packet r.a p.words)).wf { st.w.fl with c := false })))
  ) ∧ (
    ∀ (s : State) (t : Nat) (k : Task) (st : Step) (n : Nat) (rd ga : GReg) (h : Handle) (r : Res) (p : ReadPoint) (g : Nat),
      p = s.readPoint st r.a → g = (s.que r.a).genAt st.act.t →
      (s.AtInstr t (.qget t rd h) k st n → k.handle [11] h = some r → p.rp < (s.que r.a).endAt st.act.t → s.badWord (s.ringAddr r.a p.rp) = false →
        exec (.qget t rd h) s = .next (s.toRegF t k (st.setRp r.a { p with rp := p.rp + 1, gen := g }) n rd
          (s.ringWord r.a p.rp) false (g != p.gen))) ∧
      (s.AtInstr t (.qget t rd h) k st n → k.handle [11] h = some r → (s.que r.a).endAt st.act.t ≤ p.rp →
        exec (.qget t rd h) s = .next ((s.bump F.QUE_IDLE_COUNT_idle_reads (queIx r.a)).toRegF t k
          (st.setRp r.a { p with gen := g }) n rd (s.reg .QUE_IDLE (queIx r.a)) true (g != p.gen))) ∧
      (s.AtInstr t (.qmark t h) k st n → k.handle [11] h = some r →
        exec (.qmark t h) s = .next (s.carryOn t k ((st.past n).setRp r.a { p with mark := p.rp }))) ∧
      (s.AtInstr t (.qrew t h) k st n → k.handle [11] h = some r →
        exec (.qrew t h) s = .next (s.carryOn t k ((st.past n).setRp r.a { p with rp := max p.mark p.rel }))) ∧
      (s.AtInstr t (.qrel t h) k st n → k.handle [11] h = some r → st.effs.length < 128 →
        exec (.qrel t h) s = .next (s.carryOn t k
          (((st.past n).addEff t k st.tl (.release r.a p.rp (s.que r.a).gen)).setRp r.a
            { p with rel := p.rp, mark := max p.mark p.rp }))) ∧
      (s.AtInstr t (.qlvl t rd ga h) k st n → k.handle [10, 11] h = some r → ∀ w : Word,
        ((r.kind = 11 ∧ st.w.rg ga = 0 ∧ w = BitVec.ofNat 32 ((s.que r.a).endAt st.act.t - p.rp)) ∨
          (r.kind = 11 ∧ st.w.rg ga = 1 ∧ w = BitVec.ofNat 32
            ((s.que r.a).pkts.filter (fun y => upTo y.stamp st.act.t && decide (p.rp ≤ y.start))).length) ∨
          (r.kind = 10 ∧ st.w.rg ga = 2 ∧ w = BitVec.ofNat 32 (s.queueFree st r.a)) ∨
          (st.w.rg ga = 3 ∧ w = BitVec.ofNat 32 g)) →
        exec (.qlvl t rd ga h) s = .next (s.toRegF t k st n rd w st.w.fl.c st.w.fl.v))
  )

/-- R129, R151: a handle that names no resource of the task of a kind the instruction accepts is BAD_HANDLE, where no cause with a
lower code is met.
R128 to R131, R491: a fault of an instruction, except in the cycle of the cut-off, faults the task: the code and the
instruction's offset are kept, its step, timer and pending activations go, and no other task changes.
R120, R143, R144: a fetch and a load correct and count a single-bit error in a word they read; an instruction of a step that was cut off while
its context is halted goes on in the working copy alone: it raises no fault and commits nothing (log entry 89). -/
def Obligations.InstructionFaults : Prop :=
  (
    ∀ (s : State) (t : Nat) (k : Task) (st : Step) (n : Nat) (i : Instr) (td : TDst) (ts : TReg) (rd ga gb : GReg) (h : Handle)
      (kinds : List Nat) (a m : Nat), a = (st.w.rg ga).toNat → m = sendWords (st.w.rg gb) →
      ((i = .capt t td ga h ∧ kinds = [1, 2]) ∨ (i = .captp t td h ∧ kinds = [1]) ∨ (i = .fbrd t td ga h ∧ kinds = [4, 6]) ∨
        (i = .fbspd t td h ∧ kinds = [4, 6]) ∨ (i = .hooprd t rd ga h ∧ kinds = [5]) ∨ (i = .qput t ga h ∧ kinds = [10]) ∨
        (i = .qrsv t rd ga h ∧ kinds = [10]) ∨ (i = .qend t h ∧ kinds = [10]) ∨ (i = .qget t rd h ∧ kinds = [11]) ∨
        (i = .qmark t h ∧ kinds = [11]) ∨ (i = .qrew t h ∧ kinds = [11]) ∨ (i = .qlvl t rd ga h ∧ kinds = [10, 11]) ∨
        (i = .camh t rd ga gb h ∧ kinds = [14]) ∨
        (st.effs.length < 128 ∧
          ((i = .qrel t h ∧ kinds = [11]) ∨ (i = .ring t h ∧ kinds = [13]) ∨ (i = .hcan t ga h ∧ kinds = [5]) ∨
            (i = .fbcmp t ts ga gb h ∧ kinds = [4]))) ∨
        (st.effs.length < 128 ∧ before (st.rt ts) st.tl = false ∧
          ((i = .stch t ts ga h ∧ kinds = [1]) ∨ (i = .stchr t ts ga h ∧ kinds = [1]) ∨ (i = .pwmw t ts ga gb h ∧ kinds = [3]) ∨
            (i = .pwmc t ts ga h ∧ kinds = [2, 3]))) ∨
        (st.effs.length < 128 ∧ a % 8 = 0 ∧
          ((i = .send t ts ga gb h ∧ kinds = [7, 8] ∧ a + 4 * m ≤ k.dataBytes ∧ s.privBads k st a m = false ∧
              before (st.rt ts) st.tl = false) ∨
            (i = .evnt t ga gb h ∧ kinds = [12] ∧ a + 15 ≤ k.dataBytes ∧ s.privBads k st a 4 = false) ∨
            (i = .hevt t ga gb h ∧ kinds = [5] ∧ a + 16 ≤ k.dataBytes ∧ s.privBads k st a 4 = false))) ∨
        (i = .recv t rd ga h ∧ kinds = [9] ∧ isHostPort k h = false ∧ recvPayload k st h = none ∧ a + 32 ≤ k.dataBytes ∧ a % 4 = 0 ∧
          st.storeLimit [] = false)) →
      k.handle kinds h = none → s.AtInstr t i k st n → exec i s = .next (s.instrFault t k st st.w.pc 0x0D 0)
  ) ∧ (
    ∀ (s : State) (t : Nat) (k : Task) (st : Step) (pc code info : Nat), s.task? t = some k → s.now ≠ k.cutoff st.act.t →
      ∃ k', (s.instrFault t k st pc code info).task? t = some k' ∧ k'.state = .faulted ∧ k'.faultCode = code ∧
        k'.faultPc = pc ∧ k'.step = none ∧ k'.timer = none ∧ k'.pend = [] ∧ k'.c = k.c ∧ k'.seq = k.seq ∧
        (∀ u, u ≠ t → (s.instrFault t k st pc code info).task? u = s.task? u) ∧
        (s.instrFault t k st pc code info).dieMem = s.dieMem
  ) ∧ (
    ∀ (s u : State) (t : Nat) (k : Task) (st : Step) (n : Nat) (rd ra : GReg) (off : BitVec 18) (i : Instr) (a d o : Nat) (p : Place),
      (dieAddr d (o / 4 * 4) ∉ s.weak → s.correctWord d o = s) ∧
      (dieAddr d (o / 4 * 4) ∈ s.weak → s.correctWord d o = (({ s with
        weak := s.weak.filter (fun w => w != dieAddr d (o / 4 * 4)) }.bump F.DIE_ECC_COUNT_corrected (dieIx d)).bump F.FLT_CORR_COUNT_0_ecc pkg)) ∧
      (s.task? t = some k → k.step = some st → s.mayIssue k st = true → s.fetch t k st.w.pc = .inr (i, n) →
        u = s.corrected k.die (k.codeOffs st.w.pc n) →
        (i = .nop t → exec i s = .next (u.carryOn t k (st.past n))) ∧
        (i = .ldw t rd ra off → a = (st.w.rg ra + off.signExtend 32 * 4#32).toNat → p = k.place a 4 → st.cutOff = false →
          p ≠ .out → a % 4 = 0 → (s.placeWord k st p).2 = false → exec i s = .next ((u.corrected k.die (k.placeOffs st 1 p)).toReg t k st n
            rd (s.placeWord k st p).1)) ∧
        (st.cutOff = true → i = .endStep t → exec i s = .next (u.carryOn t k st)) ∧
        (st.cutOff = true → i = .ldw t rd ra off → k.place (st.w.rg ra + off.signExtend 32 * 4#32).toNat 4 = .out →
          exec i s = .next (u.carryOn t k st)))
  )

/-- R71, R73, R74, R76, R78, R79: at T + S the first pending activation of a task that stands free makes a step ready, once nothing
with an earlier T is on its way to the task; the step has its deadline T + L and its reserve, the committed registers, and
nothing of it has run. The first activation of a restarted task begins the new run.
R95, R111, R113, R68, R75: a healthy shuttle dispatches the ready step that it takes: the step runs on its start context, its
activation counts as served, and ground time can no longer be set. An activation too soon after the previous one of its source is
dropped and counted for a capture, compare or hoop source and faults the task with ACTIVATION_RATE for any other.
R79, R96, R99, R100: at T + L − R a step that has not committed is cut off: the breach is counted and its status bit set, its
die sends the OVERRUN record, then SKIP drops the step and STOP faults the task; nothing the step did reaches memory. -/
def Obligations.StepLifecycle : Prop :=
  (
    ∀ (s : State) (t : Nat) (k : Task) (a : Act) (rest : List Act),
      s.task? t = some k → k.pend = a :: rest → k.mayStep = true → k.step = none → k.held = true →
      k.mig = none → s.dieActs k.die = true → (∀ x, k.timer = some x → before x a.t = false) → s.owedBefore t a.t = false →
      (k.restarting = false → exec (.stepReady t) s =
        .next ((s.at (a.t + picots (s.settle k))).setTask t { k with step := some (Step.ready k a), pend := rest })) ∧
      (k.restarting = true → upTo k.startStamp a.t = true → exec (.stepReady t) s =
        .next (((s.at (a.t + picots (s.settle k))).beginRun t k).modTask t
          (fun k' => { k' with step := some (Step.ready k' a), pend := rest }))) ∧
      (Step.ready k a).act = a ∧ (Step.ready k a).tl = a.t + picots k.lead ∧
      (Step.ready k a).reserve = (if k.crossAt a.t then 280 * 64 else 20 * 64) ∧ (Step.ready k a).running = false ∧
      (Step.ready k a).effs = [] ∧ (Step.ready k a).wbuf = [] ∧ (Step.ready k a).pkts = [] ∧ (Step.ready k a).w = k.c
  ) ∧ (
    ∀ (s : State) (d slot t : Nat) (k : Task) (st : Step),
      s.dieActs d = true → ((s.die d).slots.getD slot Slot.reset).healthy = true → s.dbg.halt = none →
      s.nextOn d slot = some (t, k, st) →
      ((st.tested = true ∨ k.tooSoon st.act = false) →
        exec (.stepDispatch d slot) s = .next ((s.setBit F.TIME_STATUS_first_step_done pkg true).setTask t
          { k with step := some { st with running := true, tested := true, w := k.startCtx st.act },
                   served := k.serve st.act, lastT := st.act.t, lastTl := st.tl })) ∧
      (st.tested = false → k.tooSoon st.act = true → (st.act.src = 4 ∨ st.act.src = 5 ∨ st.act.src = 6) →
        exec (.stepDispatch d slot) s = .next (s.setTask t { k with step := none, dropped := k.dropped + 1 })) ∧
      (st.tested = false → k.tooSoon st.act = true → st.act.src ≠ 4 → st.act.src ≠ 5 → st.act.src ≠ 6 →
        exec (.stepDispatch d slot) s =
          .next ((s.setTask t { k with step := none }).taskFault t 0x0B k.c.pc 0 st.act.t false))
  ) ∧ (
    ∀ (s : State) (t : Nat) (k : Task) (st : Step),
      s.task? t = some k → k.step = some st → st.cutOff = false → k.halt = none → s.dbg.halt = none → st.tested = true →
      s.dieActs k.die = true →
      exec (.stepCutOff t) s = .next (((s.at (k.cutoff st.act.t)).setTask t k).overrun t k st.act.t false) ∧
      k.cutoff st.act.t = st.act.t + picots k.lead - picots (if k.crossAt st.act.t then 280 * 64 else 20 * 64) ∧
      ∀ s', s' = (((s.at (k.cutoff st.act.t)).setTask t k).overrun t k st.act.t false) → s'.dieMem = s.dieMem ∧
        (k.stopPolicy = false → s'.task? t = some { k with step := none }) ∧
        (k.stopPolicy = true → ∃ k', s'.task? t = some k' ∧ k'.state = .faulted ∧ k'.faultCode = 0x0E ∧ k'.step = none ∧
          k'.pend = [] ∧ k'.timer = none) ∧
        (∀ u, u ≠ t → s'.task? u = s.task? u) ∧
        s'.reg .DET_STATUS pkg = s.reg .DET_STATUS pkg ||| 1#32 ∧
        s'.fld F.BREACH_COUNT_count (pkg1 0) = min (s.fld F.BREACH_COUNT_count (pkg1 0) + 1) (2 ^ 32 - 1) ∧
        (s.pkgFault = false → (s.die k.die).fenced = false → ∃ r ∈ (s'.die k.die).outbox,
          r.ty = 0x20 ∧ r.stamp = k.cutoff st.act.t ∧ r.src = 0x0A48 + k.die ∧
          r.payload = pay (leBytes t 2 ++ leBytes (if k.stopPolicy then 1 else 0) 2 ++ timeBytes st.act.t))
  )

/-- R95: the step that a shuttle takes is ready, on that shuttle, and none that is ready there comes before it by deadline and
rank (stamps compared as R66 compares them, in a window in which that comparison is an order). -/
def Obligations.DispatchTakesEarliest : Prop :=
  ∀ (s : State) (d slot t : Nat) (k : Task) (st : Step) (w : Time),
    (∀ e ∈ s.tasks, ∀ y, e.2.step = some y → (y.tl - w).toNat < 2 ^ 62) →
    s.nextOn d slot = some (t, k, st) →
    (t, k) ∈ s.tasks ∧ k.step = some st ∧ k.die = d ∧ k.slot = slot ∧ st.running = false ∧ st.cutOff = false ∧
    ∀ e ∈ s.tasks, ∀ y, e.2.die = d → e.2.slot = slot → e.2.held = true → e.2.mig = none → e.2.step = some y →
      y.running = false → y.cutOff = false → deadlineFirst e.2 y k st = false

/-- R71, R160: a timer that fires becomes a pending activation at the time it was set to.
R73, R185, R40, R202: a message behind which nothing of the same two dies stands reaches the pricking of its destination as an
activation at its stamp, with its payload; one for an in-port the task does not declare activates nothing; without a task it is
counted as dropped; one sent after another that is still on its way waits.
R75, R217, R491: an activation that a run takes enters the pricking in its place; beyond max_pending it is dropped and
counted for a capture, compare or hoop source and faults the task for any other; a faulted task discards and counts it. -/
def Obligations.Activations : Prop :=
  (
    ∀ (s : State) (t : Nat) (k : Task) (x : Time), s.task? t = some k → k.timer = some x → s.dieActs k.die = true →
      k.state = .running → k.stopAt = none → upTo k.startStamp x = true →
      ∀ src, k.source? 7 0 = some src → k.pendingOf 7 0 < src.maxPending →
      exec (.timerFire t) s = .next ((s.at x).setTask t
        { k with timer := none, pend := actInsert ⟨x, 7, 0, 0, false, 0, 0, 0, []⟩ k.pend })
  ) ∧ (
    ∀ (s : State) (i : Nat) (m : Msg), s.msgs[i]? = some m →
      (s.mayArrive m.die (s.msgTo m) m.ord = false → exec (.messageDeliver i) s = .next s) ∧
      (∀ k slot src, s.mayArrive m.die (s.msgTo m) m.ord = true → s.task? m.dst = some k → k.slotOf 9 m.port = some slot →
        k.state = .running → k.stopAt = none →
        upTo k.startStamp m.stamp = true → k.source? 2 slot = some src → k.pendingOf 2 slot < src.maxPending →
        exec (.messageDeliver i) s = .next ({ s with msgs := s.msgs.eraseIdx i }.setTask m.dst
          { k with pend := actInsert ⟨m.stamp, 2, slot, 0, false, m.rank, m.seq, m.idx, m.payload⟩ k.pend })) ∧
      (∀ k, s.mayArrive m.die (s.msgTo m) m.ord = true → s.task? m.dst = some k → k.slotOf 9 m.port = none →
        exec (.messageDeliver i) s = .next { s with msgs := s.msgs.eraseIdx i }) ∧
      (s.mayArrive m.die (s.msgTo m) m.ord = true → s.task? m.dst = none →
        exec (.messageDeliver i) s = .next ({ s with msgs := s.msgs.eraseIdx i }.bump F.FLT_ACT_DROP_dropped pkg))
  ) ∧ (
    ∀ (s : State) (t : Nat) (k : Task) (a : Act), s.task? t = some k →
      (k.state = .faulted → s.activate t a = s.bump F.FLT_ACT_DROP_dropped pkg) ∧
      (∀ src, k.takes a.t = true → k.source? a.src a.slot = some src →
        (k.pendingOf a.src a.slot < src.maxPending → s.activate t a = s.setTask t { k with pend := actInsert a k.pend }) ∧
        (src.maxPending ≤ k.pendingOf a.src a.slot → (a.src = 4 ∨ a.src = 5 ∨ a.src = 6) →
          s.activate t a = s.setTask t { k with dropped := k.dropped + 1 }) ∧
        (src.maxPending ≤ k.pendingOf a.src a.slot → a.src ≠ 4 → a.src ≠ 5 → a.src ≠ 6 →
          s.activate t a = s.taskFault t 0x0B k.c.pc 0 a.t false)) ∧
      (k.state ≠ .faulted → k.takes a.t = true → k.source? a.src a.slot = none → s.activate t a = s)
  )

/-- R462, R463, R464, R75: NOP completes with OK; TASK gives its task one activation at the acceptance stamp and completes with OK, or
with ACT_FAULT where it comes too soon after the one before; a task that does not run gets none, and TASK completes with
NOT_RUNNING.
R208, R209: START of a placed task begins a run at the acceptance stamp, with its host activation; STOP ends a run at its
acceptance stamp: activations, a timer and a step from then on go, and the outputs have until Ts + L. A START of a running task and
a STOP of one that does not run complete with TASK_STATE. -/
def Obligations.HostCommands : Prop :=
  (
    ∀ (s : State) (q : Nat) (c : CqCmd),
      (s.cqRuns q 0x00 = some c → exec (.cmdNop q) s = .next (s.setCq q { c with status := some 0 })) ∧
      (s.cqRuns q 0x01 = some c → s.task? (c.param 0).toNat = none →
        exec (.task q) s = .next (s.setCq q { c with status := some 0x84 })) ∧
      (∀ k, s.cqRuns q 0x01 = some c → s.task? (c.param 0).toNat = some k → k.takes c.accept = false →
        exec (.task q) s = .next (s.setCq q { c with status := some 0x84 })) ∧
      (∀ k src, s.cqRuns q 0x01 = some c → s.task? (c.param 0).toNat = some k → k.state = .running → k.stopAt = none →
        upTo k.startStamp c.accept = true → k.source? 1 q = some src → k.pendingOf 1 q < src.maxPending →
        exec (.task q) s = .next ((s.setTask (c.param 0).toNat
          { k with pend := actInsert ⟨c.accept, 1, q, 0, false, (c.word 0).toNat, 0, 0, c.payload⟩ k.pend }).setCq q
            { c with status := some (if k.hostSoon c.accept then 0x85 else 0) }))
  ) ∧ (
    ∀ (s : State) (q : Nat) (c : CqCmd) (k : Task), s.task? (c.param 0).toNat = some k →
      (s.placerRuns q 0x11 = some c → k.state = .running → exec (.start q) s = .next (s.setCq q { c with status := some 0x0E })) ∧
      (s.placerRuns q 0x11 = some c → k.state = .loaded → k.held = true → s.unboundQueue k = false →
        exec (.start q) s = .next (((s.beginRun (c.param 0).toNat
          { k with state := .running, startStamp := c.accept, pend := [] }).activate (c.param 0).toNat (hostAct q c)).setCq q
            { c with status := some 0 })) ∧
      (s.placerRuns q 0x12 = some c → k.state = .running → k.stopAt = none →
        exec (.stop q) s = .next ((s.setTask (c.param 0).toNat
          { k with state := .stopped, stopAt := some c.accept, pend := k.pend.filter (fun a => before a.t c.accept),
                   step := k.step.filter (fun y => before y.act.t c.accept), timer := k.timer.filter (fun x => before x c.accept),
                   falls := k.falls ++ [⟨c.accept + picots k.lead, k.run, none⟩] }).setCq q { c with status := some 0 })) ∧
      (s.placerRuns q 0x12 = some c → k.state ≠ .running →
        exec (.stop q) s = .next (s.setCq q { c with status := some 0x0E }))
  )

/-- R200 to R219, R207, R538: LOAD of a good image that the placer can place makes the task resident at its place, owns its pins,
writes its code and tables and locks the task key; one that cannot be loaded changes nothing but that lock and completes with its
lowest reason; a die whose copy of the digest is wrong refuses it and is fenced.
R209, R213, R215, R220: UNLOAD of a task that does not run makes it no longer resident; SET_AFFINITY records a mask that admits
the task's die, and with one that does not the task waits to move; SET_SPLIT sets the three parts while no task is resident. -/
def Obligations.PlacerCommands : Prop :=
  (
    ∀ (s s1 : State) (q t : Nat) (bad : BitVec 8) (c : CqCmd) (b : List Byte) (i : Image) (l : List Nat), s.pcieUp = true →
      s.placerRuns q 0x10 = some c → t = (c.param 0).toNat → s1 = (s.spoilCopies bad).setBit F.TASK_KEY_LOCK_locked pkg true →
      b = s1.spaceRead false (joinHalves (c.param 2) (c.param 1)).toNat (c.param 3).toNat →
      (∀ p, s1.badCopies = [] → s1.readImage b = ([], some i) → s1.loadCodes t i = [] →
        s1.place t (i.task (c.param 4).toNat) (c.param 4).toNat true = .inl p →
        exec (.load ⟨q, bad⟩) s = .next ((((((s1.settleAt t (i.task (c.param 4).toNat) p c.accept).writeImage i p).ownPins
          t i.res).updateDigest)).setCq q { c with status := some 0 })) ∧
      (s1.badCopies = [] → s1.readImage b = (l, none) →
        exec (.load ⟨q, bad⟩) s = .next (s1.setCq q { c with status := some (lowestCode l) })) ∧
      (∀ p, s1.badCopies = [] → s1.readImage b = (l, some i) → l ++ s1.loadCodes t i ≠ [] →
        s1.place t (i.task (c.param 4).toNat) (c.param 4).toNat true = .inl p →
        exec (.load ⟨q, bad⟩) s = .next (s1.setCq q { c with status := some (lowestCode (l ++ s1.loadCodes t i)) })) ∧
      (∀ r, s1.badCopies = [] → s1.readImage b = (l, some i) → s1.place t (i.task (c.param 4).toNat) (c.param 4).toNat true = .inr r →
        exec (.load ⟨q, bad⟩) s = .next (s1.setCq q { c with status := some (lowestCode (r :: (l ++ s1.loadCodes t i))) })) ∧
      (s1.badCopies ≠ [] → s1.readImage b = (l, none) →
        exec (.load ⟨q, bad⟩) s =
          .next ((s1.fenceCopies s1.badCopies).setCq q { c with status := some (lowestCode (l ++ [0x16])) }))
  ) ∧ (
    ∀ (s : State) (q : Nat) (bad : BitVec 8) (c : CqCmd),
      (s.placerRuns q 0x13 = some c → ∀ k, s.task? (c.param 0).toNat = some k → k.state ≠ .running → k.falls = [] →
        exec (.unload ⟨q, bad⟩) s = .next (((s.spoilCopies bad).unloadTask (c.param 0).toNat c.accept).2.setCq q
          { c with status := some 0 }) ∧
        ((s.spoilCopies bad).unloadTask (c.param 0).toNat c.accept).2.task? (c.param 0).toNat = none) ∧
      (s.placerRuns q 0x13 = some c → s.task? (c.param 0).toNat = none →
        exec (.unload ⟨q, bad⟩) s = .next ((s.spoilCopies bad).setCq q { c with status := some 0x0E })) ∧
      (s.placerRuns q 0x14 = some c → c.waiting = none → ∀ k p, s.task? (c.param 0).toNat = some k → k.held = true →
        s.admitted (c.param 4).toNat ≠ [] → (s.admitted (c.param 4).toNat).contains k.die = false →
        s.place (c.param 0).toNat k (c.param 4).toNat false = .inl p →
        exec (.setAffinity q) s = .next (s.setCq q { c with waiting := some s.now })) ∧
      (s.placerRuns q 0x14 = some c → c.waiting = none → ∀ k, s.task? (c.param 0).toNat = some k → k.held = true →
        (s.admitted (c.param 4).toNat).contains k.die = true →
        exec (.setAffinity q) s = .next ((s.setTask (c.param 0).toNat { k with affinity := (c.param 4).toNat }).setCq q
          { c with status := some 0 })) ∧
      (s.placerRuns q 0x14 = some c → c.waiting = none → ∀ k, s.task? (c.param 0).toNat = some k →
        s.admitted (c.param 4).toNat = [] → exec (.setAffinity q) s = .next (s.setCq q { c with status := some 0x0F })) ∧
      (s.placerRuns q 0x15 = some c → s.tasks = [] → ∀ cg qg, cg = (c.param 0).toNat → qg = (c.param 1).toNat →
        4 ≤ cg → cg ≤ 16 → 4 ≤ qg → cg + qg ≤ 60 →
        exec (.setSplit q) s = .next ((((s.setFld F.PLC_SPLIT_code_granules pkg cg).setFld F.PLC_SPLIT_queue_granules pkg
          qg).setFld F.PLC_SPLIT_data_granules pkg (64 - cg - qg)).setCq q { c with status := some 0 })) ∧
      (s.placerRuns q 0x15 = some c → s.tasks ≠ [] →
        exec (.setSplit q) s = .next (s.setCq q { c with status := some 0x0E }))
  )

/-- R94, R112, R209: a new run starts with every register 0, no timer, no step, no effect of the run before, and the private
segment at DATA_INIT; no other task changes. -/
def Obligations.RunBeginsClean : Prop :=
  ∀ (s : State) (t : Nat) (k : Task), ∃ k', (s.beginRun t k).task? t = some k' ∧ k'.c = Ctx.zero ∧ k'.seq = 0 ∧ k'.step = none ∧
    k'.timer = none ∧ k'.resume = .entry ∧ k'.run = k.run + 1 ∧ k'.stitches = [] ∧
    (∀ u, u ≠ t → (s.beginRun t k).task? u = s.task? u) ∧
    (∀ o, o < k.dataBytes → memRead (s.beginRun t k).dieMem (dieAddr k.die k.dataBase + o) =
      (k.dataInit.take k.dataBytes).getD o 0)

/-- R209, R491, R490: at Ts + L the outputs of a stopped run take their fallback, at T + L those of a faulted one, which then
writes its TASK_FAULT record.
R220 to R226: a move starts when the task stands at a boundary with room for the bound, ends with the task in its new place and
the SET_AFFINITY that asked for it complete, or gives up after 100 ms; a rotation starts at its instant while no context of the die is
halted, the pass of its BIST chooses the shuttle to empty, and it is deferred after 100 ms. -/
def Obligations.FallbacksAndMoves : Prop :=
  (
    ∀ (s : State) (t : Nat) (k : Task) (x : Time) (run : Nat), s.task? t = some k →
      (k.falls = [⟨x, run, none⟩] → exec (.stopFallback t) s = .next
        (((s.at x).outputsFall t run k.res x).modTask t (fun k => { k with falls := k.falls.erase ⟨x, run, none⟩ }))) ∧
      (∀ f, k.falls = [⟨x, run, some f⟩] → exec (.taskFaultFallback t) s = .next
        ((((s.at x).outputsFall t run k.res x).modTask t
          (fun k => { k with falls := k.falls.erase ⟨x, run, some f⟩ })).taskFaultRec t k.die f x))
  ) ∧ (
    ∀ (s : State) (t d q : Nat) (k : Task) (g : Time) (m : Mig) (c : CqCmd),
      (s.task? t = some k → s.placerFree = true → s.rotPhase k.die = 2 → s.rotNext k.die = some t → s.mayMove k 16000 g = true →
        exec (.migrationStart t g) s = .next ((s.at g).setTask t { k with
          mig := some ⟨k.die, (s.die k.die).rotFrom, k.ctx, k.codeBase, k.dataBase, k.tables, none⟩ })) ∧
      (s.task? t = some k → s.placerFree = true → s.rotPhase k.die ≠ 2 → s.affinityOf t = some (q, c) → ∀ p,
        s.place t k (c.param 4).toNat false = .inl p → s.mayMove k (k.moveBound p.die) g = true →
        exec (.migrationStart t g) s = .next ((s.at g).setTask t { k with
          mig := some ⟨p.die, p.slot, p.ctx, p.codeBase, p.dataBase, p.tables, some (q, (c.param 4).toNat)⟩ })) ∧
      (s.task? t = some k → k.mig = some m → m.cmd = none →
        exec (.migrationEnd t g) s = .next
          (((s.at g).arrive t k m g).rotChecks.modDie m.die (fun x => { x with rotSince := g }))) ∧
      (s.task? t = some k → k.mig = some m → ∀ mask u, m.cmd = some (q, mask) →
        u = (((s.at g).arrive t k m g).rotChecks).modTask t (fun k => { k with affinity := mask }) → u.cq q = some c →
        exec (.migrationEnd t g) s = .next (u.setCq q { c with status := some 0 })) ∧
      (s.cq q = some c → ∀ w, c.waiting = some w → c.status = none → upTo (w + ms100) g = true →
        s.namedTask c (fun k => k.mig.isSome) = false →
        exec (.migrationTimeout q g) s = .next ((s.at g).setCq q { c with status := some 0x11 })) ∧
      ((s.die d).live = true → s.dieActs d = true → s.placerFree = true → s.rotTime d g = true → s.rotPhase d = 0 →
        s.spareOf d ≠ 7 → s.dieHalted d = false →
        exec (.rotationStart d g) s = .next ((s.at g).setFld F.SHT_ROLE_rot_phase (dieIx d) 1)) ∧
      (s.rotPhase d = 1 → s.dieActs d = true → exec (.bistDone d true g) s = .next ((s.at g).bistPass d g)) ∧
      (s.rotPhase d = 2 → (∀ e ∈ s.tasks, ∀ y, e.2.mig = some y → y.die = d → y.cmd ≠ none) →
        upTo ((s.die d).rotSince + ms100) g = true →
        exec (.rotationDefer d g) s =
          .next (((s.at g).setFld F.SHT_ROLE_rot_phase (dieIx d) 3).bump F.PLC_ROT_DEFER_count pkg))
  )

/-- R243, R245 to R248: an input edge is stamped and restarts the pin's filter, a pulse below 2 ns at a pin without a filter is counted
as narrow; a level that was stable for the filter delay is accepted, and with capture on and the edge selected it enters the history,
newest first, with its stamp.
R251 to R258: a comparator or readback difference on a driven pin fails the pin, counts it and writes the fault record with
its cause. -/
def Obligations.PinEvents : Prop :=
  (
    ∀ (s : State) (p : Nat) (x : PinSt) (stamp : Time) (level : Bool), x = s.pin p →
      (level = x.filt.raw → exec (.pinInputEdge p stamp level) s = .next s) ∧
      (s.dieRuns (p / 64) = true → x.filt.raw = x.filt.out → level = !x.filt.raw →
        exec (.pinInputEdge p stamp level) s = .next ((s.at stamp).setPin p { x with filt := ⟨level, stamp, x.filt.out⟩ })) ∧
      (s.dieRuns (p / 64) = true → x.filt.raw ≠ x.filt.out → level = x.filt.out → s.pinDelay p ≠ 0 →
        upTo (x.filt.since + picots (s.pinDelay p * 64)) stamp = false →
        exec (.pinInputEdge p stamp level) s = .next ((s.at stamp).setPin p { x with filt := ⟨level, stamp, x.filt.out⟩ })) ∧
      (s.dieRuns (p / 64) = true → x.filt.raw ≠ x.filt.out → level = x.filt.out → s.pinDelay p = 0 →
        before stamp (x.filt.since + 128#64) = true →
        exec (.pinInputEdge p stamp level) s = .next (((s.at stamp).setPin p { x with filt := ⟨level, stamp, x.filt.out⟩ }).bump
          F.PIN_CAP_COUNT_narrow (pinIx p))) ∧
      (s.dieRuns (p / 64) = true → x.filt.raw ≠ x.filt.out →
        ∃ t, exec (.pinFilterAccept p) s = .next t ∧ (t.pin p).filt = ⟨x.filt.raw, x.filt.since, x.filt.raw⟩ ∧
          (s.bit F.PIN_CTRL_cap_en (pinIx p) = false → (t.pin p).caps = x.caps) ∧
          (s.bit F.PIN_CTRL_cap_en (pinIx p) = true → s.capTakes p x.filt.raw = true →
            (t.pin p).caps = (x.filt.since, x.filt.raw) :: x.caps) ∧
          (∀ q, q ≠ p → t.pin q = s.pin q))
  ) ∧ (
    ∀ (s : State) (p : Nat) (g e : Time), s.dieActs (p / 64) = true →
      ((s.pin p).failed = false → exec (.engineDisagree p g) s =
        .next ((((s.at g).failPin p).bump F.FLT_UNIT_COUNT_other pkg).faultRec (p / 64) (0x0A08 + p / 64) 0x30 g
          (leBytes p 2 ++ [1, 0] ++ timeBytes 0))) ∧
      (s.pinRelease p = 0 → exec (.readbackMismatch p (.edge e) g) s =
        .next ((((s.at g).failPin p).bump F.FLT_UNIT_COUNT_other pkg).faultRec (p / 64) (0x0A08 + p / 64) 0x30 g
          (leBytes p 2 ++ [2, 0] ++ timeBytes e))) ∧
      (s.pinRelease p = 0 → exec (.readbackMismatch p .level g) s =
        .next ((((s.at g).failPin p).bump F.FLT_UNIT_COUNT_other pkg).faultRec (p / 64) (0x0A08 + p / 64) 0x30 g
          (leBytes p 2 ++ [3, 0] ++ timeBytes 0))) ∧
      (∀ t, t = s.failPin p → (s.pin p).owner = .free → t = s.setPin p { s.pin p with failed := true })
  )

/-- R234 to R239, R254: 100 ns before its stamp the first movable stitch of a pin locks; the next stitch in order takes effect at its
stamp: the pin has its level, unless the following edge takes it back within 2 ns, and then both are merged and counted; a stitch on a
failed pin is counted as dropped.
R79, R40, R413, R233, R240, R414, R417: an effect on its way, behind which nothing stands that the same die sent to that die before
it, reaches its unit: a stitch enters the queue of the pin its task owns, a packet its ring behind those completed before it, a carrier,
trip, interface, hoop or release effect waits at its unit for its stamp; it is on its way no more. -/
def Obligations.StitchesAndEffects : Prop :=
  (
    ∀ (s : State) (p : Nat) (x : PinSt) (a : Stitch) (rest : List Stitch), x = s.pin p → s.dieRuns (p / 64) = true →
      (∀ y, x.queue = a :: rest →
        (∀ b rest', rest = b :: rest' → a.level = s.pinLevel p ∨ b.level ≠ s.pinLevel p ∨ before b.stamp (a.stamp + 128#64) = false) →
        y = (s.at a.stamp).setPin p { x with queue := rest, lvl := a.level, started := true, lastLvl := s.runLevel x a,
                                             edge := if a.level = s.pinLevel p then x.edge else some (a.stamp, s.pinLevel p) } →
        (x.failed = false ∨ a.cls = 2 → exec (.stitchApply p) s = .next y) ∧
        (x.failed = true → a.cls ≠ 2 → exec (.stitchApply p) s = .next (y.bump F.PIN_DROP_COUNT_count (pinIx p)))) ∧
      (∀ b rest', x.queue = a :: rest → rest = b :: rest' → a.level ≠ s.pinLevel p → b.level = s.pinLevel p →
        before b.stamp (a.stamp + 128#64) = true →
        exec (.stitchApply p) s = .next ((((s.at a.stamp).setPin p { x with queue := rest', lastLvl := s.runLevel x b }).dropWins p
          [a.stamp, b.stamp]).bump F.PIN_MERGE_COUNT_count (pinIx p))) ∧
      (x.queue.find? (fun b => b.repl && !b.locked) = some a →
        exec (.stitchLock p) s = .next ((s.at (a.stamp - 6400#64)).setPin p
          { x with queue := x.queue.map (fun b => if b = a then { b with locked := true } else b) }))
  ) ∧ (
    ∀ (s u : State) (i : Nat) (e : Eff), s.flight[i]? = some e → u = { s with flight := s.flight.eraseIdx i } →
      s.dieActs e.kind.die = true →
      (s.mayArrive e.die e.kind.die e.ord = false → exec (.effectArrival i) s = .next s) ∧
      (s.mayArrive e.die e.kind.die e.ord = true →
        (∀ p l r o, e.kind = .stitch p l r o → (s.pin p).owner = .task e.task →
          exec (.effectArrival i) s = .next (u.stitchArrive e p l r o)) ∧
        (∀ c n f d v, (e.kind = .pwmw c n f d v ∨ e.kind = .pwmc c n f) →
          exec (.effectArrival i) s = .next (u.setCar c { s.car c with fx := effInsert e (s.car c).fx })) ∧
        (∀ j, e.kind = .tripClear j →
          exec (.effectArrival i) s = .next (u.setTrip j { s.trip j with fx := effInsert e (s.trip j).fx })) ∧
        (∀ n p sp pin slot, (e.kind = .fbDisarm n ∨ e.kind = .fbArm n p sp pin slot) →
          exec (.effectArrival i) s = .next (u.setFb n { s.fb n with fx := effInsert e (s.fb n).fx })) ∧
        (∀ h k d q, (e.kind = .hcan h k ∨ e.kind = .hevt h q d q) →
          exec (.effectArrival i) s = .next (u.setHoop h { s.hoop h with fx := effInsert e (s.hoop h).fx })) ∧
        (∀ q upTo gen, e.kind = .release q upTo gen →
          exec (.effectArrival i) s = .next (u.setQue q { s.que q with relFx := effInsert e (s.que q).relFx })) ∧
        (∀ q ws, e.kind = .packet q ws → s.packetBefore e = true → exec (.effectArrival i) s = .next s) ∧
        (∀ q ws, e.kind = .packet q ws → s.packetBefore e = false →
          exec (.effectArrival i) s = .next ((u.putPacket q e.stamp ws).request q false)))
  )

/-- R74: an activation enters a list that R74 orders without disturbing the others: nothing is lost, nothing is added.
R87, R92: effects that wait at a unit are kept in the order of stamp, rank, sequence and index, and none is lost.
R470: records wait in the order of stamp, source and origin: one more takes its place and none is lost (stamps in a window in
which R66's comparison is an order). -/
def Obligations.OrderedListsKeepAll : Prop :=
  (
    ∀ (a : Act) (l : List Act), List.Perm (actInsert a l) (a :: l)
  ) ∧ (
    ∀ (e : Eff) (l : List Eff), List.Perm (effInsert e l) (e :: l) ∧
      (∀ (w : Time), (∀ x ∈ e :: l, (x.stamp - w).toNat < 2 ^ 62) → l.Pairwise (fun a b => b.first a = false) →
        (effInsert e l).Pairwise (fun a b => b.first a = false))
  ) ∧ (
    ∀ (r : Rec) (l : List Rec) (w : Time), List.Perm (recInsert r l) (r :: l) ∧
      ((∀ x ∈ r :: l, (x.stamp - w).toNat < 2 ^ 62) → l.Pairwise (fun a b => recFirst b a = false) →
        (recInsert r l).Pairwise (fun a b => recFirst b a = false))
  )

/-- R247, R255, R261, R262, R512: through a port that reaches it, PIN_CTRL takes a write while no running task owns the pin and the
fields are defined, and enabling capture clears the history; PIN_CAP_SEL takes a snapshot of the capture it selects; a fault clear is
accepted for a failed pin whose owner does not run.
R264, R265, R273, R284, R294: a write of PAIR_CFG that names one pin for both switches, would share a pin, leave a gap below an
enabled pair or break R273 is rejected; one that enables a pair takes its pins, the switches off, and one that disables it leaves it
at reset but for PAIR_OFF. -/
def Obligations.PinAndPairWrites : Prop :=
  (
    ∀ (s : State) (port : Port) (p : Nat) (v : Word) (x : PinSt), x = s.pin p →
      (s.Opens port (.PIN_CTRL, pinIx p) → s.ownerRuns x.owner = false → bitsOf v 0 2 ≠ 3 → bitsOf v 2 2 ≠ 3 →
        (s.bit F.PIN_CTRL_cap_en (pinIx p) = true ∨ bitOf v 4 = false) →
        exec (.pinCtrlWrite port p v) s = .next (s.wrote (.PIN_CTRL, pinIx p)
          ((s.plainWrite .PIN_CTRL (pinIx p) v).setPin p { x with lvl := s.pinLevel p }))) ∧
      (s.Opens port (.PIN_CTRL, pinIx p) → s.ownerRuns x.owner = false → bitsOf v 0 2 ≠ 3 → bitsOf v 2 2 ≠ 3 →
        s.bit F.PIN_CTRL_cap_en (pinIx p) = false → bitOf v 4 = true →
        exec (.pinCtrlWrite port p v) s = .next (s.wrote (.PIN_CTRL, pinIx p)
          ((s.plainWrite .PIN_CTRL (pinIx p) v).setPin p { x with lvl := s.pinLevel p, caps := [], capInit := x.filt.out }))) ∧
      (s.Opens port (.PIN_CTRL, pinIx p) → (s.ownerRuns x.owner = true ∨ bitsOf v 0 2 = 3 ∨ bitsOf v 2 2 = 3) →
        exec (.pinCtrlWrite port p v) s =
          .next (s.wrote (.PIN_CTRL, pinIx p) (s.setBit F.PIN_STATUS_write_reject (pinIx p) true))) ∧
      (s.Opens port (.PIN_CAP_SEL, pinIx p) → ∀ c, x.caps[bitsOf v 0 5]? = some c →
        exec (.pinCapSelWrite port p v) s = .next (s.wrote (.PIN_CAP_SEL, pinIx p)
          (((s.plainWrite .PIN_CAP_SEL (pinIx p) v).setReg .PIN_CAP_INFO (pinIx p)
            (BitVec.ofNat 32 (1 + 2 * b2n c.2))).setReg64 .PIN_CAP_STAMP_LO .PIN_CAP_STAMP_HI (pinIx p) c.1))) ∧
      (s.Opens port (.PIN_CAP_SEL, pinIx p) → x.caps[bitsOf v 0 5]? = none →
        exec (.pinCapSelWrite port p v) s = .next (s.wrote (.PIN_CAP_SEL, pinIx p)
          (((s.plainWrite .PIN_CAP_SEL (pinIx p) v).setReg .PIN_CAP_INFO (pinIx p) 0).setReg64
            .PIN_CAP_STAMP_LO .PIN_CAP_STAMP_HI (pinIx p) 0))) ∧
      (s.Opens port (.PIN_CMD, pinIx p) → x.failed = true → s.ownerRuns x.owner = false → s.tripCheckHolds p = false →
        exec (.pinFaultClear port p) s = .next (s.wrote (.PIN_CMD, pinIx p)
          ((s.setPin p { x with failed := false, started := false }).retrip (p / 64) s.now))) ∧
      (s.Opens port (.PIN_CMD, pinIx p) → (x.failed = false ∨ s.ownerRuns x.owner = true ∨ s.tripCheckHolds p = true) →
        exec (.pinFaultClear port p) s =
          .next (s.wrote (.PIN_CMD, pinIx p) (s.setBit F.PIN_STATUS_cmd_reject (pinIx p) true)))
  ) ∧ (
    ∀ (s : State) (port : Port) (c n : Nat) (v : Word) (hi lo : Nat), s.Opens port (.PAIR_CFG, pairIx c n) → s.unitRuns 3 c = false →
      hi = 64 * (c / 16) + bitsOf v 8 6 → lo = 64 * (c / 16) + bitsOf v 16 6 →
      ((hi = lo ∨ (bitOf v 0 = true ∧ 0 < n ∧ s.pairEn c (n - 1) = false) ∨ (bitOf v 0 = false ∧ n < 3 ∧ s.pairEn c (n + 1) = true) ∨
          (bitOf v 0 = true ∧ s.carHp c < s.pairDt c n + s.pairMp c n) ∨
          (bitOf v 0 = true ∧ ∃ t, (s.pin hi).owner = .task t ∨ (s.pin lo).owner = .task t)) →
        exec (.pairCfgWrite port c n v) s =
          .next (s.wrote (.PAIR_CFG, pairIx c n) (s.setBit F.CAR_STATUS_cfg_reject (carIx c) true))) ∧
      (∀ u, bitOf v 0 = true → hi ≠ lo →
        (s.pin hi).owner = .free → (s.pin lo).owner = .free → s.pairEn c n = false → (0 < n → s.pairEn c (n - 1) = true) →
        s.pairDt c n + s.pairMp c n ≤ s.carHp c →
        u = ((((((s.plainWrite .PAIR_CFG (pairIx c n) v).freePairPins c n [hi, lo]).setPair c n
          ({ ((s.plainWrite .PAIR_CFG (pairIx c n) v).freePairPins c n [hi, lo]).pair c n with
              hi := SwSt.reset, lo := SwSt.reset, ref := false, fallback := true, tripped := false } : PairSt))).takePairPin
            c n false hi).takePairPin c n true lo) →
        exec (.pairCfgWrite port c n v) s = .next (s.wrote (.PAIR_CFG, pairIx c n) (u.retrip (c / 16) u.now))) ∧
      (∀ u, bitOf v 0 = false → hi ≠ lo → (n < 3 → s.pairEn c (n + 1) = false) → (s.pairEn c n && (s.pair c n).tripped) = false →
        u = (s.plainWrite .PAIR_CFG (pairIx c n) v).freePairPins c n [] → exec (.pairCfgWrite port c n v) s =
          .next (s.wrote (.PAIR_CFG, pairIx c n) (u.setPair c n { PairSt.reset with off := (u.pair c n).off }))) ∧
      (∀ u, bitOf v 0 = false → hi ≠ lo → (n < 3 → s.pairEn c (n + 1) = false) → s.pairEn c n = true → (s.pair c n).tripped = true →
        u = ((s.pairUntrip c n s.now).plainWrite .PAIR_CFG (pairIx c n) v).freePairPins c n [] →
        exec (.pairCfgWrite port c n v) s =
          .next (s.wrote (.PAIR_CFG, pairIx c n) (u.setPair c n { PairSt.reset with off := (u.pair c n).off })))
  )

/-- R267, R268, R272, R274: a START arms a stopped carrier, whose first boundary lies PHASE after its stamp; on any other carrier
START is discarded and counted; the hold of a phase change ends at its instant.
R268, R269, R271 to R274: at a boundary of a carrier the waiting effects stamped at or before it apply: without a STOP among them
the carrier runs on from there, in its next period, with the compares written; a STOP stops it. CAR_LAST_BOUNDARY holds the instant.
At the mid-period point the reference of an enabled pair is on exactly where its compare is above 0. No other carrier changes.
R271, R273, R274: a write to a stopped carrier takes effect at its stamp: COMPARE with its dither, HALF_PERIOD that fits the pairs
and the phase, PHASE inside the period; one that does not fit is discarded and counted. PAIR_OFF and PAIR_ON set and clear the off
state of their pair.
R269, R275, R276: the reference of a pair turns on at the mid-period point − c and off at it + c; a switch whose dead time ends
turns on, unless its reference was turned away meanwhile, or its pulse would be too short and the pair's policy drops it, which is
counted; a held pulse ends at its instant. -/
def Obligations.CarrierEvents : Prop :=
  (
    ∀ (s : State) (c : Nat) (x : CarSt) (e : Eff), x = s.car c → s.carActs c = true →
      (x.fx.find? (fun e => e.isCmd 0) = some e → x.mode = .stopped → exec (.carrierStartApply c) s = .next ((s.at e.stamp).setCar c
        { x with fx := x.fx.erase e, mode := .armed, bnd := e.stamp + picots (s.fld F.CAR_PHASE_phase (carIx c)), hold := 0,
                 idx := 0, mid := false, pairs := x.pairs.map (fun p => { p with fallback := false, ref := false }) })) ∧
      (x.fx.find? (fun e => e.isCmd 0) = some e → x.mode ≠ .stopped → exec (.carrierStartApply c) s =
        .next (((s.at e.stamp).setCar c { x with fx := x.fx.erase e }).bump F.CAR_REJECT_COUNT_count (carIx c))) ∧
      (x.mode = .running → exec (.phaseHoldEnd c) s = .next (s.at (x.bnd + picots x.hold)))
  ) ∧ (
    ∀ (s : State) (c : Nat) (x : CarSt) (t : Time) (due : List Eff), x = s.car c → s.carActs c = true →
      (x.mode ≠ .stopped → t = s.nextBoundary c → due = x.fx.filter (fun e => upTo e.stamp t && !e.isCmd 0) →
        ∃ s', exec (.carrierBoundary c) s = .next s' ∧ (s'.car c).bnd = t ∧ (s'.car c).mid = false ∧
          (s'.car c).fx = x.fx.filter (fun e => !(upTo e.stamp t && !e.isCmd 0)) ∧
          s'.reg64 .CAR_LAST_BOUNDARY_LO .CAR_LAST_BOUNDARY_HI (carIx c) = t ∧ (∀ d, d ≠ c → s'.car d = s.car d) ∧
          ((∀ e ∈ due, e.isCmd 1 = false) → (s'.car c).mode = .running ∧
            (s'.car c).idx = (if x.mode = .armed then 0 else (x.idx + 1) % 16)) ∧
          ((∃ e ∈ due, e.isCmd 1 = true) → (s'.car c).mode = .stopped ∧ (s'.car c).hold = 0) ∧
          (∀ pre e post a n d v, due = pre ++ e :: post → e.kind = .pwmw a n 0 d v → n < 4 →
            (∀ y ∈ post, ∀ a' d' v', y.kind ≠ .pwmw a' n 0 d' v') → s'.reg .PAIR_COMPARE (pairIx c n) = v)) ∧
      (x.mode = .running → x.mid = false → t = x.bnd + picots x.hold + picots (s.carHp c) →
        ∃ s', exec (.carrierMidpoint c) s = .next s' ∧ s'.now = (s.at t).now ∧ (s'.car c).mid = true ∧ (s'.car c).mode = .running ∧
          (s'.car c).bnd = x.bnd ∧ (s'.car c).idx = x.idx ∧ (∀ d, d ≠ c → s'.car d = s.car d) ∧
          (s.bit F.CAR_CTRL_upd_mode (carIx c) = false → (s'.car c).fx = x.fx) ∧
          (s.bit F.CAR_CTRL_upd_mode (carIx c) = true →
            (s'.car c).fx = x.fx.filter (fun e => !(x.fx.filter (fun e => upTo e.stamp t && e.isCompare)).contains e)) ∧
          (∀ n, n < 4 → n < x.pairs.length → s.pairEn c n = true →
            (s'.pair c n).ref = decide (0 < s'.effCompare c n x.idx)))
  ) ∧ (
    ∀ (s u : State) (c : Nat) (x : CarSt) (e : Eff) (rest : List Eff) (a n d : Nat) (v : Word), x = s.car c → s.carActs c = true →
      x.mode = .stopped → x.fx = e :: rest → u = (s.at e.stamp).setCar c { x with fx := rest } →
      (e.kind = .pwmw a n 0 d v → exec (.pwmStoppedWriteApply c) s =
        .next ((u.setReg .PAIR_COMPARE (pairIx c n) v).setFld F.PAIR_DITHER_dither (pairIx c n) d)) ∧
      (e.kind = .pwmw a n 1 d v → s.hpFits c (v.toNat * 64) = true → s.fld F.CAR_PHASE_phase (carIx c) < 2 * v.toNat * 64 →
        exec (.pwmStoppedWriteApply c) s = .next (u.setFld F.CAR_HALF_PERIOD_half_period (carIx c) v.toNat)) ∧
      (e.kind = .pwmw a n 1 d v → (s.hpFits c (v.toNat * 64) = false ∨ 2 * v.toNat * 64 ≤ s.fld F.CAR_PHASE_phase (carIx c)) →
        exec (.pwmStoppedWriteApply c) s = .next (u.bump F.CAR_REJECT_COUNT_count (carIx c))) ∧
      (e.kind = .pwmw a n 2 d v → v.toNat < 2 * s.carHp c → exec (.pwmStoppedWriteApply c) s =
        .next (u.setFld F.CAR_PHASE_phase (carIx c) v.toNat)) ∧
      (e.kind = .pwmw a n 2 d v → 2 * s.carHp c ≤ v.toNat → exec (.pwmStoppedWriteApply c) s =
        .next (u.bump F.CAR_REJECT_COUNT_count (carIx c))) ∧
      (e.kind = .pwmc a n 2 → exec (.pwmStoppedWriteApply c) s =
        .next (u.setPair c n { s.pair c n with off := true, fallback := false })) ∧
      (e.kind = .pwmc a n 3 → exec (.pwmStoppedWriteApply c) s = .next (u.setPair c n { s.pair c n with off := false }))
  ) ∧ (
    ∀ (s : State) (c n : Nat) (x : CarSt) (t : Time) (low : Bool), x = s.car c → s.carActs c = true → s.pairEn c n = true →
      (x.mode = .running → (s.pair c n).ref = false → x.mid = false → 0 < s.effCompare c n x.idx →
        s.effCompare c n x.idx < s.carHp c → t = s.midPoint c - picots (s.effCompare c n x.idx) →
        exec (.referenceEdge c n) s = .next ((s.at t).setRef c n true t)) ∧
      (x.mode = .running → (s.pair c n).ref = true → x.mid = true → s.effCompare c n x.idx < s.carHp c →
        t = s.midPoint c + picots (s.effCompare c n x.idx) →
        exec (.referenceEdge c n) s = .next ((s.at t).setRef c n false t)) ∧
      (((s.pair c n).hi.due = some t ∧ low = false) ∨ ((s.pair c n).hi.due = none ∧ (s.pair c n).lo.due = some t ∧ low = true) →
        ((s.pair c n).tripped = true → exec (.deadTimeExpiry c n) s = .next ((s.at t).swOn c n low t)) ∧
        ((s.pair c n).tripped = false → s.turnedAway c n low t = true →
          exec (.deadTimeExpiry c n) s = .next ((s.at t).modSw c n low (fun w => { w with due := none }))) ∧
        ((s.pair c n).tripped = false → s.turnedAway c n low t = false →
          (∀ e, s.expectedOff c n low t = some e → (s.pairMp c n : Int) ≤ dist e t) →
          exec (.deadTimeExpiry c n) s = .next (((s.at t).openWindows c n low true t).swOn c n low t)) ∧
        (∀ e, (s.pair c n).tripped = false → s.turnedAway c n low t = false → s.expectedOff c n low t = some e →
          dist e t < (s.pairMp c n : Int) → s.bit F.PAIR_CFG_policy (pairIx c n) = false →
          exec (.deadTimeExpiry c n) s = .next (((s.at t).modSw c n low (fun w => { w with due := none })).bump
            F.PAIR_DROP_COUNT_count (pairIx c n)))) ∧
      ((s.pair c n).hi.holdTo = some t →
        exec (.minPulseExpiry c n) s = .next (((s.at t).openWindows c n false false t).swOff c n false t)) ∧
      ((s.pair c n).hi.holdTo = none → (s.pair c n).lo.holdTo = some t →
        exec (.minPulseExpiry c n) s = .next (((s.at t).openWindows c n true false t).swOff c n true t))
  )

/-- R275, R281, R284: the two switches of a pair are never on together: where that holds and a switch that waits to turn on has
its partner off, a change of the reference, turning off, tripping, returning and the end of a dead time or of a held pulse keep both so. -/
def Obligations.NoShootThrough : Prop :=
  ∀ (s s' : State) (c n : Nat) (t : Time) (b low : Bool), n < (s.car c).pairs.length → (s.pair c n).safe = true →
    (s' = s.swRelease c n low t ∨ s' = s.setRef c n b t ∨ s' = s.bothOff c n t b ∨
      s' = s.pairTrip c n t ∨ s' = s.pairUntrip c n t ∨ s' = deadTimeExpiry s c n ∨ s' = minPulseExpiry s c n) →
    (s'.pair c n).safe = true

/-- R278 to R285, R512, R566: a trip's input enters its filter; an accepted level enters the history and the log, and an active one
fires the trip at once outside a window and waits inside one, an inactive one ends a wait, counted; a level that a write made active
fires it after the filter delay; the end of a window, or a write that makes the trip unblankable, fires what waits; a clear unlatches
an inactive trip and is refused for an active one; a check that fails fails the routed pins once and is recorded. -/
def Obligations.TripEvents : Prop :=
  ∀ (s : State) (port : Port) (j : Nat) (x : TripSt) (stamp g t d : Time) (level : Bool) (v : Word) (u : State), x = s.trip j →
    s.dieActs (j / 8) = true → d = nsT (s.tripDelay j) →
    u = ((s.at t).setTrip j { x with filt := ⟨x.filt.raw, x.filt.since, x.filt.raw⟩,
                                     hist := (x.filt.since, x.filt.raw) :: x.hist, owed := none }).log
      (j / 8) 0x05 0 j x.filt.since [if x.filt.raw then 1 else 0] →
    (x.owed = none → level = !x.filt.raw → x.filt.stable (s.tripDelay j * 64) stamp = false →
      exec (.tripInputEdge j stamp level) s = .next ((s.at stamp).setTrip j { x with filt := ⟨level, stamp, x.filt.out⟩ })) ∧
    (x.owed = none → x.filt.raw ≠ x.filt.out → t = x.filt.since + d →
      (x.filt.raw ≠ s.tripActive j → x.waits = none →
        exec (.tripFilterAccept j) s = .next (u.modTrip j (fun y => { y with waits := none, owed := none }))) ∧
      (x.filt.raw ≠ s.tripActive j → x.waits ≠ none → exec (.tripFilterAccept j) s =
        .next ((u.modTrip j (fun y => { y with waits := none, owed := none })).bump F.TRIP_BLANKED_COUNT_count (tripIx j))) ∧
      (x.filt.raw = s.tripActive j → x.latched = true → exec (.tripFilterAccept j) s = .next u) ∧
      (x.filt.raw = s.tripActive j → x.latched = false → s.blankOpen j t = false →
        exec (.tripFilterAccept j) s = .next (u.tripFire j t false)) ∧
      (x.filt.raw = s.tripActive j → x.latched = false → s.blankOpen j t = true →
        exec (.tripFilterAccept j) s = .next (u.modTrip j (fun y => { y with waits := some t })))) ∧
    (x.owed = some t → x.filt.raw = x.filt.out → x.latched = false → s.blankOpen j (t + d) = false →
      exec (.tripFilterAccept j) s = .next (((s.at (t + d)).setTrip j { x with owed := none }).tripFire j (t + d) false)) ∧
    (x.blankEnd = some t → x.waits ≠ none → x.latched = false →
      exec (.blankWindowEnd j) s = .next (((s.at t).setTrip j { x with wins := [] }).tripFire j t true)) ∧
    (x.blankEnd = some t → x.waits = none → exec (.blankWindowEnd j) s = .next ((s.at t).setTrip j { x with wins := [] })) ∧
    (∀ e rest, x.fx = e :: rest → x.latched = true → x.levelAt e.stamp = s.tripActive j → exec (.tripClearApply j) s =
      .next ((((s.at e.stamp).setTrip j { x with fx := rest }).setBit F.TRIP_STATUS_clear_refused (tripIx j) true).bump
        F.TRIP_REFUSE_COUNT_count (tripIx j))) ∧
    (∀ e rest, x.fx = e :: rest → x.latched = true → x.levelAt e.stamp ≠ s.tripActive j → exec (.tripClearApply j) s =
      .next (((s.at e.stamp).setTrip j { x with fx := rest }).setLatch j e.stamp false)) ∧
    (s.Opens port (.TRIP_CMD, tripIx j) → s.unitRuns 2 j = false → x.latched = true → x.filt.out ≠ s.tripActive j →
      exec (.tripCmdClear port j) s = .next (s.wrote (.TRIP_CMD, tripIx j) (s.setLatch j s.now false))) ∧
    (s.Opens port (.TRIP_CMD, tripIx j) → s.unitRuns 2 j = false → x.latched = true → x.filt.out = s.tripActive j →
      exec (.tripCmdClear port j) s = .next (s.wrote (.TRIP_CMD, tripIx j)
        ((s.setBit F.TRIP_STATUS_clear_refused (tripIx j) true).bump F.TRIP_REFUSE_COUNT_count (tripIx j)))) ∧
    (∀ w y, (s.at g).Opens port (.TRIP_CTRL, tripIx j) → s.unitRuns 2 j = false →
      w = (s.at g).plainWrite .TRIP_CTRL (tripIx j) v → y = w.tripActive j →
      ((y = s.tripActive j ∧ (x.waits = none ∨ x.filt.out ≠ y ∨ w.bit F.TRIP_CTRL_unblankable (tripIx j) = false)) →
        exec (.tripCtrlWrite port j v g) s = .next ((s.at g).wrote (.TRIP_CTRL, tripIx j) w)) ∧
      ((y = s.tripActive j ∧ x.waits ≠ none ∧ x.filt.out = y ∧ w.bit F.TRIP_CTRL_unblankable (tripIx j) = true) →
        exec (.tripCtrlWrite port j v g) s = .next ((s.at g).wrote (.TRIP_CTRL, tripIx j) (w.tripFire j w.now true))) ∧
      ((y ≠ s.tripActive j ∧ x.filt.out = y) → exec (.tripCtrlWrite port j v g) s = .next ((s.at g).wrote (.TRIP_CTRL, tripIx j)
        ((w.setTrip j { x with hist := (w.now, x.filt.out) :: x.hist, owed := some w.now }).log
          (j / 8) 0x05 0 j w.now [if x.filt.out then 1 else 0])))) ∧
    (∀ w f, f = s.fld F.DIE_TRIPCHK_failed (dieIx (j / 8)) →
      w = (s.at g).setFld F.DIE_TRIPCHK_failed (dieIx (j / 8)) (if f.testBit (j % 8) then f - 2 ^ (j % 8) else f) →
      exec (.tripCheck j true true g) s = .next (w.setFld F.DIE_TRIPCHK_checked (dieIx (j / 8))
        (if (w.fld F.DIE_TRIPCHK_checked (dieIx (j / 8))).testBit (j % 8) then w.fld F.DIE_TRIPCHK_checked (dieIx (j / 8))
          else w.fld F.DIE_TRIPCHK_checked (dieIx (j / 8)) + 2 ^ (j % 8)))) ∧
    (∀ w f fo co, f = s.fld F.DIE_TRIPCHK_failed (dieIx (j / 8)) → (fo && co) = false → f.testBit (j % 8) = false →
      w = (s.at g).setFld F.DIE_TRIPCHK_failed (dieIx (j / 8)) (f + 2 ^ (j % 8)) →
      exec (.tripCheck j fo co g) s = .next ((((w.routedPins j).foldl (fun s p => s.failPin p) w).bump F.FLT_UNIT_COUNT_other
        pkg).faultRec (j / 8) (0x0A38 + j / 8) 0x3D g (leBytes j 2 ++ [if fo then 1 else 0])))

/-- R300, R305 to R308, R339: outside the serial modes an edge at a ball enters the filter, and pass-through repeats it after 16 ns; the
level that waits at ball A is accepted first; the next accepted edge of a counting interface forms its counting event by the mode's
rule, two edges of quadrature with one stamp form none and are counted as an error, and an edge too soon after the one before is
discarded as too fast.
R310 to R312: an edge of U, V or W with a stamp of its own forms a change of code: an invalid code is counted and nothing moves;
the first valid one gives the position; one to a neighbouring sector counts one step, one further counts as many and as a skip. -/
def Obligations.FeedbackEdges : Prop :=
  (
    ∀ (s : State) (n : Nat) (x : FbSt) (e : FbIn) (rest : List FbIn), x = s.fb n → s.dieActs (n / 8) = true →
      (∀ l i stamp level y out pin, ((l = .a ∧ i = 0 ∧ out = F.FB_OUT_CTRL_pt_a ∧ pin = F.FB_PT_PINS_pin_a) ∨
          (l = .b ∧ i = 1 ∧ out = F.FB_OUT_CTRL_pt_b ∧ pin = F.FB_PT_PINS_pin_b) ∨
          (l = .z ∧ i = 2 ∧ out = F.FB_OUT_CTRL_pt_z ∧ pin = F.FB_PT_PINS_pin_z)) →
        s.fbSerial n = false → (x.line i).filt.raw = (x.line i).filt.out → level = !(x.line i).filt.raw →
        y = (s.at stamp).setFb n (x.setLine i { x.line i with filt := ⟨level, stamp, (x.line i).filt.out⟩ }) →
        exec (.fbInputEdge n l stamp level) s = .next
          (if s.bit out (fbIx n) then y.pushEdge (64 * (n / 8) + s.fld pin (fbIx n)) (stamp + nsT 16) level else y)) ∧
      ((s.fbMode n = 1 ∨ s.fbMode n = 2) → x.inbox = [] → x.a.filt.raw ≠ x.a.filt.out → x.b.filt.raw = x.b.filt.out →
        ((s.ballAccept n 0).fb n).inbox = [⟨x.a.filt.since, 0, x.a.filt.raw⟩] ∧
        exec (.fbCountEdge n) s = exec (.fbCountEdge n) (s.ballAccept n 0)) ∧
      ((∀ c ∈ s.countSrcs n, (s.srcFilt c).waits = false) → x.inbox = e :: rest →
        (∀ y step, s.fbMode n = 1 → (∀ i ∈ rest, i.line ≤ 1 → i.stamp ≠ e.stamp) → x.tooFast e.stamp = false →
          ((e.line = 0 ∧ e.level ≠ x.qa ∧ y = { x with inbox := rest, qa := e.level, lastEdge := some e.stamp } ∧
              step = (if e.level ≠ x.qb then (1 : Int) else -1)) ∨
            (e.line = 1 ∧ e.level ≠ x.qb ∧ y = { x with inbox := rest, qb := e.level, lastEdge := some e.stamp } ∧
              step = (if e.level = x.qa then (1 : Int) else -1))) →
          exec (.fbCountEdge n) s = .next ((s.setFb n y).fbStep n e.stamp e.stamp
            (if s.bit F.FB_CTRL_dir_invert (fbIx n) then -step else step) true)) ∧
        (∀ o more, s.fbMode n = 1 → rest = o :: more → e.line = 0 → o.line = 1 → o.stamp = e.stamp →
          (∀ i ∈ more, i.line ≤ 1 → i.stamp ≠ e.stamp) → x.tooFast e.stamp = false → exec (.fbCountEdge n) s =
            .next ((s.setFb n { x with inbox := more, qa := e.level, qb := o.level, lastEdge := some e.stamp }).bump
              F.FB_ERR_COUNT_0_quad_err (fbIx n))) ∧
        (∀ l, s.fbMode n = 1 ∨ s.fbMode n = 2 → (∀ i ∈ rest, i.line ≤ 1 → i.stamp ≠ e.stamp) → e.line = 0 → x.lastEdge = some l →
          before e.stamp (l + nsT 25) = true →
          exec (.fbCountEdge n) s = .next ((s.setFb n { x with inbox := rest, lastEdge := some e.stamp }).overspeed n)) ∧
        (∀ step : Int, s.fbMode n = 2 → x.tooFast e.stamp = false → e.line = 0 → e.level = true → step = (if x.qb then 1 else -1) →
          exec (.fbCountEdge n) s = .next ((s.setFb n { x with inbox := rest, qa := true, lastEdge := some e.stamp }).fbStep n
            e.stamp e.stamp (if s.bit F.FB_CTRL_dir_invert (fbIx n) then -step else step) true)) ∧
        (s.fbMode n = 2 → x.tooFast e.stamp = false → e.line = 0 → e.level = false →
          exec (.fbCountEdge n) s = .next (s.setFb n { x with inbox := rest, qa := false, lastEdge := some e.stamp })) ∧
        (s.fbMode n = 2 → e.line = 1 →
          exec (.fbCountEdge n) s = .next (s.setFb n { x with inbox := rest, qb := e.level })))
  ) ∧ (
    ∀ (s u : State) (n : Nat) (x y : FbSt) (e : FbIn) (rest : List FbIn), x = s.fb n → s.dieActs (n / 8) = true → s.fbMode n = 3 →
      (∀ c ∈ s.countSrcs n, (s.srcFilt c).waits = false) → x.inbox = e :: rest → (∀ i ∈ rest, i.stamp ≠ e.stamp) →
      ((e.line = 0 ∧ y = { x with inbox := rest, qa := e.level }) ∨ (e.line = 3 ∧ y = { x with inbox := rest, hv := e.level }) ∨
        (e.line = 4 ∧ y = { x with inbox := rest, hw := e.level })) →
      ((y.hall = 0 ∨ y.hall = 7) → exec (.commCodeChange n) s = .next
        (((s.setFb n y).setBit F.FB_STATUS_comm_invalid (fbIx n) true).bump F.FB_ERR_COUNT_2_comm_invalid (fbIx n))) ∧
      (∀ q, y.hall ≠ 0 → y.hall ≠ 7 → s.sectorOf n y.hall = some q →
        u = ((s.setFb n y).setBit F.FB_STATUS_comm_invalid (fbIx n) false).setFb n { y with sector := some q } →
        (x.sector = none → exec (.commCodeChange n) s =
          .next ((u.setFld F.FB_COMM_STATE_sector (fbIx n) q).fbFirst n e.stamp e.stamp q)) ∧
        (∀ o, x.sector = some o → ((q : Int) - o) % 6 = 0 →
          exec (.commCodeChange n) s = .next (u.setFld F.FB_COMM_STATE_sector (fbIx n) q)) ∧
        (∀ (o : Nat) (step : Int), x.sector = some o →
          ((((q : Int) - o) % 6 = 1 ∧ step = 1) ∨ (((q : Int) - o) % 6 = 5 ∧ step = -1)) →
          exec (.commCodeChange n) s = .next ((u.setFld F.FB_COMM_STATE_sector (fbIx n) q).fbStep n e.stamp e.stamp
            (if s.bit F.FB_CTRL_dir_invert (fbIx n) then -step else step) true)) ∧
        (∀ (o : Nat) (step : Int), x.sector = some o →
          ((((q : Int) - o) % 6 = 2 ∧ step = 2) ∨ (((q : Int) - o) % 6 = 3 ∧ step = 3) ∨ (((q : Int) - o) % 6 = 4 ∧ step = -2)) →
          exec (.commCodeChange n) s = .next (((u.setFld F.FB_COMM_STATE_sector (fbIx n) q).bump
            F.FB_ERR_COUNT_2_comm_skip (fbIx n)).fbStep n e.stamp e.stamp
            (if s.bit F.FB_CTRL_dir_invert (fbIx n) then -step else step) true)))
  )

/-- R301, R326, R333: a counting event moves the position by its step, modulo 2^48, and enters the history newest first; it touches
no other interface, and without a compare no task and no memory.
R328, R329: the first qualified index edge with ref set makes the position there FB_IDX_VALUE and the interface referenced; any
other is compared with the expected value modulo the counts of a turn: one that agrees clears the mismatch, one that does not is a
mismatch, or within the tolerance corrected by a step back. -/
def Obligations.PositionChanges : Prop :=
  (
    ∀ (s t : State) (n : Nat) (at' vis : Time) (step : Int), t = s.fbStep n at' vis step true →
      (t.fb n).pos = wrap48 ((s.fb n).pos + step) ∧
      (t.fb n).evs = ⟨at', vis, wrap48 ((s.fb n).pos + step), step, true⟩ :: (s.fb n).evs ∧
      (t.fb n).idx = (s.fb n).idx ∧ (∀ m, m ≠ n → t.fb m = s.fb m) ∧
      ((s.fb n).cmp = none → t.tasks = s.tasks ∧ t.dieMem = s.dieMem)
  ) ∧ (
    ∀ (s : State) (n : Nat) (t : Time) (pz v d : Int) (cpr : Nat), pz = (s.fb n).posAt t →
      v = s.reg48 .FB_IDX_VALUE_LO .FB_IDX_VALUE_HI (fbIx n) → cpr = s.fld F.FB_CPR_cpr (fbIx n) → 0 < cpr → d = idxDev pz v cpr →
      (s.bit F.FB_IDX_CFG_ref (fbIx n) = true → (s.fb n).idx = [] →
        ((s.fbIndex n t).fb n).pos = wrap48 ((s.fb n).pos + (v - pz)) ∧
        (s.fbIndex n t).bit F.FB_STATUS_referenced (fbIx n) = true ∧
        ∃ bad, ((s.fbIndex n t).fb n).idx = [⟨t, pz, 0, bad⟩]) ∧
      (s.bit F.FB_IDX_CFG_ref (fbIx n) = false ∨ (s.fb n).idx ≠ [] →
        (d - (pz - v)) % cpr = 0 ∧ -(cpr : Int) < 2 * d ∧ 2 * d ≤ cpr ∧
        (d ≠ 0 → (s.fld F.FB_IDX_CFG_idx_mode (fbIx n) ≠ 2 ∨ s.fld F.FB_IDX_CFG_idx_tol (fbIx n) < d.natAbs) →
          ((s.fbIndex n t).fb n).pos = (s.fb n).pos ∧ ((s.fbIndex n t).fb n).idx = ⟨t, pz, d, true⟩ :: (s.fb n).idx ∧
          ((s.fbIndex n t).fb n).evs = (s.fb n).evs ∧ (s.fbIndex n t).bit F.FB_STATUS_idx_mismatch (fbIx n) = true) ∧
        (d ≠ 0 → s.fld F.FB_IDX_CFG_idx_mode (fbIx n) = 2 → d.natAbs ≤ s.fld F.FB_IDX_CFG_idx_tol (fbIx n) →
          ((s.fbIndex n t).fb n).pos = wrap48 ((s.fb n).pos - d) ∧
          ((s.fbIndex n t).fb n).idx = ⟨t, pz, d, false⟩ :: (s.fb n).idx) ∧
        (d = 0 → ((s.fbIndex n t).fb n).pos = (s.fb n).pos ∧ ((s.fbIndex n t).fb n).idx = ⟨t, pz, 0, false⟩ :: (s.fb n).idx ∧
          (s.fbIndex n t).bit F.FB_STATUS_idx_mismatch (fbIx n) = false))
  )

/-- R327, R335 to R337, R324: with nothing else waiting at the interface, a Z edge of the chosen kind and direction is a qualified index
edge, any other is none; a probe edge of the chosen kind latches the position as of its stamp, in one-shot mode only while armed, which
it ends; an arm is logged and holds from 320 ns after it applies; the standstill time brings the speed bits up to date.
R313 to R316, R320: a serial frame starts at the next multiple of its period, with a falling clock edge; once visible, its bits are
those of its samples, and one with a right CRC, no late sample and a start enters the frames as good; any other is counted as failed
(the bits it lacks are free values: log entry 100). -/
def Obligations.FeedbackEvents : Prop :=
  (
    ∀ (s : State) (port : Port) (n : Nat) (g : Time) (x y : FbSt) (e : FbIn), x = s.fb n → y = { x with inbox := [] } →
      s.dieActs (n / 8) = true →
      ((∀ c ∈ FbSrc.ball n 2 :: s.countSrcs n, (s.srcFilt c).waits = false) → x.inbox = [e] →
        ((s.fbMode n = 1 ∨ s.fbMode n = 2) → e.line = 2 → ∀ ok : Bool,
          ok = (match s.fld F.FB_IDX_CFG_idx_dir (fbIx n), x.dirAt e.stamp with
            | 0, _ => true | 1, some fwd => fwd | 2, some fwd => !fwd | _, _ => false) →
          exec (.fbIndexEdge n) s = .next (if e.level ≠ s.bit F.FB_IDX_CFG_z_edge (fbIx n) ∧ ok = true then
            (s.setFb n y).fbIndex n e.stamp else s.setFb n y)) ∧
        (∀ taken one : Bool, e.line = 5 → one = s.bit F.FB_PROBE_CTRL_one_shot (fbIx n) →
          taken = (s.fld F.FB_PROBE_CTRL_edge (fbIx n) == 2 ||
            (if e.level then s.fld F.FB_PROBE_CTRL_edge (fbIx n) == 0 else s.fld F.FB_PROBE_CTRL_edge (fbIx n) == 1)) →
          (∀ p, p = x.posAt e.stamp → taken = true → (one = false ∨ ∃ a, x.arm = some a ∧ before a e.stamp = true) →
            exec (.fbProbeEdge n) s = .next
            (((((s.setFb n { y with probes := (e.stamp, p) :: x.probes, arm := if one then none else x.arm }).setReg64
              .FB_PROBE_POS_LO .FB_PROBE_POS_HI (fbIx n) (count64 p)).setReg64 .FB_PROBE_STAMP_LO .FB_PROBE_STAMP_HI (fbIx n)
                e.stamp).setBit F.FB_PROBE_STATUS_latched (fbIx n) true))) ∧
          ((taken = false ∨ (one = true ∧ ∀ a, x.arm = some a → before a e.stamp = false)) →
            exec (.fbProbeEdge n) s = .next (s.setFb n y)))) ∧
      (∀ a, (s.at g).Opens port (.FB_PROBE_CMD, fbIx n) → s.unitRuns 4 n = false → a = (s.at g).now + picots 20480 →
        exec (.probeArm port n g) s = .next ((s.at g).wrote (.FB_PROBE_CMD, fbIx n)
          (((s.at g).setFb n { x with arm := some a }).log (n / 8) 0x0A 0 n a []))) ∧
      (∀ v, x.evs.find? (fun e => e.counts) = some v → exec (.fbStandstill n) s =
        .next ((s.at (v.stamp + picots (s.fbTimeout n))).fbSpeedBits n (v.stamp + picots (s.fbTimeout n))))
  ) ∧ (
    ∀ (s : State) (n : Nat) (x : FbSt) (per : Nat), x = s.fb n → s.dieActs (n / 8) = true → s.fbSerial n = true →
      per = ns (s.fld F.FB_SER_PERIOD_period_ns (fbIx n)) →
      (∀ l t, x.lastStart = some l → t = BitVec.ofNat 64 ((l.toNat / per + 1) * per) → exec (.serialFrameStart n) s =
        .next (((s.at t).setFb n { x with lastStart := some t, serQ := x.serQ ++ [t] }).fbRaw n 0 t false)) ∧
      (∀ (start t vis : Time) (rest : List Time) (crossed measured late : Bool) (asked came : Time) (ld line : Nat) (u : State)
          (f : BitVec 64 → State → Bool → State), x.serQ = start :: rest → ld = (came - asked).toNat → line = ns (s.fld F.FB_SER_TIMING_line_delay_ns (fbIx n)) → t = start + picots (line / 2) →
        vis = t + picots (s.frameTime n) → u = (s.at vis).setFb n { x with serQ := rest } →
        late = (crossed || (u.sampleAt n start vis (u.lastSample n start vis)).isNone) →
        (∀ b w bad, f b w bad =
          (let w := (w.setReg64 .FB_SER_RAW_LO .FB_SER_RAW_HI (fbIx n) b).log (n / 8) 0x03
              ((if bad then 1 else 0) + (if late then 2 else 0)) n t [loHalf b, hiHalf b]
           let w := if s.fbMode n = 5 then
               (if measured then w.setReg .FB_SER_LD_MEAS (fbIx n) (BitVec.ofNat 32 (min (ld / 64) 0xFFFF)) else w).setBit
                 F.FB_STATUS_ld_warn (fbIx n) (measured && decide (s.serPeriod n < 4 * ((ld : Int) - line).natAbs))
             else w
           w.modFb n (fun y => { y with frames := ⟨t, vis, !bad && !late⟩ :: y.frames }))) →
        ((u.firstBit n start vis).isSome = true → late = false → ∀ b, b = BitVec.ofNat 64 (u.frameBits n start vis 0) →
          (s.frameCrcOk n b.toNat = true →
            exec (.serialFrameVisible n crossed measured asked came) s = .next ((f b u false).frameGood n b.toNat t vis)) ∧
          (s.frameCrcOk n b.toNat = false →
            exec (.serialFrameVisible n crossed measured asked came) s = .next ((f b u true).frameBad n false t))) ∧
        ((u.firstBit n start vis = none ∨ late = true) → ∃ b bad,
          exec (.serialFrameVisible n crossed measured asked came) s = .next ((f b { u with freeCount := u.freeCount + 2 } bad).frameBad n late t)))
  )

/-- R331 to R333: an arm takes the compare at its stamp, from another task too; where its position has passed values of the spacing
already, they are skipped as misses; a disarm of the task that holds it ends it, and one of another task leaves it.
R297, R298, R309, R345, R347: a write of FB_CTRL to an interface that a running task declares is rejected; one to a donor, one that
takes the tooth wheel of an enabled hoop, or one whose configuration would not hold together leaves the configuration and sets
cfg_reject; one that changes the mode resets the interface, after the levels that have stood long enough are accepted. -/
def Obligations.CompareAndModeWrites : Prop :=
  (
    ∀ (s : State) (n : Nat) (x : FbSt) (e : Eff) (rest : List Eff), x = s.fb n → s.dieActs (n / 8) = true → x.fx = e :: rest →
      (∀ pos sp pin slot ahead passed notes, e.kind = .fbArm n pos sp pin slot → ahead = wrap48 (x.posAt e.stamp - pos) →
        ((0 < sp ∧ 0 ≤ ahead ∧ passed = (ahead / sp).toNat + 1) ∨ (sp < 0 ∧ ahead ≤ 0 ∧ passed = ((-ahead) / (-sp)).toNat + 1) ∨
          ((sp = 0 ∨ (0 < sp ∧ ahead < 0) ∨ (sp < 0 ∧ 0 < ahead)) ∧ passed = 0)) →
        notes = (match x.cmp with
          | some c => if c.task = e.task then x.notes else .ended c.task c.armAt e.stamp :: x.notes
          | none => x.notes) →
        exec (.fbCompareArmApply n) s = .next
          ((((s.at e.stamp).setFb n { x with
            fx := rest, notes := notes,
            cmp := some ⟨e.stamp, wrap48 (pos + sp * passed), sp, pin, e.task, e.run, slot⟩ }).cmpRegs n).cmpMiss n passed)) ∧
      (∀ c m, e.kind = .fbDisarm m → x.cmp = some c →
        (c.task = e.task → exec (.fbCompareDisarmApply n) s =
          .next (((s.at e.stamp).setFb n { x with fx := rest, cmp := none }).cmpRegs n)) ∧
        (c.task ≠ e.task → exec (.fbCompareDisarmApply n) s = .next ((s.at e.stamp).setFb n { x with fx := rest })))
  ) ∧ (
    ∀ (s s' w u : State) (port : Port) (n : Nat) (v : Word) (g : Time) (wheel : Bool), s' = s.at g →
      s'.Opens port (.FB_CTRL, fbIx n) → w = (if v.toNat % 8 ≠ s'.fbMode n then s'.acceptDue n else s') →
      u = w.plainWrite .FB_CTRL (fbIx n) v →
      wheel = (u.fbMode n != 0 && (List.range 4).any (fun i => w.bit F.HOOP_CTRL_en (hoopIx (4 * (n / 8) + i)) &&
        w.fld F.HOOP_CTRL_src (hoopIx (4 * (n / 8) + i)) == 1 && w.fld F.HOOP_SRC_index (hoopIx (4 * (n / 8) + i)) % 8 == n % 8)) →
      (s.unitRuns 4 n = true → exec (.fbModeWrite port n v g) s =
        .next (s'.wrote (.FB_CTRL, fbIx n) (s'.setBit F.FB_STATUS_write_reject (fbIx n) true))) ∧
      (s.unitRuns 4 n = false →
        (w.isDonor n = true ∨ wheel = true ∨ ∃ m < 8, u.fbCfgOk (8 * (n / 8) + m) = false) → exec (.fbModeWrite port n v g) s =
        .next (s'.wrote (.FB_CTRL, fbIx n) (w.setBit F.FB_STATUS_cfg_reject (fbIx n) true))) ∧
      (s.unitRuns 4 n = false → w.isDonor n = false → wheel = false → (∀ m < 8, u.fbCfgOk (8 * (n / 8) + m) = true) →
        exec (.fbModeWrite port n v g) s = .next (s'.wrote (.FB_CTRL, fbIx n)
          (if (u.fbTakePins w n).fbMode n = w.fbMode n then u.fbTakePins w n
            else ((u.fbTakePins w n).fbReset n w.now).fbSourceFails n w.now)))
  )

/-- R349, R350, R352, R353, R357, R358, R371, R372, R374: a tooth of a hoop that acts, with nothing before it at the hoop, is logged with
its width. In SYNC a good one takes the next slot and refreshes the events, one too early is noise, the second bad one in a row or a failed
reference check loses sync, and one backward reverses. In SEARCH and LOST the reference starts a revolution, and the third tooth or a later
one with the slots known reaches SYNC. In STALL and REVERSE the slots count on, and the third forward tooth in a row returns to SYNC. A
tooth that is not the hoop's first happening waits.
R350, R356, R358, R365, R371, R374: an index edge is remembered for the next tooth; a tooth missing 1.5 × Pn after the latest point is
made up at Pn, counted, and carried by the events in progress, and the second bad one in a row loses sync; stall_us after the latest point
the hoop stalls, and coast_ms after COAST began it falls back. What another happening comes before waits.
R363 to R365, R371, R372: a virtual tooth or sample of src 2 to 4 where the latest point lies is no point; one that moves is a point,
in SYNC with a refresh; one below the latest reverses in SYNC and STALL; the third forward one in a row ends SEARCH, LOST, STALL and
REVERSE; COAST and FALLBACK take none.
R351, R358, R365, R371, R372: a loss of sync, a reversal, a stall and a fallback enter their state at their instant, with the
state history newest first; the points stay, the run of bad teeth is over, and no other hoop and no die memory changes. -/
def Obligations.HoopTeeth : Prop :=
  (
    ∀ (s u v : State) (h : Nat) (x : HoopSt) (i : HoopIn) (rest : List HoopIn), s.hoopActs h = true → (s.hoop h).inbox = i :: rest →
      i.pos = none →
      u = ((((s.at i.tt).modHoop h (fun x => { x with inbox := rest })).log (h / 4) 0x04 0 h i.stamp [BitVec.ofNat 32 i.width]).setBit
        F.HOOP_STATUS_dir (hoopIx h) i.back) → v = u.noSynthetic h → x = u.hoop h →
      (s.hoopWaits h 1 i.tt = true → exec (.hoopTooth h) s = .next s) ∧
      (s.hoopWaits h 1 i.tt = false →
        (∀ k p pts, x.st = 2 → x.slot = some k → x.pts = p :: pts →
          (i.back = false → (∀ pn, u.hoopJudges h = some pn → pn ≤ 2 * dist i.stamp p.t) →
            (k + 1 < v.hoopReal h → exec (.hoopTooth h) s = .next
              (((v.modHoop h (fun y => { y with bad := 0 })).placeTooth h (k + 1) x.rev i).refreshAll h)) ∧
            (v.hoopReal h ≤ k + 1 → v.slot0Ok h i.stamp = true → exec (.hoopTooth h) s = .next
              (((v.modHoop h (fun y => { y with bad := 0 })).placeTooth h 0 (x.rev + 1) i).refreshAll h)) ∧
            (v.hoopReal h ≤ k + 1 → v.slot0Ok h i.stamp = false → exec (.hoopTooth h) s = .next
              ((v.modHoop h (fun y => { y with lastReal := i.stamp })).hoopLoss h 2 i.tt))) ∧
          (∀ pn, i.back = false → u.hoopJudges h = some pn → 2 * dist i.stamp p.t < pn →
            exec (.hoopTooth h) s = .next (if x.bad = 0 then
              (u.bump F.HOOP_BAD_COUNT_noise (hoopIx h)).modHoop h (fun y => { y with bad := 1 })
              else (u.bump F.HOOP_BAD_COUNT_noise (hoopIx h)).hoopLoss h 1 i.tt)) ∧
          (i.back = true →
            (∀ j, k = j + 1 → exec (.hoopTooth h) s = .next ((v.hoopReverse h i).placeTooth h j x.rev i)) ∧
            (k = 0 → exec (.hoopTooth h) s = .next
              ((v.hoopReverse h i).placeTooth h ((v.hoopReverse h i).hoopReal h - 1) (x.rev - 1) i)))) ∧
        ((x.st = 1 ∨ x.st = 5) → i.back = true → exec (.hoopTooth h) s = .next
          (v.setHoop h { x with slot := none, found := 0, lastEdges := [], usable := 0, idxSeen := false })) ∧
        (∀ w, (x.st = 1 ∨ x.st = 5) → i.back = false →
          w = v.setHoop h { x with found := x.found + 1, lastEdges := i.stamp :: x.lastEdges.take 1 } →
          (((s.bit F.HOOP_CTRL_ref (hoopIx h) = true ∧ x.idxSeen = true) ∨ (s.bit F.HOOP_CTRL_ref (hoopIx h) = false ∧
              ∃ e1 e0 l, x.lastEdges = e1 :: e0 :: l ∧ s.gapTest h (dist i.stamp e1) (dist e1 e0) = true)) →
            exec (.hoopTooth h) s = .next
              ((w.modHoop h (fun y => { y with usable := 0 })).placeTooth h 0 (if x.slot.isSome then x.rev else x.rev + 1) i)) ∧
          (((s.bit F.HOOP_CTRL_ref (hoopIx h) = true ∧ x.idxSeen = false) ∨ (s.bit F.HOOP_CTRL_ref (hoopIx h) = false ∧
              ∀ e1 e0 l, x.lastEdges = e1 :: e0 :: l → s.gapTest h (dist i.stamp e1) (dist e1 e0) = false)) →
            (x.slot = none → exec (.hoopTooth h) s = .next
              (w.modHoop h (fun y => { y with idxSeen := false, lastReal := i.stamp }))) ∧
            (∀ k, x.slot = some k → k + 1 < w.hoopReal h →
              exec (.hoopTooth h) s = .next (if 2 ≤ x.found then (w.placeTooth h (k + 1) x.rev i).hoopSync h false
                else w.placeTooth h (k + 1) x.rev i)) ∧
            (∀ k, x.slot = some k → w.hoopReal h ≤ k + 1 → exec (.hoopTooth h) s = .next (w.placeTooth h 0 (x.rev + 1) i)))) ∧
        (∀ k, (x.st = 3 ∨ x.st = 4) → x.slot = some k →
          (∀ w, i.back = false → w = v.modHoop h (fun y => { y with fwd := x.fwd + 1 }) →
            (∀ k' rev, ((k + 1 < v.hoopReal h ∧ k' = k + 1 ∧ rev = x.rev) ∨ (v.hoopReal h ≤ k + 1 ∧ k' = 0 ∧ rev = x.rev + 1)) →
              (x.fwd = 2 → exec (.hoopTooth h) s = .next ((w.placeTooth h k' rev i).hoopSync h (x.st == 3))) ∧
              (x.fwd ≠ 2 → exec (.hoopTooth h) s = .next (w.placeTooth h k' rev i)))) ∧
          (∀ w, i.back = true →
            ((x.st = 3 ∧ w = v.hoopReverse h i) ∨ (x.st = 4 ∧ w = v.modHoop h (fun y => { y with fwd := 0 }))) →
            (∀ j, k = j + 1 → exec (.hoopTooth h) s = .next (w.placeTooth h j x.rev i)) ∧
            (k = 0 → exec (.hoopTooth h) s = .next (w.placeTooth h (w.hoopReal h - 1) (x.rev - 1) i)))))
  ) ∧ (
    ∀ (s u : State) (h : Nat) (x : HoopSt), x = s.hoop h → s.hoopActs h = true →
      (∀ e r, x.idxIn = e :: r → exec (.hoopIndexEdge h) s =
        .next ((s.at e.2).setHoop h { x with idxIn := r, idxSeen := true })) ∧
      (∀ p pts pn k k' rev e, x.st = 2 → s.hoopSrc h < 2 → x.pts = p :: pts → s.hoopJudges h = some pn → x.slot = some k →
        e = p.t + picotsI (3 * pn / 2) → (∀ i ∈ x.inbox, before i.stamp e = false) →
        ((k + 1 < s.hoopReal h ∧ k' = k + 1 ∧ rev = x.rev) ∨ (s.hoopReal h ≤ k + 1 ∧ k' = 0 ∧ rev = x.rev + 1)) →
        u = (((((s.at e).bump F.HOOP_BAD_COUNT_synthetic (hoopIx h)).setBit F.HOOP_STATUS_synthetic (hoopIx h) true).setHoop h
          { x with evs := x.evs.foldl (fun l v => if v.2.active e then nmPut l v.1 { v.2 with sticky := true } else l) x.evs,
                   slot := some k', rev := rev, idxSeen := false,
                   idxStray := if k' = 0 then false else x.idxStray || x.idxSeen }).addPoint h
            (slotAngle (s.hoopTeeth h) rev k') (p.t + picotsI pn) e true false k' 0) →
        (s.hoopWaits h 2 e = true → exec (.hoopMissingTooth h) s = .next s) ∧
        (s.hoopWaits h 2 e = false → x.bad = 0 →
          exec (.hoopMissingTooth h) s = .next ((u.refreshAll h).modHoop h (fun y => { y with bad := 1 }))) ∧
        (s.hoopWaits h 2 e = false → x.bad ≠ 0 → exec (.hoopMissingTooth h) s = .next (u.hoopLoss h 1 e))) ∧
      (∀ p pts e, (x.st = 2 ∨ x.st = 6) → x.pts = p :: pts → e = p.t + nsT (s.fld F.HOOP_STALL_stall_us (hoopIx h) * 1000) →
        exec (.hoopStall h) s = .next (if s.hoopWaits h 3 e then s else (s.at e).hoopStalls h e)) ∧
      (∀ e, x.coastEnd = some e → x.st = 6 → exec (.hoopCoastExpiry h) s = .next ((s.at e).hoopFallback h e))
  ) ∧ (
    ∀ (s u v : State) (h : Nat) (x : HoopSt) (i : HoopIn) (rest : List HoopIn) (a : Int) (p : HoopPt) (pts : List HoopPt) (back : Bool),
      s.hoopActs h = true → (s.hoop h).inbox = i :: rest → i.pos = some a → s.hoopWaits h 1 i.tt = false →
      u = (s.at i.tt).modHoop h (fun x => { x with inbox := rest }) → x = u.hoop h → x.pts = p :: pts → back = decide (a < p.a) →
      v = (u.setBit F.HOOP_STATUS_dir (hoopIx h) back).noSynthetic h →
      (a = p.a → exec (.hoopTooth h) s = .next u) ∧
      (a ≠ p.a → (x.st = 6 ∨ x.st = 7) → exec (.hoopTooth h) s = .next u) ∧
      (a ≠ p.a → x.st = 2 → back = false → exec (.hoopTooth h) s = .next
        (((v.modHoop h (fun y => { y with bad := 0 })).addPoint h a i.stamp i.tt false false 0 0).refreshAll h)) ∧
      (a ≠ p.a → (x.st = 2 ∨ x.st = 3) → back = true → exec (.hoopTooth h) s = .next
        ((v.hoopReverse h i).addPoint h a i.stamp i.tt false true 0 0)) ∧
      (a ≠ p.a → (x.st = 1 ∨ x.st = 5 ∨ x.st = 4 ∨ (x.st = 3 ∧ back = false)) → ∀ n w, n = (if back then 0 else x.fwd + 1) →
        w = (v.addPoint h a i.stamp i.tt false back 0 0).modHoop h (fun y => { y with fwd := n }) →
        exec (.hoopTooth h) s = .next (if n = 3 then w.hoopSync h (x.st == 3) else w))
  ) ∧ (
    ∀ (s t : State) (h st : Nat) (e : Time),
      ((∃ c, t = s.hoopLoss h c e ∧ st = 5) ∨ (∃ i, i.tt = e ∧ t = s.hoopReverse h i ∧ st = 4) ∨ (t = s.hoopStalls h e ∧ st = 3) ∨
        (t = s.hoopFallback h e ∧ st = 7)) →
      (t.hoop h).st = st ∧ (t.hoop h).states = (e, st) :: (s.hoop h).states ∧ (t.hoop h).pts = (s.hoop h).pts ∧
      (t.hoop h).bad = 0 ∧ t.dieMem = s.dieMem ∧ (∀ g, g ≠ h → t.hoop g = s.hoop g)
  )

/-- R182, R242, R366 to R368, R374: an HEVT effect takes its slot at its stamp: an event in progress there refuses it, and so does a pin
queue that is full without the slot's own entry, with the slot's pending event kept; else the old event goes, and in SYNC and COAST the
targets and stamps are fixed at once, in any other state not yet. What another happening comes before waits.
R367: the targets are the start angle, at least one turn unit and at most one turn beyond the angle the hoop has, and the end angle,
less than a turn beyond the start.
R183, R366, R369, R373, R374: an HCAN effect empties a slot with a pending event; one in progress ends at the stamp, but no earlier than
64 picots after its start, unless its end is locked already; an empty slot stays so; without a slot it does so for every slot of the task.
R162, R234, R242, R365, R366, R368, R374, R376: at its start stamp an event with an activation target activates its task, one with a
pin target leaves that to the pin's stitch; at its end stamp it leaves its slot, is counted where its time limit ended it, activates its
task again, writes its EVENT record unless HCAN ended it or evt_rec is 0, and in FALLBACK its pin takes its fallback. What another
happening comes before waits.
R346, R347, R363, R378, R379: a write of en = 1 to a hoop that is OFF and that no running task declares starts it in SEARCH, and one of
en = 0 puts it OFF with every slot emptied; a running task's hoop rejects either; a value out of range, or a source that is not right,
rejects the enabling, and a change of src, ref, dir_en or edge while en is 1 rejects either; HOOP_EVT_SEL takes a snapshot of the slot, all
zeros where it is empty. -/
def Obligations.HoopEvents : Prop :=
  (
    ∀ (s u w : State) (h g slot src : Nat) (e : Eff) (rest : List Eff) (desc : HoopDesc), s.dieActs (h / 4) = true →
      (s.hoop h).fx = e :: rest → e.kind = .hevt g slot desc src →
      u = (s.at e.stamp).modHoop h (fun x => { x with fx := rest }) →
      w = (u.dropEv h slot).setEv h slot
          { task := e.task, run := e.run, srcSlot := src, desc := desc, tgt := none, start := none, stop := none, fired := false,
            startSynth := false, endSynth := false, sticky := false, limited := false, forced := false, clamped := false,
            byHcan := false } →
      (s.hoopWaits h 4 e.stamp = true → exec (.hevtApply h) s = .next s) ∧
      (s.hoopWaits h 4 e.stamp = false →
        (∀ v, s.hoopEv h slot = some v → v.active e.stamp = true → exec (.hevtApply h) s = .next (u.hoopRefuse h slot 0 e.stamp)) ∧
        ((∀ v, s.hoopEv h slot = some v → v.active e.stamp = false) →
          (∀ p, desc.pin = some p → 32 ≤ u.pinDepth p - (match u.hoopEv h slot with | some v => b2n (v.desc.pin == some p) | none => 0) →
            exec (.hevtApply h) s = .next ((u.bump F.PIN_REFUSE_COUNT_count (pinIx p)).hoopRefuse h slot 1 e.stamp)) ∧
          ((∀ p, desc.pin = some p → u.pinDepth p - (match u.hoopEv h slot with | some v => b2n (v.desc.pin == some p) | none => 0) < 32) →
            ((w.hoop h).st ≠ 2 → (w.hoop h).st ≠ 6 → exec (.hevtApply h) s = .next w) ∧
            (∀ acc p pts, ((w.hoop h).st = 2 ∨ (w.hoop h).st = 6) → w.accAt h e.stamp = some acc → (w.hoop h).pts = p :: pts →
              exec (.hevtApply h) s = .next ((w.evTargets h slot acc).evStamps h slot e.stamp p.synth)))))
  ) ∧ (
    ∀ (s : State) (h slot : Nat) (acc : Int) (v : HoopEv), s.hoopEv h slot = some v → ∃ d w : Nat,
      0 < d ∧ d ≤ 2 ^ 32 ∧ BitVec.ofNat 32 d = v.desc.start - s.hoopAngle h acc ∧
      w < 2 ^ 32 ∧ BitVec.ofNat 32 w = v.desc.stop - v.desc.start ∧
      s.evTargets h slot acc = s.setEv h slot { v with tgt := some (acc + d, acc + d + w) }
  ) ∧ (
    ∀ (s u : State) (h g : Nat) (o : Option Nat) (e : Eff) (rest : List Eff), s.dieActs (h / 4) = true →
      (s.hoop h).fx = e :: rest → e.kind = .hcan g o → u = (s.at e.stamp).modHoop h (fun x => { x with fx := rest }) →
      (s.hoopWaits h 4 e.stamp = true → exec (.hcanApply h) s = .next s) ∧
      (s.hoopWaits h 4 e.stamp = false →
        (o = none → exec (.hcanApply h) s = .next ((s.hoop h).evs.foldl
          (fun s v => if v.2.task = e.task then s.cancelEv h v.1 e.stamp else s) u)) ∧
        (∀ slot, o = some slot →
          (s.hoopEv h slot = none → exec (.hcanApply h) s = .next u) ∧
          (∀ v, s.hoopEv h slot = some v →
            (v.active e.stamp = false → exec (.hcanApply h) s = .next (u.dropEv h slot)) ∧
            (∀ a, v.start = some a → v.active e.stamp = true →
              (∀ b, v.stop = some b → lockedAt b e.stamp = true → exec (.hcanApply h) s = .next u) ∧
              ((∀ b, v.stop = some b → lockedAt b e.stamp = false) → exec (.hcanApply h) s = .next
                ((u.setEv h slot { v with stop := some (later e.stamp (a + picots 64)), limited := false, byHcan := true }).evStitches
                  h slot))))))
  ) ∧ (
    ∀ (s : State) (h slot : Nat) (v : HoopEv) (a : Time), s.dieActs (h / 4) = true → s.hoopEv h slot = some v → v.start = some a →
      (s.hoopWaits h 5 a = true → exec (.hoopEventStart h slot) s = .next s) ∧
      (v.fired = false → s.hoopWaits h 5 a = false →
        (v.desc.pin = none → exec (.hoopEventStart h slot) s = .next
          (((s.at a).setEv h slot { v with fired := true }).activate v.task ⟨a, 6, v.srcSlot, slot, false, h, slot, 0, []⟩)) ∧
        (v.desc.pin.isSome = true → exec (.hoopEventStart h slot) s = .next ((s.at a).setEv h slot { v with fired := true }))) ∧
      (∀ b u w, v.stop = some b →
        u = (if v.limited then ((s.at b).modHoop h (fun x => { x with evs := nmDel x.evs slot })).bump F.HOOP_LIMIT_COUNT_time_limit
          (hoopIx h) else (s.at b).modHoop h (fun x => { x with evs := nmDel x.evs slot })) →
        w = (if v.desc.pin = none then u.activate v.task ⟨b, 6, v.srcSlot, slot, true, h, slot, 1, []⟩ else u) →
        (s.hoopWaits h 5 b = true → exec (.hoopEventEnd h slot) s = .next s) ∧
        (s.hoopWaits h 5 b = false → ∀ z, z = (if w.bit F.HOOP_CTRL_evt_rec (hoopIx h) = true ∧ v.byHcan = false then
            w.hoopRecord h 0x34 b ([BitVec.ofNat 8 slot, BitVec.ofNat 8 v.flags] ++ timeBytes a) else w) →
          exec (.hoopEventEnd h slot) s = .next
            (match v.desc.pin with
              | some p => if (z.hoop h).st = 7 then z.pinToFallback p v.task v.run else z
              | none => z)))
  ) ∧ (
    ∀ (s s' u : State) (port : Port) (h : Nat) (v : Word) (g : Time), s' = s.at g →
      (s'.Opens port (.HOOP_CTRL, hoopIx h) → u = s'.plainWrite .HOOP_CTRL (hoopIx h) (v ||| 1) →
        (s.unitRuns 5 h = true → exec (.hoopEnable port h v g) s =
          .next (s'.wrote (.HOOP_CTRL, hoopIx h) (s'.setBit F.HOOP_STATUS_write_reject (hoopIx h) true))) ∧
        (s.unitRuns 5 h = false → s.bit F.HOOP_CTRL_en (hoopIx h) = false → u.hoopRanges h = true → u.hoopSourceOk h = true →
          exec (.hoopEnable port h v g) s = .next (s'.wrote (.HOOP_CTRL, hoopIx h) (u.hoopStart h s'.now))) ∧
        (s.unitRuns 5 h = false → (u.hoopRanges h = false ∨ u.hoopSourceOk h = false ∨ (s.bit F.HOOP_CTRL_en (hoopIx h) = true ∧
            (bitsOf (s.reg .HOOP_CTRL (hoopIx h)) 1 4 ≠ bitsOf (v ||| 1) 1 4 ∨
              bitsOf (s.reg .HOOP_CTRL (hoopIx h)) 6 2 ≠ bitsOf (v ||| 1) 6 2))) → exec (.hoopEnable port h v g) s =
          .next (s'.wrote (.HOOP_CTRL, hoopIx h) (s'.setBit F.HOOP_STATUS_cfg_reject (hoopIx h) true)))) ∧
      (s'.Opens port (.HOOP_CTRL, hoopIx h) → u = s'.plainWrite .HOOP_CTRL (hoopIx h) (v &&& ~~~1) →
        (s.unitRuns 5 h = true → exec (.hoopDisable port h v g) s =
          .next (s'.wrote (.HOOP_CTRL, hoopIx h) (s'.setBit F.HOOP_STATUS_write_reject (hoopIx h) true))) ∧
        (s.unitRuns 5 h = false → u.hoopRanges h = true → (s.bit F.HOOP_CTRL_en (hoopIx h) = false ∨
            (bitsOf (s.reg .HOOP_CTRL (hoopIx h)) 1 4 = bitsOf (v &&& ~~~1) 1 4 ∧
              bitsOf (s.reg .HOOP_CTRL (hoopIx h)) 6 2 = bitsOf (v &&& ~~~1) 6 2)) →
          exec (.hoopDisable port h v g) s = .next (s'.wrote (.HOOP_CTRL, hoopIx h) (u.hoopStop h s'.now))) ∧
        (s.unitRuns 5 h = false → (u.hoopRanges h = false ∨ (s.bit F.HOOP_CTRL_en (hoopIx h) = true ∧
            (bitsOf (s.reg .HOOP_CTRL (hoopIx h)) 1 4 ≠ bitsOf (v &&& ~~~1) 1 4 ∨
              bitsOf (s.reg .HOOP_CTRL (hoopIx h)) 6 2 ≠ bitsOf (v &&& ~~~1) 6 2))) → exec (.hoopDisable port h v g) s =
          .next (s'.wrote (.HOOP_CTRL, hoopIx h) (s'.setBit F.HOOP_STATUS_cfg_reject (hoopIx h) true)))) ∧
      (s.Opens port (.HOOP_EVT_SEL, hoopIx h) →
        (s.hoopEv h (bitsOf v 0 6) = none → exec (.hoopEvtSelWrite port h v) s =
          .next (s.wrote (.HOOP_EVT_SEL, hoopIx h) ((((s.plainWrite .HOOP_EVT_SEL (hoopIx h) v).setReg .HOOP_EVT_INFO (hoopIx h)
            0).setReg64 .HOOP_EVT_START_LO .HOOP_EVT_START_HI (hoopIx h) 0).setReg64 .HOOP_EVT_END_LO .HOOP_EVT_END_HI
              (hoopIx h) 0))) ∧
        (∀ e, s.hoopEv h (bitsOf v 0 6) = some e → exec (.hoopEvtSelWrite port h v) s =
          .next (s.wrote (.HOOP_EVT_SEL, hoopIx h) ((((s.plainWrite .HOOP_EVT_SEL (hoopIx h) v).setReg .HOOP_EVT_INFO (hoopIx h)
            (BitVec.ofNat 32 ((if e.active s.now then 2 else 1) + 4 * b2n e.desc.pin.isNone + 8 * b2n e.desc.hold +
              16 * b2n e.desc.level + 32 * b2n (e.startSynth || e.endSynth || e.sticky) + 64 * b2n e.start.isNone +
              65536 * (e.task % 4096)))).setReg64 .HOOP_EVT_START_LO .HOOP_EVT_START_HI (hoopIx h)
                (e.start.getD 0)).setReg64 .HOOP_EVT_END_LO .HOOP_EVT_END_HI (hoopIx h) (e.stop.getD 0)))))
  )

/-- R380, R381, R383, R403: the link of an enabled port goes up and down, and one that goes down loses the frame on the wire. A received
frame is stamped less the receive latency; one with a bad FCS or length, or one the port does not want, is counted. An axis frame meets the
eight checks in order, each with its counter; the first frame of an entry and one that restarts skip the last two, and one that passes is
the entry's latest sequence and is taken. -/
def Obligations.NetworkReceive : Prop :=
  ∀ (s u : State) (p : Nat) (h : RxHdr) (f : AxisFrame) (raw rx g : Time), u = s.at raw →
    rx = raw - picots (s.fld F.NET_LAT_rx_lat (pkg1 p)) →
    (p < 2 → s.dieActs p = true → s.bit F.NET_CTRL_en (pkg1 p) = true →
      exec (.netLinkChange p true g) s = .next ((((s.at g).setBit F.NET_STATUS_link_up (pkg1 p) true).setBit F.NET_STATUS_an_done
        (pkg1 p) (s.bit F.NET_CTRL_an_en (pkg1 p))).setBit F.CLK_STATUS_sgmii_refclk_ok pkg true) ∧
      exec (.netLinkChange p false g) s = .next ((((s.at g).setBit F.NET_STATUS_link_up (pkg1 p) false).setBit
        F.NET_STATUS_an_done (pkg1 p) false).modNet p (fun x => { x with wire := none }))) ∧
    (s.portUp p = true →
      ((h.fcsOk = false ∨ h.len < 64 ∨ 1522 < h.len) →
        exec (.axisFrameRx p h f raw) s = .next (u.bump F.NET_RX_COUNT_fcs_err (pkg1 p))) ∧
      (h.fcsOk = true → 64 ≤ h.len → h.len ≤ 1522 → s.rxWanted p h = false →
        exec (.axisFrameRx p h f raw) s = .next (u.bump F.NET_RX_COUNT_dropped (pkg1 p))) ∧
      (h.fcsOk = true → 64 ≤ h.len → h.len ≤ 1522 → s.rxWanted p h = true → h.ethertype = s.fld F.LS_CTRL_ethertype pkg →
        (f.domain ≠ s.fld F.LS_CTRL_domain pkg →
          exec (.axisFrameRx p h f raw) s = .next (u.bump F.LS_DROP_COUNT_0_domain pkg)) ∧
        (f.domain = s.fld F.LS_CTRL_domain pkg → f.node = s.fld F.LS_NODE_node_id pkg →
          exec (.axisFrameRx p h f raw) s = .next (u.bump F.LS_DROP_COUNT_0_own pkg)) ∧
        (f.domain = s.fld F.LS_CTRL_domain pkg → f.node ≠ s.fld F.LS_NODE_node_id pkg →
          (s.axsMatch p f.node f.axis = none →
            exec (.axisFrameRx p h f raw) s = .next (u.bump F.LS_DROP_COUNT_1_unmatched pkg)) ∧
          (∀ e, s.axsMatch p f.node f.axis = some e →
            (f.version ≠ 1 → exec (.axisFrameRx p h f raw) s = .next (u.bump F.AXS_COUNT_count_lo (pkg2 e 2))) ∧
            (f.version = 1 → f.digest ≠ s.reg .LS_LINE_DIGEST pkg →
              exec (.axisFrameRx p h f raw) s = .next (u.bump F.AXS_COUNT_count_hi (pkg2 e 2))) ∧
            (f.version = 1 → f.digest = s.reg .LS_LINE_DIGEST pkg → f.unqualified = true →
              exec (.axisFrameRx p h f raw) s = .next (u.bump F.AXS_COUNT_count_lo (pkg2 e 3))) ∧
            (f.version = 1 → f.digest = s.reg .LS_LINE_DIGEST pkg → f.unqualified = false →
              (∀ d : Int, d = (f.seq - s.reg .AXS_LAST_SEQ (pkg1 e)).toInt →
                ((f.restart = true ∧ f.seq = 0) ∨ (s.axs e).first = true ∨ 0 < d →
                  exec (.axisFrameRx p h f raw) s = .next
                    ((if f.restart = true ∧ f.seq = 0 then
                      ((u.setReg .AXS_LAST_SEQ (pkg1 e) f.seq).setAxs e { s.axs e with first := false }).setBit
                        F.AXS_STATUS_restarted (pkg1 e) true
                      else (u.setReg .AXS_LAST_SEQ (pkg1 e) f.seq).setAxs e { s.axs e with first := false }).takeSample p e f rx)) ∧
                (¬(f.restart = true ∧ f.seq = 0) → (s.axs e).first = false →
                  (d = 0 → exec (.axisFrameRx p h f raw) s = .next (u.bump F.AXS_COUNT_count_hi (pkg2 e 1))) ∧
                  (d < 0 → exec (.axisFrameRx p h f raw) s = .next (u.bump F.AXS_COUNT_count_hi (pkg2 e 3))))))))))

/-- R85, R404: a taken sample is logged with its stamp in ground time and its ingress stamp; one in time is counted, kept, the entry's
latest, and a sample of the hoops that follow the entry; one not in time is counted only. R405: a read as of T finds the newest kept
one stamped at or before T − D and is late exactly when that one is not later than T − D − P. R406: a late read misses the stamps
t_s + n × P up to T − D; each is counted once, and recorded once by each task.
R398, R400, R85: a posted sample reaches its entry at its stamp: it is kept for reads and reaches the hoops that follow the entry.
One that is sent takes the next sequence, or 0 with restart as the first of its run, and enters the egress queues; one closer to the last
accepted one than the period is suppressed. In a port's queue it takes the place of the entry's frame that still waits there, which is
counted. -/
def Obligations.AxisSamples : Prop :=
  (
    ∀ (s v : State) (p e : Nat) (f : AxisFrame) (rx conv T lim : Time) (i : Nat) (x : AxSample) (inTime : Bool),
      conv = BitVec.ofNat 64 (f.stampNs * 64) - s.plantOffset → lim = T - picots (s.axsAllow e) →
      inTime = upTo rx (conv + picots (s.axsAllow e) - nsT 1000) →
      v = s.log p 0x06 (b2n inTime) e conv [loHalf rx, hiHalf rx, f.seq, loHalf f.pos, hiHalf f.pos, loHalf f.vel, hiHalf f.vel,
        BitVec.ofNat 32 (b2n f.restart + 2 * b2n f.unqualified)] →
      (inTime = true → s.takeSample p e f rx = ((((v.bump F.AXS_COUNT_count_lo (pkg2 e 0)).setAxs e
          { s.axs e with hist := histInsert ⟨conv, f.pos, f.vel⟩ (s.axs e).hist }).setReg64 .AXS_LAST_STAMP_LO .AXS_LAST_STAMP_HI (pkg1 e)
            conv).setBit F.AXS_STATUS_have_sample (pkg1 e) true).hoopSample 3 e conv (conv + picots (s.axsAllow e)) f.pos) ∧
      (inTime = false → s.takeSample p e f rx = v.bump F.AXS_COUNT_count_hi (pkg2 e 0)) ∧
      ((s.axsRead e T).found = some (i, x) →
        (s.axs e).hist[i]? = some x ∧ upTo x.t lim = true ∧ (∀ j y, j < i → (s.axs e).hist[j]? = some y → upTo y.t lim = false) ∧
          (s.axsRead e T).late = !before (lim - picots (s.axsPeriod e)) x.t) ∧
      ((s.axsRead e T).found = none → (s.axsRead e T).late = true ∧ ∀ y ∈ (s.axs e).hist, upTo y.t lim = false) ∧
      (0 < s.axsPeriod e → ∀ y, y ∈ s.axsMissed e x.t T ↔
        ∃ n, 1 ≤ n ∧ y = x.t + picots (n * s.axsPeriod e) ∧ n * s.axsPeriod e ≤ (dist lim x.t).toNat) ∧
      (∀ (t : Nat) (k : Task) (y : Time) (u : State), s.task? t = some k →
        u = (if (s.axs e).late.contains y then s
          else (s.setAxs e { s.axs e with late := y :: (s.axs e).late }).bump F.AXS_COUNT_count_lo (pkg2 e 1)) →
        (k.lateSeen.contains (e, y) = true → s.axsLate t e T y = u) ∧
        (k.lateSeen.contains (e, y) = false → s.axsLate t e T y =
          ((u.setTask t { k with lateSeen := (e, y) :: k.lateSeen }).breach 2).detRec k.die (0x0A48 + k.die) 0x22 T
            (leBytes t 2 ++ leBytes e 2 ++ timeBytes y)))
  ) ∧ (
    ∀ (s u : State) (i : Nat) (e : Eff) (en : Nat) (pos vel : BitVec 64) (run stampNs : Nat) (old : AxpSt) (first : Bool),
      (s.flight.filter (fun e => match e.kind with | .sample _ _ _ => true | _ => false))[i]? = some e → e.kind = .sample en pos vel →
      s.bit F.AXP_CFG_en (pkg1 en) = true → run = e.task * 0x100000000 + e.run + 1 → old = s.axp en →
      u = ((({ s with flight := s.flight.erase e }.at e.stamp).setAxp en
        { old with samples := ⟨e.stamp, pos, vel⟩ :: old.samples }).hoopSample 4 en e.stamp e.stamp pos) →
      first = (old.last.isNone || old.run != run) → stampNs = (e.stamp + s.plantOffset).toNat / 64 →
      (s.fld F.AXP_CFG_ports (pkg1 en) = 0 → exec (.axpSamplePost i) s = .next u) ∧
      (∀ t, s.fld F.AXP_CFG_ports (pkg1 en) ≠ 0 → first = false → old.last = some t →
        upTo (t + nsT (s.fld F.AXP_PERIOD_period_ns (pkg1 en))) e.stamp = false →
        exec (.axpSamplePost i) s = .next (u.bump F.AXP_COUNT_suppressed (pkg1 en))) ∧
      (s.fld F.AXP_CFG_ports (pkg1 en) ≠ 0 →
        (first = true ∨ ∀ t, old.last = some t → upTo (t + nsT (s.fld F.AXP_PERIOD_period_ns (pkg1 en))) e.stamp = true) →
        ∀ seq b, seq = (if first then 0 else s.reg .AXP_SEQ (pkg1 en) + 1) → b = TxBody.axis en seq first stampNs pos vel →
        exec (.axpSamplePost i) s = .next ((((u.setReg .AXP_SEQ (pkg1 en) seq).setAxp en
          { old with samples := ⟨e.stamp, pos, vel⟩ :: old.samples, last := some e.stamp, run := run }).postFrame 0 en b).postFrame
            1 en b)) ∧
      (∀ (p q len : Nat) (b : TxBody) (tag : Option (Nat × Nat)) (w : State), p < 2 → w = s.postFrame p en b →
        q = s.fld F.AXP_CFG_queue (pkg1 en) →
        tag = (if s.bit F.AXP_CFG_tag (pkg1 en) then some (s.fld F.AXP_CFG_pcp (pkg1 en), s.fld F.NET_VLAN_vid (pkg1 p)) else none) →
        len = (if s.bit F.AXP_CFG_tag (pkg1 en) then 68 else 64) →
        ((s.fld F.AXP_CFG_ports (pkg1 en)).testBit p = false → w = s) ∧
        ((s.fld F.AXP_CFG_ports (pkg1 en)).testBit p = true → s.dieActs p = true → s.bit F.NET_CTRL_en (pkg1 p) = true →
          ((∀ f ∈ (s.net p).frames, f.ofEntry en = false) →
            w = s.setNet p { s.net p with frames := (s.net p).frames ++ [⟨q, len, tag, b, s.now⟩] }) ∧
          ((∃ f ∈ (s.net p).frames, f.ofEntry en = true) →
            w = (s.setNet p { s.net p with frames := (s.net p).frames.map (fun f => if f.ofEntry en then ⟨q, len, tag, b, s.now⟩ else f)
              }).bump F.AXP_COUNT_replaced (pkg1 en))))
  )

/-- R384 to R387: the cycles and entries of a gate start at their plant instants, an armed swap takes the other bank at its
instant; a write of swap arms the inactive bank for the first of its cycles after the active bank's cycle, takes effect at once with the
gate off, and is rejected with a length out of range or with one that changes a bank that takes no writes. An idle link sends the head of
the highest queue whose gate fits; the frame ends after its wire time; one that has waited a full cycle without fitting is dropped.
R385, R387: a bank's cycle starts at its base and whole cycles after it; the one that is taken from an instant on is the first at or
after it.
R384, R386: what an idle link sends is the head of its queue, fits its gate, and no higher queue's head fits. -/
def Obligations.GateAndTransmit : Prop :=
  (
    ∀ (s u : State) (port : Port) (p q : Nat) (n : NetSt) (g : Time) (v w : Word), n = s.net p → p < 2 →
      (s.gateOn p = true → s.dieActs p = true →
        (∀ c, n.next = some c → (∀ x, n.swapAt = some x → upTo x c = false) →
          exec (.gateCycleStart p) s = .next ((s.at (s.groundOf c)).startCycle p c)) ∧
        (∀ c x, n.next = some c → n.swapAt = some x → upTo x c = true → exec (.gateCycleStart p) s = .next
          (((((s.at (s.groundOf x)).setFld F.NET_GATE_CTRL_active (pkg1 p) (1 - s.bank p)).setBit F.NET_GATE_CTRL_pending (pkg1 p)
            false).modNet p (fun n => { n with swapAt := none })).startCycle p x)) ∧
        (∀ c x fin, n.cycle = some c → x = dist n.entryEnd c →
          fin = s.cycleFin p (s.bank p) 0 (n.swapAt.map (fun x => dist x c)) → x < fin →
          exec (.gateEntryEnd p) s = .next (((s.at (s.groundOf n.entryEnd)).setNet p
            { n with entry := n.entry + 1,
                     entryEnd := c + picotsI (s.entryFin p (s.bank p) (n.entry + 1) x fin) }).noteFits p))) ∧
      (∀ c fin, fin = s.cycleFin p (s.bank p) 0 (n.swapAt.map (fun x => dist x c)) →
        s.startCycle p c = (s.setNet p { n with cycle := some c, next := some (c + picots (s.gateCycle p (s.bank p))), entry := 0,
                                                entryEnd := c + picotsI (s.entryFin p (s.bank p) 0 0 fin) }).noteFits p) ∧
      (∀ l0 l1, s.Opens port (.NET_GATE_CTRL, pkg1 p) → w = v ||| 4 → l0 = bitsOf w 8 9 → l1 = bitsOf w 17 9 →
        u = s.plainWrite .NET_GATE_CTRL (pkg1 p) w →
        ((l0 = 0 ∨ 256 < l0 ∨ l1 = 0 ∨ 256 < l1 ∨ (l0 ≠ s.gateLen p 0 ∧ s.bankShut p 0 = true) ∨
            (l1 ≠ s.gateLen p 1 ∧ s.bankShut p 1 = true)) → exec (.gateSwap port p v) s = .next
          (s.wrote (.NET_GATE_CTRL, pkg1 p) (s.setBit F.NET_STATUS_cfg_reject (pkg1 p) true))) ∧
        (1 ≤ l0 → l0 ≤ 256 → 1 ≤ l1 → l1 ≤ 256 → (l0 = s.gateLen p 0 ∨ s.bankShut p 0 = false) →
          (l1 = s.gateLen p 1 ∨ s.bankShut p 1 = false) →
          (∀ c, bitOf w 0 = true → s.gateOn p = true → u.bit F.NET_GATE_CTRL_pending (pkg1 p) = false → n.next = some c →
            exec (.gateSwap port p v) s = .next (s.wrote (.NET_GATE_CTRL, pkg1 p)
              ((u.setBit F.NET_GATE_CTRL_pending (pkg1 p) true).modNet p
                (fun n => { n with swapAt := some (u.gateFrom p (1 - u.bank p) c) })))) ∧
          (bitOf w 0 = false → ∀ y, y = u.modNet p (fun n => { n with cycle := none, next := none }) →
            exec (.gateSwap port p v) s = .next (s.wrote (.NET_GATE_CTRL, pkg1 p)
              (((y.setFld F.NET_GATE_CTRL_active (pkg1 p) (1 - u.bank p)).setBit F.NET_GATE_CTRL_pending (pkg1 p) false).modNet p
                (fun n => { n with swapAt := none })))))) ∧
      (s.portUp p = true →
        (∀ f tx, n.wire = none → (s.at g).nextTx p = some f → tx = g + picots (s.fld F.NET_LAT_tx_lat (pkg1 p)) →
          exec (.frameTxStart p g) s = .next (((s.at g).setNet p
            { n with frames := n.frames.erase f, wire := some (f, g + nsT ((f.len + 20) * 8)),
                     last := some ⟨f, tx, (s.at g).ptpOut f.body tx, (s.at g).axisBytes p f⟩ }).txStamp p f.body tx)) ∧
        (n.wire = none → (s.at g).nextTx p = none → exec (.frameTxStart p g) s = .next (s.at g)) ∧
        (∀ f t, n.wire = some (f, t) → exec (.frameTxEnd p) s =
          .next (((s.at t).setNet p { n with wire := none }).bumpMod F.NET_TX_COUNT_frames (pkg1 p))) ∧
        (∀ f y, n.frames.find? (fun f => f.queue == q) = some f → s.gateOn p = true →
          y = s.at (f.since + picots (s.gateCycle p (s.bank p))) →
          (y.gateFits p q f.wireTime = true → exec (.gateDrop p q) s = .next y) ∧
          (y.gateFits p q f.wireTime = false → exec (.gateDrop p q) s = .next ((y.setNet p
            { n with frames := n.frames.erase f }).bump F.NET_TX_COUNT_gate_drop (pkg1 p)))))
  ) ∧ (
    ∀ (s : State) (p b : Nat) (x base : Time) (c : Nat), base = s.gateBase p b → c = s.gateCycle p b → 0 < c →
      (dist x base ≤ 0 → s.gateFrom p b x = base) ∧
      (0 < dist x base → ∃ k : Nat, s.gateFrom p b x = base + picots (k * c) ∧ dist x base ≤ (k : Int) * c ∧
        ((k : Int) - 1) * c < dist x base)
  ) ∧ (
    ∀ (s : State) (p : Nat) (f : TxFrame), s.nextTx p = some f →
      (s.net p).head f.queue = some f ∧ f.queue < 8 ∧ s.gateFits p f.queue f.wireTime = true ∧
      (∀ q k, f.queue < q → q < 8 → (s.net p).head q = some k → s.gateFits p k.queue k.wireTime = false)
  )

/-- R389 to R391 (what they take from IEEE 1588 as log entry 17 says): what each received PTP message of the instance's domain does on a
port of the instance, and that one of another domain or port does nothing; what the message intervals send, and what the timeouts do; a write of NET_PTP_CTRL or NET_PTP_INTERVALS in range
restarts the instance, and one out of range is rejected. -/
def Obligations.PtpMessages : Prop :=
  ∀ (s u : State) (port : Port) (p seq : Nat) (h : RxHdr) (raw rx g : Time) (a b : Int) (y : PtpPort), u = s.at raw →
    rx = raw - picots (s.fld F.NET_LAT_rx_lat (pkg1 p)) → y = s.ptpPort p →
    (s.portUp p = true → h.fcsOk = true → 64 ≤ h.len → h.len ≤ 1522 → s.rxWanted p h = true → h.ethertype = 0x88F7 →
      s.ptpUses p = true → h.domain = s.fld F.NET_PTP_CTRL_ptp_domain pkg →
      (s.portState p = 9 → exec (.ptpSyncRx p h seq a b true raw) s = .next
          ((u.modPtp p (fun x => { x with lastSync := some rx })).modPtp p (fun x => { x with sync := some (seq, rx, b) })) ∧
        exec (.ptpSyncRx p h seq a b false raw) s = .next
          ((u.modPtp p (fun x => { x with lastSync := some rx })).syncDone p rx a b)) ∧
      (∀ r c, s.portState p = 9 → y.sync = some (seq, r, c) →
        exec (.ptpFollowUpRx p h seq a b raw) s = .next (u.syncDone p r a (c + b))) ∧
      (s.portState p = 6 → s.peerDelay = false →
        exec (.ptpDelayReqRx p h ⟨seq, b⟩ raw) s = .next (u.ptpSend p 54 false (.delayResp seq rx b))) ∧
      (∀ t3 ms, y.req = some (seq, t3) → y.ms = some ms → s.peerDelay = false → exec (.ptpDelayRespRx p h seq a b raw) s =
        .next ((u.modPtp p (fun x => { x with req := none })).setDelay p (ms - s.sinceMaster t3 a - b))) ∧
      (s.peerDelay = true →
        exec (.ptpPdelayReqRx p h ⟨seq, b⟩ raw) s = .next (u.ptpSend p 54 true (.pdelayResp seq rx b))) ∧
      (∀ t1, y.req = some (seq, t1) → s.peerDelay = true →
        (exec (.ptpPdelayRespRx p h ⟨seq, b⟩ a false raw) s = .next
          ((u.modPtp p (fun x => { x with req := none })).setDelay p (dist rx t1 * 1024 - b))) ∧
        (exec (.ptpPdelayRespRx p h ⟨seq, b⟩ a true raw) s = .next
          (u.modPtp p (fun x => { x with resp := some (seq, a, rx, b) })))) ∧
      (∀ t1 t2 t4 c, y.req = some (seq, t1) → y.resp = some (seq, t2, t4, c) → s.peerDelay = true →
        exec (.ptpPdelayRespFollowUpRx p h seq a b raw) s = .next ((u.modPtp p (fun x => { x with
          req := none, resp := none })).setDelay p (dist t4 t1 * 1024 - (a - t2) * 65536 - c - b))) ∧
      (∀ m, exec (.ptpAnnounceRx p h m raw) s = .next (u.modPtp p (fun x => { x with ann := some (m, rx) })).bmca) ∧
      (∀ c, s.fld F.NET_PTP_CTRL_profile pkg = 2 → exec (.ptpSignalingRx p h ⟨a, b, c⟩ raw) s = .next (u.modPtp p (fun x =>
        { x with logPd := askedLog x.logPd a, logSync := askedLog x.logSync b, logAnn := askedLog x.logAnn c })))) ∧
    (s.portUp p = true → h.fcsOk = true → 64 ≤ h.len → h.len ≤ 1522 → s.rxWanted p h = true →
      (h.ethertype ≠ 0x88F7 ∨ s.ptpUses p = false ∨ h.domain ≠ s.fld F.NET_PTP_CTRL_ptp_domain pkg) → ∀ two m c,
      ∀ i ∈ [Instr.ptpSyncRx p h seq a b two raw, .ptpFollowUpRx p h seq a b raw, .ptpDelayReqRx p h ⟨seq, b⟩ raw,
        .ptpDelayRespRx p h seq a b raw, .ptpPdelayReqRx p h ⟨seq, b⟩ raw, .ptpPdelayRespRx p h ⟨seq, b⟩ a two raw,
        .ptpPdelayRespFollowUpRx p h seq a b raw, .ptpAnnounceRx p h m raw, .ptpSignalingRx p h ⟨a, b, c⟩ raw],
      exec i s = .next u) ∧
    (s.ptpUses p = true → s.dieActs p = true → ∀ w : PtpTx → State,
      (∀ m, w m = (s.at g).modPtp p (fun x => { x with txAt := nmPut x.txAt (ptpTxCode m) g })) →
      (s.portState p = 6 → s.txDue p .announce g = true →
        exec (.ptpTxInterval p .announce g) s = .next ((w .announce).ptpNew p 64 false .announce)) ∧
      (s.portState p = 6 → s.txDue p .sync g = true →
        exec (.ptpTxInterval p .sync g) s = .next ((w .sync).ptpNew p 44 false .sync)) ∧
      (s.portState p = 9 → s.peerDelay = false → s.txDue p .delayReq g = true →
        exec (.ptpTxInterval p .delayReq g) s = .next ((w .delayReq).ptpNew p 44 false .delayReq)) ∧
      (s.peerDelay = true → s.txDue p .pdelayReq g = true →
        exec (.ptpTxInterval p .pdelayReq g) s = .next ((w .pdelayReq).ptpNew p 54 true .pdelayReq))) ∧
    (∀ c t, s.ptpList.find? (fun p => s.portState p == 9) = some c →
      (((s.ptpPort c).lastSync = some t ∧ (s.ptpPort c).slaveSince = none) ∨
        ((s.ptpPort c).lastSync = none ∧ (s.ptpPort c).slaveSince = some t) ∨
        (∃ l m, (s.ptpPort c).lastSync = some l ∧ (s.ptpPort c).slaveSince = some m ∧ t = later l m)) →
      (upTo (t + picots (3 * s.syncInterval)) g = true →
        exec (.ptpSyncTimeout g) s = .next ({ s.at g with ptp := { s.ptp with lost := true } }.unqualIf 2)) ∧
      (upTo (t + picots (3 * s.syncInterval)) g = false → exec (.ptpSyncTimeout g) s = .next s)) ∧
    (s.ptpUses p = true →
      (y.ann = none → exec (.ptpAnnounceTimeout p g) s = .next (s.at g).bmca) ∧
      (∀ m t, y.ann = some (m, t) → upTo (t + picots (s.fld F.NET_PTP_INTERVALS_announce_timeout pkg *
          logPicots (logInt (s.fld F.NET_PTP_INTERVALS_log_announce pkg)))) g = true →
        exec (.ptpAnnounceTimeout p g) s = .next ((s.at g).modPtp p (fun x => { x with ann := none })).bmca)) ∧
    (∀ v i r, r = (if i then .NET_PTP_INTERVALS else .NET_PTP_CTRL : Reg) → (s.at g).Opens port (r, pkg) → ∀ ok : Bool,
      ok = (if i then decide (-7 ≤ logInt (bitsOf v 0 4) ∧ logInt (bitsOf v 0 4) ≤ 1 ∧ -3 ≤ logInt (bitsOf v 4 4) ∧
          logInt (bitsOf v 4 4) ≤ 4 ∧ -7 ≤ logInt (bitsOf v 8 4) ∧ logInt (bitsOf v 8 4) ≤ 4 ∧ 2 ≤ bitsOf v 12 4 ∧ bitsOf v 12 4 ≤ 10)
        else decide (bitsOf v 1 2 ≠ 3 ∧ ¬(bitsOf v 1 2 = 2 ∧ bitsOf v 3 2 = 3))) →
      (ok = true → exec (.netPtpCtrlWrite port i v g) s =
        .next ((s.at g).wrote (r, pkg) ((s.at g).plainWrite r pkg v).ptpRestart)) ∧
      (ok = false → exec (.netPtpCtrlWrite port i v g) s =
        .next ((s.at g).wrote (r, pkg) ((s.at g).setBit F.NET_PTP_STATUS_cfg_reject pkg true))))

/-- R414 to R419: the oldest packet that is not visible is published at its stamp, unless a release comes before it; a release of the
running generation frees up to its place, one of an earlier generation nothing, and one after a publish waits for it; at one stamp the
release goes first. The flush time turns the request on. The host releases whole packets of a queue it consumes, and any other release of
the host's is rejected.
R422 to R424, R440: an access that finds the copies of a queue's points to differ resets the queue: it is empty at the start of its
ring, of the next generation, with all its capacity free and its copies equal; the fault is counted, no other queue and no die memory
changes, and a descriptor in progress on the queue ends with QRESET. -/
def Obligations.QueueEvents : Prop :=
  (
    ∀ (s : State) (port : Port) (q : Nat) (x : QueSt) (g : Time) (v : Word), x = s.que q →
      (s.dieActs (q / 256) = true →
        (∀ p, x.pkts.find? (fun p => !p.vis) = some p →
          ((∀ e rest, x.relFx = e :: rest → upTo e.stamp p.stamp = false) →
            exec (.queuePacketPublish q) s = .next ((s.at p.stamp).publish q p)) ∧
          (∀ e rest, x.relFx = e :: rest → upTo e.stamp p.stamp = true → exec (.queuePacketPublish q) s = .next s)) ∧
        (∀ e rest k upto gen, x.relFx = e :: rest → e.kind = .release k upto gen →
          ((∀ p, x.pkts.find? (fun p => !p.vis) = some p → upTo e.stamp p.stamp = true) →
            (gen = x.gen → exec (.qrelApply q) s = .next (((s.at e.stamp).setQue q { x with relFx := rest }).releaseTo q upto e.stamp)) ∧
            (gen ≠ x.gen → exec (.qrelApply q) s = .next ((s.at e.stamp).setQue q { x with relFx := rest }))) ∧
          (∀ p, x.pkts.find? (fun p => !p.vis) = some p → upTo e.stamp p.stamp = false → exec (.qrelApply q) s = .next s)) ∧
        (∀ p us, us = s.fld F.QUE_FLUSH_flush_us (queIx q) → us ≠ 0 → x.consKind = 1 → x.pkts.find? (fun p => p.vis) = some p →
          exec (.queueFlushTimeout q) s = .next ((s.at (p.stamp + nsT (us * 1000))).request q true))) ∧
      ((s.at g).Opens port (.QUE_HOST_REL, queIx q) →
        (x.bound = true → x.consKind = 2 → bitsOf v 0 17 ≠ 0 → (∃ p ∈ x.pkts, p.vis = true ∧ p.fin = x.rel + bitsOf v 0 17) →
          exec (.queHostRelWrite port q v g) s = .next ((s.at g).wrote (.QUE_HOST_REL, queIx q)
            ((s.at g).outRelease q (x.rel + bitsOf v 0 17)))) ∧
        ((x.bound = false ∨ x.consKind ≠ 2 ∨ bitsOf v 0 17 = 0 ∨ ∀ p ∈ x.pkts, p.vis = true → p.fin ≠ x.rel + bitsOf v 0 17) →
          exec (.queHostRelWrite port q v g) s = .next ((s.at g).wrote (.QUE_HOST_REL, queIx q)
            ((s.at g).setBit F.QUE_STATUS_cfg_reject (queIx q) true))))
  ) ∧ (
    ∀ (s u w : State) (q : Nat) (x : QueSt) (g : Time), x = s.que q →
      (x.bound = true → s.dieActs (q / 256) = true → x.copiesAgree = true → u = (s.at g).setQue q { x with wpN := ~~~x.wpN } →
        exec (.queuePointerMismatch q g) s = .next (u.queResetAll q g)) ∧
      (w = s.queReset q g →
        (w.que q).gen = (x.gen + 1) % 65536 ∧ (w.que q).pkts = [] ∧ (w.que q).wp = 0 ∧ (w.que q).rel = 0 ∧
        (w.que q).freeNow = x.cap ∧ (w.que q).copiesAgree = true ∧ (w.que q).dmaOpen = false ∧
        w.fld F.QUE_IDLE_COUNT_ptr_fault (queIx q) = min (s.fld F.QUE_IDLE_COUNT_ptr_fault (queIx q) + 1) 65535 ∧
        w.dieMem = s.dieMem ∧ (∀ r, r ≠ q → w.que r = s.que r)) ∧
      (∀ k c, x.dma = some k → c = q / 256 * 8 + k → w = s.queReset q g →
        ((w.dma c).named = some q → ((w.dma c).phase = .moving ∨ (w.dma c).phase = .lengthHold) → (w.dma c).wb = none →
          s.queResetAll q g = (w.setDma c { w.dma c with pktEnds := [] }).dmaFail c 7 (w.dmaCur c)) ∧
        ((w.dma c).named ≠ some q ∨ ((w.dma c).phase ≠ .moving ∧ (w.dma c).phase ≠ .lengthHold) ∨ (w.dma c).wb ≠ none →
          s.queResetAll q g = w)) ∧
      (x.dma = none → s.queResetAll q g = s.queReset q g)
  )

/-- R413: a packet that fits its queue is stored as its length word and its payload in consecutive places of the ring, and nothing
outside the ring changes.
R414, R417: publishing a packet makes it visible and frees nothing; a release frees whole packets up to its place and never moves
the release point back or beyond what was written; neither changes memory. -/
def Obligations.QueueContents : Prop :=
  (
    ∀ (s t : State) (q : Nat) (x : QueSt) (stamp : Time) (ws : List Word), x = s.que q → ws.length + 1 ≤ x.cap →
      t = s.putPacket q stamp ws →
      t.ringWord q x.wp = BitVec.ofNat 32 ws.length ∧ (∀ i w, ws[i]? = some w → t.ringWord q (x.wp + 1 + i) = w) ∧
      (t.que q).wp = x.wp + ws.length + 1 ∧ (t.que q).pkts = x.pkts ++ [⟨x.wp, ws.length, stamp, false⟩] ∧
      (∀ a, (a < dieAddr (q / 256) x.base ∨ dieAddr (q / 256) (x.base + 4 * x.cap) ≤ a) → memRead t.dieMem a = memRead s.dieMem a)
  ) ∧ (
    ∀ (s : State) (q upto : Nat) (t : Time) (p : Pkt) (y : QueSt), s.que q = y → y.rel ≤ y.wp →
      (p ∈ y.pkts → ((s.publish q p).que q).rel = y.rel ∧ p.fin ≤ ((s.publish q p).que q).visEnd ∧
        ((s.publish q p).que q).wp = y.wp ∧ (s.publish q p).dieMem = s.dieMem) ∧
      (y.rel ≤ ((s.releaseTo q upto t).que q).rel ∧ ((s.releaseTo q upto t).que q).rel ≤ y.wp ∧
        (upto ≤ y.wp → y.rel ≤ upto → ((s.releaseTo q upto t).que q).rel = upto) ∧
        (∀ k ∈ ((s.releaseTo q upto t).que q).pkts, k ∈ y.pkts ∧ ((s.releaseTo q upto t).que q).rel < k.fin) ∧
        (s.releaseTo q upto t).dieMem = s.dieMem)
  )

/-- R433, R441, R447, R449: START of a channel that stands begins its chain at DMA_HEAD; START of a busy one and ABORT of one that
stands are rejected; ABORT of a parked one goes idle; ABORT of one with a descriptor in hand ends it with ABORT, a writeback and its queue
side settled, the writeback waiting while the bus is closed (R453); DMA_APPEND counts.
R427, R433 to R436, R439, R440: a fetched descriptor is taken and checked; a misaligned one fails with DESC, one the channel may not
read with ACCESS, one with an uncorrectable word with ECC, and a bus error is retried up to the limit and then fails with BUS; a retry that
succeeds is counted. A failed descriptor settles its queue side, is written back and halts, its writeback waiting while the bus is
closed. A checked descriptor begins if its pacing lets it, and else waits for it. A granted beat meets the same checks on
both sides, moves its bytes and is counted, and the last one of a segment ends it.
R414, R421, R429, R433, R440: the length word publishes a packet whose stamp lies 40 ns after it, and waits until that stamp is far
enough after the packet before it; the writeback counts the descriptor, posts the channel's source where the descriptor asks for it, and the
chain goes on to the next one or parks; a failed writeback halts the channel; a parked channel looks for an append. -/
def Obligations.DmaEngine : Prop :=
  (
    ∀ (s p u w : State) (port : Port) (c : Nat) (x : DmaSt) (v : Word), x = s.dma c →
      (s.Opens port (.DMA_CMD, dmaIx c) →
        ((x.phase = .idle ∨ x.phase = .halted) → exec (.dmaStart port c) s = .next (s.wrote (.DMA_CMD, dmaIx c)
          (((s.setReg64 .DMA_CUR_LO .DMA_CUR_HI (dmaIx c) (s.reg64 .DMA_HEAD_LO .DMA_HEAD_HI (dmaIx c))).setBit
            F.DMA_STATUS_wb_fail (dmaIx c) false).setDma c (x.clear .fetch)))) ∧
        (x.phase ≠ .idle → x.phase ≠ .halted → exec (.dmaStart port c) s =
          .next (s.wrote (.DMA_CMD, dmaIx c) (s.setBit F.DMA_STATUS_cmd_reject (dmaIx c) true))) ∧
        ((x.phase = .idle ∨ x.phase = .halted) → exec (.dmaAbort port c) s =
          .next (s.wrote (.DMA_CMD, dmaIx c) (s.setBit F.DMA_STATUS_cmd_reject (dmaIx c) true))) ∧
        (x.phase = .parked → x.wb = none → exec (.dmaAbort port c) s = .next (s.wrote (.DMA_CMD, dmaIx c)
          (((s.setDma c (x.clear .idle)).setBit F.DMA_STATUS_aborted (dmaIx c) true).dmaPost c))) ∧
        (x.phase ≠ .idle → x.phase ≠ .halted → (x.phase ≠ .parked ∨ x.wb ≠ none) →
          p = s.setFld F.DMA_STATUS_last_error (dmaIx c) 5 →
          (p.dmaAccess c (p.descSpace c) (p.dmaCur c) 64 true = .waits → w = p.dmaSettle c →
            exec (.dmaAbort port c) s = .next (s.wrote (.DMA_CMD, dmaIx c)
              (w.setDma c { w.dma c with pktEnds := [], wb := some 5 }))) ∧
          (p.dmaAccess c (p.descSpace c) (p.dmaCur c) 64 true ≠ .waits → u = p.dmaHold c →
            (∀ y, u.writeback c 5 ((u.dma c).w 0) = some y → w = y.dmaSettle c →
              exec (.dmaAbort port c) s = .next (s.wrote (.DMA_CMD, dmaIx c)
                (((w.setDma c ((w.dma c).clear .idle)).setBit F.DMA_STATUS_aborted (dmaIx c) true).dmaPost c))) ∧
            (u.writeback c 5 ((u.dma c).w 0) = none → w = u.dmaSettle c →
              exec (.dmaAbort port c) s = .next (s.wrote (.DMA_CMD, dmaIx c)
                ((((w.setDma c ((w.dma c).clear .idle)).setBit F.DMA_STATUS_wb_fail (dmaIx c) true).setBit F.DMA_STATUS_aborted
                  (dmaIx c) true).dmaPost c)))))) ∧
      (s.Opens port (.DMA_APPEND, dmaIx c) → exec (.dmaAppend port c v) s = .next (s.wrote (.DMA_APPEND, dmaIx c)
        (s.setReg .DMA_APPEND_COUNT (dmaIx c) (s.reg .DMA_APPEND_COUNT (dmaIx c) + 1))))
  ) ∧ (
    ∀ (s u v w : State) (c src dst n : Nat) (x y : DmaSt) (g : Time) (acc : DmaAcc), x = s.dma c → s.dmaActs c = true →
      (x.phase = .fetch → acc = s.dmaAccess c (s.descSpace c) (s.dmaCur c) 64 false →
        (s.dmaCur c % 64 ≠ 0 → exec (.dmaDescFetchDone c) s = .next (s.dmaFail c 1 (s.dmaCur c))) ∧
        (s.dmaCur c % 64 = 0 →
          (acc = .access → exec (.dmaDescFetchDone c) s = .next (s.dmaFail c 2 (s.dmaCur c))) ∧
          (acc = .bus → exec (.dmaDescFetchDone c) s = .next (s.dmaBusError c (s.dmaCur c))) ∧
          (acc = .waits → exec (.dmaDescFetchDone c) s = .next s) ∧
          (acc = .ok → s.dmaEcc (s.descSpace c) (s.dmaCur c) 64 = true →
            exec (.dmaDescFetchDone c) s = .next (s.dmaFail c 4 (s.dmaCur c))) ∧
          (acc = .ok → s.dmaEcc (s.descSpace c) (s.dmaCur c) 64 = false → u = s.dmaBeatOk c → exec (.dmaDescFetchDone c) s = .next
            ((u.setDma c { u.dma c with desc := u.dmaWords (s.descSpace c) (s.dmaCur c) 16 }).dmaGo c)))) ∧
      ((∀ e a, s.dmaPlan c = .err e a → s.dmaGo c = s.dmaFail c e a) ∧ (∀ a, s.dmaPlan c = .bus a → s.dmaGo c = s.dmaBusError c a) ∧
        (∀ l, s.dmaPlan c = .run l → (s.dmaPaced c = true → s.dmaGo c = s.dmaBegin c l) ∧
          (s.dmaPaced c = false → s.dmaGo c = s.setDma c { x with phase := .pacing, waitSince := s.now }))) ∧
      (∀ (err a : Nat) p, err ≠ 5 → p = (s.setFld F.DMA_STATUS_last_error (dmaIx c) err).setReg64 .DMA_ERR_ADDR_LO .DMA_ERR_ADDR_HI
          (dmaIx c) (BitVec.ofNat 64 a) →
        (p.dmaAccess c (p.descSpace c) (p.dmaCur c) 64 true = .waits → u = p.dmaSettle c →
          s.dmaFail c err a = u.setDma c { u.dma c with pktEnds := [], wb := some err }) ∧
        (p.dmaAccess c (p.descSpace c) (p.dmaCur c) 64 true ≠ .waits → u = p.dmaHold c →
          (∀ z, u.writeback c err ((u.dma c).w 0) = some z → s.dmaFail c err a = (z.dmaSettle c).dmaHalt c err false) ∧
          (u.writeback c err ((u.dma c).w 0) = none → s.dmaFail c err a = (u.dmaSettle c).dmaHalt c err true))) ∧
      (∀ a, (x.beatTries < s.fld F.DMA_CTRL_retry_max (dmaIx c) → s.dmaBusError c a =
          (s.setDma c { x with beatTries := x.beatTries + 1, retries := x.retries + 1 }).bump F.DMA_RETRY_COUNT_count (dmaIx c)) ∧
        (s.fld F.DMA_CTRL_retry_max (dmaIx c) ≤ x.beatTries → s.dmaBusError c a = s.dmaFail c 3 a)) ∧
      ((x.beatTries = 0 → s.dmaBeatOk c = s) ∧
        (x.beatTries ≠ 0 → s.dmaBeatOk c = (s.setDma c { x with beatTries := 0 }).bump F.FLT_CORR_COUNT_1_dma_retry pkg)) ∧
      (∀ a, (((x.phase = .fetch ∨ x.phase = .tailRead ∨
            (x.phase = .parked ∧ s.reg .DMA_APPEND_COUNT (dmaIx c) ≠ s.reg .DMA_SEEN (dmaIx c))) ∧ a = s.dmaCur c) ∨
          (x.phase = .moving ∧ s.dmaGranted c = true ∧ ∃ d k, x.beat = some (a, d, k))) →
        exec (.dmaBeatError c true g) s = .next ((s.at g).dmaFail c 4 a) ∧
        exec (.dmaBeatError c false g) s = .next ((s.at g).dmaBusError c a)) ∧
      (x.phase = .pacing → s.dmaPaced c = true →
        (∀ l, (s.at g).dmaPlan c = .run l → exec (.dmaPacingMet c g) s = .next ((s.at g).dmaBegin c l)) ∧
        (∀ e a, (s.at g).dmaPlan c = .err e a → exec (.dmaPacingMet c g) s = .next ((s.at g).dmaFail c e a))) ∧
      (x.phase = .moving → s.dmaGranted c = true → x.beat = some (src, dst, n) → acc = s.beatAccess c src dst n →
        (acc = .access → exec (.dmaBeatDone c g) s = .next ((s.at g).dmaFail c 2 src)) ∧
        (acc = .bus → exec (.dmaBeatDone c g) s = .next ((s.at g).dmaBusError c src)) ∧
        (acc = .waits → exec (.dmaBeatDone c g) s = .next s) ∧
        (acc = .ok → u = (s.at g).dmaTake c →
          (u.dmaEcc (u.dma c).srcSpace src n = true → exec (.dmaBeatDone c g) s = .next (u.dmaFail c 4 src)) ∧
          (∀ sg rest at', u.dmaEcc (u.dma c).srcSpace src n = false → (u.dma c).segs = sg :: rest →
            at' = (u.dma c).moved.length - (if (u.dma c).back then (u.dma c).segDone else 0) →
            v = (u.beatWrite c dst (u.beatRead c src n)).dmaBeatOk c →
            y = { u.dma c with
              moved := (u.dma c).moved.take at' ++ u.beatRead c src n ++ (u.dma c).moved.drop at',
              segDone := (u.dma c).segDone + n, beatTries := 0 } →
            w = (v.setReg64 .DMA_BYTES_LO .DMA_BYTES_HI (dmaIx c) (v.reg64 .DMA_BYTES_LO .DMA_BYTES_HI (dmaIx c) +
              BitVec.ofNat 64 n)).setDma c y →
            exec (.dmaBeatDone c g) s = .next (if (u.dma c).segDone + n < sg.len then w else w.segEnd c))))
  ) ∧ (
    ∀ (s u : State) (c q : Nat) (x : DmaSt) (g : Time) (ws : List Word) (w0 : Word) (next : Nat), x = s.dma c →
      s.dmaActs c = true →
      (x.phase = .lengthHold → x.queue = some q →
        (∀ t, s.putNotBefore q = some t → upTo t (g + nsT 40) = false → exec (.dmaLengthWordWrite c g) s = .next s) ∧
        ((∀ t, s.putNotBefore q = some t → upTo t (g + nsT 40) = true) →
          u = (((s.at g).setQue q { s.que q with reserved := 0, dmaOpen := false }).putPacket q (g + nsT 40) (bytesWords x.moved)) →
          exec (.dmaLengthWordWrite c g) s = .next
            ((if (s.que q).consKind = 0 then
              (u.setQue q { u.que q with lastPut := some (g + nsT 40) }).logPut q (g + nsT 40) (bytesWords x.moved) 0 17
              else u.setQue q { u.que q with lastPut := some (g + nsT 40) }).dmaTail c))) ∧
      (x.phase = .tailRead → s.dmaAccess c (s.descSpace c) (s.dmaCur c) 64 false = .ok →
        (s.at g).dmaAccess c (s.descSpace c) (s.dmaCur c) 32 false = .ok → (s.at g).dmaEcc (s.descSpace c) (s.dmaCur c) 32 = false →
        ws = ((s.at g).dmaBeatOk c).dmaWords (s.descSpace c) (s.dmaCur c) 8 → w0 = ws.getD 0 0 →
        next = (joinHalves (ws.getD 7 0) (ws.getD 6 0)).toNat →
        u = ((s.at g).dmaBeatOk c).setFld F.DMA_STATUS_last_error (dmaIx c) 0 →
        (exec (.dmaTailReadDone c false g) s = .next (u.dmaHalt c 0 true)) ∧
        (u.writeback c 0 w0 = none → exec (.dmaTailReadDone c true g) s = .next (u.dmaHalt c 0 true)) ∧
        (∀ w, u.writeback c 0 w0 = some w →
          (bitOf (x.w 0) 29 = false → exec (.dmaTailReadDone c true g) s =
            .next ((w.bump F.DMA_DONE_COUNT_count (dmaIx c)).dmaNext c w0 next x.count)) ∧
          (bitOf (x.w 0) 29 = true → exec (.dmaTailReadDone c true g) s =
            .next ((((w.bump F.DMA_DONE_COUNT_count (dmaIx c)).setBit F.DMA_STATUS_done (dmaIx c) true).dmaPost c).dmaNext c w0 next
              x.count)))) ∧
      (x.phase = .parked → s.reg .DMA_APPEND_COUNT (dmaIx c) ≠ s.reg .DMA_SEEN (dmaIx c) →
        s.dmaAccess c (s.descSpace c) (s.dmaCur c) 64 false = .ok → s.dmaAccess c (s.descSpace c) (s.dmaCur c) 32 false = .ok →
        s.dmaEcc (s.descSpace c) (s.dmaCur c) 32 = false → u = s.dmaBeatOk c → ws = u.dmaWords (s.descSpace c) (s.dmaCur c) 8 →
        exec (.dmaParkReread c) s = .next ((u.setReg .DMA_SEEN (dmaIx c) (u.reg .DMA_APPEND_COUNT (dmaIx c))).dmaNext c (ws.getD 0 0)
          (joinHalves (ws.getD 7 0) (ws.getD 6 0)).toNat (u.reg .DMA_APPEND_COUNT (dmaIx c)))) ∧
      (∀ seen, (bitOf w0 30 = true → s.dmaNext c w0 next seen = (s.setReg .DMA_SEEN (dmaIx c) seen).modDma c (fun x => x.clear .parked)) ∧
        (bitOf w0 30 = false → s.dmaNext c w0 next seen = (s.setCur c next).modDma c (fun x => x.clear .fetch)))
  )

/-- R427, R439: an access that is permitted to an unprivileged channel lies in host memory inside its window, or in die memory on its own die
and outside the granules of tasks; a privileged one that writes lies outside the granules of tasks; each byte of die memory lies on a live
die that is not fenced. -/
def Obligations.DmaReach : Prop :=
  ∀ (s : State) (c space a n : Nat) (write : Bool), s.dmaAccess c space a n write = .ok →
    (space = 0 → 2 ≤ c % 8 → (s.reg64 .DMA_HWIN_BASE_LO .DMA_HWIN_BASE_HI (dmaIx c)).toNat ≤ a ∧
      a + n ≤ (s.reg64 .DMA_HWIN_BASE_LO .DMA_HWIN_BASE_HI (dmaIx c)).toNat +
        s.fld F.DMA_HWIN_SIZE_pages (dmaIx c) * 4096) ∧
    (space = 1 → ∀ b, a ≤ b → b < a + n → s.present (b / 0x400000) = true ∧ (s.die (b / 0x400000)).live = true ∧
      (s.die (b / 0x400000)).fenced = false ∧ (2 ≤ c % 8 → b / 0x400000 = c / 8) ∧
      ((2 ≤ c % 8 ∨ write = true) → s.granuleHeld (b / 0x400000) (b % 0x400000 / 65536) = false))

/-- R458 to R461, R464, R466, R487: a doorbell sets the tail, or is rejected outside the ring; the entry of the queue whose turn it is, no
sooner than 4 ns after the last, is accepted with its stamp and logged, or turned away as repeated or out of sequence; a failed ring read
stops the queue; a command with a status writes its completion, and a placer command leaves its reason; a queue is enabled with a size in
range, and its base is written only while it is off. -/
def Obligations.CommandQueues : Prop :=
  ∀ (s u : State) (port : Port) (q : Nat) (v : Word) (g : Time) (es : List Word) (c : CqCmd) (st : Nat),
    (s.Opens port (.CQ_DOORBELL, pkg1 q) →
      (bitsOf v 0 12 < s.cqSize q → exec (.cqDoorbell port q v) s = .next (s.wrote (.CQ_DOORBELL, pkg1 q)
        (s.setFld F.CQ_STATUS_tail (pkg1 q) (bitsOf v 0 12)))) ∧
      (s.cqSize q ≤ bitsOf v 0 12 → exec (.cqDoorbell port q v) s = .next (s.wrote (.CQ_DOORBELL, pkg1 q)
        (s.setBit F.CQ_STATUS_db_reject (pkg1 q) true)))) ∧
    (s.dieActs 0 = true → s.cqTurn = some q →
      (∀ t, s.cqTime = some t → upTo (t + nsT 4) g = false → exec (.cqEntryDecode q g) s = .next s) ∧
      (∀ d : Int, (∀ t, s.cqTime = some t → upTo (t + nsT 4) g = true) → es = s.cqEntry q → d = s.cqDist q (es.getD 0 0) →
        u = ({ (s.at g).setFld F.CQ_STATUS_head (pkg1 q) ((s.fld F.CQ_STATUS_head (pkg1 q) + 1) % s.cqSize q) with
          cqLast := q, cqTime := some g }.setBit F.CQ_STATUS_busy (pkg1 q) true) →
        (d = 0 → exec (.cqEntryDecode q g) s = .next
          (((u.setReg .CQ_NEXT_SEQ (pkg1 q) (s.reg .CQ_NEXT_SEQ (pkg1 q) + 1)).setCq q
            ⟨es, g + picots 20480, true, (CqCmd.broken ⟨es, g + picots 20480, true, none, none⟩), none⟩).log 0 0x09 0 q
              (g + picots 20480) es)) ∧
        (-4096 ≤ d → d < 0 → exec (.cqEntryDecode q g) s = .next (u.setCq q ⟨es, 0, false, some 0x80, none⟩)) ∧
        (d < -4096 ∨ 0 < d → exec (.cqEntryDecode q g) s = .next (u.setCq q ⟨es, 0, false, some 0x81, none⟩)))) ∧
    (s.dieActs 0 = true → s.cqHolds q = true → exec (.cqRingReadFail q) s = .next
      (((s.setBit F.CQ_STATUS_stopped (pkg1 q) true).postPriv (s.fld F.EQ_CFG_target (pkg1 (s.fld F.CQ_CFG_eq (pkg1 q))))
        (17 + q)).wake)) ∧
    (s.dieActs 0 = true → s.cq q = some c → c.status = some st →
      u = { (s.at g).completion q c st with cqs := nmDel s.cqs q }.setBit F.CQ_STATUS_busy (pkg1 q) false →
      exec (.commandComplete q g) s = .next (if isPlacerOp c.op = true ∧ c.accepted = true ∧ st < 0x80 then
        u.setFld F.PLC_STATUS_last_reason pkg st else u)) ∧
    (s.Opens port (.CQ_CFG, pkg1 q) →
      (4 ≤ bitsOf v 2 4 → bitsOf v 2 4 ≤ 12 → bitOf (s.reg .CQ_CFG (pkg1 q)) 0 = false →
        exec (.cqEnable port q v) s = .next (s.wrote (.CQ_CFG, pkg1 q)
          ((s.plainWrite .CQ_CFG (pkg1 q) (v ||| 1)).setBit F.CQ_STATUS_stopped (pkg1 q) false))) ∧
      ((bitsOf v 2 4 < 4 ∨ 12 < bitsOf v 2 4 ∨ (bitOf (s.reg .CQ_CFG (pkg1 q)) 0 = true ∧
          (v ||| 1) &&& 0x3E ≠ s.reg .CQ_CFG (pkg1 q) &&& 0x3E)) → exec (.cqEnable port q v) s =
        .next (s.wrote (.CQ_CFG, pkg1 q) (s.setBit F.CQ_STATUS_write_reject (pkg1 q) true)))) ∧
    (∀ lo, s.Opens port (.CQ_BASE_HI, pkg1 q) →
      (((s.port port).staged = some (regAddr (.CQ_BASE_LO, pkg1 q), lo) ∧ u = s.modPort port (fun x => { x with staged := none })) ∨
        ((∀ w, (s.port port).staged ≠ some (regAddr (.CQ_BASE_LO, pkg1 q), w)) ∧ lo = s.reg .CQ_BASE_LO (pkg1 q) ∧ u = s)) →
      (s.bit F.CQ_CFG_en (pkg1 q) = true ∨ bitsOf lo 0 6 ≠ 0 → exec (.cqBaseHiWrite port q v) s =
        .next (s.wrote (.CQ_BASE_HI, pkg1 q) (u.setBit F.CQ_STATUS_write_reject (pkg1 q) true))) ∧
      (s.bit F.CQ_CFG_en (pkg1 q) = false → bitsOf lo 0 6 = 0 → exec (.cqBaseHiWrite port q v) s =
        .next (s.wrote (.CQ_BASE_HI, pkg1 q) ((((u.setReg .CQ_BASE_LO (pkg1 q) lo).setReg .CQ_BASE_HI (pkg1 q) v).setFld
          F.CQ_STATUS_head (pkg1 q) 0).setFld F.CQ_STATUS_tail (pkg1 q) 0))))

/-- R467 to R473: a released record takes the next sequence of its event queue and is written, held, or lost, and every one after a lost one
is lost until the hold is empty; a horizon report of a live die hands over its records and never goes back; enabling a queue starts its
ring anew, with a size and a target in range; a head inside the ring lets the hold drain, and one outside is rejected.
R467: a record written to a ring in ring memory lies there as its 32 bytes at the write index, and nothing else of any memory
changes; its stamp, sequence and phase read back from it. -/
def Obligations.EventQueues : Prop :=
  (
    ∀ (s u : State) (port : Port) (n d : Nat) (r : Rec) (seq : Word) (v : Word) (g : Time) (x : Die),
      (n = r.eq → seq = s.reg .EQ_NEXT_SEQ (pkg1 n) → u = s.setReg .EQ_NEXT_SEQ (pkg1 n) (seq + 1) →
        (s.bit F.EQ_CFG_en (pkg1 n) = false → s.eqPut r = u.bump F.EQ_LOST_COUNT_lost (pkg1 n)) ∧
        (s.bit F.EQ_CFG_en (pkg1 n) = true →
          (∀ a b t, (s.eq n).losing = some (a, b, t) → s.eqPut r =
            (u.bump F.EQ_LOST_COUNT_lost (pkg1 n)).setEq n { s.eq n with losing := some (a, seq, r.stamp) }) ∧
          ((s.eq n).losing = none →
            ((s.eq n).hold = [] → s.eqCanWrite n = true → s.eqPut r = u.eqWrite n r seq) ∧
            (((s.eq n).hold ≠ [] ∨ s.eqCanWrite n = false) → (s.eq n).hold.length < 512 →
              s.eqPut r = u.setEq n { s.eq n with hold := (s.eq n).hold ++ [(r, seq)] }) ∧
            (512 ≤ (s.eq n).hold.length → s.eqPut r =
              (u.bump F.EQ_LOST_COUNT_lost (pkg1 n)).setEq n { s.eq n with losing := some (seq, seq, r.stamp) })))) ∧
      (∀ old new, u = s.fencesOverdue g → x = (u.at g).die d → x.live = true → (u.at g).dieActs d = true →
        old = g - picots ((u.at g).lagOf d) - nsT 500 → new = (match x.report with | some r => later r old | none => old) →
        exec (.horizonReport d g) s = .next (((((u.at g).setDie d { x with report := some new, outbox := [] }).receive d
          x.outbox).newHorizon).drainHolds)) ∧
      (s.Opens port (.EQ_CFG, pkg1 n) →
        (4 ≤ bitsOf v 2 5 → bitsOf v 2 5 ≤ 16 → bitsOf v 8 5 ≤ 17 → bitOf (s.reg .EQ_CFG (pkg1 n)) 0 = false →
          exec (.eqEnable port n v) s = .next (s.wrote (.EQ_CFG, pkg1 n)
          (((((((s.plainWrite .EQ_CFG (pkg1 n) (v ||| 1)).setFld F.EQ_STATUS_write_index (pkg1 n) 0).setBit F.EQ_STATUS_phase
            (pkg1 n) true).setFld F.EQ_HEAD_head (pkg1 n) 0).setReg .EQ_NEXT_SEQ (pkg1 n) 0).bumpBy F.EQ_LOST_COUNT_lost (pkg1 n)
            (s.eq n).hold.length).setEq n EqSt.reset))) ∧
        ((bitsOf v 2 5 < 4 ∨ 16 < bitsOf v 2 5 ∨ 17 < bitsOf v 8 5) → exec (.eqEnable port n v) s =
          .next (s.wrote (.EQ_CFG, pkg1 n) (s.setBit F.EQ_STATUS_write_reject (pkg1 n) true)))) ∧
      (s.Opens port (.EQ_HEAD, pkg1 n) →
        (bitsOf v 0 16 < s.eqSize n → exec (.eqHeadWrite port n v) s = .next (s.wrote (.EQ_HEAD, pkg1 n)
          ((s.setFld F.EQ_HEAD_head (pkg1 n) (bitsOf v 0 16)).eqDrain n 514))) ∧
        (s.eqSize n ≤ bitsOf v 0 16 → exec (.eqHeadWrite port n v) s =
          .next (s.wrote (.EQ_HEAD, pkg1 n) (s.setBit F.EQ_STATUS_write_reject (pkg1 n) true))))
  ) ∧ (
    ∀ (s t : State) (n a w : Nat) (r : Rec) (seq : Word), t = s.eqWrite n r seq → s.bit F.EQ_CFG_space (pkg1 n) = true →
      w = s.fld F.EQ_STATUS_write_index (pkg1 n) →
      a = ((s.reg64 .EQ_BASE_LO .EQ_BASE_HI (pkg1 n)).toNat + 32 * w) % 0x80000 →
      memReadList t.ring a 32 = recBytes r seq (s.bit F.EQ_STATUS_phase (pkg1 n)) ∧
      (∀ b, (b < a ∨ a + 32 ≤ b) → memRead t.ring b = memRead s.ring b) ∧
      t.dieMem = s.dieMem ∧ t.hostMem = s.hostMem ∧
      leNat ((memReadList t.ring a 32).take 8) = r.stamp.toNat ∧
      leNat (((memReadList t.ring a 32).drop 8).take 4) = seq.toNat
  )

/-- R475 to R481, R488: an armed target with GDIS = 0 and a winner gets one notification and disarms, any other none; CLAIM takes the winner,
or arms, and through the debug port changes nothing; COMPLETE ends a source that the target holds active, and any other is an error; the
blocks of targets 16 and 17 take writes of trusted ports only; a doorbell posts a source, or is counted as rejected; a hold-off ends; a
message enters a free mailbox, and none a full one.
R477: the winner of a target is one of the sources that could be delivered to it and no other of them beats it; there is none
exactly when nothing could be delivered. -/
def Obligations.RouterCommands : Prop :=
  (
    ∀ (s : State) (port : Port) (t n tgt : Nat) (v : Word) (x : Time) (ws : List Word),
      (t < 18 →
        (∀ c, s.bit F.RTR_STATUS_armed (pkg1 t) = true → s.bit F.RTR_CTRL_gdis (pkg1 t) = false → s.winner t = some c →
          exec (.routerNotify t) s = .next (if t < 16 then (s.setBit F.RTR_STATUS_armed (pkg1 t) false).msix t
            else { s.setBit F.RTR_STATUS_armed (pkg1 t) false with coreIrq := t :: s.coreIrq.filter (fun x => x != t) })) ∧
        ((s.bit F.RTR_STATUS_armed (pkg1 t) = false ∨ s.bit F.RTR_CTRL_gdis (pkg1 t) = true ∨ s.winner t = none) →
          exec (.routerNotify t) s = .next s)) ∧
      (t < 18 → s.Reads port (regAddr (.RTR_CLAIM, pkg1 t)) (.RTR_CLAIM, pkg1 t) →
        (∀ c, s.winner t = some c → port ≠ .debug → exec (.rtrClaim port t) s = .next
          ((if port = .mgmt0 ∨ port = .mgmt1 then { s.take t c with coreIrq := s.coreIrq.filter (fun x => x != t) }
            else s.take t c).gave port (BitVec.ofNat 32 c.2.2))) ∧
        (∀ c, s.winner t = some c → port = .debug → exec (.rtrClaim port t) s = .next (s.gave port (BitVec.ofNat 32 c.2.2))) ∧
        (s.winner t = none → port ≠ .debug → exec (.rtrClaim port t) s = .next
          ((if port = .mgmt0 ∨ port = .mgmt1 then
            { s.setBit F.RTR_STATUS_armed (pkg1 t) true with coreIrq := s.coreIrq.filter (fun x => x != t) }
            else s.setBit F.RTR_STATUS_armed (pkg1 t) true).gave port 0)) ∧
        (s.winner t = none → port = .debug → exec (.rtrClaim port t) s = .next (s.gave port 0))) ∧
      (s.Opens port (.RTR_COMPLETE, pkg1 t) → n = bitsOf v 0 12 →
        ((t < 16 ∨ trustedPort port = true) →
          (1 ≤ n → n < 64 → s.privBit .RTR_PRIV_ACT_LO .RTR_PRIV_ACT_HI t n = true → exec (.rtrComplete port t v) s =
            .next (s.wrote (.RTR_COMPLETE, pkg1 t) (s.setPriv .RTR_PRIV_ACT_LO .RTR_PRIV_ACT_HI t n false))) ∧
          (64 ≤ n → s.bit F.RTR_SRC_active (pkg1 (n - 64)) = true → nmGet? s.claims n = some t →
            exec (.rtrComplete port t v) s = .next (s.wrote (.RTR_COMPLETE, pkg1 t)
              { s.setBit F.RTR_SRC_active (pkg1 (n - 64)) false with claims := nmDel s.claims n })) ∧
          ((n = 0 ∨ (n < 64 ∧ s.privBit .RTR_PRIV_ACT_LO .RTR_PRIV_ACT_HI t n = false) ∨
              (64 ≤ n ∧ (s.bit F.RTR_SRC_active (pkg1 (n - 64)) = false ∨ nmGet? s.claims n ≠ some t))) →
            exec (.rtrComplete port t v) s =
              .next (s.wrote (.RTR_COMPLETE, pkg1 t) (s.setBit F.RTR_STATUS_complete_err (pkg1 t) true)))) ∧
        (16 ≤ t → trustedPort port = false → exec (.rtrComplete port t v) s =
          .next (s.wrote (.RTR_COMPLETE, pkg1 t) (s.setBit F.RTR_STATUS_write_reject (pkg1 t) true)))) ∧
      (∀ ok : Bool, s.Opens port (.RTR_DOORBELL, pkg) → n = bitsOf v 0 12 → tgt = bitsOf v 16 5 →
        ok = decide (bitsOf v 12 4 = 0 ∧ bitsOf v 21 11 = 0 ∧ (ownSource n = true → port = .mgmt0 ∨ port = .mgmt1) ∧
          (n < 64 → tgt ≤ (if trustedPort port then 17 else 15)) ∧ (64 ≤ n → tgt = 0)) →
        (ok = true → 64 ≤ n →
          exec (.rtrDoorbell port v) s = .next (s.wrote (.RTR_DOORBELL, pkg) (s.postShared n).wake)) ∧
        (ok = true → 1 ≤ n → n ≤ 33 →
          exec (.rtrDoorbell port v) s = .next (s.wrote (.RTR_DOORBELL, pkg) (s.postPriv tgt n).wake)) ∧
        (ok = false → exec (.rtrDoorbell port v) s = .next (s.wrote (.RTR_DOORBELL, pkg) (s.bump F.RTR_DB_REJECT_count pkg)))) ∧
      (nmGet? s.groups n = some x → exec (.groupHoldoffExpiry n) s = .next
        { (s.at x).setBit F.RTR_GROUP_running (pkg1 n) false with groups := nmDel s.groups n }) ∧
      (t < 18 →
        (s.bit F.MBOX_FULL_full (pkg1 t) = false → exec (.mailboxPost t ws) s = .next
          (((((List.range 15).foldl (fun s i => s.setReg .MBOX_WORD (pkg2 t i) (ws.getD i 0)) s).setBit F.MBOX_FULL_full (pkg1 t)
            true).postPriv t 33).wake)) ∧
        (s.bit F.MBOX_FULL_full (pkg1 t) = true → exec (.mailboxPost t ws) s = .next s))
  ) ∧ (
    ∀ (s : State) (t : Nat) (l : List Cand), l = s.privCands t ++ s.sharedCands t →
      (s.winner t = none ↔ l = []) ∧
      (∀ c, s.winner t = some c → c ∈ l ∧ ∀ b ∈ l, candBeats b c = false)
  )

/-- R12 to R18, R22, R24, R31, R452, R455, R456, R522: a 32-bit write at the place of a register is a write of that register, of a port that may
write (a management pair only in control); a read answers the register's value and clears its RC fields unless the port is the debug
port; a low half captures the high half; the quad-SPI target does the same, and a read that timed out acts and drives 0.
The MSI-X table in BAR2 holds a mask bit for each entry, and an entry that is unmasked sends its pending message.
R19, R23, R24, R31: a 64-bit access is the access of both halves at once; any other that is no aligned 32-bit access of a register
completes, reads 0, and writes nothing.
R24, R54 to R57: any access to the window of an absent or fenced die completes and is counted once, a read with 0 but for the health
block of a fenced die; die memory is read at 8, 16, 32 and 64 bits, and takes writes of those widths that meet no granule of a task.
R21, R22, R23, R25: a write of a low half only stages it at its port; the high half then writes both at once, with the half staged for
the same register, else with the low half as it stands; a unit that a running task declares takes no write. -/
def Obligations.RegisterAccess : Prop :=
  (
    ∀ (s u : State) (p : Port) (a : Nat) (k : RKey) (v w : Word) (x : BitVec 64),
      (AtReg a k → s.reaches p a = true → s.mayWrite p = true →
        exec (.registerWrite p ⟨a, 32⟩ x) s = .next (s.hostWriteReg p k (loHalf x)) ∧
        exec (.reg64HiWrite p ⟨a, 32⟩ x) s = .next (s.hostWriteReg p k (loHalf x)) ∧
        (p = .qspi → exec (.qspiWrite32 a v) s = .next (s.hostWriteReg .qspi k v))) ∧
      (s.mayWrite p = false → exec (.registerWrite p ⟨a, 32⟩ x) s = .next s ∧ exec (.reg64HiWrite p ⟨a, 32⟩ x) s = .next s) ∧
      (s.mayWrite .mgmt0 = s.boot.pair0 ∧ s.mayWrite .mgmt1 = s.boot.takeover ∧ s.mayWrite .pcie = true ∧ s.mayWrite .qspi = true ∧
        s.mayWrite .debug = true) ∧
      (s.Reads p a k →
        (k.1.info.half = 1 → u = s.modPort p (fun y => { y with capture := hiHalf (s.view64 k.1 k.2) }) →
          exec (.reg64LoRead p ⟨a, 32⟩) s = .next ((match k.1 with
            | .PIN_NEXT_LO => u.modPort p (fun y => { y with pinInfo := (s.viewNext (64 * k.2.d + k.2.i)).2 })
            | .HOOP_LAST_TOOTH_LO => u.modPort p (fun y => { y with toothInfo :=
                match (s.hoop (4 * k.2.d + k.2.i)).pts with | y :: _ => y.info | [] => 0 })
            | _ => u).gave p (loHalf (s.view64 k.1 k.2)))) ∧
        (k.1.info.half = 2 → exec (.reg64LoRead p ⟨a, 32⟩) s = .next (s.gave p (s.port p).capture)) ∧
        (k.1 = .PIN_NEXT_INFO → exec (.rcFieldRead p ⟨a, 32⟩) s = .next (s.gave p (s.port p).pinInfo)) ∧
        (k.1 = .HOOP_TOOTH_INFO → exec (.rcFieldRead p ⟨a, 32⟩) s = .next (s.gave p (s.port p).toothInfo)) ∧
        (k.1 = .RTR_CLAIM → exec (.rcFieldRead p ⟨a, 32⟩) s = .next ((rtrClaimRead s p k.2.i).2.gave p (rtrClaimRead s p k.2.i).1)) ∧
        (k.1.info.half = 0 → k.1 ≠ .RTR_CLAIM → k.1 ≠ .PIN_NEXT_INFO → k.1 ≠ .HOOP_TOOTH_INFO → s.view k.1 k.2 = (w, u) →
          exec (.rcFieldRead p ⟨a, 32⟩) s = .next ((if p = .debug ∨ k.1.info.rc = 0 then u else
            u.setReg k.1 k.2 (u.reg k.1 k.2 &&& ~~~(BitVec.ofNat 32 k.1.info.rc))).gave p w)) ∧
        (p = .qspi → exec (.qspiRead32 a) s = exec (.rcFieldRead .qspi ⟨a, 32⟩) s) ∧
        (p = .qspi → exec (.rcFieldRead .qspi ⟨a, 32⟩) s = .next u → exec (.qspiReadTimeout a) s = .next (u.gave .qspi 0))) ∧
      (∀ o t : Nat, s.boot.inReset = false → s.boot.perst = false →
        (o < 0x10000 → o % 4 = 0 → exec (.rcFieldRead .pcie ⟨0x10000000 + o, 32⟩) s = .next (s.gave .pcie (s.bar2Read o)) ∧
          (0x400 ≤ o → exec (.registerWrite .pcie ⟨0x10000000 + o, 32⟩ x) s = .next s)) ∧
        (t < 64 → o = 0x10000000 + 16 * t + 12 →
          (bitOf (loHalf x) 0 = true → exec (.registerWrite .pcie ⟨o, 32⟩ x) s =
            .next { s with pcie := { s.pcie with msixMask := s.pcie.msixMask ||| BitVec.ofNat 64 (2 ^ t) } }) ∧
          (bitOf (loHalf x) 0 = false →
            u = { s with pcie := { s.pcie with
              msixMask := s.pcie.msixMask &&& ~~~(BitVec.ofNat 64 (2 ^ t)), pba := s.pcie.pba &&& ~~~(BitVec.ofNat 64 (2 ^ t)) } } →
            exec (.registerWrite .pcie ⟨o, 32⟩ x) s = .next (if s.pcie.pba.getLsbD t then u.msix t else u))))
  ) ∧ (
    ∀ (s : State) (p : Port) (a width : Nat) (k : RKey) (x : BitVec 64),
      (s.Reads p a k → k.1.info.half = 1 → k.1 ≠ .PIN_NEXT_LO → k.1 ≠ .HOOP_LAST_TOOTH_LO → a % 8 = 0 →
        AtReg (a + 4) (k.1.hi, k.2) → k.1.hi.info.half = 2 →
        exec (.reg64LoRead p ⟨a, 64⟩) s = .next ((s.modPort p (fun y => { y with capture := hiHalf (s.view64 k.1 k.2) })).gave64 p
          (s.view64 k.1 k.2))) ∧
      (AtReg a k → k.1.info.half = 1 → a % 8 = 0 → AtReg (a + 4) (k.1.hi, k.2) → s.reaches p a = true → s.mayWrite p = true →
        (0x08000000 ≤ a → s.windowUp ((a - 0x08000000) / 0x01000000) = true) →
        exec (.registerWrite p ⟨a, 64⟩ x) s = .next ((s.hostWriteReg p k (loHalf x)).hostWriteReg p (k.1.hi, k.2) (hiHalf x)) ∧
        exec (.reg64HiWrite p ⟨a, 64⟩ x) s = exec (.registerWrite p ⟨a, 64⟩ x) s) ∧
      (a < 0x08000000 → (width = 8 ∨ width = 16 ∨ (width = 64 ∧ a % 8 ≠ 0) ∨ (width = 32 ∧ a % 4 ≠ 0)) →
        exec (.rcFieldRead p ⟨a, width⟩) s = .next (s.gave p 0) ∧ exec (.reg64LoRead p ⟨a, width⟩) s = .next (s.gave p 0) ∧
        exec (.registerWrite p ⟨a, width⟩ x) s = .next s ∧ exec (.reg64HiWrite p ⟨a, width⟩ x) s = .next s)
  ) ∧ (
    ∀ (s : State) (p : Port) (a d off n width : Nat) (x : BitVec 64), a = 0x08000000 + 0x01000000 * d + off → d < 8 →
        off < 0x01000000 → s.reaches p a = true →
      (s.present d = false → exec (.absentDieAccess p ⟨a, width⟩ false) s = .next ((s.bump F.ABSENT_ACCESS_COUNT_count pkg).gave p 0)) ∧
      (s.windowUp d = false → s.mayWrite p = true →
        exec (.absentDieAccess p ⟨a, width⟩ true) s = .next (s.bump F.ABSENT_ACCESS_COUNT_count pkg)) ∧
      (s.present d = true → (s.die d).fenced = true → exec (.absentDieAccess p ⟨a, 32⟩ false) s =
        .next ((s.bump F.ABSENT_ACCESS_COUNT_count pkg).gave p
          (if 0x900000 ≤ off ∧ off < 0xA00000 then nmGet (s.die d).snapshot off 0 else 0))) ∧
      (s.windowUp d = true → exec (.absentDieAccess p ⟨a, width⟩ true) s = .next s ∧ exec (.absentDieAccess p ⟨a, width⟩ false) s = .next s) ∧
      (s.windowUp d = true → (n = 1 ∨ n = 2 ∨ n = 4 ∨ n = 8) → off % n = 0 → off < 0x400000 →
        (n ≤ 4 → exec (.rcFieldRead p ⟨a, 8 * n⟩) s =
          .next (s.gave p (BitVec.ofNat 32 (leNat (memReadList s.dieMem (dieAddr d off) n))))) ∧
        exec (.rcFieldRead p ⟨a, 64⟩) s = .next (if off % 8 = 0 then s.gave64 p
          (BitVec.ofNat 64 (leNat (memReadList s.dieMem (dieAddr d off) 8))) else s.gave p 0) ∧
        (s.mayWrite p = true →
          (s.rangeHeld d off n = false → exec (.dieMemoryWrite p d off (8 * n) x) s =
            .next (s.writeDie d off (leBytes x.toNat n))) ∧
          (s.rangeHeld d off n = true → exec (.dieMemoryWrite p d off (8 * n) x) s =
            .next (s.bump F.MEM_WRITE_REJECT_COUNT_count pkg))) ∧
        (s.mayWrite p = false → exec (.dieMemoryWrite p d off (8 * n) x) s = .next s))
  ) ∧ (
    ∀ (s : State) (p : Port) (k : RKey) (v w : Word) (f : Fld) (ix : Ix), s.Opens p k →
      (s.lockBit k = some (f, ix) → s.hostWriteReg p k v = s.wrote k (s.setBit f ix true)) ∧
      (s.lockBit k = none → k.1.info.half = 1 → k.1.info.rw ≠ 0 →
        s.hostWriteReg p k v = s.wrote k (s.modPort p (fun x => { x with staged := some (regAddr k, v) }))) ∧
      (s.lockBit k = none → k.1.info.half = 2 → k.1.info.rw ≠ 0 → s.hostWriteReg p k v =
        s.wrote k ((s.lowHalf p (k.1.lo, k.2)).2.write64 p k.1.lo k.2 (s.lowHalf p (k.1.lo, k.2)).1 v)) ∧
      (∀ b, (s.port p).staged = some (regAddr k, w) → b = s.modPort p (fun x => { x with staged := none }) →
        s.lowHalf p k = (w, b)) ∧
      (∀ e, (s.port p).staged = some (e, w) → e ≠ regAddr k → s.lowHalf p k = (s.reg k.1 k.2, s)) ∧
      ((s.port p).staged = none → s.lowHalf p k = (s.reg k.1 k.2, s)) ∧
      (s.lockBit k = none → k.1.info.half = 1 ∨ k.1.info.half = 2 → k.1.info.rw = 0 → s.hostWriteReg p k v = s.wrote k s)
  )

/-- R14: the plain effect of a write changes no other register and no bit of a reserved or read-only field; RW bits take the value. -/
def Obligations.PlainWritesKeepOtherBits : Prop :=
  ∀ (s : State) (r q : Reg) (ix jx : Ix) (v : Word) (b : Nat),
    ((r, ix) ≠ (q, jx) → (s.plainWrite r ix v).reg q jx = s.reg q jx) ∧
    (b < 32 → (r.info.rw ||| r.info.w1c ||| r.info.w1s).testBit b = false →
      ((s.plainWrite r ix v).reg r ix).getLsbD b = (s.reg r ix).getLsbD b) ∧
    (b < 32 → r.info.rw.testBit b = true → r.info.w1c.testBit b = false → ((s.plainWrite r ix v).reg r ix).getLsbD b = v.getLsbD b) ∧
    (s.plainWrite r ix v).dieMem = s.dieMem ∧ (s.plainWrite r ix v).tasks = s.tasks

/-- R140 to R149, R228, R540: the selections take snapshots; halt, resume, single-step and breakpoints of the selected context, and what rejects
them. A halt stands from its command on; a resume ends the context's own halt with one record, and discards a step that was cut off
meanwhile; a single-step without a step changes nothing but the write itself (log entry 89).
R539, R540: the unlock: a challenge, a response that is checked, success or a failure that counts and voids the challenge; the lock is
refused while anything is halted; a package halt needs an unlocked port; its resume discards the steps that were cut off in it, moves
every running carrier's boundary by the length of the halt, and leaves one record. -/
def Obligations.DebugAccess : Prop :=
  (
    ∀ (s : State) (port : Port) (d t : Nat) (k : Task) (v : Word),
      (s.Opens port (.CTX_SEL, dieIx d) →
        (s.taskOn (bitsOf v 0 12) d = some k → exec (.ctxSelWrite port d v) s = .next (s.wrote (.CTX_SEL, dieIx d)
          ((s.plainWrite .CTX_SEL (dieIx d) v).setRegs ((s.plainWrite .CTX_SEL (dieIx d) v).ctxWords d k (bitOf v 12))))) ∧
        (s.taskOn (bitsOf v 0 12) d = none → exec (.ctxSelWrite port d v) s = .next (s.wrote (.CTX_SEL, dieIx d)
          ((s.plainWrite .CTX_SEL (dieIx d) v).setRegs (ctxZero d))))) ∧
      (s.Opens port (.PLC_RPT_SEL, pkg) →
        exec (.plcRptSelWrite port v) s = .next (s.wrote (.PLC_RPT_SEL, pkg) (plcRptSel s v))) ∧
      (s.haltedTask k = (k.halt.isSome || s.dbg.halt.isSome)) ∧
      (s.Opens port (.DBG_CTRL, dieIx d) → t = s.ctxSel d →
        (s.unlocked = false → ∀ c, c = .ctxHalt port d ∨ c = .ctxResume port d ∨ c = .ctxSingleStep port d ∨ c = .brkEnable port d →
          exec c s = .next (s.wrote (.DBG_CTRL, dieIx d) (s.setBit F.DBG_STATUS_locked_reject (dieIx d) true))) ∧
        (s.taskOn t d = none → ∀ c, (s.unlocked = true ∧ (c = .ctxHalt port d ∨ c = .ctxResume port d ∨ c = .ctxSingleStep port d ∨
            c = .brkEnable port d)) ∨ c = .brkDisable port d →
          exec c s = .next (s.wrote (.DBG_CTRL, dieIx d) (s.setBit F.DBG_STATUS_not_here_reject (dieIx d) true))) ∧
        (s.taskOn t d = some k → exec (.brkDisable port d) s =
          .next (s.wrote (.DBG_CTRL, dieIx d) (s.setTask t { k with brk := false }))) ∧
        (s.unlocked = true → s.taskOn t d = some k →
          exec (.brkEnable port d) s = .next (s.wrote (.DBG_CTRL, dieIx d) (s.setTask t { k with brk := true })) ∧
          (s.haltedTask k = false →
            exec (.ctxHalt port d) s = .next (s.wrote (.DBG_CTRL, dieIx d) (s.setTask t { k with halt := some s.now })) ∧
            exec (.ctxResume port d) s = .next (s.wrote (.DBG_CTRL, dieIx d) (s.setBit F.DBG_STATUS_state_reject (dieIx d) true)) ∧
            exec (.ctxSingleStep port d) s =
              .next (s.wrote (.DBG_CTRL, dieIx d) (s.setBit F.DBG_STATUS_state_reject (dieIx d) true))) ∧
          (s.haltedTask k = true →
            exec (.ctxHalt port d) s = .next (s.wrote (.DBG_CTRL, dieIx d) (s.setBit F.DBG_STATUS_state_reject (dieIx d) true)) ∧
            exec (.ctxSingleStep port d) s = .next (s.wrote (.DBG_CTRL, dieIx d)
              (s.setTask t { k with step := k.step.map (fun st => { st with single := true }) })) ∧
            (k.halt = none → exec (.ctxResume port d) s = .next (s.wrote (.DBG_CTRL, dieIx d) s)) ∧
            (∀ entry, k.halt = some entry → s.dbg.halt.isSome = true → exec (.ctxResume port d) s =
              .next (s.wrote (.DBG_CTRL, dieIx d) ((s.setTask t { k with halt := none }).haltRec k.die entry))) ∧
            (∀ entry, k.halt = some entry → s.dbg.halt = none →
              (k.step = none → exec (.ctxResume port d) s = .next (s.wrote (.DBG_CTRL, dieIx d)
                ((s.setTask t { k with halt := none }).haltRec k.die entry))) ∧
              (∀ st, k.step = some st → st.cutOff = true → exec (.ctxResume port d) s = .next (s.wrote (.DBG_CTRL, dieIx d)
                ((s.setTask t { k with halt := none, step := none }).haltRec k.die entry))) ∧
              (∀ st, k.step = some st → st.cutOff = false → exec (.ctxResume port d) s = .next (s.wrote (.DBG_CTRL, dieIx d)
                ((s.setTask t { k with halt := none, step := some { st with single := false } }).haltRec k.die entry)))))))
  ) ∧ (
    ∀ (s u w : State) (port : Port) (g entry : Time),
      (s.Opens port (.DBG_LOCK, pkg) →
        (s.unlockRefused = true →
          exec (.dbgNewChallenge port) s = .next (s.wrote (.DBG_LOCK, pkg)
            ((s.plainWrite .DBG_LOCK pkg 2).setBit F.DBG_LOCK_refused pkg true)) ∧
          exec (.dbgSubmit port) s = .next (s.wrote (.DBG_LOCK, pkg)
            ((s.plainWrite .DBG_LOCK pkg 4).setBit F.DBG_LOCK_refused pkg true))) ∧
        (s.unlockRefused = false →
          exec (.dbgNewChallenge port) s = .next (s.wrote (.DBG_LOCK, pkg) (s.plainWrite .DBG_LOCK pkg 2).newChallenge) ∧
          (u = s.plainWrite .DBG_LOCK pkg 4 → exec (.dbgSubmit port) s = .next (s.wrote (.DBG_LOCK, pkg)
              { u.setBit F.DBG_LOCK_busy pkg true with dbg := { s.dbg with checking := true } }))) ∧
        (s.anyHalted = true → exec (.dbgLock port) s = .next (s.wrote (.DBG_LOCK, pkg)
          ((s.plainWrite .DBG_LOCK pkg 8).setBit F.DBG_LOCK_cmd_reject pkg true))) ∧
        (s.anyHalted = false → exec (.dbgLock port) s = .next (s.wrote (.DBG_LOCK, pkg)
          ((s.plainWrite .DBG_LOCK pkg 8).setUnlocked false)))) ∧
      (s.dbg.checking = true → u = { s.setBit F.DBG_LOCK_busy pkg false with dbg := { s.dbg with checking := false } } →
        (s.responseOk = true → exec .dbgUnlockCheckDone s = .next (u.setUnlocked true)) ∧
        (s.responseOk = false → w = (u.setFld F.DBG_LOCK_failures pkg (min 8 (s.fld F.DBG_LOCK_failures pkg + 1))).voidChallenge →
          exec .dbgUnlockCheckDone s = .next (if s.fuses.debugDisabled = true ∨ 7 ≤ s.fld F.DBG_LOCK_failures pkg then
            w.setBit F.DBG_LOCK_refused pkg true else w))) ∧
      (s.dbg.checking = false → exec .dbgUnlockCheckDone s = .next s) ∧
      (w = s.at g → w.Opens port (.DBG_PKG_CTRL, pkg) →
        (s.unlocked = true → s.dbg.halt = none → exec (.packageDebugHalt port g) s = .next (w.wrote (.DBG_PKG_CTRL, pkg)
          { w.setBit F.DBG_PKG_CTRL_halted pkg true with dbg := { s.dbg with halt := some w.now } })) ∧
        ((s.unlocked = false ∨ s.dbg.halt = some entry) → exec (.packageDebugHalt port g) s =
          .next (w.wrote (.DBG_PKG_CTRL, pkg) (w.setBit F.DBG_LOCK_cmd_reject pkg true))) ∧
        (s.dbg.halt = none → exec (.packageDebugResume port g) s =
          .next (w.wrote (.DBG_PKG_CTRL, pkg) (w.setBit F.DBG_LOCK_cmd_reject pkg true))) ∧
        (s.dbg.halt = some entry → exec (.packageDebugResume port g) s = .next (w.wrote (.DBG_PKG_CTRL, pkg)
          ({ w.setBit F.DBG_PKG_CTRL_halted pkg false with
              dbg := { s.dbg with halt := none },
              tasks := s.tasks.map (fun (e : Nat × Task) => (e.1, e.2.endHalt)),
              cars := s.cars.map (fun (e : Nat × CarSt) => (e.1, e.2.thaw entry (w.now - entry))) }.haltRec 0 entry)))) ∧
      (∀ (x : CarSt), x.mode ≠ .stopped → (x.thaw entry g).bnd = x.bnd + g) ∧
      (∀ (k : Task) (st : Step), k.step = some st → st.cutOff = true → k.halt = none → k.endHalt = { k with step := none })
  )

/-- R67, R68, R69, R391, R101, R103: what the writes of the time and log registers accept and reject, when a slew takes effect, and the
record that closes a run of lost log entries at the latest 1 ms after the first; on an empty queue one core cycle passes once die 0's
core is enabled (the tick: log entry 22).
R67: without a slew the tick advances ground time by 64 picots; with one, a thousand million ticks advance it by 64 · (10^9 + slew).
R390: an offset above step_us steps PLANT_OFFSET by it with no task running, and the integrator ends; in every other case the servo
leaves PLANT_OFFSET, the integrator grows by the offset within its limit, and the slew it asks for lies within max_ppb. -/
def Obligations.TimeAndLog : Prop :=
  (
    ∀ (s s' : State) (port : Port) (v hi : Word) (g : Time) (d : Nat), s' = s.at g →
      (s'.Opens port (.GT_SLEW, pkg) →
        (s.bit F.TIME_CTRL_servo_en pkg = false → -500000 ≤ slewInt v → slewInt v ≤ 500000 → exec (.gtSlewWrite port v g) s =
          .next (s'.wrote (.GT_SLEW, pkg) (s'.acceptSlew (slewInt v)))) ∧
        ((s.bit F.TIME_CTRL_servo_en pkg = true ∨ slewInt v < -500000 ∨ 500000 < slewInt v) → exec (.gtSlewWrite port v g) s =
          .next (s'.wrote (.GT_SLEW, pkg) (s'.setBit F.TIME_STATUS_slew_reject pkg true)))) ∧
      (∀ x, (s'.acceptSlew x).slewPend = some (slewInstant s'.now, x) ∧ (slewInstant s'.now).toNat % 65536 = 0) ∧
      (∀ t x, s.slewPend = some (t, x) → exec .slewApply s = .next { s.at t with slew := x, slewPend := none }) ∧
      (s.slewPend = none → exec .slewApply s = .next s) ∧
      (∀ (lo : Word) (u : State), s.Opens port (.GT_SET_HI, pkg) → s.lowHalf port (.GT_SET_LO, pkg) = (lo, u) →
        (s.bit F.TIME_STATUS_first_step_done pkg = true → exec (.gtSet port hi) s =
          .next (s.wrote (.GT_SET_HI, pkg) (u.setBit F.TIME_STATUS_set_reject pkg true))) ∧
        (s.bit F.TIME_STATUS_first_step_done pkg = false → exec (.gtSet port hi) s = .next (s.wrote (.GT_SET_HI, pkg)
          { (u.setReg .GT_SET_LO pkg lo).setReg .GT_SET_HI pkg hi with now := joinHalves hi lo, slewFrac := 0 }.rebaseReports))) ∧
      (∀ (lo : Word) (u : State), s.Opens port (.PLANT_OFFSET_HI, pkg) → s.lowHalf port (.PLANT_OFFSET_LO, pkg) = (lo, u) →
        ((s.anyRunning = true ∨ s.bit F.TIME_CTRL_servo_en pkg = true) → exec (.plantOffsetWrite port hi) s =
          .next (s.wrote (.PLANT_OFFSET_HI, pkg) (u.setBit F.TIME_STATUS_offset_reject pkg true))) ∧
        (s.anyRunning = false → s.bit F.TIME_CTRL_servo_en pkg = false → exec (.plantOffsetWrite port hi) s =
          .next (s.wrote (.PLANT_OFFSET_HI, pkg) ((u.setReg .PLANT_OFFSET_LO pkg lo).setReg .PLANT_OFFSET_HI pkg hi)))) ∧
      (s'.Opens port (.TIME_CTRL, pkg) → exec (.timeCtrlWrite port v g) s = .next (s'.wrote (.TIME_CTRL, pkg)
        (if bitOf v 0 then (s'.plainWrite .TIME_CTRL pkg v).setUnqual 5 else (s'.plainWrite .TIME_CTRL pkg v).clearUnqual 6))) ∧
      (s.Opens port (.LOG_CTRL, pkg) →
        (bitOf v 0 = s.logging → exec (.logCtrlWrite port v) s = .next (s.wrote (.LOG_CTRL, pkg) s)) ∧
        (bitOf v 0 ≠ s.logging → s.anyRunning = true → exec (.logCtrlWrite port v) s =
          .next (s.wrote (.LOG_CTRL, pkg) (s.setBit F.TIME_STATUS_log_reject pkg true))) ∧
        (bitOf v 0 ≠ s.logging → s.anyRunning = false → exec (.logCtrlWrite port v) s = .next (s.wrote (.LOG_CTRL, pkg)
          ((s.plainWrite .LOG_CTRL pkg v).liveDies.foldl (fun s d => s.bindLog d (bitOf v 0)) (s.plainWrite .LOG_CTRL pkg v))))) ∧
      (∀ t first n, (s.die d).logLost = some (t, first, n) →
        (upTo (first + ms1) g = true → exec (.logGapClose d g) s = .next
          ((s'.setDie d { s.die d with logLost := none }).detRec d (0x0A58 + d) 0x25 (earlier g (first + ms1))
            (leBytes 0xFFFF 2 ++ leBytes d 2 ++ timeBytes t ++ leBytes (min n 0xFFFFFF) 3))) ∧
        (upTo (first + ms1) g = false → exec (.logGapClose d g) s = .next s)) ∧
      ((s.die d).logLost = none → exec (.logGapClose d g) s = .next s) ∧
      (s.pending = [] →
        ((s.die 0).core = true → s.boot.inReset = false → step s = .next s.tick) ∧
        ((s.die 0).core = false ∨ s.boot.inReset = true → step s = .next s))
  ) ∧ (
    ∀ (s t : State), 0 ≤ s.slewFrac → s.slewFrac < 1000000000 → t = Nat.repeat State.tick 1000000000 s →
      (s.slew = 0 → s.slewFrac = 0 → s.tick.now = s.now + 64) ∧ t.slewFrac = s.slewFrac ∧ t.slew = s.slew ∧
      t.now = s.now + BitVec.ofInt 64 (64 * (1000000000 + s.slew))
  ) ∧ (
    ∀ (s t : State) (o : Int) (m : Nat), t = s.steer o → m = s.fld F.NET_SERVO_max_ppb pkg →
      (s.anyRunning = false → (s.fld F.NET_SERVO_step_us pkg * 1000 : Int) < |o| →
        t.plantOffset = s.plantOffset - BitVec.ofInt 64 (o * 64) ∧ t.ptp = { s.ptp with sum := 0 } ∧ t.slewPend = s.slewPend) ∧
      (s.anyRunning = true ∨ |o| ≤ (s.fld F.NET_SERVO_step_us pkg * 1000 : Int) →
        t.plantOffset = s.plantOffset ∧
        (s.fld F.NET_SERVO_GAIN_ki pkg = 0 → t.ptp.sum = s.ptp.sum + o) ∧
        |t.ptp.sum * s.fld F.NET_SERVO_GAIN_ki pkg| ≤ (m : Int) * 1024) ∧
      (∀ x y, t.slewPend = some (x, y) → s.slewPend = none → -(m : Int) ≤ y ∧ y ≤ m) ∧
      t.tasks = s.tasks ∧ t.dieMem = s.dieMem ∧ t.now = s.now
  )

/-- R493 to R497, R227: a failed check or an issue watchdog takes the shuttle out of service, and its steps go back to their first instruction;
a failed spare is only that; else the spare, or in a rotation the other of the two shuttles, is to load the contexts, and without one they
are placed one at a time; the load gives each the same context number there. A BIST that fails is a shuttle fault, one that passes goes on. -/
def Obligations.ShuttleFaults : Prop :=
  ∀ (s : State) (d slot cause sp rf o : Nat) (g : Time) (u v w : State) (mine : List (Nat × Task)), sp = s.spareOf d → rf = (s.die d).rotFrom →
      u = (s.at g).shuttleOut d slot cause →
      v = (u.setReg .SHT_ROLE (dieIx d) (BitVec.ofNat 32 (sp + 7 * 256))).modDie d (fun x => { x with rotFrom := 7 }) →
      mine = s.tasks.filter (fun e => e.2.held && e.2.die == d && e.2.slot == slot) →
    (s.slotUp d slot = true →
      (1 ≤ cause → cause ≤ 3 → exec (.shuttleCheckFail d slot cause g) s = .next (s.shuttleFault d slot cause g)) ∧
      (∀ e st, e ∈ s.tasks → e.2.held = true → e.2.die = d → e.2.slot = slot → e.2.step = some st → st.cutOff = false →
        s.haltedTask e.2 = false → exec (.issueWatchdog d slot g) s = .next (s.shuttleFault d slot 4 g)) ∧
      ((∀ e ∈ s.tasks, e.2.die = d → e.2.slot = slot → e.2.step = none ∨ s.haltedTask e.2 = true) →
        exec (.issueWatchdog d slot g) s = .next s)) ∧
    (s.slotUp d slot = false → exec (.shuttleCheckFail d slot cause g) s = .next s ∧ exec (.issueWatchdog d slot g) s = .next s) ∧
    (u.dieMem = s.dieMem ∧ ((u.die d).slots = (s.die d).slots.set slot { (s.die d).slots.getD slot Slot.reset with healthy := false }) ∧
      (∀ t, (u.task? t).map (fun k => k.c) = (s.task? t).map (fun k => k.c)) ∧
      (∀ t k, s.task? t = some k → k.held = true → k.die = d → k.slot = slot → u.task? t = some { k.replay with mig := none })) ∧
    ((s.die d).replay = none →
      (slot = sp → s.shuttleFault d slot cause g =
        (u.setReg .SHT_ROLE (dieIx d) (BitVec.ofNat 32 (7 + 7 * 256))).shuttleRec d slot cause 0xFF 0 0 g) ∧
      ((slot ≠ sp ∧ sp ≠ 7 ∧ o = sp) ∨ (slot ≠ sp ∧ sp = 7 ∧ rf ≠ 7 ∧ ((slot = s.vacating d ∧ o = rf) ∨
          (slot ≠ s.vacating d ∧ slot = rf ∧ o = s.vacating d))) → s.shuttleFault d slot cause g =
        (v.modDie d (fun x => { x with replay := some (slot, o) })).shuttleRec d slot cause o mine.length 0 g) ∧
      (slot ≠ sp → sp = 7 → (rf = 7 ∨ (slot ≠ s.vacating d ∧ slot ≠ rf)) →
        w = (v.displaceAll true g (v.tasks.filter (fun e => e.2.held && e.2.die == d && e.2.slot == slot))).2.2 →
        ∃ n m, s.shuttleFault d slot cause g = w.shuttleRec d slot cause 0xFF n m g)) ∧
    (s.dieActs d = true →
      (∀ bad o, (s.die d).replay = some (bad, o) → exec (.shuttleReplayLoad d g) s = .next
        ({ (s.at g).setDie d { s.die d with replay := none } with tasks := s.tasks.map (fun (e : Nat × Task) =>
          if e.2.held && e.2.die == d && e.2.slot == bad then (e.1, { e.2 with slot := o }) else e) }.setReg .SHT_ROLE (dieIx d)
            (BitVec.ofNat 32 (7 + 7 * 256)))) ∧
      (s.rotPhase d = 1 → exec (.bistDone d true g) s = .next ((s.at g).bistPass d g) ∧
        exec (.bistDone d false g) s = .next ((s.bumpMod F.DIE_BIST_COUNT_failed (dieIx d)).shuttleFault d sp 5 g))) ∧
    ((s.die d).replay = none → exec (.shuttleReplayLoad d g) s = .next s)

/-- R41 to R43, R51, R498, R499: a cause of a die fence is noted for a channel die, once, and is a package fault on die 0; the clock that is lost
after its lock is one, counted, whether or not the core is enabled yet; a retransmission is counted; a link out of service is recorded
and counted and leaves at both ends (the other end: log entry 88), and the last one of a live die is a cause.
R498 to R502, R505: when die 0 learns of a cause the die is live no more, fenced, and its snapshot stands; its links leave service with it
in one update, and a fence of die 1 takes the standby pair; its tasks and records are handled at once, or with a lost clock once it is
known whether the clock came back within 10 µs. Where the state cannot be read, every task that held a context there faults. -/
def Obligations.DieFences : Prop :=
  (
    ∀ (s u w : State) (d k c : Nat) (g : Time), u = s.at g →
      (d ≠ 0 → s.fenceCause d c = s.setDie d { s.die d with
        fenceDue := if (s.die d).fenceDue.isNone && !(s.die d).fenced then some c else (s.die d).fenceDue }) ∧
      (s.fenceCause 0 c = s.packageFault 1) ∧
      ((s.die d).live = true →
        exec (.prickingUncorrectable d g) s = .next (u.fenceCause d 4) ∧
        exec (.horizonReportTimeout d g) s = .next (u.fenceCause d 5) ∧
        (d ≠ 0 → exec (.syncLaneLossTimeout d g) s = .next
          ((u.setReg .TIME_STATUS pkg (s.reg .TIME_STATUS pkg &&& ~~~(BitVec.ofNat 32 (2 ^ (8 + d))))).fenceCause d 2))) ∧
      ((s.die d).live = false → exec (.prickingUncorrectable d g) s = .next s ∧ exec (.horizonReportTimeout d g) s = .next s ∧
        exec (.syncLaneLossTimeout d g) s = .next s) ∧
      (bitOf (s.reg .CLK_STATUS pkg) d = true → s.present d = true → s.boot.inReset = false → (s.die d).clockLost = none →
        ∃ lost : Bool, exec (.clockLoss d g) s = .next (({ (u.setDie d { s.die d with clockLost := some g }).bump
          F.CLK_LOSS_COUNT_count pkg with freeCount := s.freeCount + 1 }.setReg .CLK_STATUS pkg
            (s.reg .CLK_STATUS pkg &&& ~~~(BitVec.ofNat 32 (2 ^ d + (if lost then 2 ^ (8 + d) else 0))))).fenceCause d 1)) ∧
      ((s.die d).live = true → (s.die d).links.getD k false = true →
        exec (.linkRetransmit d k) s = .next (s.bump F.FLT_CORR_COUNT_0_link pkg) ∧
        (w = ((u.bump F.FLT_UNIT_COUNT_other pkg).faultRec d (0x0A40 + d) 0x3E g [BitVec.ofNat 8 d, BitVec.ofNat 8 k]).dropLink d k →
          ((w.die d).links.getD k false = false ∧
            (w.die (s.variant.linkEnd d k).1).links.getD (s.variant.linkEnd d k).2 false = false) ∧
          ((∀ e, e ∈ w.dieList → (w.die e).live = true → (w.die e).links.any id = true) →
            ((w.die 0).live = true → (w.die 0).links.any id = true) → exec (.linkOutOfService d k g) s = .next w.capUpdate) ∧
          (d ≠ 0 → d ∈ w.dieList → (w.die d).links.any id = false → (s.die d).fenceDue = none → (s.die d).fenced = false →
            ∃ z, exec (.linkOutOfService d k g) s = .next z ∧ (z.die d).fenceDue = some 3 ∧ z.tasks = s.tasks ∧ z.dieMem = s.dieMem) ∧
          (d = 0 → (w.die 0).links.any id = false → s.pkgFault = false →
            ∃ z, exec (.linkOutOfService d k g) s = .next z ∧ z.pkgFault = true ∧ z.tasks = s.tasks ∧ z.dieMem = s.dieMem)))
  ) ∧ (
    ∀ (s u w x : State) (d cause : Nat) (g : Time),
      ((s.die d).fenceDue = some cause →
        u = (((s.at g).setDie d { s.die d with
          live := false, fenced := true, fenceDue := none, fenceOpen := some (cause, g),
          snapshot := s.healthSnapshot d }).dropLinks d).fenceCutOff →
        w = ((u.setFld ⟨.FLT_FENCE_CAUSE, 4 * d, 4⟩ pkg cause).fenceMgmt d g).capUpdate → x = (if d = 1 then w.bmca else w) →
        (cause = 1 → (s.die d).clockBack = false → exec (.dieFence d g) s = .next x) ∧
        ((cause ≠ 1 ∨ (s.die d).clockBack = true) → exec (.dieFence d g) s = .next (x.fenceSettle d cause g (cause != 3))) ∧
        (d < 8 → (u.die d).live = false ∧ (u.die d).fenced = true ∧ (u.die d).links.any id = false ∧
          (u.die d).snapshot = s.healthSnapshot d ∧ u.tasks = s.tasks ∧ u.dieMem = s.dieMem)) ∧
      ((s.die d).fenceDue = none → exec (.dieFence d g) s = .next s) ∧
      (d ≠ 1 → s.fenceMgmt d g = s) ∧
      (s.boot.takeover = false → s.boot.pair0 = true → s.boot.pair1Ok = true →
        s.fenceMgmt 1 g = { s with boot := { s.boot with pair1Ok := false } }.mgmtRec 1 4 g) ∧
      (s.boot.takeover = true → s.fenceMgmt 1 g = s.packageFault 2) ∧
      (∀ t tF, (s.die d).clockLost = some t → u = ((s.at g).setDie d { s.die d with
          clockBack := (s.die d).clockBack || upTo g (t + us10) }).setReg .CLK_STATUS pkg (s.reg .CLK_STATUS pkg |||
            BitVec.ofNat 32 (2 ^ d + 2 ^ (8 + d))) →
        ((s.die d).fenceOpen = some (cause, tF) → exec (.clockReturn d g) s = .next (u.fenceSettle d cause tF (upTo g (t + us10)))) ∧
        ((s.die d).fenceOpen = none → exec (.clockReturn d g) s = .next u)) ∧
      ((s.die d).clockLost = none → exec (.clockReturn d g) s = .next s) ∧
      (∀ t (k : Task), s.task? t = some k → k.held = true → k.die = d → ∃ k', (s.fenceSettle d cause g false).task? t = some k' ∧
        k'.state = .faulted ∧ k'.held = false ∧ (k.state ≠ .faulted → k'.faultCode = 0x20 ∨ k'.faultCode = 0x22))
  )

/-- R503 to R505: the active pair's failure starts the takeover by a ready standby and is a package fault without one; the takeover and
the loss of the standby are recorded; a package fault keeps its first cause.
R489, R492, R511, R551: the scrubber corrects and counts; an uncorrectable word faults the tasks that hold it, else resets the queue whose
ring holds it, else becomes 0; one in the shadow of a task's context faults that task; a channel bank out of range clears its status bit,
fails every driven pin of a live die's timing bank, and back in range sets the bit. -/
def Obligations.ManagementAndMemoryFaults : Prop :=
  (
    ∀ (s u : State) (cause : Nat) (g : Time), u = s.at g →
      (1 ≤ cause → cause ≤ 4 →
        (s.boot.pair0 = true → s.boot.takeover = false → s.boot.pair1Ok = true → exec (.mgmtFailure cause g) s =
          .next { u with boot := { s.boot with pair0 := false, failCause := cause } }) ∧
        ((s.boot.pair0 = true ∧ s.boot.pair1Ok = false) ∨ s.boot.takeover = true →
          exec (.mgmtFailure cause g) s = .next (u.packageFault 2)) ∧
        (s.boot.pair0 = false → s.boot.takeover = false → exec (.mgmtFailure cause g) s = .next u)) ∧
      exec (.mgmtWatchdogExpiry g) s = exec (.mgmtFailure 2 g) s ∧
      (s.boot.pair0 = true → s.boot.takeover = false → s.boot.pair1Ok = true → ∃ k, 1 ≤ k ∧ k ≤ 3 ∧ exec (.standbyLost g) s =
        .next ({ u with freeCount := s.freeCount + 1, boot := { s.boot with pair1Ok := false } }.capUpdate.mgmtRec 1 k g)) ∧
      ((s.boot.pair0 = false ∨ s.boot.takeover = true ∨ s.boot.pair1Ok = false) → exec (.standbyLost g) s = .next s) ∧
      (s.boot.pair0 = false → s.boot.takeover = false → s.boot.pair1Ok = true → (s.die 1).live = true →
        exec (.mgmtTakeoverDone g) s = .next ({ u with boot := { s.boot with takeover := true } }.capUpdate.mgmtRec 0 s.boot.failCause g)) ∧
      ((s.boot.pair0 = true ∨ s.boot.takeover = true ∨ s.boot.pair1Ok = false) → exec (.mgmtTakeoverDone g) s = .next s) ∧
      (1 ≤ cause → cause ≤ 3 → (s.pkgFault = false → exec (.packageFault cause) s =
          .next ((s.setBit F.FLT_STATUS_package_fault pkg true).setFld F.FLT_PKG_CAUSE_cause pkg cause)) ∧
        (s.pkgFault = true → exec (.packageFault cause) s = .next s))
  ) ∧ (
    ∀ (s u w : State) (d off a t : Nat) (b : Bool) (g : Time), a = dieAddr d (off / 4 * 4) →
      (s.dieActs d = true → off < 0x400000 →
        exec (.scrubCorrectedWord d off b) s = .next (({ s with weak := s.weak.filter (fun w => w != a) }.bump
          F.DIE_ECC_COUNT_corrected (dieIx d)).bump F.FLT_CORR_COUNT_0_ecc pkg) ∧
        (u = ((s.at g).bump F.DIE_ECC_COUNT_uncorrectable (dieIx d)).setReg .DIE_ECC_ADDR (dieIx d) (BitVec.ofNat 32 (off / 4 * 4)) →
          w = { u with ecc := (a :: s.ecc).eraseDups } →
          (s.tasksAt d (off / 4 * 4) = [] → s.queueAt d (off / 4 * 4) = none → exec (.scrubUncorrectable d off none g) s =
            .next ((u.writeDieWord d (off / 4 * 4) 0).bump F.DIE_SCRUB_STATUS_zeroed (dieIx d))) ∧
          (∀ q, s.tasksAt d (off / 4 * 4) = [] → s.queueAt d (off / 4 * 4) = some q →
            exec (.scrubUncorrectable d off none g) s = .next (w.queResetAll q g)) ∧
          (∀ k, s.tasksAt d (off / 4 * 4) = [t] → s.task? t = some k →
            exec (.scrubUncorrectable d off none g) s = .next (if k.state = .faulted then w else w.taskFaultAt t 0x06 g)) ∧
          (∀ k, t ∈ s.tasksAt d (off / 4 * 4) → s.task? t = some k → ∃ z k', exec (.scrubUncorrectable d off none g) s = .next z ∧
            z.task? t = some k' ∧ k'.state = .faulted ∧ (k.state ≠ .faulted → k'.faultCode = 0x06))) ∧
        (∀ k, u = ((s.at g).bump F.DIE_ECC_COUNT_uncorrectable (dieIx d)).setReg .DIE_ECC_ADDR (dieIx d)
            (BitVec.ofNat 32 (off / 4 * 4 + 2 ^ 22)) → s.task? t = some k → exec (.scrubUncorrectable d off (some t) g) s =
          .next (if k.held = true ∧ k.die = d ∧ k.state ≠ .faulted then u.taskFaultAt t 0x06 g else u))) ∧
      exec .pcieCorrectableError s = .next (s.bump F.FLT_CORR_COUNT_1_pcie pkg) ∧
      (s.present d = true →
        (u = (s.at g).setReg .PWR_STATUS pkg (s.reg .PWR_STATUS pkg &&& ~~~(BitVec.ofNat 32 (2 ^ ((if b then 8 else 16) + d)))) →
          exec (.channelBankOutOfRange d b g) s = .next (if b = true ∧ (s.die d).live = true then (List.range 64).foldl (fun s i =>
            if s.pinDriven (64 * d + i) then s.pinFault (64 * d + i) 3 0 g else s) u else u)) ∧
        exec (.channelBankInRange d b) s = .next (s.setReg .PWR_STATUS pkg
          (s.reg .PWR_STATUS pkg ||| BitVec.ofNat 32 (2 ^ ((if b then 8 else 16) + d)))))
  )

/-- R504: after a package fault no shuttle or unit acts, command queues stop, no record is written, every output is released, and the fault
stands whatever comes short of a package reset. -/
def Obligations.PackageFaultStops : Prop :=
  ∀ (s : State) (t d slot p : Nat) (r : Rec) (i : Instr) (b : Body) (cause : Nat) (g : Time), s.pkgFault = true →
    s.emit r = s ∧ s.dieActs d = false ∧ s.packageFault cause = s ∧ s.issue t i b = s ∧ s.pinDriven p = false ∧ s.faultLow = true ∧
    exec (.stepReady t) s = .next s ∧ exec (.stepDispatch d slot) s = .next s ∧ exec (.stepCutOff t) s = .next s ∧
    exec (.timerFire t) s = .next s ∧ exec (.carrierBoundary p) s = .next s ∧ exec (.fbCountEdge p) s = .next s ∧
    exec (.hoopTooth p) s = .next s ∧ exec (.queuePacketPublish p) s = .next s ∧ exec (.dmaBeatDone p g) s = .next s ∧
    exec (.cqEntryDecode p g) s = .next s

/-- R516, R518 to R522, R541: the causes of a package reset begin it; it ends once its cause has, and samples the straps; a write of RST_CTRL
without its key changes nothing; PERST# and a link-only reset act on the link alone where the strap says so: they end bus mastering and disable
the queues in host memory.
R519, R503: what a package reset leaves: no task, no record, no queue entry, ground time 0, READY clear, its cause in RST_STATUS; the
fuses, the straps, the memories' cells, host memory, the levels at the balls of pins, and the waiting commands as before. -/
def Obligations.Resets : Prop :=
  (
    ∀ (s : State) (port : Port) (v : Word) (rail n : Nat),
      exec .sysRstNAssert s = .next (s.packageReset 2 false) ∧
      (rail < 5 → exec (.supplyOutOfRange rail) s =
        .next ({ s with boot := { s.boot with rails := s.boot.rails.set rail false } }.packageReset 1 true)) ∧
      (s.straps.perstSel = false → exec .perstAssert s =
        .next ({ s with boot := { s.boot with perst := true } }.packageReset 3 true)) ∧
      (s.straps.perstSel = true → exec .perstAssert s = .next { s.linkReset with boot := { s.boot with perst := true } }) ∧
      (s.Opens port (.RST_CTRL, pkg) →
        (bitOf v 0 = true → bitsOf v 16 16 = 0xA5C3 → exec (.rstCtrlReset port v) s = .next (s.packageReset 4 false)) ∧
        ((bitOf v 0 = false ∨ bitsOf v 16 16 ≠ 0xA5C3) → exec (.rstCtrlReset port v) s = .next s)) ∧
      exec .perstRelease s = .next ({ s with boot := { s.boot with
        perst := false, causeOn := s.boot.causeOn && s.fld F.RST_STATUS_last_cause pkg != 3 } }.setBit F.CLK_STATUS_pcie_refclk_ok pkg true) ∧
      exec .linkOnlyReset s = .next s.linkReset ∧
      (s.linkReset.pcie.bme = false ∧ s.linkReset.tasks = s.tasks ∧ s.linkReset.dieMem = s.dieMem ∧ s.linkReset.now = s.now ∧
        s.linkReset.fld F.RST_STATUS_last_cause pkg = 5) ∧
      (n < 16 → s.linkReset.bit F.CQ_CFG_en (pkg1 n) = (s.bit F.CQ_CFG_en (pkg1 n) && s.bit F.CQ_CFG_space (pkg1 n)) ∧
        s.linkReset.bit F.EQ_CFG_en (pkg1 n) = (s.bit F.EQ_CFG_en (pkg1 n) && s.bit F.EQ_CFG_space (pkg1 n))) ∧
      (s.boot.inReset = true → s.boot.causeOn = true → s.fld F.RST_STATUS_last_cause pkg = 1 → exec .porRelease s =
        .next { s with boot := { s.boot with rails := List.replicate 5 true, causeOn := false } }) ∧
      (s.boot.inReset = true → s.boot.causeOn = false → exec .packageResetEnd s =
        .next ((({ s with boot := { s.boot with inReset := false } }.setBit F.RST_STATUS_refclk_sel pkg s.straps.refclk25).setFld
          F.RST_STATUS_boot_sel pkg s.straps.bootSel).setBit F.RST_STATUS_perst_sel pkg s.straps.perstSel)) ∧
      ((s.boot.inReset = false ∨ s.boot.causeOn = true) → exec .packageResetEnd s = .next s)
  ) ∧ (
    ∀ (s t : State) (cause : Nat) (b : Bool), cause < 8 → t = s.packageReset cause b →
      t.now = 0 ∧ t.tasks = [] ∧ t.recs = [] ∧ t.cqs = [] ∧ t.ques = [] ∧ t.dmas = [] ∧ t.msgs = [] ∧ t.flight = [] ∧
      t.ready = false ∧ t.pkgFault = false ∧ t.fld F.RST_STATUS_last_cause pkg = cause ∧ t.boot.inReset = true ∧ t.boot.causeOn = b ∧
      t.fuses = s.fuses ∧ t.straps = s.straps ∧ t.dieMem = s.dieMem ∧ t.ring = s.ring ∧ t.hostMem = s.hostMem ∧
      t.pending = s.pending ∧ t.variant = s.variant ∧ t.boot.rails = s.boot.rails ∧ t.boot.perst = s.boot.perst ∧
      (∀ d, (t.die d).live = false ∧ (t.die d).fenced = false ∧ (t.die d).core = false) ∧
      (∀ p, (t.pin p).queue = [] ∧ (t.pin p).caps = [] ∧ (t.pin p).owner = .free ∧ (t.pin p).filt.raw = (s.pin p).filt.raw)
  )

/-- R523 to R528, R566, R207: the staggered start, die by die: fuses, the PLL, the core clock with the filters at their balls, the clear of
memory, the slots, the management pairs, the self-test, and the checks, whose first failure is noted and on die 0 is a package fault.
R521, R531 to R535, R538, R453: the boot from flash or from the host, the verification of the image and where a failure goes on, the
standby's check, READY with the capability fields, the task key lock, which only sets, and what a PCIe configuration write lets go on. -/
def Obligations.StartUpAndBoot : Prop :=
  (
    ∀ (s : State) (d slot : Nat) (x : Die), x = s.die d → s.starting = true →
      (s.boot.fusesOk = false →
        exec (.fuseLoadDone true) s = .next ({ s with boot := { s.boot with fusesOk := true } }.setFld F.RST_STATUS_boot_state pkg 1) ∧
        exec (.fuseLoadDone false) s = .next (s.packageFault 3)) ∧
      (s.present d = true → exec (.pllLock d) s = .next (s.setReg .CLK_STATUS pkg (s.reg .CLK_STATUS pkg |||
        BitVec.ofNat 32 (2 ^ d + 2 ^ (8 + d) + (if d < 2 then 2 ^ (16 + d) else 0))))) ∧
      (s.boot.fusesOk = true → s.present d = true → x.core = false → x.fenced = false → s.startCode d = 0 →
        (d ≠ 0 → (s.die 0).core = true) →
        (bitOf (s.reg .CLK_STATUS pkg) d = false → exec (.dieCoreEnable d) s = .next (s.startFail d 1)) ∧
        (bitOf (s.reg .CLK_STATUS pkg) d = true →
          (bitOf (s.reg .PWR_STATUS pkg) (8 + d) = false ∨ bitOf (s.reg .PWR_STATUS pkg) (16 + d) = false →
            exec (.dieCoreEnable d) s = .next (s.startFail d 6)) ∧
          (bitOf (s.reg .PWR_STATUS pkg) (8 + d) = true → bitOf (s.reg .PWR_STATUS pkg) (16 + d) = true →
            exec (.dieCoreEnable d) s = .next ((((if d = 0 then { s with now := 0, slewFrac := 0 } else s.at (nsT (250000 * d))).setDie d
              { x with core := true })).initFilters d)))) ∧
      (x.core = true →
        exec (.sramClearStart d) s = .next (s.setDie d { x with sramOk := false }) ∧
        exec (.sramClearEnd d false) s = .next (s.startFail d 2) ∧
        (∃ u, exec (.sramClearEnd d true) s = .next u ∧ u.die d = { x with sramOk := true } ∧ u.tasks = s.tasks ∧ u.regs = s.regs ∧
          (∀ o, o < 0x400000 → memRead u.dieMem (dieAddr d o) = 0) ∧
          (∀ a, (a < dieAddr d 0 ∨ dieAddr (d + 1) 0 ≤ a) → memRead u.dieMem a = memRead s.dieMem a ∧
            (a ∈ u.ecc ↔ a ∈ s.ecc)) ∧ (∀ o, o < 0x400000 → dieAddr d o ∉ u.ecc)) ∧
        (slot < 5 → exec (.shuttleSlotEnable d slot) s = .next (s.setDie d { x with slots := x.slots.set slot ⟨true, true, none⟩ })) ∧
        (d = 0 → exec (.mgmtPairEnable d) s = .next ({ s with boot := { s.boot with pair0 := true } }.setFld F.RST_STATUS_boot_state
          pkg (if s.fld F.RST_STATUS_boot_sel pkg = 1 then 3 else 2))) ∧
        (d = 1 → exec (.mgmtPairEnable d) s = .next { s with boot := { s.boot with pair1 := true } }) ∧
        exec (.releasePathSelfTest d true) s = .next ((s.setBit F.DIE_RELEASE_pass (dieIx d) true).setDie d { x with selfTest := true }) ∧
        exec (.releasePathSelfTest d false) s = .next (s.startFail d 3) ∧
        (x.live = false → x.fenced = false → x.sramOk = true → x.selfTest = true → ∀ (links : BitVec 4) (al ok : Bool),
          (d ≠ 0 → al = false → exec (.dieStartCheck d al links ok) s = .next (s.startFail d 4)) ∧
          (d = 0 ∨ al = true → links = 0 → exec (.dieStartCheck d al links ok) s = .next (s.startFail d 5)) ∧
          (d ≠ 0 → al = true → links ≠ 0 → ok = false → exec (.dieStartCheck d al links ok) s = .next (s.startFail d 7)) ∧
          (d = 0 ∨ (al = true ∧ ok = true) → links ≠ 0 → exec (.dieStartCheck d al links ok) s = .next ((s.setDie d { x with
            live := true, links := (List.range 4).map (fun k => links.getLsbD k), digest := s.reg .CONFIG_DIGEST pkg }).setReg
              .TIME_STATUS pkg (s.reg .TIME_STATUS pkg ||| BitVec.ofNat 32 (2 ^ (8 + d))))))) ∧
      (d ≠ 0 → ∀ c, s.startFail d c = (if s.startCode d = 0 then
        (s.setDie d { x with core := false }).setReg .START_FAIL pkg (putBits (s.reg .START_FAIL pkg) (4 * d) 4 c)
        else s.setDie d { x with core := false })) ∧
      (∀ c, s.startFail 0 c = s.packageFault 3)
  ) ∧ (
    ∀ (s u : State) (port : Port) (slot code sel : Nat) (img : List Byte) (v : Word) (g : Time), sel = s.fld F.RST_STATUS_boot_sel pkg →
      (s.starting = true → s.boot.pair0 = true → s.fld F.RST_STATUS_boot_state pkg = 2 → s.boot.busy = false →
        slot = (if s.boot.source = 1 then 1 else 0) →
        exec (.flashImageReadDone slot (some img)) s = .next (s.beginVerify (slot + 1) img) ∧
        exec (.flashImageReadDone slot none) s = .next (((s.setFld F.BOOT_STATUS_source pkg (slot + 1)).bump
          F.BOOT_STATUS_attempts pkg).bootFailed (slot + 1) 1)) ∧
      (u = { s.setFld F.BOOT_STATUS_error pkg code with boot := { s.boot with busy := false } } →
        s.bootFailed 1 code = { u with boot := { u.boot with source := 1 } }.setFld F.RST_STATUS_boot_state pkg 2 ∧
        (2 ≤ sel → s.bootFailed 2 code = { u with boot := { u.boot with source := 2 } }.setFld F.RST_STATUS_boot_state pkg 3) ∧
        (sel < 2 → s.bootFailed 2 code = u.setFld F.RST_STATUS_boot_state pkg 7) ∧
        s.bootFailed 3 code = u.setFld F.RST_STATUS_boot_state pkg 7) ∧
      (s.Opens port (.BOOT_CTRL, pkg) →
        (bitOf v 31 = true → ((s.fld F.RST_STATUS_boot_state pkg = 3 ∨ s.fld F.RST_STATUS_boot_state pkg = 7) ∧ sel ≠ 0) →
          exec (.bootGo port v) s = .next (s.beginVerify 3 (memReadList s.ring 0 (min (bitsOf v 0 20) 0x80000)))) ∧
        (bitOf v 31 = true → ((s.fld F.RST_STATUS_boot_state pkg ≠ 3 ∧ s.fld F.RST_STATUS_boot_state pkg ≠ 7) ∨ sel = 0) →
          exec (.bootGo port v) s = .next (s.setBit F.BOOT_STATUS_go_reject pkg true)) ∧
        (bitOf v 31 = false → exec (.bootGo port v) s = .next s)) ∧
      (s.boot.busy = true → s.fld F.RST_STATUS_boot_state pkg = 4 →
        code = s.fuses.checkFw (some s.boot.image) (if s.boot.source = 3 then some s.boot.image.length else none) →
        exec .fwVerifyDone s = .next (if code = 0 then
          ((({ s with boot := { s.boot with busy := false, verified := true } }.setFld F.BOOT_STATUS_error pkg 0).setReg .FW_VERSION
            pkg (BitVec.ofNat 32 (imgNat s.boot.image 8 3))).setFld F.RST_STATUS_boot_state pkg 5)
          else s.bootFailed s.boot.source code)) ∧
      (s.boot.verified = true → s.boot.pair1 = true → (s.die 1).live = true → s.boot.takeover = false →
        exec (.standbyImageCheckDone g) s = .next (if s.fuses.checkFw (some s.boot.image) none = 0 then
          { s.at g with boot := { s.boot with pair1Ok := true } }.capUpdate else s.at g)) ∧
      (s.canReady = true → u = (s.dieList.foldl (fun s d => s.firstSpare d) (s.setBit F.PLC_STATUS_up pkg true)).setFld
          F.RST_STATUS_boot_state pkg 6 →
        exec .readySet s = .next ((u.updateDigest.setBit F.RST_STATUS_ready pkg true).capWrite) ∧ u.tasks = s.tasks ∧
          u.dieMem = s.dieMem) ∧
      (s.canReady = false → exec .readySet s = .next s) ∧
      (s.Opens port (.TASK_KEY_LOCK, pkg) → exec (.taskKeyLockWrite port v) s = .next (s.plainWrite .TASK_KEY_LOCK pkg v)) ∧
      ((s.plainWrite .TASK_KEY_LOCK pkg v).bit F.TASK_KEY_LOCK_locked pkg = (s.bit F.TASK_KEY_LOCK_locked pkg || bitOf v 0)) ∧
      (∀ bme d3, exec (.pcieConfigWrite bme d3) s =
        .next (({ s with pcie := { s.pcie with bme := bme, d3hot := d3 } }.msixFlush).drainHolds.dmaResume))
  )

/-- R61, R504, R535: what the state right after power-on holds: nothing is commanded, nothing runs, no die is live, ground time is 0, the part is in
reset with FAULT_N low, READY is clear, no pin is owned, every memory lists nothing and is in canonical form. -/
def Obligations.ResetState : Prop :=
  State.reset.pending = [] ∧ State.reset.tasks = [] ∧ State.reset.now = 0 ∧ State.reset.ready = false ∧
  State.reset.boot.inReset = true ∧ State.reset.faultLow = true ∧ State.reset.dieMem = [] ∧ State.reset.ring = [] ∧
  State.reset.hostMem = [] ∧ State.reset.recs = [] ∧ State.reset.flight = [] ∧ State.reset.msgs = [] ∧
  State.reset.memOk = true ∧ State.reset.slew = 0 ∧ State.reset.pkgFault = false ∧
  (∀ d, (State.reset.die d).live = false ∧ (State.reset.die d).fenced = false) ∧
  ∀ p, (State.reset.pin p).owner = .free ∧ (State.reset.pin p).queue = []

/-- R121 to R126: the words of the worked example of encoding and cost and of the instructions whose word the spec gives decode to what they stand
for; the word 0 is illegal. -/
def Obligations.DecodedWords : Prop :=
  ∀ (t : Nat) (e : Word),
    decodeWord t 0x68C40A00 e = some (.tcvt t 3 1 0 .us) ∧
    decodeWord t 0x21000000 0x3B9ACA00 = some (.limm t 4 1000000000) ∧
    decodeWord t 0x0950C800 e = some (.divu t 5 4 3) ∧
    decodeWord t 0x2D580007 e = some (.blt t 5 6 7) ∧
    decodeWord t 0xF8000000 e = some (.nop t) ∧
    decodeWord t 0xF4000000 e = some (.brk t) ∧
    decodeWord t 0 e = none

/-- R121 to R126: the shuttle's decoder and the encoder agree in both directions: what an instruction encodes to decodes to it,
with every operand at every value its type admits, and a word that decodes at all is the encoding of what it decodes to, so that
no bit of it is ignored. -/
def Obligations.DecodeOfEncode : Prop :=
  (∀ (i : Instr) (w x : Word) (e : Option Word), encode i = some (w, e) →
    isX w = e.isSome ∧ ∃ t, decodeWord t w (e.getD x) = some i) ∧
  (∀ (t : Nat) (w x : Word) (i : Instr), decodeWord t w x = some i → encode i = some (w, if isX w then some x else none))

/-- Every step keeps die memory, ring memory and host memory in canonical form: addresses strictly rising, and no entry that
equals what an unlisted address reads as (a form of the model's, log entry 5). -/
def Obligations.MemoryStaysCanonical : Prop :=
  ∀ (s t : State), s.memOk = true → step s = .next t → t.memOk = true
end

