-- ==== Sys2Proof/Laws/Reads.lean ====
section
/-! SUPPORT. What the reads of the state see after each named update of another part of it. -/

set_option linter.unusedSimpArgs false

namespace Sys2Proof.Machine

@[simp] theorem State.setReg_reads (s : State) (r : Reg) (ix : Ix) (v : Word) :
    (∀ (d' : Nat), (s.setReg r ix v).die d' = s.die d') ∧
    (∀ (t' : Nat), (s.setReg r ix v).task? t' = s.task? t') ∧
    (∀ (p' : Nat), (s.setReg r ix v).pin p' = s.pin p') ∧
    (∀ (p' : Nat), (s.setReg r ix v).car p' = s.car p') ∧
    (∀ (p' : Nat), (s.setReg r ix v).trip p' = s.trip p') ∧
    (∀ (p' : Nat), (s.setReg r ix v).fb p' = s.fb p') ∧
    (∀ (p' : Nat), (s.setReg r ix v).hoop p' = s.hoop p') ∧
    (∀ (p' : Nat), (s.setReg r ix v).que p' = s.que p') ∧
    (∀ (p' : Nat), (s.setReg r ix v).dma p' = s.dma p') ∧
    (∀ (p' : Nat), (s.setReg r ix v).net p' = s.net p') ∧
    (∀ (p' : Nat), (s.setReg r ix v).axp p' = s.axp p') ∧
    (∀ (p' : Nat), (s.setReg r ix v).axs p' = s.axs p') ∧
    (∀ (p' : Nat), (s.setReg r ix v).ptpPort p' = s.ptpPort p') ∧
    (∀ (p' : Nat), (s.setReg r ix v).cq p' = s.cq p') ∧
    (∀ (p' : Nat), (s.setReg r ix v).eq p' = s.eq p') ∧
    (∀ (d' : Nat), (s.setReg r ix v).present d' = s.present d') ∧
    (∀ (d' : Nat), (s.setReg r ix v).dieRuns d' = s.dieRuns d') ∧
    (∀ (k' i' : Nat), (s.setReg r ix v).unitRuns k' i' = s.unitRuns k' i') := by
  simp [State.reg, State.reg64, State.fld, State.bit, State.regInit, State.die, State.task?, State.pin, State.car, State.trip, State.fb,
    State.hoop, State.que, State.dma, State.net, State.axp, State.axs, State.ptpPort, State.cq, State.eq, State.present, State.pkgFault,
    State.ready, State.logging, State.dieRuns, State.dieActs, State.unitRuns]

@[simp] theorem State.setFld_reads (s : State) (f : Fld) (ix : Ix) (v : Nat) :
    (∀ (d' : Nat), (s.setFld f ix v).die d' = s.die d') ∧
    (∀ (t' : Nat), (s.setFld f ix v).task? t' = s.task? t') ∧
    (∀ (p' : Nat), (s.setFld f ix v).pin p' = s.pin p') ∧
    (∀ (p' : Nat), (s.setFld f ix v).car p' = s.car p') ∧
    (∀ (p' : Nat), (s.setFld f ix v).trip p' = s.trip p') ∧
    (∀ (p' : Nat), (s.setFld f ix v).fb p' = s.fb p') ∧
    (∀ (p' : Nat), (s.setFld f ix v).hoop p' = s.hoop p') ∧
    (∀ (p' : Nat), (s.setFld f ix v).que p' = s.que p') ∧
    (∀ (p' : Nat), (s.setFld f ix v).dma p' = s.dma p') ∧
    (∀ (p' : Nat), (s.setFld f ix v).net p' = s.net p') ∧
    (∀ (p' : Nat), (s.setFld f ix v).axp p' = s.axp p') ∧
    (∀ (p' : Nat), (s.setFld f ix v).axs p' = s.axs p') ∧
    (∀ (p' : Nat), (s.setFld f ix v).ptpPort p' = s.ptpPort p') ∧
    (∀ (p' : Nat), (s.setFld f ix v).cq p' = s.cq p') ∧
    (∀ (p' : Nat), (s.setFld f ix v).eq p' = s.eq p') ∧
    (∀ (d' : Nat), (s.setFld f ix v).present d' = s.present d') ∧
    (∀ (d' : Nat), (s.setFld f ix v).dieRuns d' = s.dieRuns d') ∧
    (∀ (k' i' : Nat), (s.setFld f ix v).unitRuns k' i' = s.unitRuns k' i') := by
  simp [State.reg, State.reg64, State.fld, State.bit, State.regInit, State.die, State.task?, State.pin, State.car, State.trip, State.fb,
    State.hoop, State.que, State.dma, State.net, State.axp, State.axs, State.ptpPort, State.cq, State.eq, State.present, State.pkgFault,
    State.ready, State.logging, State.dieRuns, State.dieActs, State.unitRuns]

@[simp] theorem State.setBit_reads (s : State) (f : Fld) (ix : Ix) (v : Bool) :
    (∀ (d' : Nat), (s.setBit f ix v).die d' = s.die d') ∧
    (∀ (t' : Nat), (s.setBit f ix v).task? t' = s.task? t') ∧
    (∀ (p' : Nat), (s.setBit f ix v).pin p' = s.pin p') ∧
    (∀ (p' : Nat), (s.setBit f ix v).car p' = s.car p') ∧
    (∀ (p' : Nat), (s.setBit f ix v).trip p' = s.trip p') ∧
    (∀ (p' : Nat), (s.setBit f ix v).fb p' = s.fb p') ∧
    (∀ (p' : Nat), (s.setBit f ix v).hoop p' = s.hoop p') ∧
    (∀ (p' : Nat), (s.setBit f ix v).que p' = s.que p') ∧
    (∀ (p' : Nat), (s.setBit f ix v).dma p' = s.dma p') ∧
    (∀ (p' : Nat), (s.setBit f ix v).net p' = s.net p') ∧
    (∀ (p' : Nat), (s.setBit f ix v).axp p' = s.axp p') ∧
    (∀ (p' : Nat), (s.setBit f ix v).axs p' = s.axs p') ∧
    (∀ (p' : Nat), (s.setBit f ix v).ptpPort p' = s.ptpPort p') ∧
    (∀ (p' : Nat), (s.setBit f ix v).cq p' = s.cq p') ∧
    (∀ (p' : Nat), (s.setBit f ix v).eq p' = s.eq p') ∧
    (∀ (d' : Nat), (s.setBit f ix v).present d' = s.present d') ∧
    (∀ (d' : Nat), (s.setBit f ix v).dieRuns d' = s.dieRuns d') ∧
    (∀ (k' i' : Nat), (s.setBit f ix v).unitRuns k' i' = s.unitRuns k' i') := by
  simp [State.reg, State.reg64, State.fld, State.bit, State.regInit, State.die, State.task?, State.pin, State.car, State.trip, State.fb,
    State.hoop, State.que, State.dma, State.net, State.axp, State.axs, State.ptpPort, State.cq, State.eq, State.present, State.pkgFault,
    State.ready, State.logging, State.dieRuns, State.dieActs, State.unitRuns]

@[simp] theorem State.bump_reads (s : State) (f : Fld) (ix : Ix) :
    (∀ (d' : Nat), (s.bump f ix).die d' = s.die d') ∧
    (∀ (t' : Nat), (s.bump f ix).task? t' = s.task? t') ∧
    (∀ (p' : Nat), (s.bump f ix).pin p' = s.pin p') ∧
    (∀ (p' : Nat), (s.bump f ix).car p' = s.car p') ∧
    (∀ (p' : Nat), (s.bump f ix).trip p' = s.trip p') ∧
    (∀ (p' : Nat), (s.bump f ix).fb p' = s.fb p') ∧
    (∀ (p' : Nat), (s.bump f ix).hoop p' = s.hoop p') ∧
    (∀ (p' : Nat), (s.bump f ix).que p' = s.que p') ∧
    (∀ (p' : Nat), (s.bump f ix).dma p' = s.dma p') ∧
    (∀ (p' : Nat), (s.bump f ix).net p' = s.net p') ∧
    (∀ (p' : Nat), (s.bump f ix).axp p' = s.axp p') ∧
    (∀ (p' : Nat), (s.bump f ix).axs p' = s.axs p') ∧
    (∀ (p' : Nat), (s.bump f ix).ptpPort p' = s.ptpPort p') ∧
    (∀ (p' : Nat), (s.bump f ix).cq p' = s.cq p') ∧
    (∀ (p' : Nat), (s.bump f ix).eq p' = s.eq p') ∧
    (∀ (d' : Nat), (s.bump f ix).present d' = s.present d') ∧
    (∀ (d' : Nat), (s.bump f ix).dieRuns d' = s.dieRuns d') ∧
    (∀ (k' i' : Nat), (s.bump f ix).unitRuns k' i' = s.unitRuns k' i') := by
  simp [State.reg, State.reg64, State.fld, State.bit, State.regInit, State.die, State.task?, State.pin, State.car, State.trip, State.fb,
    State.hoop, State.que, State.dma, State.net, State.axp, State.axs, State.ptpPort, State.cq, State.eq, State.present, State.pkgFault,
    State.ready, State.logging, State.dieRuns, State.dieActs, State.unitRuns]

@[simp] theorem State.plainWrite_reads (s : State) (r : Reg) (ix : Ix) (v : Word) :
    (∀ (d' : Nat), (s.plainWrite r ix v).die d' = s.die d') ∧
    (∀ (t' : Nat), (s.plainWrite r ix v).task? t' = s.task? t') ∧
    (∀ (p' : Nat), (s.plainWrite r ix v).pin p' = s.pin p') ∧
    (∀ (p' : Nat), (s.plainWrite r ix v).car p' = s.car p') ∧
    (∀ (p' : Nat), (s.plainWrite r ix v).trip p' = s.trip p') ∧
    (∀ (p' : Nat), (s.plainWrite r ix v).fb p' = s.fb p') ∧
    (∀ (p' : Nat), (s.plainWrite r ix v).hoop p' = s.hoop p') ∧
    (∀ (p' : Nat), (s.plainWrite r ix v).que p' = s.que p') ∧
    (∀ (p' : Nat), (s.plainWrite r ix v).dma p' = s.dma p') ∧
    (∀ (p' : Nat), (s.plainWrite r ix v).net p' = s.net p') ∧
    (∀ (p' : Nat), (s.plainWrite r ix v).axp p' = s.axp p') ∧
    (∀ (p' : Nat), (s.plainWrite r ix v).axs p' = s.axs p') ∧
    (∀ (p' : Nat), (s.plainWrite r ix v).ptpPort p' = s.ptpPort p') ∧
    (∀ (p' : Nat), (s.plainWrite r ix v).cq p' = s.cq p') ∧
    (∀ (p' : Nat), (s.plainWrite r ix v).eq p' = s.eq p') ∧
    (∀ (d' : Nat), (s.plainWrite r ix v).present d' = s.present d') ∧
    (∀ (d' : Nat), (s.plainWrite r ix v).dieRuns d' = s.dieRuns d') ∧
    (∀ (k' i' : Nat), (s.plainWrite r ix v).unitRuns k' i' = s.unitRuns k' i') := by
  simp [State.reg, State.reg64, State.fld, State.bit, State.regInit, State.die, State.task?, State.pin, State.car, State.trip, State.fb,
    State.hoop, State.que, State.dma, State.net, State.axp, State.axs, State.ptpPort, State.cq, State.eq, State.present, State.pkgFault,
    State.ready, State.logging, State.dieRuns, State.dieActs, State.unitRuns]

@[simp] theorem State.setDie_reads (s : State) (d : Nat) (x : Die) :
    (∀ (r' : Reg) (ix' : Ix), (s.setDie d x).reg r' ix' = s.reg r' ix') ∧
    (∀ (r' q' : Reg) (ix' : Ix), (s.setDie d x).reg64 r' q' ix' = s.reg64 r' q' ix') ∧
    (∀ (f' : Fld) (ix' : Ix), (s.setDie d x).fld f' ix' = s.fld f' ix') ∧
    (∀ (f' : Fld) (ix' : Ix), (s.setDie d x).bit f' ix' = s.bit f' ix') ∧
    (∀ (t' : Nat), (s.setDie d x).task? t' = s.task? t') ∧
    (∀ (p' : Nat), (s.setDie d x).pin p' = s.pin p') ∧
    (∀ (p' : Nat), (s.setDie d x).car p' = s.car p') ∧
    (∀ (p' : Nat), (s.setDie d x).trip p' = s.trip p') ∧
    (∀ (p' : Nat), (s.setDie d x).fb p' = s.fb p') ∧
    (∀ (p' : Nat), (s.setDie d x).hoop p' = s.hoop p') ∧
    (∀ (p' : Nat), (s.setDie d x).que p' = s.que p') ∧
    (∀ (p' : Nat), (s.setDie d x).dma p' = s.dma p') ∧
    (∀ (p' : Nat), (s.setDie d x).net p' = s.net p') ∧
    (∀ (p' : Nat), (s.setDie d x).axp p' = s.axp p') ∧
    (∀ (p' : Nat), (s.setDie d x).axs p' = s.axs p') ∧
    (∀ (p' : Nat), (s.setDie d x).ptpPort p' = s.ptpPort p') ∧
    (∀ (p' : Nat), (s.setDie d x).cq p' = s.cq p') ∧
    (∀ (p' : Nat), (s.setDie d x).eq p' = s.eq p') ∧
    (∀ (d' : Nat), (s.setDie d x).present d' = s.present d') ∧
    ((s.setDie d x).pkgFault = s.pkgFault) ∧
    ((s.setDie d x).ready = s.ready) ∧
    ((s.setDie d x).logging = s.logging) ∧
    (∀ (k' i' : Nat), (s.setDie d x).unitRuns k' i' = s.unitRuns k' i') := by
  simp [State.reg, State.reg64, State.fld, State.bit, State.regInit, State.die, State.task?, State.pin, State.car, State.trip, State.fb,
    State.hoop, State.que, State.dma, State.net, State.axp, State.axs, State.ptpPort, State.cq, State.eq, State.present, State.pkgFault,
    State.ready, State.logging, State.dieRuns, State.dieActs, State.unitRuns]

@[simp] theorem State.modDie_reads (s : State) (d : Nat) (f : Die → Die) :
    (∀ (r' : Reg) (ix' : Ix), (s.modDie d f).reg r' ix' = s.reg r' ix') ∧
    (∀ (r' q' : Reg) (ix' : Ix), (s.modDie d f).reg64 r' q' ix' = s.reg64 r' q' ix') ∧
    (∀ (f' : Fld) (ix' : Ix), (s.modDie d f).fld f' ix' = s.fld f' ix') ∧
    (∀ (f' : Fld) (ix' : Ix), (s.modDie d f).bit f' ix' = s.bit f' ix') ∧
    (∀ (t' : Nat), (s.modDie d f).task? t' = s.task? t') ∧
    (∀ (p' : Nat), (s.modDie d f).pin p' = s.pin p') ∧
    (∀ (p' : Nat), (s.modDie d f).car p' = s.car p') ∧
    (∀ (p' : Nat), (s.modDie d f).trip p' = s.trip p') ∧
    (∀ (p' : Nat), (s.modDie d f).fb p' = s.fb p') ∧
    (∀ (p' : Nat), (s.modDie d f).hoop p' = s.hoop p') ∧
    (∀ (p' : Nat), (s.modDie d f).que p' = s.que p') ∧
    (∀ (p' : Nat), (s.modDie d f).dma p' = s.dma p') ∧
    (∀ (p' : Nat), (s.modDie d f).net p' = s.net p') ∧
    (∀ (p' : Nat), (s.modDie d f).axp p' = s.axp p') ∧
    (∀ (p' : Nat), (s.modDie d f).axs p' = s.axs p') ∧
    (∀ (p' : Nat), (s.modDie d f).ptpPort p' = s.ptpPort p') ∧
    (∀ (p' : Nat), (s.modDie d f).cq p' = s.cq p') ∧
    (∀ (p' : Nat), (s.modDie d f).eq p' = s.eq p') ∧
    (∀ (d' : Nat), (s.modDie d f).present d' = s.present d') ∧
    ((s.modDie d f).pkgFault = s.pkgFault) ∧
    ((s.modDie d f).ready = s.ready) ∧
    ((s.modDie d f).logging = s.logging) ∧
    (∀ (k' i' : Nat), (s.modDie d f).unitRuns k' i' = s.unitRuns k' i') := by
  simp [State.reg, State.reg64, State.fld, State.bit, State.regInit, State.die, State.task?, State.pin, State.car, State.trip, State.fb,
    State.hoop, State.que, State.dma, State.net, State.axp, State.axs, State.ptpPort, State.cq, State.eq, State.present, State.pkgFault,
    State.ready, State.logging, State.dieRuns, State.dieActs, State.unitRuns]

@[simp] theorem State.setTask_reads (s : State) (t : Nat) (k : Task) :
    (∀ (r' : Reg) (ix' : Ix), (s.setTask t k).reg r' ix' = s.reg r' ix') ∧
    (∀ (r' q' : Reg) (ix' : Ix), (s.setTask t k).reg64 r' q' ix' = s.reg64 r' q' ix') ∧
    (∀ (f' : Fld) (ix' : Ix), (s.setTask t k).fld f' ix' = s.fld f' ix') ∧
    (∀ (f' : Fld) (ix' : Ix), (s.setTask t k).bit f' ix' = s.bit f' ix') ∧
    (∀ (d' : Nat), (s.setTask t k).die d' = s.die d') ∧
    (∀ (p' : Nat), (s.setTask t k).pin p' = s.pin p') ∧
    (∀ (p' : Nat), (s.setTask t k).car p' = s.car p') ∧
    (∀ (p' : Nat), (s.setTask t k).trip p' = s.trip p') ∧
    (∀ (p' : Nat), (s.setTask t k).fb p' = s.fb p') ∧
    (∀ (p' : Nat), (s.setTask t k).hoop p' = s.hoop p') ∧
    (∀ (p' : Nat), (s.setTask t k).que p' = s.que p') ∧
    (∀ (p' : Nat), (s.setTask t k).dma p' = s.dma p') ∧
    (∀ (p' : Nat), (s.setTask t k).net p' = s.net p') ∧
    (∀ (p' : Nat), (s.setTask t k).axp p' = s.axp p') ∧
    (∀ (p' : Nat), (s.setTask t k).axs p' = s.axs p') ∧
    (∀ (p' : Nat), (s.setTask t k).ptpPort p' = s.ptpPort p') ∧
    (∀ (p' : Nat), (s.setTask t k).cq p' = s.cq p') ∧
    (∀ (p' : Nat), (s.setTask t k).eq p' = s.eq p') ∧
    (∀ (d' : Nat), (s.setTask t k).present d' = s.present d') ∧
    ((s.setTask t k).pkgFault = s.pkgFault) ∧
    ((s.setTask t k).ready = s.ready) ∧
    ((s.setTask t k).logging = s.logging) ∧
    (∀ (d' : Nat), (s.setTask t k).dieRuns d' = s.dieRuns d') ∧
    (∀ (d' : Nat), (s.setTask t k).dieActs d' = s.dieActs d') := by
  simp [State.reg, State.reg64, State.fld, State.bit, State.regInit, State.die, State.task?, State.pin, State.car, State.trip, State.fb,
    State.hoop, State.que, State.dma, State.net, State.axp, State.axs, State.ptpPort, State.cq, State.eq, State.present, State.pkgFault,
    State.ready, State.logging, State.dieRuns, State.dieActs, State.unitRuns]

@[simp] theorem State.setPin_reads (s : State) (p : Nat) (x : PinSt) :
    (∀ (r' : Reg) (ix' : Ix), (s.setPin p x).reg r' ix' = s.reg r' ix') ∧
    (∀ (r' q' : Reg) (ix' : Ix), (s.setPin p x).reg64 r' q' ix' = s.reg64 r' q' ix') ∧
    (∀ (f' : Fld) (ix' : Ix), (s.setPin p x).fld f' ix' = s.fld f' ix') ∧
    (∀ (f' : Fld) (ix' : Ix), (s.setPin p x).bit f' ix' = s.bit f' ix') ∧
    (∀ (d' : Nat), (s.setPin p x).die d' = s.die d') ∧
    (∀ (t' : Nat), (s.setPin p x).task? t' = s.task? t') ∧
    (∀ (p' : Nat), (s.setPin p x).car p' = s.car p') ∧
    (∀ (p' : Nat), (s.setPin p x).trip p' = s.trip p') ∧
    (∀ (p' : Nat), (s.setPin p x).fb p' = s.fb p') ∧
    (∀ (p' : Nat), (s.setPin p x).hoop p' = s.hoop p') ∧
    (∀ (p' : Nat), (s.setPin p x).que p' = s.que p') ∧
    (∀ (p' : Nat), (s.setPin p x).dma p' = s.dma p') ∧
    (∀ (p' : Nat), (s.setPin p x).net p' = s.net p') ∧
    (∀ (p' : Nat), (s.setPin p x).axp p' = s.axp p') ∧
    (∀ (p' : Nat), (s.setPin p x).axs p' = s.axs p') ∧
    (∀ (p' : Nat), (s.setPin p x).ptpPort p' = s.ptpPort p') ∧
    (∀ (p' : Nat), (s.setPin p x).cq p' = s.cq p') ∧
    (∀ (p' : Nat), (s.setPin p x).eq p' = s.eq p') ∧
    (∀ (d' : Nat), (s.setPin p x).present d' = s.present d') ∧
    ((s.setPin p x).pkgFault = s.pkgFault) ∧
    ((s.setPin p x).ready = s.ready) ∧
    ((s.setPin p x).logging = s.logging) ∧
    (∀ (d' : Nat), (s.setPin p x).dieRuns d' = s.dieRuns d') ∧
    (∀ (d' : Nat), (s.setPin p x).dieActs d' = s.dieActs d') ∧
    (∀ (k' i' : Nat), (s.setPin p x).unitRuns k' i' = s.unitRuns k' i') := by
  simp [State.reg, State.reg64, State.fld, State.bit, State.regInit, State.die, State.task?, State.pin, State.car, State.trip, State.fb,
    State.hoop, State.que, State.dma, State.net, State.axp, State.axs, State.ptpPort, State.cq, State.eq, State.present, State.pkgFault,
    State.ready, State.logging, State.dieRuns, State.dieActs, State.unitRuns]

@[simp] theorem State.modPin_reads (s : State) (p : Nat) (f : PinSt → PinSt) :
    (∀ (r' : Reg) (ix' : Ix), (s.modPin p f).reg r' ix' = s.reg r' ix') ∧
    (∀ (r' q' : Reg) (ix' : Ix), (s.modPin p f).reg64 r' q' ix' = s.reg64 r' q' ix') ∧
    (∀ (f' : Fld) (ix' : Ix), (s.modPin p f).fld f' ix' = s.fld f' ix') ∧
    (∀ (f' : Fld) (ix' : Ix), (s.modPin p f).bit f' ix' = s.bit f' ix') ∧
    (∀ (d' : Nat), (s.modPin p f).die d' = s.die d') ∧
    (∀ (t' : Nat), (s.modPin p f).task? t' = s.task? t') ∧
    (∀ (p' : Nat), (s.modPin p f).car p' = s.car p') ∧
    (∀ (p' : Nat), (s.modPin p f).trip p' = s.trip p') ∧
    (∀ (p' : Nat), (s.modPin p f).fb p' = s.fb p') ∧
    (∀ (p' : Nat), (s.modPin p f).hoop p' = s.hoop p') ∧
    (∀ (p' : Nat), (s.modPin p f).que p' = s.que p') ∧
    (∀ (p' : Nat), (s.modPin p f).dma p' = s.dma p') ∧
    (∀ (p' : Nat), (s.modPin p f).net p' = s.net p') ∧
    (∀ (p' : Nat), (s.modPin p f).axp p' = s.axp p') ∧
    (∀ (p' : Nat), (s.modPin p f).axs p' = s.axs p') ∧
    (∀ (p' : Nat), (s.modPin p f).ptpPort p' = s.ptpPort p') ∧
    (∀ (p' : Nat), (s.modPin p f).cq p' = s.cq p') ∧
    (∀ (p' : Nat), (s.modPin p f).eq p' = s.eq p') ∧
    (∀ (d' : Nat), (s.modPin p f).present d' = s.present d') ∧
    ((s.modPin p f).pkgFault = s.pkgFault) ∧
    ((s.modPin p f).ready = s.ready) ∧
    ((s.modPin p f).logging = s.logging) ∧
    (∀ (d' : Nat), (s.modPin p f).dieRuns d' = s.dieRuns d') ∧
    (∀ (d' : Nat), (s.modPin p f).dieActs d' = s.dieActs d') ∧
    (∀ (k' i' : Nat), (s.modPin p f).unitRuns k' i' = s.unitRuns k' i') := by
  simp [State.reg, State.reg64, State.fld, State.bit, State.regInit, State.die, State.task?, State.pin, State.car, State.trip, State.fb,
    State.hoop, State.que, State.dma, State.net, State.axp, State.axs, State.ptpPort, State.cq, State.eq, State.present, State.pkgFault,
    State.ready, State.logging, State.dieRuns, State.dieActs, State.unitRuns]

@[simp] theorem State.setCar_reads (s : State) (c : Nat) (x : CarSt) :
    (∀ (r' : Reg) (ix' : Ix), (s.setCar c x).reg r' ix' = s.reg r' ix') ∧
    (∀ (r' q' : Reg) (ix' : Ix), (s.setCar c x).reg64 r' q' ix' = s.reg64 r' q' ix') ∧
    (∀ (f' : Fld) (ix' : Ix), (s.setCar c x).fld f' ix' = s.fld f' ix') ∧
    (∀ (f' : Fld) (ix' : Ix), (s.setCar c x).bit f' ix' = s.bit f' ix') ∧
    (∀ (d' : Nat), (s.setCar c x).die d' = s.die d') ∧
    (∀ (t' : Nat), (s.setCar c x).task? t' = s.task? t') ∧
    (∀ (p' : Nat), (s.setCar c x).pin p' = s.pin p') ∧
    (∀ (p' : Nat), (s.setCar c x).trip p' = s.trip p') ∧
    (∀ (p' : Nat), (s.setCar c x).fb p' = s.fb p') ∧
    (∀ (p' : Nat), (s.setCar c x).hoop p' = s.hoop p') ∧
    (∀ (p' : Nat), (s.setCar c x).que p' = s.que p') ∧
    (∀ (p' : Nat), (s.setCar c x).dma p' = s.dma p') ∧
    (∀ (p' : Nat), (s.setCar c x).net p' = s.net p') ∧
    (∀ (p' : Nat), (s.setCar c x).axp p' = s.axp p') ∧
    (∀ (p' : Nat), (s.setCar c x).axs p' = s.axs p') ∧
    (∀ (p' : Nat), (s.setCar c x).ptpPort p' = s.ptpPort p') ∧
    (∀ (p' : Nat), (s.setCar c x).cq p' = s.cq p') ∧
    (∀ (p' : Nat), (s.setCar c x).eq p' = s.eq p') ∧
    (∀ (d' : Nat), (s.setCar c x).present d' = s.present d') ∧
    ((s.setCar c x).pkgFault = s.pkgFault) ∧
    ((s.setCar c x).ready = s.ready) ∧
    ((s.setCar c x).logging = s.logging) ∧
    (∀ (d' : Nat), (s.setCar c x).dieRuns d' = s.dieRuns d') ∧
    (∀ (d' : Nat), (s.setCar c x).dieActs d' = s.dieActs d') ∧
    (∀ (k' i' : Nat), (s.setCar c x).unitRuns k' i' = s.unitRuns k' i') := by
  simp [State.reg, State.reg64, State.fld, State.bit, State.regInit, State.die, State.task?, State.pin, State.car, State.trip, State.fb,
    State.hoop, State.que, State.dma, State.net, State.axp, State.axs, State.ptpPort, State.cq, State.eq, State.present, State.pkgFault,
    State.ready, State.logging, State.dieRuns, State.dieActs, State.unitRuns]

@[simp] theorem State.modCar_reads (s : State) (c : Nat) (f : CarSt → CarSt) :
    (∀ (r' : Reg) (ix' : Ix), (s.modCar c f).reg r' ix' = s.reg r' ix') ∧
    (∀ (r' q' : Reg) (ix' : Ix), (s.modCar c f).reg64 r' q' ix' = s.reg64 r' q' ix') ∧
    (∀ (f' : Fld) (ix' : Ix), (s.modCar c f).fld f' ix' = s.fld f' ix') ∧
    (∀ (f' : Fld) (ix' : Ix), (s.modCar c f).bit f' ix' = s.bit f' ix') ∧
    (∀ (d' : Nat), (s.modCar c f).die d' = s.die d') ∧
    (∀ (t' : Nat), (s.modCar c f).task? t' = s.task? t') ∧
    (∀ (p' : Nat), (s.modCar c f).pin p' = s.pin p') ∧
    (∀ (p' : Nat), (s.modCar c f).trip p' = s.trip p') ∧
    (∀ (p' : Nat), (s.modCar c f).fb p' = s.fb p') ∧
    (∀ (p' : Nat), (s.modCar c f).hoop p' = s.hoop p') ∧
    (∀ (p' : Nat), (s.modCar c f).que p' = s.que p') ∧
    (∀ (p' : Nat), (s.modCar c f).dma p' = s.dma p') ∧
    (∀ (p' : Nat), (s.modCar c f).net p' = s.net p') ∧
    (∀ (p' : Nat), (s.modCar c f).axp p' = s.axp p') ∧
    (∀ (p' : Nat), (s.modCar c f).axs p' = s.axs p') ∧
    (∀ (p' : Nat), (s.modCar c f).ptpPort p' = s.ptpPort p') ∧
    (∀ (p' : Nat), (s.modCar c f).cq p' = s.cq p') ∧
    (∀ (p' : Nat), (s.modCar c f).eq p' = s.eq p') ∧
    (∀ (d' : Nat), (s.modCar c f).present d' = s.present d') ∧
    ((s.modCar c f).pkgFault = s.pkgFault) ∧
    ((s.modCar c f).ready = s.ready) ∧
    ((s.modCar c f).logging = s.logging) ∧
    (∀ (d' : Nat), (s.modCar c f).dieRuns d' = s.dieRuns d') ∧
    (∀ (d' : Nat), (s.modCar c f).dieActs d' = s.dieActs d') ∧
    (∀ (k' i' : Nat), (s.modCar c f).unitRuns k' i' = s.unitRuns k' i') := by
  simp [State.reg, State.reg64, State.fld, State.bit, State.regInit, State.die, State.task?, State.pin, State.car, State.trip, State.fb,
    State.hoop, State.que, State.dma, State.net, State.axp, State.axs, State.ptpPort, State.cq, State.eq, State.present, State.pkgFault,
    State.ready, State.logging, State.dieRuns, State.dieActs, State.unitRuns]

@[simp] theorem State.setTrip_reads (s : State) (j : Nat) (x : TripSt) :
    (∀ (r' : Reg) (ix' : Ix), (s.setTrip j x).reg r' ix' = s.reg r' ix') ∧
    (∀ (r' q' : Reg) (ix' : Ix), (s.setTrip j x).reg64 r' q' ix' = s.reg64 r' q' ix') ∧
    (∀ (f' : Fld) (ix' : Ix), (s.setTrip j x).fld f' ix' = s.fld f' ix') ∧
    (∀ (f' : Fld) (ix' : Ix), (s.setTrip j x).bit f' ix' = s.bit f' ix') ∧
    (∀ (d' : Nat), (s.setTrip j x).die d' = s.die d') ∧
    (∀ (t' : Nat), (s.setTrip j x).task? t' = s.task? t') ∧
    (∀ (p' : Nat), (s.setTrip j x).pin p' = s.pin p') ∧
    (∀ (p' : Nat), (s.setTrip j x).car p' = s.car p') ∧
    (∀ (p' : Nat), (s.setTrip j x).fb p' = s.fb p') ∧
    (∀ (p' : Nat), (s.setTrip j x).hoop p' = s.hoop p') ∧
    (∀ (p' : Nat), (s.setTrip j x).que p' = s.que p') ∧
    (∀ (p' : Nat), (s.setTrip j x).dma p' = s.dma p') ∧
    (∀ (p' : Nat), (s.setTrip j x).net p' = s.net p') ∧
    (∀ (p' : Nat), (s.setTrip j x).axp p' = s.axp p') ∧
    (∀ (p' : Nat), (s.setTrip j x).axs p' = s.axs p') ∧
    (∀ (p' : Nat), (s.setTrip j x).ptpPort p' = s.ptpPort p') ∧
    (∀ (p' : Nat), (s.setTrip j x).cq p' = s.cq p') ∧
    (∀ (p' : Nat), (s.setTrip j x).eq p' = s.eq p') ∧
    (∀ (d' : Nat), (s.setTrip j x).present d' = s.present d') ∧
    ((s.setTrip j x).pkgFault = s.pkgFault) ∧
    ((s.setTrip j x).ready = s.ready) ∧
    ((s.setTrip j x).logging = s.logging) ∧
    (∀ (d' : Nat), (s.setTrip j x).dieRuns d' = s.dieRuns d') ∧
    (∀ (d' : Nat), (s.setTrip j x).dieActs d' = s.dieActs d') ∧
    (∀ (k' i' : Nat), (s.setTrip j x).unitRuns k' i' = s.unitRuns k' i') := by
  simp [State.reg, State.reg64, State.fld, State.bit, State.regInit, State.die, State.task?, State.pin, State.car, State.trip, State.fb,
    State.hoop, State.que, State.dma, State.net, State.axp, State.axs, State.ptpPort, State.cq, State.eq, State.present, State.pkgFault,
    State.ready, State.logging, State.dieRuns, State.dieActs, State.unitRuns]

@[simp] theorem State.modTrip_reads (s : State) (j : Nat) (f : TripSt → TripSt) :
    (∀ (r' : Reg) (ix' : Ix), (s.modTrip j f).reg r' ix' = s.reg r' ix') ∧
    (∀ (r' q' : Reg) (ix' : Ix), (s.modTrip j f).reg64 r' q' ix' = s.reg64 r' q' ix') ∧
    (∀ (f' : Fld) (ix' : Ix), (s.modTrip j f).fld f' ix' = s.fld f' ix') ∧
    (∀ (f' : Fld) (ix' : Ix), (s.modTrip j f).bit f' ix' = s.bit f' ix') ∧
    (∀ (d' : Nat), (s.modTrip j f).die d' = s.die d') ∧
    (∀ (t' : Nat), (s.modTrip j f).task? t' = s.task? t') ∧
    (∀ (p' : Nat), (s.modTrip j f).pin p' = s.pin p') ∧
    (∀ (p' : Nat), (s.modTrip j f).car p' = s.car p') ∧
    (∀ (p' : Nat), (s.modTrip j f).fb p' = s.fb p') ∧
    (∀ (p' : Nat), (s.modTrip j f).hoop p' = s.hoop p') ∧
    (∀ (p' : Nat), (s.modTrip j f).que p' = s.que p') ∧
    (∀ (p' : Nat), (s.modTrip j f).dma p' = s.dma p') ∧
    (∀ (p' : Nat), (s.modTrip j f).net p' = s.net p') ∧
    (∀ (p' : Nat), (s.modTrip j f).axp p' = s.axp p') ∧
    (∀ (p' : Nat), (s.modTrip j f).axs p' = s.axs p') ∧
    (∀ (p' : Nat), (s.modTrip j f).ptpPort p' = s.ptpPort p') ∧
    (∀ (p' : Nat), (s.modTrip j f).cq p' = s.cq p') ∧
    (∀ (p' : Nat), (s.modTrip j f).eq p' = s.eq p') ∧
    (∀ (d' : Nat), (s.modTrip j f).present d' = s.present d') ∧
    ((s.modTrip j f).pkgFault = s.pkgFault) ∧
    ((s.modTrip j f).ready = s.ready) ∧
    ((s.modTrip j f).logging = s.logging) ∧
    (∀ (d' : Nat), (s.modTrip j f).dieRuns d' = s.dieRuns d') ∧
    (∀ (d' : Nat), (s.modTrip j f).dieActs d' = s.dieActs d') ∧
    (∀ (k' i' : Nat), (s.modTrip j f).unitRuns k' i' = s.unitRuns k' i') := by
  simp [State.reg, State.reg64, State.fld, State.bit, State.regInit, State.die, State.task?, State.pin, State.car, State.trip, State.fb,
    State.hoop, State.que, State.dma, State.net, State.axp, State.axs, State.ptpPort, State.cq, State.eq, State.present, State.pkgFault,
    State.ready, State.logging, State.dieRuns, State.dieActs, State.unitRuns]

@[simp] theorem State.setFb_reads (s : State) (n : Nat) (x : FbSt) :
    (∀ (r' : Reg) (ix' : Ix), (s.setFb n x).reg r' ix' = s.reg r' ix') ∧
    (∀ (r' q' : Reg) (ix' : Ix), (s.setFb n x).reg64 r' q' ix' = s.reg64 r' q' ix') ∧
    (∀ (f' : Fld) (ix' : Ix), (s.setFb n x).fld f' ix' = s.fld f' ix') ∧
    (∀ (f' : Fld) (ix' : Ix), (s.setFb n x).bit f' ix' = s.bit f' ix') ∧
    (∀ (d' : Nat), (s.setFb n x).die d' = s.die d') ∧
    (∀ (t' : Nat), (s.setFb n x).task? t' = s.task? t') ∧
    (∀ (p' : Nat), (s.setFb n x).pin p' = s.pin p') ∧
    (∀ (p' : Nat), (s.setFb n x).car p' = s.car p') ∧
    (∀ (p' : Nat), (s.setFb n x).trip p' = s.trip p') ∧
    (∀ (p' : Nat), (s.setFb n x).hoop p' = s.hoop p') ∧
    (∀ (p' : Nat), (s.setFb n x).que p' = s.que p') ∧
    (∀ (p' : Nat), (s.setFb n x).dma p' = s.dma p') ∧
    (∀ (p' : Nat), (s.setFb n x).net p' = s.net p') ∧
    (∀ (p' : Nat), (s.setFb n x).axp p' = s.axp p') ∧
    (∀ (p' : Nat), (s.setFb n x).axs p' = s.axs p') ∧
    (∀ (p' : Nat), (s.setFb n x).ptpPort p' = s.ptpPort p') ∧
    (∀ (p' : Nat), (s.setFb n x).cq p' = s.cq p') ∧
    (∀ (p' : Nat), (s.setFb n x).eq p' = s.eq p') ∧
    (∀ (d' : Nat), (s.setFb n x).present d' = s.present d') ∧
    ((s.setFb n x).pkgFault = s.pkgFault) ∧
    ((s.setFb n x).ready = s.ready) ∧
    ((s.setFb n x).logging = s.logging) ∧
    (∀ (d' : Nat), (s.setFb n x).dieRuns d' = s.dieRuns d') ∧
    (∀ (d' : Nat), (s.setFb n x).dieActs d' = s.dieActs d') ∧
    (∀ (k' i' : Nat), (s.setFb n x).unitRuns k' i' = s.unitRuns k' i') := by
  simp [State.reg, State.reg64, State.fld, State.bit, State.regInit, State.die, State.task?, State.pin, State.car, State.trip, State.fb,
    State.hoop, State.que, State.dma, State.net, State.axp, State.axs, State.ptpPort, State.cq, State.eq, State.present, State.pkgFault,
    State.ready, State.logging, State.dieRuns, State.dieActs, State.unitRuns]

@[simp] theorem State.modFb_reads (s : State) (n : Nat) (f : FbSt → FbSt) :
    (∀ (r' : Reg) (ix' : Ix), (s.modFb n f).reg r' ix' = s.reg r' ix') ∧
    (∀ (r' q' : Reg) (ix' : Ix), (s.modFb n f).reg64 r' q' ix' = s.reg64 r' q' ix') ∧
    (∀ (f' : Fld) (ix' : Ix), (s.modFb n f).fld f' ix' = s.fld f' ix') ∧
    (∀ (f' : Fld) (ix' : Ix), (s.modFb n f).bit f' ix' = s.bit f' ix') ∧
    (∀ (d' : Nat), (s.modFb n f).die d' = s.die d') ∧
    (∀ (t' : Nat), (s.modFb n f).task? t' = s.task? t') ∧
    (∀ (p' : Nat), (s.modFb n f).pin p' = s.pin p') ∧
    (∀ (p' : Nat), (s.modFb n f).car p' = s.car p') ∧
    (∀ (p' : Nat), (s.modFb n f).trip p' = s.trip p') ∧
    (∀ (p' : Nat), (s.modFb n f).hoop p' = s.hoop p') ∧
    (∀ (p' : Nat), (s.modFb n f).que p' = s.que p') ∧
    (∀ (p' : Nat), (s.modFb n f).dma p' = s.dma p') ∧
    (∀ (p' : Nat), (s.modFb n f).net p' = s.net p') ∧
    (∀ (p' : Nat), (s.modFb n f).axp p' = s.axp p') ∧
    (∀ (p' : Nat), (s.modFb n f).axs p' = s.axs p') ∧
    (∀ (p' : Nat), (s.modFb n f).ptpPort p' = s.ptpPort p') ∧
    (∀ (p' : Nat), (s.modFb n f).cq p' = s.cq p') ∧
    (∀ (p' : Nat), (s.modFb n f).eq p' = s.eq p') ∧
    (∀ (d' : Nat), (s.modFb n f).present d' = s.present d') ∧
    ((s.modFb n f).pkgFault = s.pkgFault) ∧
    ((s.modFb n f).ready = s.ready) ∧
    ((s.modFb n f).logging = s.logging) ∧
    (∀ (d' : Nat), (s.modFb n f).dieRuns d' = s.dieRuns d') ∧
    (∀ (d' : Nat), (s.modFb n f).dieActs d' = s.dieActs d') ∧
    (∀ (k' i' : Nat), (s.modFb n f).unitRuns k' i' = s.unitRuns k' i') := by
  simp [State.reg, State.reg64, State.fld, State.bit, State.regInit, State.die, State.task?, State.pin, State.car, State.trip, State.fb,
    State.hoop, State.que, State.dma, State.net, State.axp, State.axs, State.ptpPort, State.cq, State.eq, State.present, State.pkgFault,
    State.ready, State.logging, State.dieRuns, State.dieActs, State.unitRuns]

@[simp] theorem State.setHoop_reads (s : State) (h : Nat) (x : HoopSt) :
    (∀ (r' : Reg) (ix' : Ix), (s.setHoop h x).reg r' ix' = s.reg r' ix') ∧
    (∀ (r' q' : Reg) (ix' : Ix), (s.setHoop h x).reg64 r' q' ix' = s.reg64 r' q' ix') ∧
    (∀ (f' : Fld) (ix' : Ix), (s.setHoop h x).fld f' ix' = s.fld f' ix') ∧
    (∀ (f' : Fld) (ix' : Ix), (s.setHoop h x).bit f' ix' = s.bit f' ix') ∧
    (∀ (d' : Nat), (s.setHoop h x).die d' = s.die d') ∧
    (∀ (t' : Nat), (s.setHoop h x).task? t' = s.task? t') ∧
    (∀ (p' : Nat), (s.setHoop h x).pin p' = s.pin p') ∧
    (∀ (p' : Nat), (s.setHoop h x).car p' = s.car p') ∧
    (∀ (p' : Nat), (s.setHoop h x).trip p' = s.trip p') ∧
    (∀ (p' : Nat), (s.setHoop h x).fb p' = s.fb p') ∧
    (∀ (p' : Nat), (s.setHoop h x).que p' = s.que p') ∧
    (∀ (p' : Nat), (s.setHoop h x).dma p' = s.dma p') ∧
    (∀ (p' : Nat), (s.setHoop h x).net p' = s.net p') ∧
    (∀ (p' : Nat), (s.setHoop h x).axp p' = s.axp p') ∧
    (∀ (p' : Nat), (s.setHoop h x).axs p' = s.axs p') ∧
    (∀ (p' : Nat), (s.setHoop h x).ptpPort p' = s.ptpPort p') ∧
    (∀ (p' : Nat), (s.setHoop h x).cq p' = s.cq p') ∧
    (∀ (p' : Nat), (s.setHoop h x).eq p' = s.eq p') ∧
    (∀ (d' : Nat), (s.setHoop h x).present d' = s.present d') ∧
    ((s.setHoop h x).pkgFault = s.pkgFault) ∧
    ((s.setHoop h x).ready = s.ready) ∧
    ((s.setHoop h x).logging = s.logging) ∧
    (∀ (d' : Nat), (s.setHoop h x).dieRuns d' = s.dieRuns d') ∧
    (∀ (d' : Nat), (s.setHoop h x).dieActs d' = s.dieActs d') ∧
    (∀ (k' i' : Nat), (s.setHoop h x).unitRuns k' i' = s.unitRuns k' i') := by
  simp [State.reg, State.reg64, State.fld, State.bit, State.regInit, State.die, State.task?, State.pin, State.car, State.trip, State.fb,
    State.hoop, State.que, State.dma, State.net, State.axp, State.axs, State.ptpPort, State.cq, State.eq, State.present, State.pkgFault,
    State.ready, State.logging, State.dieRuns, State.dieActs, State.unitRuns]

@[simp] theorem State.modHoop_reads (s : State) (h : Nat) (f : HoopSt → HoopSt) :
    (∀ (r' : Reg) (ix' : Ix), (s.modHoop h f).reg r' ix' = s.reg r' ix') ∧
    (∀ (r' q' : Reg) (ix' : Ix), (s.modHoop h f).reg64 r' q' ix' = s.reg64 r' q' ix') ∧
    (∀ (f' : Fld) (ix' : Ix), (s.modHoop h f).fld f' ix' = s.fld f' ix') ∧
    (∀ (f' : Fld) (ix' : Ix), (s.modHoop h f).bit f' ix' = s.bit f' ix') ∧
    (∀ (d' : Nat), (s.modHoop h f).die d' = s.die d') ∧
    (∀ (t' : Nat), (s.modHoop h f).task? t' = s.task? t') ∧
    (∀ (p' : Nat), (s.modHoop h f).pin p' = s.pin p') ∧
    (∀ (p' : Nat), (s.modHoop h f).car p' = s.car p') ∧
    (∀ (p' : Nat), (s.modHoop h f).trip p' = s.trip p') ∧
    (∀ (p' : Nat), (s.modHoop h f).fb p' = s.fb p') ∧
    (∀ (p' : Nat), (s.modHoop h f).que p' = s.que p') ∧
    (∀ (p' : Nat), (s.modHoop h f).dma p' = s.dma p') ∧
    (∀ (p' : Nat), (s.modHoop h f).net p' = s.net p') ∧
    (∀ (p' : Nat), (s.modHoop h f).axp p' = s.axp p') ∧
    (∀ (p' : Nat), (s.modHoop h f).axs p' = s.axs p') ∧
    (∀ (p' : Nat), (s.modHoop h f).ptpPort p' = s.ptpPort p') ∧
    (∀ (p' : Nat), (s.modHoop h f).cq p' = s.cq p') ∧
    (∀ (p' : Nat), (s.modHoop h f).eq p' = s.eq p') ∧
    (∀ (d' : Nat), (s.modHoop h f).present d' = s.present d') ∧
    ((s.modHoop h f).pkgFault = s.pkgFault) ∧
    ((s.modHoop h f).ready = s.ready) ∧
    ((s.modHoop h f).logging = s.logging) ∧
    (∀ (d' : Nat), (s.modHoop h f).dieRuns d' = s.dieRuns d') ∧
    (∀ (d' : Nat), (s.modHoop h f).dieActs d' = s.dieActs d') ∧
    (∀ (k' i' : Nat), (s.modHoop h f).unitRuns k' i' = s.unitRuns k' i') := by
  simp [State.reg, State.reg64, State.fld, State.bit, State.regInit, State.die, State.task?, State.pin, State.car, State.trip, State.fb,
    State.hoop, State.que, State.dma, State.net, State.axp, State.axs, State.ptpPort, State.cq, State.eq, State.present, State.pkgFault,
    State.ready, State.logging, State.dieRuns, State.dieActs, State.unitRuns]

@[simp] theorem State.setQue_reads (s : State) (q : Nat) (x : QueSt) :
    (∀ (r' : Reg) (ix' : Ix), (s.setQue q x).reg r' ix' = s.reg r' ix') ∧
    (∀ (r' q' : Reg) (ix' : Ix), (s.setQue q x).reg64 r' q' ix' = s.reg64 r' q' ix') ∧
    (∀ (f' : Fld) (ix' : Ix), (s.setQue q x).fld f' ix' = s.fld f' ix') ∧
    (∀ (f' : Fld) (ix' : Ix), (s.setQue q x).bit f' ix' = s.bit f' ix') ∧
    (∀ (d' : Nat), (s.setQue q x).die d' = s.die d') ∧
    (∀ (t' : Nat), (s.setQue q x).task? t' = s.task? t') ∧
    (∀ (p' : Nat), (s.setQue q x).pin p' = s.pin p') ∧
    (∀ (p' : Nat), (s.setQue q x).car p' = s.car p') ∧
    (∀ (p' : Nat), (s.setQue q x).trip p' = s.trip p') ∧
    (∀ (p' : Nat), (s.setQue q x).fb p' = s.fb p') ∧
    (∀ (p' : Nat), (s.setQue q x).hoop p' = s.hoop p') ∧
    (∀ (p' : Nat), (s.setQue q x).dma p' = s.dma p') ∧
    (∀ (p' : Nat), (s.setQue q x).net p' = s.net p') ∧
    (∀ (p' : Nat), (s.setQue q x).axp p' = s.axp p') ∧
    (∀ (p' : Nat), (s.setQue q x).axs p' = s.axs p') ∧
    (∀ (p' : Nat), (s.setQue q x).ptpPort p' = s.ptpPort p') ∧
    (∀ (p' : Nat), (s.setQue q x).cq p' = s.cq p') ∧
    (∀ (p' : Nat), (s.setQue q x).eq p' = s.eq p') ∧
    (∀ (d' : Nat), (s.setQue q x).present d' = s.present d') ∧
    ((s.setQue q x).pkgFault = s.pkgFault) ∧
    ((s.setQue q x).ready = s.ready) ∧
    ((s.setQue q x).logging = s.logging) ∧
    (∀ (d' : Nat), (s.setQue q x).dieRuns d' = s.dieRuns d') ∧
    (∀ (d' : Nat), (s.setQue q x).dieActs d' = s.dieActs d') ∧
    (∀ (k' i' : Nat), (s.setQue q x).unitRuns k' i' = s.unitRuns k' i') := by
  simp [State.reg, State.reg64, State.fld, State.bit, State.regInit, State.die, State.task?, State.pin, State.car, State.trip, State.fb,
    State.hoop, State.que, State.dma, State.net, State.axp, State.axs, State.ptpPort, State.cq, State.eq, State.present, State.pkgFault,
    State.ready, State.logging, State.dieRuns, State.dieActs, State.unitRuns]

@[simp] theorem State.modQue_reads (s : State) (q : Nat) (f : QueSt → QueSt) :
    (∀ (r' : Reg) (ix' : Ix), (s.modQue q f).reg r' ix' = s.reg r' ix') ∧
    (∀ (r' q' : Reg) (ix' : Ix), (s.modQue q f).reg64 r' q' ix' = s.reg64 r' q' ix') ∧
    (∀ (f' : Fld) (ix' : Ix), (s.modQue q f).fld f' ix' = s.fld f' ix') ∧
    (∀ (f' : Fld) (ix' : Ix), (s.modQue q f).bit f' ix' = s.bit f' ix') ∧
    (∀ (d' : Nat), (s.modQue q f).die d' = s.die d') ∧
    (∀ (t' : Nat), (s.modQue q f).task? t' = s.task? t') ∧
    (∀ (p' : Nat), (s.modQue q f).pin p' = s.pin p') ∧
    (∀ (p' : Nat), (s.modQue q f).car p' = s.car p') ∧
    (∀ (p' : Nat), (s.modQue q f).trip p' = s.trip p') ∧
    (∀ (p' : Nat), (s.modQue q f).fb p' = s.fb p') ∧
    (∀ (p' : Nat), (s.modQue q f).hoop p' = s.hoop p') ∧
    (∀ (p' : Nat), (s.modQue q f).dma p' = s.dma p') ∧
    (∀ (p' : Nat), (s.modQue q f).net p' = s.net p') ∧
    (∀ (p' : Nat), (s.modQue q f).axp p' = s.axp p') ∧
    (∀ (p' : Nat), (s.modQue q f).axs p' = s.axs p') ∧
    (∀ (p' : Nat), (s.modQue q f).ptpPort p' = s.ptpPort p') ∧
    (∀ (p' : Nat), (s.modQue q f).cq p' = s.cq p') ∧
    (∀ (p' : Nat), (s.modQue q f).eq p' = s.eq p') ∧
    (∀ (d' : Nat), (s.modQue q f).present d' = s.present d') ∧
    ((s.modQue q f).pkgFault = s.pkgFault) ∧
    ((s.modQue q f).ready = s.ready) ∧
    ((s.modQue q f).logging = s.logging) ∧
    (∀ (d' : Nat), (s.modQue q f).dieRuns d' = s.dieRuns d') ∧
    (∀ (d' : Nat), (s.modQue q f).dieActs d' = s.dieActs d') ∧
    (∀ (k' i' : Nat), (s.modQue q f).unitRuns k' i' = s.unitRuns k' i') := by
  simp [State.reg, State.reg64, State.fld, State.bit, State.regInit, State.die, State.task?, State.pin, State.car, State.trip, State.fb,
    State.hoop, State.que, State.dma, State.net, State.axp, State.axs, State.ptpPort, State.cq, State.eq, State.present, State.pkgFault,
    State.ready, State.logging, State.dieRuns, State.dieActs, State.unitRuns]

@[simp] theorem State.setEq_reads (s : State) (n : Nat) (x : EqSt) :
    (∀ (d' : Nat), (s.setEq n x).die d' = s.die d') ∧
    (∀ (t' : Nat), (s.setEq n x).task? t' = s.task? t') ∧
    (∀ (p' : Nat), (s.setEq n x).pin p' = s.pin p') ∧
    (∀ (p' : Nat), (s.setEq n x).car p' = s.car p') ∧
    (∀ (p' : Nat), (s.setEq n x).trip p' = s.trip p') ∧
    (∀ (p' : Nat), (s.setEq n x).fb p' = s.fb p') ∧
    (∀ (p' : Nat), (s.setEq n x).hoop p' = s.hoop p') ∧
    (∀ (p' : Nat), (s.setEq n x).que p' = s.que p') ∧
    (∀ (p' : Nat), (s.setEq n x).dma p' = s.dma p') ∧
    (∀ (p' : Nat), (s.setEq n x).net p' = s.net p') ∧
    (∀ (p' : Nat), (s.setEq n x).axp p' = s.axp p') ∧
    (∀ (p' : Nat), (s.setEq n x).axs p' = s.axs p') ∧
    (∀ (p' : Nat), (s.setEq n x).ptpPort p' = s.ptpPort p') ∧
    (∀ (p' : Nat), (s.setEq n x).cq p' = s.cq p') ∧
    (∀ (d' : Nat), (s.setEq n x).present d' = s.present d') ∧
    (∀ (d' : Nat), (s.setEq n x).dieRuns d' = s.dieRuns d') ∧
    (∀ (k' i' : Nat), (s.setEq n x).unitRuns k' i' = s.unitRuns k' i') := by
  simp [State.reg, State.reg64, State.fld, State.bit, State.regInit, State.die, State.task?, State.pin, State.car, State.trip, State.fb,
    State.hoop, State.que, State.dma, State.net, State.axp, State.axs, State.ptpPort, State.cq, State.eq, State.present, State.pkgFault,
    State.ready, State.logging, State.dieRuns, State.dieActs, State.unitRuns]

@[simp] theorem State.writeDieWord_reads (s : State) (d off : Nat) (v : Word) :
    (∀ (r' : Reg) (ix' : Ix), (s.writeDieWord d off v).reg r' ix' = s.reg r' ix') ∧
    (∀ (r' q' : Reg) (ix' : Ix), (s.writeDieWord d off v).reg64 r' q' ix' = s.reg64 r' q' ix') ∧
    (∀ (f' : Fld) (ix' : Ix), (s.writeDieWord d off v).fld f' ix' = s.fld f' ix') ∧
    (∀ (f' : Fld) (ix' : Ix), (s.writeDieWord d off v).bit f' ix' = s.bit f' ix') ∧
    (∀ (d' : Nat), (s.writeDieWord d off v).die d' = s.die d') ∧
    (∀ (t' : Nat), (s.writeDieWord d off v).task? t' = s.task? t') ∧
    (∀ (p' : Nat), (s.writeDieWord d off v).pin p' = s.pin p') ∧
    (∀ (p' : Nat), (s.writeDieWord d off v).car p' = s.car p') ∧
    (∀ (p' : Nat), (s.writeDieWord d off v).trip p' = s.trip p') ∧
    (∀ (p' : Nat), (s.writeDieWord d off v).fb p' = s.fb p') ∧
    (∀ (p' : Nat), (s.writeDieWord d off v).hoop p' = s.hoop p') ∧
    (∀ (p' : Nat), (s.writeDieWord d off v).que p' = s.que p') ∧
    (∀ (p' : Nat), (s.writeDieWord d off v).dma p' = s.dma p') ∧
    (∀ (p' : Nat), (s.writeDieWord d off v).net p' = s.net p') ∧
    (∀ (p' : Nat), (s.writeDieWord d off v).axp p' = s.axp p') ∧
    (∀ (p' : Nat), (s.writeDieWord d off v).axs p' = s.axs p') ∧
    (∀ (p' : Nat), (s.writeDieWord d off v).ptpPort p' = s.ptpPort p') ∧
    (∀ (p' : Nat), (s.writeDieWord d off v).cq p' = s.cq p') ∧
    (∀ (p' : Nat), (s.writeDieWord d off v).eq p' = s.eq p') ∧
    (∀ (d' : Nat), (s.writeDieWord d off v).present d' = s.present d') ∧
    ((s.writeDieWord d off v).pkgFault = s.pkgFault) ∧
    ((s.writeDieWord d off v).ready = s.ready) ∧
    ((s.writeDieWord d off v).logging = s.logging) ∧
    (∀ (d' : Nat), (s.writeDieWord d off v).dieRuns d' = s.dieRuns d') ∧
    (∀ (d' : Nat), (s.writeDieWord d off v).dieActs d' = s.dieActs d') ∧
    (∀ (k' i' : Nat), (s.writeDieWord d off v).unitRuns k' i' = s.unitRuns k' i') := by
  simp [State.reg, State.reg64, State.fld, State.bit, State.regInit, State.die, State.task?, State.pin, State.car, State.trip, State.fb,
    State.hoop, State.que, State.dma, State.net, State.axp, State.axs, State.ptpPort, State.cq, State.eq, State.present, State.pkgFault,
    State.ready, State.logging, State.dieRuns, State.dieActs, State.unitRuns]

@[simp] theorem State.writeDie_reads (s : State) (d off : Nat) (bs : List Byte) :
    (∀ (r' : Reg) (ix' : Ix), (s.writeDie d off bs).reg r' ix' = s.reg r' ix') ∧
    (∀ (r' q' : Reg) (ix' : Ix), (s.writeDie d off bs).reg64 r' q' ix' = s.reg64 r' q' ix') ∧
    (∀ (f' : Fld) (ix' : Ix), (s.writeDie d off bs).fld f' ix' = s.fld f' ix') ∧
    (∀ (f' : Fld) (ix' : Ix), (s.writeDie d off bs).bit f' ix' = s.bit f' ix') ∧
    (∀ (d' : Nat), (s.writeDie d off bs).die d' = s.die d') ∧
    (∀ (t' : Nat), (s.writeDie d off bs).task? t' = s.task? t') ∧
    (∀ (p' : Nat), (s.writeDie d off bs).pin p' = s.pin p') ∧
    (∀ (p' : Nat), (s.writeDie d off bs).car p' = s.car p') ∧
    (∀ (p' : Nat), (s.writeDie d off bs).trip p' = s.trip p') ∧
    (∀ (p' : Nat), (s.writeDie d off bs).fb p' = s.fb p') ∧
    (∀ (p' : Nat), (s.writeDie d off bs).hoop p' = s.hoop p') ∧
    (∀ (p' : Nat), (s.writeDie d off bs).que p' = s.que p') ∧
    (∀ (p' : Nat), (s.writeDie d off bs).dma p' = s.dma p') ∧
    (∀ (p' : Nat), (s.writeDie d off bs).net p' = s.net p') ∧
    (∀ (p' : Nat), (s.writeDie d off bs).axp p' = s.axp p') ∧
    (∀ (p' : Nat), (s.writeDie d off bs).axs p' = s.axs p') ∧
    (∀ (p' : Nat), (s.writeDie d off bs).ptpPort p' = s.ptpPort p') ∧
    (∀ (p' : Nat), (s.writeDie d off bs).cq p' = s.cq p') ∧
    (∀ (p' : Nat), (s.writeDie d off bs).eq p' = s.eq p') ∧
    (∀ (d' : Nat), (s.writeDie d off bs).present d' = s.present d') ∧
    ((s.writeDie d off bs).pkgFault = s.pkgFault) ∧
    ((s.writeDie d off bs).ready = s.ready) ∧
    ((s.writeDie d off bs).logging = s.logging) ∧
    (∀ (d' : Nat), (s.writeDie d off bs).dieRuns d' = s.dieRuns d') ∧
    (∀ (d' : Nat), (s.writeDie d off bs).dieActs d' = s.dieActs d') ∧
    (∀ (k' i' : Nat), (s.writeDie d off bs).unitRuns k' i' = s.unitRuns k' i') := by
  simp [State.reg, State.reg64, State.fld, State.bit, State.regInit, State.die, State.task?, State.pin, State.car, State.trip, State.fb,
    State.hoop, State.que, State.dma, State.net, State.axp, State.axs, State.ptpPort, State.cq, State.eq, State.present, State.pkgFault,
    State.ready, State.logging, State.dieRuns, State.dieActs, State.unitRuns]

@[simp] theorem State.at_reads (s : State) (t : Time) :
    (∀ (p' : Nat), (s.at t).net p' = s.net p') ∧
    (∀ (p' : Nat), (s.at t).axp p' = s.axp p') ∧
    (∀ (p' : Nat), (s.at t).axs p' = s.axs p') ∧
    (∀ (p' : Nat), (s.at t).ptpPort p' = s.ptpPort p') ∧
    (∀ (p' : Nat), (s.at t).cq p' = s.cq p') ∧
    (∀ (p' : Nat), (s.at t).eq p' = s.eq p') ∧
    (∀ (d' : Nat), (s.at t).present d' = s.present d') ∧
    ((s.at t).ready = s.ready) ∧
    ((s.at t).logging = s.logging) := by
  simp [State.reg, State.reg64, State.fld, State.bit, State.regInit, State.die, State.task?, State.pin, State.car, State.trip, State.fb,
    State.hoop, State.que, State.dma, State.net, State.axp, State.axs, State.ptpPort, State.cq, State.eq, State.present, State.pkgFault,
    State.ready, State.logging, State.dieRuns, State.dieActs, State.unitRuns]

@[simp] theorem State.setDma_fields (s : State) (c : Nat) (x : DmaSt) :
    (s.setDma c x).pending = s.pending ∧
    (s.setDma c x).variant = s.variant ∧
    (s.setDma c x).fuses = s.fuses ∧
    (s.setDma c x).straps = s.straps ∧
    (s.setDma c x).ports = s.ports ∧
    (s.setDma c x).now = s.now ∧
    (s.setDma c x).slew = s.slew ∧
    (s.setDma c x).slewFrac = s.slewFrac ∧
    (s.setDma c x).slewPend = s.slewPend ∧
    (s.setDma c x).dieMem = s.dieMem ∧
    (s.setDma c x).ring = s.ring ∧
    (s.setDma c x).hostMem = s.hostMem ∧
    (s.setDma c x).ecc = s.ecc ∧
    (s.setDma c x).weak = s.weak ∧
    (s.setDma c x).tasks = s.tasks ∧
    (s.setDma c x).flight = s.flight ∧
    (s.setDma c x).msgs = s.msgs ∧
    (s.setDma c x).sent = s.sent ∧
    (s.setDma c x).dies = s.dies ∧
    (s.setDma c x).boot = s.boot ∧
    (s.setDma c x).dbg = s.dbg ∧
    (s.setDma c x).pcie = s.pcie ∧
    (s.setDma c x).recs = s.recs ∧
    (s.setDma c x).posts = s.posts ∧
    (s.setDma c x).cqs = s.cqs ∧
    (s.setDma c x).cqLast = s.cqLast ∧
    (s.setDma c x).cqTime = s.cqTime ∧
    (s.setDma c x).eqs = s.eqs ∧
    (s.setDma c x).groups = s.groups ∧
    (s.setDma c x).claims = s.claims ∧
    (s.setDma c x).coreIrq = s.coreIrq ∧
    (s.setDma c x).asleep = s.asleep ∧
    (s.setDma c x).prods = s.prods ∧
    (s.setDma c x).pins = s.pins ∧
    (s.setDma c x).cars = s.cars ∧
    (s.setDma c x).trips = s.trips ∧
    (s.setDma c x).fbs = s.fbs ∧
    (s.setDma c x).hoops = s.hoops ∧
    (s.setDma c x).ques = s.ques ∧
    (s.setDma c x).nets = s.nets ∧
    (s.setDma c x).ptpPorts = s.ptpPorts ∧
    (s.setDma c x).ptp = s.ptp ∧
    (s.setDma c x).axps = s.axps ∧
    (s.setDma c x).axss = s.axss ∧
    (s.setDma c x).freeCount = s.freeCount := by
  simp [State.setDma]

@[simp] theorem State.setDma_reads (s : State) (c : Nat) (x : DmaSt) :
    (∀ (d' : Nat), (s.setDma c x).die d' = s.die d') ∧
    (∀ (t' : Nat), (s.setDma c x).task? t' = s.task? t') ∧
    (∀ (p' : Nat), (s.setDma c x).pin p' = s.pin p') ∧
    (∀ (p' : Nat), (s.setDma c x).car p' = s.car p') ∧
    (∀ (p' : Nat), (s.setDma c x).trip p' = s.trip p') ∧
    (∀ (p' : Nat), (s.setDma c x).fb p' = s.fb p') ∧
    (∀ (p' : Nat), (s.setDma c x).hoop p' = s.hoop p') ∧
    (∀ (p' : Nat), (s.setDma c x).que p' = s.que p') ∧
    (∀ (p' : Nat), (s.setDma c x).net p' = s.net p') ∧
    (∀ (p' : Nat), (s.setDma c x).axp p' = s.axp p') ∧
    (∀ (p' : Nat), (s.setDma c x).axs p' = s.axs p') ∧
    (∀ (p' : Nat), (s.setDma c x).ptpPort p' = s.ptpPort p') ∧
    (∀ (p' : Nat), (s.setDma c x).cq p' = s.cq p') ∧
    (∀ (p' : Nat), (s.setDma c x).eq p' = s.eq p') ∧
    (∀ (d' : Nat), (s.setDma c x).present d' = s.present d') ∧
    (∀ (d' : Nat), (s.setDma c x).dieRuns d' = s.dieRuns d') ∧
    (∀ (k' i' : Nat), (s.setDma c x).unitRuns k' i' = s.unitRuns k' i') := by
  simp [State.reg, State.reg64, State.fld, State.bit, State.regInit, State.die, State.task?, State.pin, State.car, State.trip, State.fb,
    State.hoop, State.que, State.dma, State.net, State.axp, State.axs, State.ptpPort, State.cq, State.eq, State.present, State.pkgFault,
    State.ready, State.logging, State.dieRuns, State.dieActs, State.unitRuns]

@[simp] theorem State.setNet_fields (s : State) (p : Nat) (x : NetSt) :
    (s.setNet p x).pending = s.pending ∧
    (s.setNet p x).variant = s.variant ∧
    (s.setNet p x).fuses = s.fuses ∧
    (s.setNet p x).straps = s.straps ∧
    (s.setNet p x).regs = s.regs ∧
    (s.setNet p x).ports = s.ports ∧
    (s.setNet p x).now = s.now ∧
    (s.setNet p x).slew = s.slew ∧
    (s.setNet p x).slewFrac = s.slewFrac ∧
    (s.setNet p x).slewPend = s.slewPend ∧
    (s.setNet p x).dieMem = s.dieMem ∧
    (s.setNet p x).ring = s.ring ∧
    (s.setNet p x).hostMem = s.hostMem ∧
    (s.setNet p x).ecc = s.ecc ∧
    (s.setNet p x).weak = s.weak ∧
    (s.setNet p x).tasks = s.tasks ∧
    (s.setNet p x).flight = s.flight ∧
    (s.setNet p x).msgs = s.msgs ∧
    (s.setNet p x).sent = s.sent ∧
    (s.setNet p x).dies = s.dies ∧
    (s.setNet p x).boot = s.boot ∧
    (s.setNet p x).dbg = s.dbg ∧
    (s.setNet p x).pcie = s.pcie ∧
    (s.setNet p x).recs = s.recs ∧
    (s.setNet p x).posts = s.posts ∧
    (s.setNet p x).cqs = s.cqs ∧
    (s.setNet p x).cqLast = s.cqLast ∧
    (s.setNet p x).cqTime = s.cqTime ∧
    (s.setNet p x).eqs = s.eqs ∧
    (s.setNet p x).groups = s.groups ∧
    (s.setNet p x).claims = s.claims ∧
    (s.setNet p x).coreIrq = s.coreIrq ∧
    (s.setNet p x).asleep = s.asleep ∧
    (s.setNet p x).prods = s.prods ∧
    (s.setNet p x).pins = s.pins ∧
    (s.setNet p x).cars = s.cars ∧
    (s.setNet p x).trips = s.trips ∧
    (s.setNet p x).fbs = s.fbs ∧
    (s.setNet p x).hoops = s.hoops ∧
    (s.setNet p x).ques = s.ques ∧
    (s.setNet p x).dmas = s.dmas ∧
    (s.setNet p x).ptpPorts = s.ptpPorts ∧
    (s.setNet p x).ptp = s.ptp ∧
    (s.setNet p x).axps = s.axps ∧
    (s.setNet p x).axss = s.axss ∧
    (s.setNet p x).freeCount = s.freeCount := by
  simp [State.setNet]

@[simp] theorem State.setNet_reads (s : State) (p : Nat) (x : NetSt) :
    (∀ (r' : Reg) (ix' : Ix), (s.setNet p x).reg r' ix' = s.reg r' ix') ∧
    (∀ (r' q' : Reg) (ix' : Ix), (s.setNet p x).reg64 r' q' ix' = s.reg64 r' q' ix') ∧
    (∀ (f' : Fld) (ix' : Ix), (s.setNet p x).fld f' ix' = s.fld f' ix') ∧
    (∀ (f' : Fld) (ix' : Ix), (s.setNet p x).bit f' ix' = s.bit f' ix') ∧
    (∀ (d' : Nat), (s.setNet p x).die d' = s.die d') ∧
    (∀ (t' : Nat), (s.setNet p x).task? t' = s.task? t') ∧
    (∀ (p' : Nat), (s.setNet p x).pin p' = s.pin p') ∧
    (∀ (p' : Nat), (s.setNet p x).car p' = s.car p') ∧
    (∀ (p' : Nat), (s.setNet p x).trip p' = s.trip p') ∧
    (∀ (p' : Nat), (s.setNet p x).fb p' = s.fb p') ∧
    (∀ (p' : Nat), (s.setNet p x).hoop p' = s.hoop p') ∧
    (∀ (p' : Nat), (s.setNet p x).que p' = s.que p') ∧
    (∀ (p' : Nat), (s.setNet p x).dma p' = s.dma p') ∧
    (∀ (p' : Nat), (s.setNet p x).axp p' = s.axp p') ∧
    (∀ (p' : Nat), (s.setNet p x).axs p' = s.axs p') ∧
    (∀ (p' : Nat), (s.setNet p x).ptpPort p' = s.ptpPort p') ∧
    (∀ (p' : Nat), (s.setNet p x).cq p' = s.cq p') ∧
    (∀ (p' : Nat), (s.setNet p x).eq p' = s.eq p') ∧
    (∀ (d' : Nat), (s.setNet p x).present d' = s.present d') ∧
    ((s.setNet p x).pkgFault = s.pkgFault) ∧
    ((s.setNet p x).ready = s.ready) ∧
    ((s.setNet p x).logging = s.logging) ∧
    (∀ (d' : Nat), (s.setNet p x).dieRuns d' = s.dieRuns d') ∧
    (∀ (d' : Nat), (s.setNet p x).dieActs d' = s.dieActs d') ∧
    (∀ (k' i' : Nat), (s.setNet p x).unitRuns k' i' = s.unitRuns k' i') := by
  simp [State.reg, State.reg64, State.fld, State.bit, State.regInit, State.die, State.task?, State.pin, State.car, State.trip, State.fb,
    State.hoop, State.que, State.dma, State.net, State.axp, State.axs, State.ptpPort, State.cq, State.eq, State.present, State.pkgFault,
    State.ready, State.logging, State.dieRuns, State.dieActs, State.unitRuns]

@[simp] theorem State.setAxp_fields (s : State) (p : Nat) (x : AxpSt) :
    (s.setAxp p x).pending = s.pending ∧
    (s.setAxp p x).variant = s.variant ∧
    (s.setAxp p x).fuses = s.fuses ∧
    (s.setAxp p x).straps = s.straps ∧
    (s.setAxp p x).regs = s.regs ∧
    (s.setAxp p x).ports = s.ports ∧
    (s.setAxp p x).now = s.now ∧
    (s.setAxp p x).slew = s.slew ∧
    (s.setAxp p x).slewFrac = s.slewFrac ∧
    (s.setAxp p x).slewPend = s.slewPend ∧
    (s.setAxp p x).dieMem = s.dieMem ∧
    (s.setAxp p x).ring = s.ring ∧
    (s.setAxp p x).hostMem = s.hostMem ∧
    (s.setAxp p x).ecc = s.ecc ∧
    (s.setAxp p x).weak = s.weak ∧
    (s.setAxp p x).tasks = s.tasks ∧
    (s.setAxp p x).flight = s.flight ∧
    (s.setAxp p x).msgs = s.msgs ∧
    (s.setAxp p x).sent = s.sent ∧
    (s.setAxp p x).dies = s.dies ∧
    (s.setAxp p x).boot = s.boot ∧
    (s.setAxp p x).dbg = s.dbg ∧
    (s.setAxp p x).pcie = s.pcie ∧
    (s.setAxp p x).recs = s.recs ∧
    (s.setAxp p x).posts = s.posts ∧
    (s.setAxp p x).cqs = s.cqs ∧
    (s.setAxp p x).cqLast = s.cqLast ∧
    (s.setAxp p x).cqTime = s.cqTime ∧
    (s.setAxp p x).eqs = s.eqs ∧
    (s.setAxp p x).groups = s.groups ∧
    (s.setAxp p x).claims = s.claims ∧
    (s.setAxp p x).coreIrq = s.coreIrq ∧
    (s.setAxp p x).asleep = s.asleep ∧
    (s.setAxp p x).prods = s.prods ∧
    (s.setAxp p x).pins = s.pins ∧
    (s.setAxp p x).cars = s.cars ∧
    (s.setAxp p x).trips = s.trips ∧
    (s.setAxp p x).fbs = s.fbs ∧
    (s.setAxp p x).hoops = s.hoops ∧
    (s.setAxp p x).ques = s.ques ∧
    (s.setAxp p x).dmas = s.dmas ∧
    (s.setAxp p x).nets = s.nets ∧
    (s.setAxp p x).ptpPorts = s.ptpPorts ∧
    (s.setAxp p x).ptp = s.ptp ∧
    (s.setAxp p x).axss = s.axss ∧
    (s.setAxp p x).freeCount = s.freeCount := by
  simp [State.setAxp]

@[simp] theorem State.setAxp_reads (s : State) (p : Nat) (x : AxpSt) :
    (∀ (r' : Reg) (ix' : Ix), (s.setAxp p x).reg r' ix' = s.reg r' ix') ∧
    (∀ (r' q' : Reg) (ix' : Ix), (s.setAxp p x).reg64 r' q' ix' = s.reg64 r' q' ix') ∧
    (∀ (f' : Fld) (ix' : Ix), (s.setAxp p x).fld f' ix' = s.fld f' ix') ∧
    (∀ (f' : Fld) (ix' : Ix), (s.setAxp p x).bit f' ix' = s.bit f' ix') ∧
    (∀ (d' : Nat), (s.setAxp p x).die d' = s.die d') ∧
    (∀ (t' : Nat), (s.setAxp p x).task? t' = s.task? t') ∧
    (∀ (p' : Nat), (s.setAxp p x).pin p' = s.pin p') ∧
    (∀ (p' : Nat), (s.setAxp p x).car p' = s.car p') ∧
    (∀ (p' : Nat), (s.setAxp p x).trip p' = s.trip p') ∧
    (∀ (p' : Nat), (s.setAxp p x).fb p' = s.fb p') ∧
    (∀ (p' : Nat), (s.setAxp p x).hoop p' = s.hoop p') ∧
    (∀ (p' : Nat), (s.setAxp p x).que p' = s.que p') ∧
    (∀ (p' : Nat), (s.setAxp p x).dma p' = s.dma p') ∧
    (∀ (p' : Nat), (s.setAxp p x).net p' = s.net p') ∧
    (∀ (p' : Nat), (s.setAxp p x).axs p' = s.axs p') ∧
    (∀ (p' : Nat), (s.setAxp p x).ptpPort p' = s.ptpPort p') ∧
    (∀ (p' : Nat), (s.setAxp p x).cq p' = s.cq p') ∧
    (∀ (p' : Nat), (s.setAxp p x).eq p' = s.eq p') ∧
    (∀ (d' : Nat), (s.setAxp p x).present d' = s.present d') ∧
    ((s.setAxp p x).pkgFault = s.pkgFault) ∧
    ((s.setAxp p x).ready = s.ready) ∧
    ((s.setAxp p x).logging = s.logging) ∧
    (∀ (d' : Nat), (s.setAxp p x).dieRuns d' = s.dieRuns d') ∧
    (∀ (d' : Nat), (s.setAxp p x).dieActs d' = s.dieActs d') ∧
    (∀ (k' i' : Nat), (s.setAxp p x).unitRuns k' i' = s.unitRuns k' i') := by
  simp [State.reg, State.reg64, State.fld, State.bit, State.regInit, State.die, State.task?, State.pin, State.car, State.trip, State.fb,
    State.hoop, State.que, State.dma, State.net, State.axp, State.axs, State.ptpPort, State.cq, State.eq, State.present, State.pkgFault,
    State.ready, State.logging, State.dieRuns, State.dieActs, State.unitRuns]

@[simp] theorem State.setAxs_fields (s : State) (p : Nat) (x : AxsSt) :
    (s.setAxs p x).pending = s.pending ∧
    (s.setAxs p x).variant = s.variant ∧
    (s.setAxs p x).fuses = s.fuses ∧
    (s.setAxs p x).straps = s.straps ∧
    (s.setAxs p x).regs = s.regs ∧
    (s.setAxs p x).ports = s.ports ∧
    (s.setAxs p x).now = s.now ∧
    (s.setAxs p x).slew = s.slew ∧
    (s.setAxs p x).slewFrac = s.slewFrac ∧
    (s.setAxs p x).slewPend = s.slewPend ∧
    (s.setAxs p x).dieMem = s.dieMem ∧
    (s.setAxs p x).ring = s.ring ∧
    (s.setAxs p x).hostMem = s.hostMem ∧
    (s.setAxs p x).ecc = s.ecc ∧
    (s.setAxs p x).weak = s.weak ∧
    (s.setAxs p x).tasks = s.tasks ∧
    (s.setAxs p x).flight = s.flight ∧
    (s.setAxs p x).msgs = s.msgs ∧
    (s.setAxs p x).sent = s.sent ∧
    (s.setAxs p x).dies = s.dies ∧
    (s.setAxs p x).boot = s.boot ∧
    (s.setAxs p x).dbg = s.dbg ∧
    (s.setAxs p x).pcie = s.pcie ∧
    (s.setAxs p x).recs = s.recs ∧
    (s.setAxs p x).posts = s.posts ∧
    (s.setAxs p x).cqs = s.cqs ∧
    (s.setAxs p x).cqLast = s.cqLast ∧
    (s.setAxs p x).cqTime = s.cqTime ∧
    (s.setAxs p x).eqs = s.eqs ∧
    (s.setAxs p x).groups = s.groups ∧
    (s.setAxs p x).claims = s.claims ∧
    (s.setAxs p x).coreIrq = s.coreIrq ∧
    (s.setAxs p x).asleep = s.asleep ∧
    (s.setAxs p x).prods = s.prods ∧
    (s.setAxs p x).pins = s.pins ∧
    (s.setAxs p x).cars = s.cars ∧
    (s.setAxs p x).trips = s.trips ∧
    (s.setAxs p x).fbs = s.fbs ∧
    (s.setAxs p x).hoops = s.hoops ∧
    (s.setAxs p x).ques = s.ques ∧
    (s.setAxs p x).dmas = s.dmas ∧
    (s.setAxs p x).nets = s.nets ∧
    (s.setAxs p x).ptpPorts = s.ptpPorts ∧
    (s.setAxs p x).ptp = s.ptp ∧
    (s.setAxs p x).axps = s.axps ∧
    (s.setAxs p x).freeCount = s.freeCount := by
  simp [State.setAxs]

@[simp] theorem State.setAxs_reads (s : State) (p : Nat) (x : AxsSt) :
    (∀ (r' : Reg) (ix' : Ix), (s.setAxs p x).reg r' ix' = s.reg r' ix') ∧
    (∀ (r' q' : Reg) (ix' : Ix), (s.setAxs p x).reg64 r' q' ix' = s.reg64 r' q' ix') ∧
    (∀ (f' : Fld) (ix' : Ix), (s.setAxs p x).fld f' ix' = s.fld f' ix') ∧
    (∀ (f' : Fld) (ix' : Ix), (s.setAxs p x).bit f' ix' = s.bit f' ix') ∧
    (∀ (d' : Nat), (s.setAxs p x).die d' = s.die d') ∧
    (∀ (t' : Nat), (s.setAxs p x).task? t' = s.task? t') ∧
    (∀ (p' : Nat), (s.setAxs p x).pin p' = s.pin p') ∧
    (∀ (p' : Nat), (s.setAxs p x).car p' = s.car p') ∧
    (∀ (p' : Nat), (s.setAxs p x).trip p' = s.trip p') ∧
    (∀ (p' : Nat), (s.setAxs p x).fb p' = s.fb p') ∧
    (∀ (p' : Nat), (s.setAxs p x).hoop p' = s.hoop p') ∧
    (∀ (p' : Nat), (s.setAxs p x).que p' = s.que p') ∧
    (∀ (p' : Nat), (s.setAxs p x).dma p' = s.dma p') ∧
    (∀ (p' : Nat), (s.setAxs p x).net p' = s.net p') ∧
    (∀ (p' : Nat), (s.setAxs p x).axp p' = s.axp p') ∧
    (∀ (p' : Nat), (s.setAxs p x).ptpPort p' = s.ptpPort p') ∧
    (∀ (p' : Nat), (s.setAxs p x).cq p' = s.cq p') ∧
    (∀ (p' : Nat), (s.setAxs p x).eq p' = s.eq p') ∧
    (∀ (d' : Nat), (s.setAxs p x).present d' = s.present d') ∧
    ((s.setAxs p x).pkgFault = s.pkgFault) ∧
    ((s.setAxs p x).ready = s.ready) ∧
    ((s.setAxs p x).logging = s.logging) ∧
    (∀ (d' : Nat), (s.setAxs p x).dieRuns d' = s.dieRuns d') ∧
    (∀ (d' : Nat), (s.setAxs p x).dieActs d' = s.dieActs d') ∧
    (∀ (k' i' : Nat), (s.setAxs p x).unitRuns k' i' = s.unitRuns k' i') := by
  simp [State.reg, State.reg64, State.fld, State.bit, State.regInit, State.die, State.task?, State.pin, State.car, State.trip, State.fb,
    State.hoop, State.que, State.dma, State.net, State.axp, State.axs, State.ptpPort, State.cq, State.eq, State.present, State.pkgFault,
    State.ready, State.logging, State.dieRuns, State.dieActs, State.unitRuns]

@[simp] theorem State.modPtp_fields (s : State) (p : Nat) (f : PtpPort → PtpPort) :
    (s.modPtp p f).pending = s.pending ∧
    (s.modPtp p f).variant = s.variant ∧
    (s.modPtp p f).fuses = s.fuses ∧
    (s.modPtp p f).straps = s.straps ∧
    (s.modPtp p f).regs = s.regs ∧
    (s.modPtp p f).ports = s.ports ∧
    (s.modPtp p f).now = s.now ∧
    (s.modPtp p f).slew = s.slew ∧
    (s.modPtp p f).slewFrac = s.slewFrac ∧
    (s.modPtp p f).slewPend = s.slewPend ∧
    (s.modPtp p f).dieMem = s.dieMem ∧
    (s.modPtp p f).ring = s.ring ∧
    (s.modPtp p f).hostMem = s.hostMem ∧
    (s.modPtp p f).ecc = s.ecc ∧
    (s.modPtp p f).weak = s.weak ∧
    (s.modPtp p f).tasks = s.tasks ∧
    (s.modPtp p f).flight = s.flight ∧
    (s.modPtp p f).msgs = s.msgs ∧
    (s.modPtp p f).sent = s.sent ∧
    (s.modPtp p f).dies = s.dies ∧
    (s.modPtp p f).boot = s.boot ∧
    (s.modPtp p f).dbg = s.dbg ∧
    (s.modPtp p f).pcie = s.pcie ∧
    (s.modPtp p f).recs = s.recs ∧
    (s.modPtp p f).posts = s.posts ∧
    (s.modPtp p f).cqs = s.cqs ∧
    (s.modPtp p f).cqLast = s.cqLast ∧
    (s.modPtp p f).cqTime = s.cqTime ∧
    (s.modPtp p f).eqs = s.eqs ∧
    (s.modPtp p f).groups = s.groups ∧
    (s.modPtp p f).claims = s.claims ∧
    (s.modPtp p f).coreIrq = s.coreIrq ∧
    (s.modPtp p f).asleep = s.asleep ∧
    (s.modPtp p f).prods = s.prods ∧
    (s.modPtp p f).pins = s.pins ∧
    (s.modPtp p f).cars = s.cars ∧
    (s.modPtp p f).trips = s.trips ∧
    (s.modPtp p f).fbs = s.fbs ∧
    (s.modPtp p f).hoops = s.hoops ∧
    (s.modPtp p f).ques = s.ques ∧
    (s.modPtp p f).dmas = s.dmas ∧
    (s.modPtp p f).nets = s.nets ∧
    (s.modPtp p f).ptp = s.ptp ∧
    (s.modPtp p f).axps = s.axps ∧
    (s.modPtp p f).axss = s.axss ∧
    (s.modPtp p f).freeCount = s.freeCount := by
  simp [State.modPtp]

@[simp] theorem State.modPtp_reads (s : State) (p : Nat) (f : PtpPort → PtpPort) :
    (∀ (r' : Reg) (ix' : Ix), (s.modPtp p f).reg r' ix' = s.reg r' ix') ∧
    (∀ (r' q' : Reg) (ix' : Ix), (s.modPtp p f).reg64 r' q' ix' = s.reg64 r' q' ix') ∧
    (∀ (f' : Fld) (ix' : Ix), (s.modPtp p f).fld f' ix' = s.fld f' ix') ∧
    (∀ (f' : Fld) (ix' : Ix), (s.modPtp p f).bit f' ix' = s.bit f' ix') ∧
    (∀ (d' : Nat), (s.modPtp p f).die d' = s.die d') ∧
    (∀ (t' : Nat), (s.modPtp p f).task? t' = s.task? t') ∧
    (∀ (p' : Nat), (s.modPtp p f).pin p' = s.pin p') ∧
    (∀ (p' : Nat), (s.modPtp p f).car p' = s.car p') ∧
    (∀ (p' : Nat), (s.modPtp p f).trip p' = s.trip p') ∧
    (∀ (p' : Nat), (s.modPtp p f).fb p' = s.fb p') ∧
    (∀ (p' : Nat), (s.modPtp p f).hoop p' = s.hoop p') ∧
    (∀ (p' : Nat), (s.modPtp p f).que p' = s.que p') ∧
    (∀ (p' : Nat), (s.modPtp p f).dma p' = s.dma p') ∧
    (∀ (p' : Nat), (s.modPtp p f).net p' = s.net p') ∧
    (∀ (p' : Nat), (s.modPtp p f).axp p' = s.axp p') ∧
    (∀ (p' : Nat), (s.modPtp p f).axs p' = s.axs p') ∧
    (∀ (p' : Nat), (s.modPtp p f).cq p' = s.cq p') ∧
    (∀ (p' : Nat), (s.modPtp p f).eq p' = s.eq p') ∧
    (∀ (d' : Nat), (s.modPtp p f).present d' = s.present d') ∧
    ((s.modPtp p f).pkgFault = s.pkgFault) ∧
    ((s.modPtp p f).ready = s.ready) ∧
    ((s.modPtp p f).logging = s.logging) ∧
    (∀ (d' : Nat), (s.modPtp p f).dieRuns d' = s.dieRuns d') ∧
    (∀ (d' : Nat), (s.modPtp p f).dieActs d' = s.dieActs d') ∧
    (∀ (k' i' : Nat), (s.modPtp p f).unitRuns k' i' = s.unitRuns k' i') := by
  simp [State.reg, State.reg64, State.fld, State.bit, State.regInit, State.die, State.task?, State.pin, State.car, State.trip, State.fb,
    State.hoop, State.que, State.dma, State.net, State.axp, State.axs, State.ptpPort, State.cq, State.eq, State.present, State.pkgFault,
    State.ready, State.logging, State.dieRuns, State.dieActs, State.unitRuns]

@[simp] theorem State.setCq_fields (s : State) (p : Nat) (x : CqCmd) :
    (s.setCq p x).pending = s.pending ∧
    (s.setCq p x).variant = s.variant ∧
    (s.setCq p x).fuses = s.fuses ∧
    (s.setCq p x).straps = s.straps ∧
    (s.setCq p x).regs = s.regs ∧
    (s.setCq p x).ports = s.ports ∧
    (s.setCq p x).now = s.now ∧
    (s.setCq p x).slew = s.slew ∧
    (s.setCq p x).slewFrac = s.slewFrac ∧
    (s.setCq p x).slewPend = s.slewPend ∧
    (s.setCq p x).dieMem = s.dieMem ∧
    (s.setCq p x).ring = s.ring ∧
    (s.setCq p x).hostMem = s.hostMem ∧
    (s.setCq p x).ecc = s.ecc ∧
    (s.setCq p x).weak = s.weak ∧
    (s.setCq p x).tasks = s.tasks ∧
    (s.setCq p x).flight = s.flight ∧
    (s.setCq p x).msgs = s.msgs ∧
    (s.setCq p x).sent = s.sent ∧
    (s.setCq p x).dies = s.dies ∧
    (s.setCq p x).boot = s.boot ∧
    (s.setCq p x).dbg = s.dbg ∧
    (s.setCq p x).pcie = s.pcie ∧
    (s.setCq p x).recs = s.recs ∧
    (s.setCq p x).posts = s.posts ∧
    (s.setCq p x).cqLast = s.cqLast ∧
    (s.setCq p x).cqTime = s.cqTime ∧
    (s.setCq p x).eqs = s.eqs ∧
    (s.setCq p x).groups = s.groups ∧
    (s.setCq p x).claims = s.claims ∧
    (s.setCq p x).coreIrq = s.coreIrq ∧
    (s.setCq p x).asleep = s.asleep ∧
    (s.setCq p x).prods = s.prods ∧
    (s.setCq p x).pins = s.pins ∧
    (s.setCq p x).cars = s.cars ∧
    (s.setCq p x).trips = s.trips ∧
    (s.setCq p x).fbs = s.fbs ∧
    (s.setCq p x).hoops = s.hoops ∧
    (s.setCq p x).ques = s.ques ∧
    (s.setCq p x).dmas = s.dmas ∧
    (s.setCq p x).nets = s.nets ∧
    (s.setCq p x).ptpPorts = s.ptpPorts ∧
    (s.setCq p x).ptp = s.ptp ∧
    (s.setCq p x).axps = s.axps ∧
    (s.setCq p x).axss = s.axss ∧
    (s.setCq p x).freeCount = s.freeCount := by
  simp [State.setCq]

@[simp] theorem State.setCq_reads (s : State) (p : Nat) (x : CqCmd) :
    (∀ (r' : Reg) (ix' : Ix), (s.setCq p x).reg r' ix' = s.reg r' ix') ∧
    (∀ (r' q' : Reg) (ix' : Ix), (s.setCq p x).reg64 r' q' ix' = s.reg64 r' q' ix') ∧
    (∀ (f' : Fld) (ix' : Ix), (s.setCq p x).fld f' ix' = s.fld f' ix') ∧
    (∀ (f' : Fld) (ix' : Ix), (s.setCq p x).bit f' ix' = s.bit f' ix') ∧
    (∀ (d' : Nat), (s.setCq p x).die d' = s.die d') ∧
    (∀ (t' : Nat), (s.setCq p x).task? t' = s.task? t') ∧
    (∀ (p' : Nat), (s.setCq p x).pin p' = s.pin p') ∧
    (∀ (p' : Nat), (s.setCq p x).car p' = s.car p') ∧
    (∀ (p' : Nat), (s.setCq p x).trip p' = s.trip p') ∧
    (∀ (p' : Nat), (s.setCq p x).fb p' = s.fb p') ∧
    (∀ (p' : Nat), (s.setCq p x).hoop p' = s.hoop p') ∧
    (∀ (p' : Nat), (s.setCq p x).que p' = s.que p') ∧
    (∀ (p' : Nat), (s.setCq p x).dma p' = s.dma p') ∧
    (∀ (p' : Nat), (s.setCq p x).net p' = s.net p') ∧
    (∀ (p' : Nat), (s.setCq p x).axp p' = s.axp p') ∧
    (∀ (p' : Nat), (s.setCq p x).axs p' = s.axs p') ∧
    (∀ (p' : Nat), (s.setCq p x).ptpPort p' = s.ptpPort p') ∧
    (∀ (p' : Nat), (s.setCq p x).eq p' = s.eq p') ∧
    (∀ (d' : Nat), (s.setCq p x).present d' = s.present d') ∧
    ((s.setCq p x).pkgFault = s.pkgFault) ∧
    ((s.setCq p x).ready = s.ready) ∧
    ((s.setCq p x).logging = s.logging) ∧
    (∀ (d' : Nat), (s.setCq p x).dieRuns d' = s.dieRuns d') ∧
    (∀ (d' : Nat), (s.setCq p x).dieActs d' = s.dieActs d') ∧
    (∀ (k' i' : Nat), (s.setCq p x).unitRuns k' i' = s.unitRuns k' i') := by
  simp [State.reg, State.reg64, State.fld, State.bit, State.regInit, State.die, State.task?, State.pin, State.car, State.trip, State.fb,
    State.hoop, State.que, State.dma, State.net, State.axp, State.axs, State.ptpPort, State.cq, State.eq, State.present, State.pkgFault,
    State.ready, State.logging, State.dieRuns, State.dieActs, State.unitRuns]

/-- The low half of every 64-bit register (R19). -/
@[simp] theorem Reg.lo_of_hi :
    Reg.lo .ID_SERIAL_HI = .ID_SERIAL_LO ∧
    Reg.lo .GT_NOW_HI = .GT_NOW_LO ∧
    Reg.lo .GT_SET_HI = .GT_SET_LO ∧
    Reg.lo .PLANT_OFFSET_HI = .PLANT_OFFSET_LO ∧
    Reg.lo .PLANT_NOW_HI = .PLANT_NOW_LO ∧
    Reg.lo .CTX_STEP_SEQ_HI = .CTX_STEP_SEQ_LO ∧
    Reg.lo .CTX_TN_HI = .CTX_TN_LO ∧
    Reg.lo .CTX_TL_HI = .CTX_TL_LO ∧
    Reg.lo .CTX_A_HI = .CTX_A_LO ∧
    Reg.lo .CTX_T_HI = .CTX_T_LO ∧
    Reg.lo .PIN_CAP_STAMP_HI = .PIN_CAP_STAMP_LO ∧
    Reg.lo .PIN_NEXT_HI = .PIN_NEXT_LO ∧
    Reg.lo .PINS_RELEASED_HI = .PINS_RELEASED_LO ∧
    Reg.lo .PINS_FAILED_HI = .PINS_FAILED_LO ∧
    Reg.lo .CAR_LAST_BOUNDARY_HI = .CAR_LAST_BOUNDARY_LO ∧
    Reg.lo .TRIP_ROUTE_HI = .TRIP_ROUTE_LO ∧
    Reg.lo .TRIP_LAST_HI = .TRIP_LAST_LO ∧
    Reg.lo .FB_POS_HI = .FB_POS_LO ∧
    Reg.lo .FB_SPEED_HI = .FB_SPEED_LO ∧
    Reg.lo .FB_LAST_EVENT_HI = .FB_LAST_EVENT_LO ∧
    Reg.lo .FB_IDX_VALUE_HI = .FB_IDX_VALUE_LO ∧
    Reg.lo .FB_IDX_POS_HI = .FB_IDX_POS_LO ∧
    Reg.lo .FB_SER_RAW_HI = .FB_SER_RAW_LO ∧
    Reg.lo .FB_CMP_VALUE_HI = .FB_CMP_VALUE_LO ∧
    Reg.lo .FB_PROBE_POS_HI = .FB_PROBE_POS_LO ∧
    Reg.lo .FB_PROBE_STAMP_HI = .FB_PROBE_STAMP_LO ∧
    Reg.lo .HOOP_LAST_TOOTH_HI = .HOOP_LAST_TOOTH_LO ∧
    Reg.lo .HOOP_EVT_START_HI = .HOOP_EVT_START_LO ∧
    Reg.lo .HOOP_EVT_END_HI = .HOOP_EVT_END_LO ∧
    Reg.lo .HOOP_SLOTS_PENDING_HI = .HOOP_SLOTS_PENDING_LO ∧
    Reg.lo .HOOP_SLOTS_ACTIVE_HI = .HOOP_SLOTS_ACTIVE_LO ∧
    Reg.lo .NET_MAC_HI = .NET_MAC_LO ∧
    Reg.lo .NET_GATE_BASE_HI = .NET_GATE_BASE_LO ∧
    Reg.lo .NET_GM_ID_HI = .NET_GM_ID_LO ∧
    Reg.lo .LS_GROUP_MAC_HI = .LS_GROUP_MAC_LO ∧
    Reg.lo .AXS_LAST_STAMP_HI = .AXS_LAST_STAMP_LO ∧
    Reg.lo .DMA_HEAD_HI = .DMA_HEAD_LO ∧
    Reg.lo .DMA_CUR_HI = .DMA_CUR_LO ∧
    Reg.lo .DMA_HWIN_BASE_HI = .DMA_HWIN_BASE_LO ∧
    Reg.lo .DMA_ERR_ADDR_HI = .DMA_ERR_ADDR_LO ∧
    Reg.lo .DMA_BYTES_HI = .DMA_BYTES_LO ∧
    Reg.lo .CQ_BASE_HI = .CQ_BASE_LO ∧
    Reg.lo .EQ_BASE_HI = .EQ_BASE_LO ∧
    Reg.lo .REC_HORIZON_HI = .REC_HORIZON_LO ∧
    Reg.lo .RTR_PRIV_EN_HI = .RTR_PRIV_EN_LO ∧
    Reg.lo .RTR_PRIV_PEND_HI = .RTR_PRIV_PEND_LO ∧
    Reg.lo .RTR_PRIV_ACT_HI = .RTR_PRIV_ACT_LO := by
  decide

/-- Moving time leaves the configuration of the network ports and of the PTP instance. -/
@[simp] theorem State.at_rxWanted (s : State) (t : Time) (p : Nat) (h : RxHdr) : (s.at t).rxWanted p h = s.rxWanted p h := by
  simp [State.rxWanted, State.groupMac, State.mac]

@[simp] theorem State.at_ptpUses (s : State) (t : Time) (p : Nat) : (s.at t).ptpUses p = s.ptpUses p := by simp [State.ptpUses]

@[simp] theorem State.at_portState (s : State) (t : Time) (p : Nat) : (s.at t).portState p = s.portState p := by
  simp [State.portState]

@[simp] theorem State.at_peerDelay (s : State) (t : Time) : (s.at t).peerDelay = s.peerDelay := by simp [State.peerDelay]

@[simp] theorem State.at_syncInterval (s : State) (t : Time) : (s.at t).syncInterval = s.syncInterval := by
  simp [State.syncInterval]

@[simp] theorem State.at_axsMatch (s : State) (t : Time) (p n a : Nat) : (s.at t).axsMatch p n a = s.axsMatch p n a := by
  simp [State.axsMatch]

@[simp] theorem State.at_gateOn (s : State) (t : Time) (p : Nat) : (s.at t).gateOn p = s.gateOn p := by simp [State.gateOn]

end Sys2Proof.Machine
end

