-- ==== Sys2Proof/Machine/Balls.lean ====
section
/-! DEFINITION. The ball map of the package (R1, R2, R543 to R547): which net each of the 1,936 balls belongs to. -/

namespace Sys2Proof.Machine

/-- The balls of R545; a pair has its positive ball first, a lane or data line its number. -/
inductive Signal where
  | pcieTx (n : Nat) (neg : Bool) | pcieRx (n : Nat) (neg : Bool) | pcieRefclk (neg : Bool) | refclk (neg : Bool)
  | sgmiiRefclk (neg : Bool) | netTx (port : Nat) (neg : Bool) | netRx (port : Nat) (neg : Bool)
  | perst | sysRstN | faultN | refclkSel | bootSel (n : Nat) | perstSel | tck | tms | tdi | tdo | trstN
  | qspitCsN | qspitSck | qspitIo (n : Nat) | qspicCsN | qspicSck | qspicIo (n : Nat)
  deriving DecidableEq, Repr

/-- The nets of R547. -/
inductive Net where
  | tpin (p : Nat) | fb (n : Nat) (line : Nat) | trip (j : Nat) | vddioT (d : Nat) | vddioF (d : Nat)
  | vddCore | vddSram | vddAux | vddSds09 | vddSds18 | vddioSys | signal (x : Signal) | vss | noConnect
  deriving DecidableEq, Repr

/-- The net of local row `i` and local column `j` of the block of die `d` (R544). -/
def blockNet (d i j : Nat) : Net :=
  if i ≤ 5 then (if 11 * i + j < 64 then .tpin (64 * d + (11 * i + j)) else .vddioT d)
  else if i = 6 then (if j % 2 = 1 then .vddioT d else .vss)
  else if i ≤ 9 then
    let q := 11 * (i - 7) + j
    if q < 24 then .fb (8 * d + q / 3) (q % 3) else if q < 32 then .trip (8 * d + (q - 24)) else .vddioF d
  else if i = 10 then (if j % 2 = 1 then .vddioF d else .vss)
  else .vss

/-- The signal at a position of the middle region (R545), rows N = 13, P = 14, T = 15, U = 16, W = 18, Y = 19. -/
def signalAt (row col : Nat) : Option Signal :=
  let lane := (col - 1) / 3
  let leg := (col - 1) % 3
  match row with
  | 13 =>
    if 1 ≤ col ∧ col ≤ 12 ∧ leg ≠ 2 then some (.pcieTx lane (leg == 1))
    else match col with
      | 13 => some (.netTx 1 false)
      | 14 => some (.netTx 1 true)
      | 16 => some (.netRx 1 false)
      | 17 => some (.netRx 1 true)
      | _ => none
  | 14 => if 1 ≤ col ∧ col ≤ 12 ∧ leg ≠ 2 then some (.pcieRx lane (leg == 1)) else none
  | 15 =>
    if leg = 2 ∨ col = 0 then none
    else match lane with
      | 0 => some (.pcieRefclk (leg == 1))
      | 1 => some (.refclk (leg == 1))
      | 2 => some (.sgmiiRefclk (leg == 1))
      | _ => none
  | 16 =>
    if leg = 2 ∨ col = 0 then none
    else match lane with
      | 0 => some (.netTx 0 (leg == 1))
      | 1 => some (.netRx 0 (leg == 1))
      | _ => none
  | 18 =>
    [none, some .perst, some .sysRstN, some .faultN, some .refclkSel, some (.bootSel 0), some (.bootSel 1), some .perstSel,
      some .tck, some .tms, some .tdi, some .tdo, some .trstN].getD col none
  | 19 =>
    [none, some .qspitCsN, some .qspitSck, some (.qspitIo 0), some (.qspitIo 1), some (.qspitIo 2), some (.qspitIo 3),
      some .qspicCsN, some .qspicSck, some (.qspicIo 0), some (.qspicIo 1), some (.qspicIo 2), some (.qspicIo 3)].getD col none
  | _ => none

/-- A supply or VSS ball of the middle region (R546), rows V = 17, AA = 20, AF = 25, AG = 26, AN = 32. -/
def supplyAt (row col : Nat) : Net :=
  let sds : Net := if col % 2 = 1 then .vddSds09 else .vddSds18
  if 13 ≤ row ∧ row ≤ 16 ∧ col ≤ 12 then .vss
  else if row = 13 ∧ (col = 15 ∨ (18 ≤ col ∧ col ≤ 22)) then .vss
  else if row = 17 ∧ col ≤ 12 then sds
  else if row = 14 ∧ 13 ≤ col ∧ col ≤ 22 then sds
  else if row = 20 ∧ col ≤ 6 then .vddioSys
  else if row = 20 ∧ col ≤ 12 then .vddAux
  else if (row + col) % 2 = 0 then .vss
  else if row = 25 ∨ row = 26 then .vddSram
  else if row = 32 then .vddAux
  else .vddCore

/-- The net of the ball in row `row` and column `col`, each 1 to 44, of a variant (R543, R544): the blocks of absent dies are
no-connects. -/
def ballNet (v : Variant) (row col : Nat) : Net :=
  if 13 ≤ row ∧ row ≤ 32 then
    match signalAt row col with
    | some x => .signal x
    | none => supplyAt row col
  else
    let upper := decide (row ≤ 12)
    let d := (if upper then 0 else 4) + (col - 1) / 11
    if v.dies ≤ d then .noConnect else blockNet d (if upper then row - 1 else 44 - row) ((col - 1) % 11)

/-- How many balls of a variant belong to nets that satisfy a test (R547). -/
def ballCount (v : Variant) (f : Net → Bool) : Nat :=
  ((List.range 44).map (fun r => ((List.range 44).filter (fun c => f (ballNet v (r + 1) (c + 1)))).length)).foldl (· + ·) 0

end Sys2Proof.Machine
end

