-- ==== Sys2Proof/Tests/Slice0.lean ====
section
/-! SUPPORT. The model's own tests: a term that each well-formedness check refuses, words the spec writes out, worked examples
of the spec, and for every statement states that meet its hypotheses. -/

namespace Sys2Proof.Tests
open Sys2Proof Sys2Proof.Machine

/-! ## Each well-formedness check refuses a term -/

theorem test_wf_task : (Instr.nop 4096).wellFormed = false := by decide
theorem test_wf_die : (Instr.pllLock 8).wellFormed = false := by decide
theorem test_wf_shuttle : (Instr.stepDispatch 0 5).wellFormed = false := by decide
theorem test_wf_cmd_queue : (Instr.cmdNop 16).wellFormed = false := by decide
theorem test_wf_pin : (Instr.stitchLock 512).wellFormed = false := by decide
theorem test_wf_carrier : (Instr.carrierBoundary 128).wellFormed = false := by decide
theorem test_wf_pair : (Instr.referenceEdge 0 4).wellFormed = false := by decide
theorem test_wf_trip : (Instr.blankWindowEnd 64).wellFormed = false := by decide
theorem test_wf_feedback : (Instr.fbStandstill 64).wellFormed = false := by decide
theorem test_wf_hoop : (Instr.hoopTooth 32).wellFormed = false := by decide
theorem test_wf_event_slot : (Instr.hoopEventStart 0 64).wellFormed = false := by decide
theorem test_wf_net_port : (Instr.gateEntryEnd 2).wellFormed = false := by decide
theorem test_wf_egress : (Instr.gateDrop 0 8).wellFormed = false := by decide
theorem test_wf_axis_entry : (Instr.axpSamplePost 64).wellFormed = false := by decide
theorem test_wf_queue : (Instr.qrelApply 2048).wellFormed = false := by decide
theorem test_wf_dma : (Instr.dmaParkReread 64).wellFormed = false := by decide
theorem test_wf_event_queue : (Instr.eqHeadWrite .pcie 16 0).wellFormed = false := by decide
theorem test_wf_target : (Instr.mailboxPost 18 []).wellFormed = false := by decide
theorem test_wf_group : (Instr.groupHoldoffExpiry 64).wellFormed = false := by decide
theorem test_wf_bar0 : (Instr.rcFieldRead .qspi ⟨0x10000000, 32⟩).wellFormed = false := by decide
theorem test_wf_die_byte : (Instr.scrubCorrectedWord 0 0x400000 false).wellFormed = false := by decide
theorem test_wf_width : (Instr.dieMemoryWrite .pcie 0 0 24 0).wellFormed = false := by decide
theorem test_wf_link : (Instr.linkRetransmit 0 4).wellFormed = false := by decide
theorem test_wf_rail : (Instr.supplyOutOfRange 5).wellFormed = false := by decide
theorem test_wf_flash_slot : (Instr.flashImageReadDone 2 none).wellFormed = false := by decide
theorem test_wf_ok : (Instr.pairCfgWrite .pcie 127 3 0).wellFormed = true := by decide

/-! ## The ball map (the lookups after R544, the counts of R547) -/

theorem test_ball_lookups : ballNet .d8 2 7 = .tpin 17 ∧ ballNet .d8 40 1 = .tpin 300 ∧ ballNet .d8 39 42 = .tpin 511 ∧
    ballNet .d8 10 19 = .trip 13 ∧ ballNet .d8 36 18 = .fb 45 2 := by decide +kernel
theorem test_ball_counts : ballCount .d8 (fun n => n == .vss) = 594 ∧ ballCount .d8 (fun n => n == .vddCore) = 316 ∧
    ballCount .d2 (fun n => n == .noConnect) = 792 := by decide +kernel

/-! ## Words of the spec -/

theorem test_word_tcvt : decodeWord 1 0x68C40A00 0 = some (.tcvt 1 3 1 0 .us) := by decide
theorem test_word_limm : decodeWord 1 0x21000000 0x3B9ACA00 = some (.limm 1 4 1000000000) := by decide
theorem test_word_divu : decodeWord 1 0x0950C800 0 = some (.divu 1 5 4 3) := by decide
theorem test_word_blt : decodeWord 1 0x2D580007 0 = some (.blt 1 5 6 7) := by decide
theorem test_word_nop : decodeWord 1 0xF8000000 0 = some (.nop 1) := by decide
theorem test_word_brk : decodeWord 1 0xF4000000 0 = some (.brk 1) := by decide
theorem test_word_zero : decodeWord 1 0 0 = none := by decide
/-- Opcode 0x14, LDW g2, [g3 − 1]. -/
theorem test_word_ldw :
    decodeWord 1 (0b010100#6 ++ 0b0010#4 ++ 0b0011#4 ++ 0b111111111111111111#18) 0 = some (.ldw 1 2 3 0x3FFFF) := by decide
/-- Opcode 0x20, STCH t1, g4 on the timing pin in slot 5 (kind 1). -/
theorem test_word_stch :
    decodeWord 1 (0b100000#6 ++ 0b0001#4 ++ 0b0100#4 ++ 0b0000#4 ++ 0b0001#4 ++ 0b0000000101#10) 0 = some (.stch 1 1 4 0x405) := by
  decide
/-- Opcode 0x1D with function 1, WAITE g2, t3. -/
theorem test_word_waite :
    decodeWord 1 (0b011101#6 ++ 0b0010#4 ++ 0b0011#4 ++ 0b0000#4 ++ 0b000001#6 ++ 0b00000000#8) 0 = some (.waite 1 2 (some 3)) := by
  decide
/-- Opcode 0x30, QPUT g7 to the queue in slot 2 (kind 10). -/
theorem test_word_qput :
    decodeWord 1 (0b110000#6 ++ 0b0000#4 ++ 0b0111#4 ++ 0b0000#4 ++ 0b1010#4 ++ 0b0000000010#10) 0 = some (.qput 1 7 0x2802) := by
  decide
/-- Opcode 0x2B, HCAN g1 on the hoop in slot 0 (kind 5). -/
theorem test_word_hcan :
    decodeWord 1 (0b101011#6 ++ 0b0000#4 ++ 0b0001#4 ++ 0b0000#4 ++ 0b0101#4 ++ 0b0000000000#10) 0 = some (.hcan 1 1 0x1400) := by
  decide
/-- A time register field above 5 (R122) and a nonzero reserved field (R124) are illegal. -/
theorem test_word_illegal :
    decodeWord 1 (0b100000#6 ++ 0b0110#4 ++ 0#22) 0 = none ∧ decodeWord 1 0xF8000001 0 = none := by decide
/-- "123456789" as two words and a byte gives the standard CRC-32C (R198). -/
theorem test_crc :
    ~~~(crcBytes (crcBytes (crcBytes 0xFFFFFFFF [0x31, 0x32, 0x33, 0x34]) [0x35, 0x36, 0x37, 0x38]) [0x39]) = 0xE3069283 := by
  decide +kernel

/-! ## States -/

/-- Die 0 live with every slot healthy. -/
def die0 : Die := { Die.reset with core := true, live := true, slots := List.replicate 5 ⟨true, true, none⟩, sramOk := true }

/-- The part out of reset and READY, with die 0 alone live, 1 ms of ground time on. -/
def up : State :=
  { State.reset with
    now := 64000000
    dies := [(0, die0)]
    boot := { Boot.reset with inReset := false, causeOn := false, perst := false, fusesOk := true }
    regs := [((.RST_STATUS, ⟨0, 0, 0, 0⟩), 0x11)] }

/-- A step of an activation at 1 ms, with T + L 100 µs later, running at offset 0; g1 is 252, g2 is 14, g3 is 1. -/
def step0 : Step :=
  { act := ⟨64000000, 0, 0, 0, false, 0, 0, 0, []⟩, tl := 70400000, reserve := 1000, running := true,
    w := ((Ctx.zero.wg 1 252).wg 2 14).wg 3 1, wbuf := [], extra := 0,
    effs := [], stitches := [], cmps := [], capts := [], pkts := [], rps := [], fullRecs := [], lates := [],
    cutOff := false, single := false, tested := false }

/-- One resource of every kind, each with number 0. -/
def resources : List Res := (List.range 14).map (fun i => ⟨i + 1, 0, 0, 0, false, 0⟩)

/-- A running task of die 0, slot 0, with 16 words of code, 256 bytes of data and the step `st`. -/
def tk (st : Step) : Task :=
  { rank := 1, stopPolicy := false, deferrable := false, privileged := false, lead := 100000, codeWords := 16, dataBytes := 256, digest := 0,
    sources := [⟨7, 0, 0, 100, 1000, 1⟩], res := resources, tables := [⟨0, 0, 64, 0x2000⟩], dataInit := [], affinity := 1, die := 0, slot := 0,
    ctx := 0, codeBase := 0x100, dataBase := 0x1000, held := true, memHeld := true, cross := false, crossHist := [],
    mig := none, state := .running, faultCode := 0, faultPc := 0, run := 1, startStamp := 0, c := Ctx.zero, resume := .entry, seq := 1,
    lastT := 0, lastTl := 0, step := some st, pend := [], timer := none, served := [], dropped := 0, marks := [], brk := false,
    halt := none, stopAt := none, falls := [], stitches := [], cmps := [], capts := [], rps := [], lateSeen := [] }

/-- Task 1 with step `st` and instruction `i` at offset 0 of its code. -/
def on (i : Instr) (st : Step) : State :=
  let ws := match encode i with
    | some (w, some e) => [w, e]
    | some (w, none) => [w]
    | none => []
  { up with tasks := [(1, tk st)], dieMem := memPutWords [] (dieAddr 0 0x400) ws }

/-- Does task 1 issue instruction `i` of `n` words now? -/
def runs (i : Instr) (st : Step) (n : Nat) : Bool :=
  (on i st).mayIssue (tk st) st && decide ((on i st).fetch 1 (tk st) st.w.pc = .inr (i, n)) && !st.cutOff

/-- What `runs` says is the hypothesis of the statements about instructions. -/
theorem runs_atInstr (i : Instr) (st : Step) (n : Nat) (h : runs i st n = true) : (on i st).AtInstr 1 i (tk st) st n := by
  simp only [runs, Bool.and_eq_true, decide_eq_true_eq] at h
  exact ⟨rfl, rfl, h.1.1, h.1.2, by simpa using h.2, rfl⟩

/-- Every instruction can be the one that a task issues. -/
theorem witness_every_instruction :
    ([.add 1 4 2 3, .sub 1 4 2 3, .and 1 4 2 3, .or 1 4 2 3, .xor 1 4 2 3, .shl 1 4 2 3, .shr 1 4 2 3, .sra 1 4 2 3, .min 1 4 2 3,
      .max 1 4 2 3, .adds 1 4 2 3, .subs 1 4 2 3, .cmp 1 2 3, .addi 1 4 2 5, .andi 1 4 2 5, .ori 1 4 2 5, .xori 1 4 2 5, .lui 1 4 5,
      .mul 1 4 2 3, .mulh 1 4 2 3, .mulhu 1 4 2 3, .mac 1 2 3, .macr 1 4 2, .qmul 1 4 2 3, .divu 1 4 2 3, .divs 1 4 2 3, .remu 1 4 2 3,
      .beq 1 2 3 5, .bne 1 2 3 5, .blt 1 2 3 5, .bge 1 2 3 5, .bltu 1 2 3 5, .bgeu 1 2 3 5, .jmp 1 2 0, .call 1 2 0, .ret 1,
      .ldb 1 4 1 0, .ldh 1 4 1 0, .ldw 1 4 1 0, .ldd 1 0 0 1, .stb 1 1 2 0, .sth 1 1 2 0, .stw 1 1 2 0, .std 1 0 1 0,
      .tmov 1 (.move 1 4), .tmov 1 (.lo 4 5), .tmov 1 (.hi 4 5), .tmov 1 (.pair 3 1 2), .tadd 1 0 4 2, .tsub 1 0 5 4, .tcmp 1 4 5,
      .tlead 1 0 4, .tcvt 1 4 5 4 .ns, .tnow 1 15, .brk 1, .nop 1] : List Instr).all (fun i => runs i step0 1) = true ∧
    ([.endStep 1, .wait 1 5, .waite 1 4 (some 5), .waite 1 4 none, .fault 1 0xFFFF,
      .stch 1 5 3 0x400, .stchr 1 5 3 0x400, .capt 1 0 3 0x400, .captp 1 0 0x400,
      .pwmw 1 5 1 2 0xC00, .pwmc 1 5 3 0xC00, .fbrd 1 0 0 0x1000, .fbspd 1 0 0x1000, .fbcmp 1 5 3 3 0x1000, .hooprd 1 4 3 0x1400,
      .hevt 1 1 2 0x1400, .hcan 1 2 0x1400, .send 1 5 1 3 0x2000, .recv 1 4 0 0x2400, .evnt 1 0 1 0x3000, .ring 1 0x3400,
      .camh 1 4 2 0 0x3800, .crc 1 4 2 3 .one, .qput 1 2 0x2800, .qrsv 1 4 3 0x2800, .qend 1 0x2800, .qget 1 4 0x2C00, .qmark 1 0x2C00,
      .qrew 1 0x2C00, .qrel 1 0x2C00, .qlvl 1 4 3 0x2C00] : List Instr).all (fun i => runs i step0 1) = true ∧
    ([.limm 1 4 0xDEADBEEF, .taddi 1 0 4 .us 5] : List Instr).all (fun i => runs i step0 2) = true := by decide +kernel

/-- The placer up, host memory reachable. -/
def placer : State :=
  { up with
    boot := { up.boot with verified := true, pair0 := true }
    pcie := { Pcie.reset with bme := true }
    regs := [((.RST_STATUS, ⟨0, 0, 0, 0⟩), 0x11), ((.PLC_STATUS, ⟨0, 0, 0, 0⟩), 1)] }

/-- An accepted command of opcode `op` with parameters `ps`. -/
def cmd (op : Nat) (ps : List Word) : CqCmd := ⟨0 :: BitVec.ofNat 32 op :: ps, 64000000, true, none, none⟩

/-- `placer` with task `k` as task 1 and command `c` in queue 0. -/
def ordered (k : List (Nat × Task)) (c : CqCmd) : State := { placer with tasks := k, cqs := [(0, c)] }

/-- A task image: one END, one source for host commands (R200 to R202). -/
def image : List Byte :=
  let le (n v : Nat) : List Byte := (List.range n).map (fun i => BitVec.ofNat 8 (v / 256 ^ i))
  let body := le 2 1 ++ le 2 0 ++ le 4 4 ++ le 4 0x78000000 ++ le 4 0 ++
    (le 2 3 ++ le 2 0 ++ le 4 24 ++ (le 2 1 ++ le 2 0 ++ le 4 0 ++ le 4 100 ++ le 4 1000000 ++ le 2 1 ++ le 6 0))
  let head := le 4 0x3149464E ++ le 2 1 ++ le 1 0x10 ++ le 1 0 ++ le 2 7 ++ le 1 0 ++ le 1 0 ++ le 4 100000 ++ le 4 1 ++ le 4 8 ++
    le 4 0 ++ le 1 8 ++ le 1 2 ++ le 2 0
  head ++ le 4 (crc32c (head ++ [0, 0, 0, 0] ++ le 28 0 ++ body)).toNat ++ le 28 0 ++ body

/-- The check behind `State.Opens`. -/
def opens (s : State) (p : Port) (k : RKey) : Bool :=
  keyOk k && s.reaches p (regAddr k) && s.mayWrite p && (!k.1.info.win || s.windowUp k.2.d)

theorem opens_Opens (s : State) (p : Port) (k : RKey) (h : opens s p k = true) : s.Opens p k := by
  simp only [opens, Bool.and_eq_true, Bool.or_eq_true, Bool.not_eq_true'] at h
  exact ⟨h.1.1.1, h.1.1.2, h.1.2, fun hw => by rcases h.2 with h | h <;> simp_all⟩

/-- An effect of task 1 at T + L. -/
def eff (kind : EffKind) : Eff := ⟨70400000, 1, 1, 0, 1, 1, kind, 0, 0⟩

/-- The state with register `r` holding `v`. -/
def held (r : Machine.Reg) (ix : Ix) (v : Word) (s : State) : State := s.setReg r ix v

/-! ## States that meet the hypotheses of the statements, family by family -/

/-- Branches taken to the last word and past it, and not taken; jumps, a return stack of 7 and of 8 entries, an empty one. -/
theorem witness_branches :
    let near := { step0 with w := { step0.w with rstack := List.replicate 7 15 } }
    (BitVec.ofNat 32 1 + (14 : BitVec 18).signExtend 32).toNat = 15 ∧
    15 < (tk step0).codeWords ∧
    (BitVec.ofNat 32 1 + (15 : BitVec 18).signExtend 32).toNat = 16 ∧
    (tk step0).codeWords ≤ 16 ∧
    decide (step0.w.rg 2 = step0.w.rg 3) = false ∧
    decide (step0.w.rg 2 ≠ step0.w.rg 3) = true ∧
    runs (.call 1 0 14) near 1 = true := by decide +kernel

/-- More of `witness_branches`. -/
theorem witness_branches_2 :
    let full := { step0 with w := { step0.w with rstack := List.replicate 8 16 } }
    let near := { step0 with w := { step0.w with rstack := List.replicate 7 15 } }
    near.w.rstack.length < 8 ∧
    runs (.ret 1) near 1 = true ∧
    runs (.call 1 0 14) full 1 = true ∧
    8 ≤ full.w.rstack.length ∧
    runs (.ret 1) full 1 = true ∧
    (tk full).codeWords ≤ (16 : BitVec 18).toNat ∧
    step0.w.rstack = [] := by decide +kernel

/-- Loads and stores at the last word of the data segment, past it, and misaligned; a bad word; a table. -/
theorem witness_memory :
    let s := on (.ldw 1 4 1 0) step0
    (step0.w.rg 1 + (0 : BitVec 18).signExtend 32 * 4#32).toNat = 252 ∧
    (tk step0).place 252 4 = .priv 252 ∧
    s.placeWord (tk step0) step0 (.priv 252) = (0, false) ∧
    (tk step0).place 253 4 = .out ∧
    (tk step0).place 250 4 ≠ .out ∧
    250 % 4 ≠ 0 ∧
    ({ s with ecc := [dieAddr 0 (0x1000 + 252)] }).placeWord (tk step0) step0 (.priv 252) = (0, true) ∧
    248 + 8 ≤ (tk step0).dataBytes ∧
    248 % 8 = 0 := by decide +kernel

/-- More of `witness_memory`. -/
theorem witness_memory_2 :
    let s := on (.ldw 1 4 1 0) step0
    let full := { step0 with extra := 256 }
    let near := { step0 with extra := 255 }
    (tk step0).place 0x40000038 8 = .table 0x2038 ∧
    0x40000038 % 8 = 0 ∧
    s.badWord (dieAddr 0 0x2038) = false ∧
    (tk step0).place 0x40000039 8 = .out ∧
    s.privBad (tk step0) step0 248 = false ∧
    step0.storeLimit [63] = false ∧
    full.storeLimit [63] = true ∧
    near.storeLimit [62, 63] = true := by decide +kernel

/-- A step that commits, one with a packet open, a timer at T + L and one before it, FAULT before the cut-off. -/
theorem witness_step_end :
    let p := { step0 with pkts := [⟨0, 0, 1, [], false⟩] }
    step0.pkts = [] ∧
    p.pkts ≠ [] ∧
    runs (.endStep 1) p 1 = true ∧
    before (step0.rt 5) step0.tl = false ∧
    before (step0.rt 4) step0.tl = true ∧
    (tk step0).hasTimer = true ∧
    (on (.fault 1 1) step0).now ≠ (tk step0).cutoff step0.act.t ∧
    step0.effs = [] ∧
    step0.fullRecs = [] ∧
    ({ step0 with wbuf := [(0, 1), (63, 2)] }.wbuf.map Prod.fst).Nodup := by decide +kernel

/-- STCH and STCHR: the first stitch, a held one that is too near; captures of a pin and of a trip, and none. -/
theorem witness_pins :
    let s := on (.stch 1 5 3 0x400) step0
    (tk step0).ownPinOf 0x400 = some ⟨1, 0, 0, 0, false, 0⟩ ∧
    s.cmpTargets 1 step0 0 = false ∧
    (step0.w.rg 3).toNat ≤ 1 ∧
    before (step0.rt 5) step0.tl = false ∧
    step0.effs.length < 128 ∧
    beforeAny (step0.rt 5) (step0.onPin 0) = false ∧
    s.stitchCount 1 0 step0.act.t (step0.onPin 0) ≤ 32 ∧
    step0.held 0 = none := by decide +kernel

/-- More of `witness_pins`. -/
theorem witness_pins_2 :
    let s := on (.stch 1 5 3 0x400) step0
    let c := { s with pins := [(0, { s.pin 0 with caps := [(64000000, true)] })], trips := [(0, { s.trip 0 with hist := [(64000000, true)] })] }
    let held := { step0 with stitches := [(0, 70400001, true)] }
    held.held 0 = some 70400001 ∧
    upTo 70400001 (held.tl + 6400#64) = true ∧
    runs (.stchr 1 5 3 0x400) held 1 = true ∧
    (tk step0).handle [1, 2] 0x400 = some ⟨1, 0, 0, 0, false, 0⟩ ∧
    (tk step0).handle [1, 2] 0x800 = some ⟨2, 0, 0, 0, false, 0⟩ ∧
    (asOf (s.pin 0).caps step0.act.t)[0]? = none ∧
    (asOf (c.pin 0).caps step0.act.t)[0]? = some (0, 64000000, true) ∧
    (asOf (c.trip 0).hist step0.act.t)[0]? = some (0, 64000000, true) := by decide +kernel

/-- More of `witness_pins`. -/
theorem witness_pins_3 :
    let s := on (.stch 1 5 3 0x400) step0
    let c := { s with pins := [(0, { s.pin 0 with caps := [(64000000, true)] })], trips := [(0, { s.trip 0 with hist := [(64000000, true)] })] }
    let held := { step0 with stitches := [(0, 70400001, true)] }
    let h2 := { step0 with stitches := [(0, 70406401, true)] }
    let hs := (List.range 40).map (fun i => (BitVec.ofNat 64 (64000002 - i), true))
    let o := { s with pins := [(0, { s.pin 0 with caps := hs })], trips := [(0, { s.trip 0 with hist := hs })] }
    let ys := (List.range 40).map (fun i => (BitVec.ofNat 64 (64000100 - i), true))
    let y := { s with pins := [(0, { s.pin 0 with caps := ys })], trips := [(0, { s.trip 0 with hist := ys })] }
    ((asOf (c.pin 0).caps step0.act.t).filter (fun e => before (nmGet step0.capts 0 (tk step0).startStamp) e.2.1)).getLast? = some (0, 64000000, true) ∧
    (asOf (o.pin 0).caps step0.act.t)[31]? = some (33, 63999969, true) ∧ (asOf (o.trip 0).hist step0.act.t)[7]? = some (9, 63999993, true) ∧
    ((asOf (o.pin 0).caps step0.act.t).filter (fun e => before (nmGet step0.capts 0 (tk step0).startStamp) e.2.1)).getLast? = some (39, 63999963, true) ∧
    (asOf (y.pin 0).caps step0.act.t)[0]? = none ∧ 32 < (y.pin 0).caps.length ∧ allNewer (y.pin 0).caps 32 step0.act.t = true ∧ allNewer (s.pin 0).caps 32 step0.act.t = false ∧
    ((asOf (y.pin 0).caps step0.act.t).filter (fun e => before (nmGet step0.capts 0 (tk step0).startStamp) e.2.1)) = [] ∧ (asOf (y.trip 0).hist step0.act.t)[0]? = none ∧ 8 < (y.trip 0).hist.length ∧
    (on (.capt 1 0 2 0x400) step0).task? 1 = some (tk step0) ∧ runs (.capt 1 0 2 0x400) { step0 with w := step0.w.wg 2 32 } 1 = true ∧ runs (.capt 1 0 2 0x800) { step0 with w := step0.w.wg 2 8 } 1 = true ∧
    before (step0.rt 5) step0.tl = false ∧ beforeAny (step0.rt 5) ((held.onPin 0).map (fun e => (e.1, false))) = true ∧ 32 < s.stitchCount 1 0 step0.act.t (List.replicate 32 (70400000, false)) ∧
    before (h2.rt 5) h2.tl = false ∧ h2.held 0 = some 70406401 ∧ upTo 70406401 (h2.tl + 6400#64) = false ∧ runs (.stchr 1 5 3 0x400) h2 1 = true := by decide +kernel

/-- PWMW and PWMC on a carrier and on a trip; feedback, axis and hoop reads; FBCMP at its last slot; HEVT with a pin and without. -/
theorem witness_carriers_feedback_hoops :
    let s := on (.fbrd 1 0 0 0x1000) step0
    (tk step0).handle [3] 0xC00 = some ⟨3, 0, 0, 0, false, 0⟩ ∧
    (tk step0).handle [2, 3] 0x800 = some ⟨2, 0, 0, 0, false, 0⟩ ∧
    pwmwOk ((s.setFld F.PAIR_CFG_en (pairIx 0 0) 1).pairCount 0) 0 0 = true ∧
    (0x33 : Word).toNat < 64 ∧ (0x33 : Word).toNat % 16 ≤ 3 ∧
    (0x24 : Word).toNat < 64 ∧ (0x24 : Word).toNat % 16 = 4 ∧
    (tk step0).handle [4, 6] 0x1000 = some ⟨4, 0, 0, 0, false, 0⟩ ∧
    (tk step0).handle [4, 6] 0x1800 = some ⟨6, 0, 0, 0, false, 0⟩ ∧
    step0.w.rg 0 = 0 := by decide +kernel

/-- More of `witness_carriers_feedback_hoops`. -/
theorem witness_carriers_feedback_hoops_2 :
    let s := on (.fbrd 1 0 0 0x1000) step0
    s.fbLost 0 step0.act.t = false ∧
    lostAt ((s.fb 0).idx.map (fun e => e.stamp)) 8 step0.act.t = false ∧
    (s.fb 0).frames = [] ∧
    (s.axsRead 0 step0.act.t).lost = false ∧
    wrap48 (step0.rt 5).toInt = (step0.rt 5).toInt ∧
    (tk step0).resAt 1 0 = some ⟨1, 0, 0, 0, false, 0⟩ ∧
    (0 : Nat) / 64 = 0 / 8 ∧
    (tk step0).handle [5] 0x1400 = some ⟨5, 0, 0, 0, false, 0⟩ := by decide +kernel

/-- More of `witness_carriers_feedback_hoops`. -/
theorem witness_carriers_feedback_hoops_3 :
    let s := on (.fbrd 1 0 0 0x1000) step0
    let st := { step0 with wbuf := [(60, 0), (61, 0x40000000), (62, 0x02), (63, 1)] }
    s.hoopLost 0 step0.act.t = false ∧
    (s.hoopValue 0 3 step0.act.t).isSome = true ∧
    (s.axsRead 0 step0.act.t).late = true ∧ s.hoopSrc 0 ≠ 3 ∧ 0 < s.axsPeriod 0 ∧
    s.task? 1 = some (tk step0) ∧ (tk step0).lateSeen.contains (0, 5) = false ∧ { tk step0 with lateSeen := [(0, 5)] }.lateSeen.contains (0, 5) = true ∧
    s.privBads (tk st) st 240 4 = false ∧
    240 + 16 ≤ (tk st).dataBytes ∧
    hevtDesc (s.privWords (tk st) st 240 4) = some (⟨0, 0x40000000, none, true, false, 1⟩, some 0) ∧
    hevtDesc [0, 0x40000000, 1, 0] = some (⟨0, 0x40000000, none, false, false, 0⟩, none) := by decide +kernel

/-- More of `witness_carriers_feedback_hoops`. -/
theorem witness_carriers_feedback_hoops_4 :
    let s := on (.fbrd 1 0 0 0x1000) step0
    let es := (List.range 40).map (fun i => BitVec.ofNat 64 (64000100 - i))
    let fs := s.setReg .FB_CTRL (fbIx 0) 1
    let f := { fs with fbs := [(0, { FbSt.reset with a := { (fs.fb 0).a with edges := es }, b := { (fs.fb 0).b with edges := es } })] }
    let ev := fun (i : Nat) => (⟨BitVec.ofNat 64 (63999000 - 10 * i), BitVec.ofNat 64 (63999000 - 10 * i), 0, 1, true⟩ : FbEv)
    let e2 := (List.range 40).map (fun i => BitVec.ofNat 64 (63999000 - i))
    let f2s := fs.setFld F.FB_SPD_CFG_spd_n (fbIx 0) 8
    let f2 := { f2s with fbs := [(0, { FbSt.reset with a := { (fs.fb 0).a with edges := e2 }, evs := (List.range 40).map ev })] }
    let pt := fun (i : Nat) => (⟨0, BitVec.ofNat 64 (64000100 - i), BitVec.ofNat 64 (64000100 - i), false, false, 0, 0, 0, 0, none, none, none⟩ : HoopPt)
    let hl := { s with hoops := [(0, { HoopSt.reset with pts := (List.range 120).map pt })] }
    f.fbLost 0 step0.act.t = true ∧ f.fbSpeedLost 0 step0.act.t = true ∧ s.fbSpeedLost 0 step0.act.t = false ∧
    f2.fbLost 0 step0.act.t = false ∧ f2.fbSpeedLost 0 step0.act.t = true ∧
    hl.hoopLost 0 step0.act.t = true ∧ s.hoopLost 0 step0.act.t = false ∧ (s.hoopValue 0 0 step0.act.t) = none ∧ 3 < (step0.w.rg 2).toNat ∧
    lostAt (s.fb 0).a.edges 16 step0.act.t = false ∧ lostAt (s.fb 0).b.edges 16 step0.act.t = false ∧ lostAt ((s.fb 0).probes.map (fun e => e.1)) 8 step0.act.t = false ∧
    step0.w.rg 3 = 1 ∧ (4 : Word) = BitVec.ofNat 32 (0 + 4 * 1) ∧ (11 : Word) = BitVec.ofNat 32 (3 + 4 * 2 + 16 * 0) ∧
    (s.axsRead 0 step0.act.t).lost = false ∧ (tk step0).handle [4] 0x1000 = some ⟨4, 0, 0, 0, false, 0⟩ ∧
    ({ tk step0 with res := [⟨1, 7, 0, 0, true, 0⟩] }).resAt 1 0 = some ⟨1, 7, 0, 0, true, 0⟩ := by decide +kernel

/-- SEND of 8 words at the end of the segment and to an axis entry, RECV with a payload and without, EVNT, CAMH at the last knot. -/
theorem witness_messages :
    let s := on (.send 1 5 1 3 0x2000) step0
    let act := { step0.act with src := 2, payload := [1, 2] }
    let st := { step0 with act := act }
    (tk step0).handle [7, 8] 0x2000 = some ⟨8, 0, 0, 0, false, 0⟩ ∧ hKind 0x2000 = 8 ∧
    (tk step0).handle [7, 8] 0x1C00 = some ⟨7, 0, 0, 0, false, 0⟩ ∧ hKind 0x1C00 = 7 ∧
    224 + 4 * 8 ≤ (tk step0).dataBytes ∧ 224 % 4 = 0 ∧
    s.privBads (tk step0) step0 224 8 = false ∧
    240 + 16 ≤ (tk step0).dataBytes ∧ s.privBads (tk step0) step0 240 4 = false ∧
    (tk step0).handle [9] 0x2400 = some ⟨9, 0, 0, 0, false, 0⟩ ∧
    recvPayload (tk step0) step0 0x2400 = none ∧
    recvPayload (tk st) st 0x2400 = some [1, 2] := by decide +kernel

/-- More of `witness_messages`. -/
theorem witness_messages_2 :
    let s := on (.send 1 5 1 3 0x2000) step0
    let c := { s with dieMem := memPutWord s.dieMem (dieAddr 0 0x2000) 0x101 }
    step0.storeLimit ((List.range 2).map (fun i => 224 / 4 + i)) = false ∧
    (tk step0).handle [12] 0x3000 = some ⟨12, 0, 0, 0, false, 0⟩ ∧
    (tk step0).handle [13] 0x3400 = some ⟨13, 0, 0, 0, false, 0⟩ ∧
    (tk step0).handle [14] 0x3800 = some ⟨14, 0, 0, 0, false, 0⟩ ∧
    (tk step0).tables.find? (fun x => x.k == 0) = some ⟨0, 0, 64, 0x2000⟩ ∧
    c.camShift (tk step0) ⟨0, 0, 64, 0x2000⟩ 0 = some 1 ∧
    c.camBad (tk step0) ⟨0, 0, 64, 0x2000⟩ 0 (step0.w.rg 2) = false := by decide +kernel

/-- QPUT and QRSV with just enough space and with too little, an open packet, a void one; QGET of an item and of none. -/
theorem witness_queue_instructions :
    let s := on (.qput 1 2 0x2800) step0
    let op : Step := { step0 with pkts := [⟨0, 0, 1, [], false⟩] }
    (tk step0).handle [10] 0x2800 = some ⟨10, 0, 0, 0, false, 0⟩ ∧
    (tk step0).handle [11] 0x2C00 = some ⟨11, 0, 0, 0, false, 0⟩ ∧
    (tk step0).handle [10, 11] 0x2800 = some ⟨10, 0, 0, 0, false, 0⟩ ∧
    step0.entries < 256 ∧ step0.effs.length < 128 ∧
    step0.openAt (hSlot 0x2800) = none ∧
    s.queueFree step0 0 < 2 ∧
    op.openAt 0 = some ⟨0, 0, 1, [], false⟩ := by decide +kernel

/-- More of `witness_queue_instructions`. -/
theorem witness_queue_instructions_2 :
    let s := on (.qput 1 2 0x2800) step0
    let op : Step := { step0 with pkts := [⟨0, 0, 1, [], false⟩] }
    let void : Step := { step0 with pkts := [⟨0, 0, 1, [], true⟩] }
    let c := { s with ques := [(0, { QueSt.reset with bound := true, cap := 16, base := 0x4000, wp := 2, pkts := [⟨0, 2, 64000000, true⟩] })] }
    let far : Step := { step0 with rps := [(0, ⟨3, 0, 0, 0⟩)] }
    void.openAt 0 = some ⟨0, 0, 1, [], true⟩ ∧
    runs (.qput 1 2 0x2800) op 1 = true ∧ runs (.qend 1 0x2800) void 1 = true ∧
    (s.que 0).endAt step0.act.t ≤ (s.readPoint step0 0).rp ∧
    2 ≤ c.queueFree step0 0 ∧ (step0.w.rg 2).toNat + 1 > c.queueFree step0 0 ∧ (step0.w.rg 3).toNat + 1 ≤ c.queueFree step0 0 ∧
    (c.readPoint step0 0).rp < (c.que 0).endAt step0.act.t ∧ c.badWord (c.ringAddr 0 0) = false ∧ (c.que 0).endAt far.act.t ≤ (c.readPoint far 0).rp ∧
    op.pkts.length = 1 ∧ op.effs.length < 128 := by decide +kernel

/-- A weak code word and a weak data word that a fetch and a load meet; a halted step that was cut off and is single-stepped. -/
theorem witness_corrected_and_cut_off :
    let s : State := { on (.ldw 1 4 1 0) step0 with weak := [dieAddr 0 0x400, dieAddr 0 (0x1000 + 252)] }
    let st := { step0 with cutOff := true, single := true }
    let k := { tk st with halt := some 63000000 }
    let h := fun (i : Instr) => ({ on i st with tasks := [(1, k)] } : State)
    s.task? 1 = some (tk step0) ∧ s.mayIssue (tk step0) step0 = true ∧ s.fetch 1 (tk step0) step0.w.pc = .inr (.ldw 1 4 1 0, 1) ∧
    dieAddr 0 (0x400 / 4 * 4) ∈ s.weak ∧ dieAddr 0 (0x3FFFFF / 4 * 4) ∉ s.weak ∧
    (tk step0).codeOffs step0.w.pc 1 = [0x400] ∧ (tk step0).placeOffs step0 1 ((tk step0).place 252 4) = [0x1000 + 252] ∧
    (s.placeWord (tk step0) step0 ((tk step0).place 252 4)).2 = false ∧ 252 % 4 = 0 ∧
    (h (.nop 1)).mayIssue k st = true ∧ (h (.nop 1)).fetch 1 k st.w.pc = .inr (.nop 1, 1) ∧
    (h (.endStep 1)).mayIssue k st = true ∧ (h (.endStep 1)).fetch 1 k st.w.pc = .inr (.endStep 1, 1) ∧ k.step = some st ∧
    (h (.ldw 1 4 1 1)).fetch 1 k st.w.pc = .inr (.ldw 1 4 1 1, 1) ∧ k.place (st.w.rg 1 + (1 : BitVec 18).signExtend 32 * 4#32).toNat 4 = .out := by decide +kernel

/-- A handle of a kind the instruction does not accept, and of a slot the task lacks. -/
theorem witness_bad_handle :
    (tk step0).handle [1, 2] 0xC00 = none ∧
    (tk step0).handle [14] 0x3801 = none ∧
    runs (.camh 1 4 2 0 0x3801) step0 1 = true ∧
    up.now ≠ (tk step0).cutoff step0.act.t := by decide +kernel

/-- A task whose first activation can become a step; a ready step on a shuttle; a step to cut off; a timer; a message; admissions. -/
theorem witness_scheduling :
    let a : Act := { step0.act with src := 7 }
    let k := { tk step0 with step := none, pend := [a] }
    let k2 := tk { step0 with running := false }
    let s := { up with tasks := [(1, k)] }
    let s2 := { up with tasks := [(1, k2)] }
    let g := fun (n : Nat) => (⟨70400000, 1, 1, 0, 1, 1, 0, [], 0, n⟩ : Msg)
    let ms : State := { s with msgs := [g 0, g 1] }
    k.mayStep = true ∧ k.restarting = false ∧ k.held = true ∧ k.mig = none ∧ s.dieActs k.die = true ∧ k.timer = none ∧
    ((s.die 0).slots.getD 0 Slot.reset).healthy = true ∧ s.dbg.halt = none ∧
    s2.nextOn 0 0 = some (1, k2, { step0 with running := false }) ∧
    k2.tooSoon step0.act = false ∧ { k2 with served := [((7, 0), 63999999)] }.tooSoon a = true ∧ { k2 with sources := [⟨4, 0, 0, 100, 1000, 1⟩], served := [((4, 0), 63999999)] }.tooSoon { a with src := 4 } = true ∧
    s.owedBefore 1 a.t = false ∧ a.src ≠ 4 ∧ a.src ≠ 5 ∧ a.src ≠ 6 ∧ { k with state := .running, stopAt := some 1 }.restarting = true ∧ { k with stopAt := some 1 }.mayStep = true ∧
    (step0.tl - 0).toNat < 2 ^ 62 ∧
    (tk step0).step = some step0 ∧ step0.cutOff = false ∧ (tk step0).halt = none ∧ { step0 with tested := true }.tested = true ∧
    (s.die 0).fenced = false ∧ s.pkgFault = false ∧
    ms.msgs[1]? = some (g 1) ∧ ms.mayArrive 0 (ms.msgTo (g 1)) 1 = false ∧ ms.msgs[0]? = some (g 0) ∧ ms.mayArrive 0 (ms.msgTo (g 0)) 0 = true := by decide +kernel

/-- More of `witness_scheduling`. -/
theorem witness_scheduling_2 :
    let a : Act := { step0.act with src := 7 }
    let k := { tk step0 with step := none, pend := [a] }
    let g := fun (n : Nat) => (⟨70400000, 1, 1, 0, 1, 1, 0, [], 0, n⟩ : Msg)
    (tk step0).slotOf 9 0 = some 0 ∧ (tk step0).slotOf 9 1 = none ∧ { up with msgs := [g 0] }.mayArrive 0 ({ up with msgs := [g 0] }.msgTo (g 0)) 0 = true ∧
    { tk step0 with stopPolicy := true }.stopPolicy = true ∧
    (tk step0).source? 7 0 = some ⟨7, 0, 0, 100, 1000, 1⟩ ∧ (tk step0).pendingOf 7 0 < 1 ∧
    k.pendingOf 7 0 = 1 ∧
    (tk step0).slotOf 9 0 = some 0 ∧ (tk step0).state = .running ∧ (tk step0).stopAt = none ∧
    (tk step0).takes 64000000 = true ∧ upTo (tk step0).startStamp 64000000 = true ∧
    up.task? 1 = none ∧
    { tk step0 with state := .faulted }.state = .faulted := by decide +kernel

set_option maxRecDepth 1000000 in
/-- NOP, TASK to a task that takes it and to none, LOAD of a good image and of a bad one, START, STOP, UNLOAD, SET_AFFINITY, SET_SPLIT. -/
theorem witness_host_commands :
    let k := { tk step0 with step := none, sources := [⟨1, 0, 0, 100, 1000, 1⟩], res := [] }
    let one := [((1 : Nat), k)]
    let l := { ordered [] (cmd 0x10 [5, 0, 0, 112, 0]) with hostMem := memWriteList [] 0 image }
    (ordered [] (cmd 0 [])).cqRuns 0 0 = some (cmd 0 []) ∧
    (ordered one (cmd 1 [1])).cqRuns 0 1 = some (cmd 1 [1]) ∧ (ordered one (cmd 1 [1])).task? 1 = some k ∧
    k.state = .running ∧ k.stopAt = none ∧ upTo k.startStamp 64000000 = true ∧
    k.source? 1 0 = some ⟨1, 0, 0, 100, 1000, 1⟩ ∧ k.pendingOf 1 0 < 1 ∧ k.hostSoon 64000000 = false ∧ { k with served := [((1, 0), 63999999)] }.hostSoon 64000000 = true ∧
    { k with state := .stopped }.takes 64000000 = false ∧
    (l.spoilCopies 0).badCopies = [] ∧ ({ l with dies := [(0, die0), (1, die0)] }.spoilCopies 2).badCopies = [1] ∧
    (((l.setBit F.TASK_KEY_LOCK_locked pkg true).readImage image).2.map (fun i => (l.place 5 (i.task 0) 2 true).isLeft)) = some false ∧
    ((l.setBit F.TASK_KEY_LOCK_locked pkg true).readImage image).2.map (fun i => { l with tasks := [(5, k)] }.loadCodes 5 i ≠ []) = some true := by decide +kernel

set_option maxRecDepth 1000000 in
/-- More of `witness_host_commands`. -/
theorem witness_host_commands_2 :
    let k := { tk step0 with step := none, sources := [⟨1, 0, 0, 100, 1000, 1⟩], res := [] }
    let l := { ordered [] (cmd 0x10 [5, 0, 0, 112, 0]) with hostMem := memWriteList [] 0 image }
    let bad := { ordered [] (cmd 0x10 [5, 0, 0, 112, 0]) with hostMem := memWriteList [] 0 (image.take 60) }
    l.pcieUp = true ∧ l.placerRuns 0 0x10 = some (cmd 0x10 [5, 0, 0, 112, 0]) ∧
    image.length = 112 ∧
    ((l.setBit F.TASK_KEY_LOCK_locked pkg true).readImage ((l.setBit F.TASK_KEY_LOCK_locked pkg true).spaceRead false 0 112)).1 = [] ∧
    ((l.setBit F.TASK_KEY_LOCK_locked pkg true).readImage image).2.isSome = true ∧
    (((l.setBit F.TASK_KEY_LOCK_locked pkg true).readImage image).2.map (fun i => l.loadCodes 5 i)) = some [] ∧
    (((l.setBit F.TASK_KEY_LOCK_locked pkg true).readImage image).2.map (fun i => (l.place 5 (i.task 0) 0 true).isLeft)) = some true ∧
    ((bad.setBit F.TASK_KEY_LOCK_locked pkg true).readImage ((bad.setBit F.TASK_KEY_LOCK_locked pkg true).spaceRead false 0 112)).2 = none ∧
    (ordered [(1, { k with state := .loaded })] (cmd 0x11 [1])).placerRuns 0 0x11 = some (cmd 0x11 [1]) := by decide +kernel

set_option maxRecDepth 1000000 in
/-- More of `witness_host_commands`. -/
theorem witness_host_commands_3 :
    let k := { tk step0 with step := none, sources := [⟨1, 0, 0, 100, 1000, 1⟩], res := [] }
    let one := [((1 : Nat), k)]
    k.held = true ∧ (ordered one (cmd 0x11 [1])).unboundQueue k = false ∧
    (ordered one (cmd 0x12 [1])).placerRuns 0 0x12 = some (cmd 0x12 [1]) ∧
    (ordered one (cmd 0x13 [1])).placerRuns 0 0x13 = some (cmd 0x13 [1]) ∧ { k with state := .stopped }.falls = [] ∧
    (ordered one (cmd 0x14 [1, 0, 0, 0, 1])).admitted ((cmd 0x14 [1, 0, 0, 0, 1]).param 4).toNat = [0] ∧
    (ordered one (cmd 0x14 [1, 0, 0, 0, 2])).admitted ((cmd 0x14 [1, 0, 0, 0, 2]).param 4).toNat = [] ∧
    (ordered [] (cmd 0x15 [4, 16])).placerRuns 0 0x15 = some (cmd 0x15 [4, 16]) ∧
    (ordered one (cmd 0x15 [16, 44])).tasks ≠ [] ∧ 16 + 44 ≤ 60 := by decide +kernel

/-- Fallbacks of a stopped and of a faulted run; a rotation that moves its next task, one that starts, one that is deferred; a SET_AFFINITY that moves and one that waits too long. -/
theorem witness_moves :
    let k := { tk step0 with step := none, sources := [], res := [] }
    let c : CqCmd := { cmd 0x14 [1, 0, 0, 0, 1] with waiting := some 64000000 }
    let r := { placer with tasks := [(1, k)], regs := placer.regs ++ [((Machine.Reg.SHT_ROLE, dieIx 0), 0x0024)] }
    let m := { k with mig := some ⟨0, 1, 0, 0x100, 0x1000, [], none⟩ }
    { k with falls := [⟨70400000, 1, none⟩] }.falls = [⟨70400000, 1, none⟩] ∧
    r.placerFree = true ∧ r.rotPhase 0 = 2 ∧ r.rotNext 0 = some 1 ∧ r.mayMove k 16000 64000000 = true ∧
    placer.rotPhase 0 ≠ 2 ∧ (ordered [(1, k)] c).affinityOf 1 = some (0, c) ∧
    ((ordered [(1, k)] c).place 1 k 1 false).isLeft = true ∧
    m.mig = some ⟨0, 1, 0, 0x100, 0x1000, [], none⟩ ∧
    (ordered [(1, k)] c).namedTask c (fun k => k.mig.isSome) = false ∧ upTo (64000000 + ms100) (64000000 + ms100) = true ∧
    placer.rotTime 0 (BitVec.ofNat 64 (64000000000 * 10)) = true ∧ placer.rotPhase 0 = 0 ∧ (placer.die 0).live = true ∧
    (placer.setFld F.SHT_ROLE_spare_slot (dieIx 0) 4).spareOf 0 ≠ 7 ∧ placer.dieHalted 0 = false ∧
    (placer.setFld F.SHT_ROLE_rot_phase (dieIx 0) 1).rotPhase 0 = 1 ∧ r.tasks.all (fun e => match e.2.mig with | some y => y.die != 0 || y.cmd.isSome | none => true) = true ∧ upTo ((r.die 0).rotSince + ms100) (r.now + ms100) = true ∧
    ({ m with mig := some ⟨0, 1, 0, 0x100, 0x1000, [], some (0, 1)⟩ }.mig.bind (fun x => x.cmd)) = some (0, 1) := by decide +kernel

/-- Pin edges and captures, stitches that apply, merge and lock, faults, and the writes of pin registers. -/
theorem witness_pin_units :
    let a : Stitch := ⟨70400000, true, 0, 1, 1, 0, true, false, 1, 1⟩
    let b : Stitch := ⟨70400127, false, 0, 1, 1, 1, false, false, 1, 1⟩
    let p := PinSt.reset
    let s := { up with pins := [(0, { p with queue := [a, b] })] }
    let f := { up with pins := [(0, { p with filt := ⟨true, 63999000, false⟩ })] }
    (up.pin 0).filt.raw = (up.pin 0).filt.out ∧ true = !(up.pin 0).filt.raw ∧ up.dieRuns (0 / 64) = true ∧
    (f.pin 0).filt.raw ≠ (f.pin 0).filt.out ∧ f.bit F.PIN_CTRL_cap_en (pinIx 0) = false ∧
    (held .PIN_CTRL (pinIx 0) 0x10 f).bit F.PIN_CTRL_cap_en (pinIx 0) = true ∧ (held .PIN_CTRL (pinIx 0) 0x10 f).capTakes 0 true = true ∧
    (s.pin 0).queue = [a, b] ∧ (s.pin 0).failed = false ∧
    before 70400128 (a.stamp + 128#64) = false ∧
    a.level ≠ s.pinLevel 0 ∧ b.level = s.pinLevel 0 ∧ before b.stamp (a.stamp + 128#64) = true ∧
    a.repl = true ∧ a.locked = false := by decide +kernel

/-- More of `witness_pin_units`. -/
theorem witness_pin_units_2 :
    let p := PinSt.reset
    let d := { up with pins := [(0, { p with failed := true })] }
    let o := { up with pins := [(0, { p with owner := .task 1 })], tasks := [(1, tk step0)] }
    let c := { up with pins := [(0, { p with caps := [(1, true)] })] }
    let k : RKey := (.PIN_CTRL, pinIx 0)
    (up.pin 0).failed = false ∧ (up.pin 0).owner = .free ∧
    { o with pins := [(0, { p with owner := .task 1, started := true })] }.pinRelease 0 = 0 ∧
    opens up .pcie k = true ∧ up.ownerRuns (up.pin 0).owner = false ∧
    opens o .pcie k = true ∧ o.ownerRuns (o.pin 0).owner = true ∧
    opens c .pcie (.PIN_CAP_SEL, pinIx 0) = true ∧ (c.pin 0).caps[bitsOf 0 0 5]? = some (1, true) ∧ (c.pin 0).caps[bitsOf 1 0 5]? = none ∧
    opens d .pcie (.PIN_CMD, pinIx 511) = true ∧
    opens d .pcie (.PIN_CMD, pinIx 0) = true ∧ (d.pin 0).failed = true ∧ d.ownerRuns (d.pin 0).owner = false ∧ d.tripCheckHolds 0 = false := by decide +kernel

/-- More of `witness_pin_units`. -/
theorem witness_pin_units_3 :
    let a : Stitch := ⟨70400000, true, 0, 1, 1, 0, true, false, 1, 1⟩
    let b : Stitch := ⟨70400127, false, 0, 1, 1, 1, false, false, 1, 1⟩
    let p := PinSt.reset
    let f := { up with pins := [(0, { p with filt := ⟨true, 63999000, false⟩ })] }
    let o := { up with pins := [(0, { p with owner := .task 1 })], tasks := [(1, tk step0)] }
    let fn : State := held .PIN_CTRL (pinIx 0) 0x100 f
    let dp : PinSt := { p with failed := true, queue := [a, b] }
    let br : Stitch := { a with cls := 2 }
    let cap : State := held .PIN_CTRL (pinIx 0) 0x10 up
    let tc : State := held .DIE_TRIPCHK (dieIx 0) 1 (held .TRIP_ROUTE_LO (tripIx 0) 1 { up with pins := [(0, { p with failed := true, owner := .car 0 0 false })] })
    (f.pin 0).filt.out = false ∧ f.pinDelay 0 = 0 ∧ before 63999127 ((f.pin 0).filt.since + 128#64) = true ∧ before 63999128 ((f.pin 0).filt.since + 128#64) = false ∧
    (fn.pin 0).filt.raw ≠ (fn.pin 0).filt.out ∧ fn.pinDelay 0 = 1 ∧ upTo ((fn.pin 0).filt.since + picots (fn.pinDelay 0 * 64)) 63999063 = false ∧
    dp.failed = true ∧ a.cls ≠ 2 ∧ br.cls = 2 ∧ before ({ b with stamp := 70400128 } : Stitch).stamp (a.stamp + 128#64) = false ∧
    cap.bit F.PIN_CTRL_cap_en (pinIx 0) = true ∧ bitOf 0x10 4 = true ∧ bitOf 0 4 = false ∧ up.bit F.PIN_CTRL_cap_en (pinIx 0) = false ∧
    bitsOf 0xA 0 2 ≠ 3 ∧ bitsOf 0xA 2 2 ≠ 3 ∧ bitsOf 3 0 2 = 3 ∧ bitsOf 0xC 2 2 = 3 ∧
    (up.pin 511).failed = false ∧ o.ownerRuns (o.pin 0).owner = true ∧
    (tc.pin 0).failed = true ∧ tc.ownerRuns (tc.pin 0).owner = false ∧ tc.tripCheckHolds 0 = true := by decide +kernel

/-- Effects of every kind that reach their units, and lists in the order of R92. -/
theorem witness_effects :
    let g0 : Eff := { eff (.stitch 0 true false none) with ord := 5 }
    let g1 : Eff := { eff (.packet 0 [1]) with ord := 6 }
    let g2 : Eff := { eff (.packet 0 [2]) with stamp := 70400064, ord := 7 }
    let fl : State := { up with flight := [g0, g1, g2] }
    let fm : State := { up with flight := [g1, g2] }
    [eff (.stitch 0 true false none), eff (.pwmw 0 0 0 0 0), eff (.tripClear 0), eff (.fbDisarm 0), eff (.hcan 0 none), eff (.packet 0 [1])].all (fun e => up.dieActs e.kind.die) = true ∧
    (eff (.hcan 0 none)).first (eff (.hcan 0 none)) = false ∧
    ((eff (.hcan 0 none)).stamp - 70400000).toNat < 2 ^ 62 ∧
    fl.flight[1]? = some g1 ∧ fl.mayArrive g0.die g0.kind.die g0.ord = true ∧ fl.mayArrive g1.die g1.kind.die g1.ord = false ∧
    fl.dieActs g0.kind.die = true ∧ (fl.pin 0).owner ≠ .task 1 ∧ ({ fl with pins := [(0, { PinSt.reset with owner := .task 1 })] }.pin 0).owner = .task g0.task ∧
    { up with flight := [{ g1 with ord := 0 }, { g2 with ord := 0 }] }.mayArrive 0 0 0 = true ∧ { up with flight := [{ g1 with ord := 0 }, { g2 with ord := 0 }] }.packetBefore { g2 with ord := 0 } = true ∧
    fm.packetBefore g1 = false ∧ fm.mayArrive g1.die g1.kind.die g1.ord = true ∧
    (∀ x ∈ [g1, g0, g2], (x.stamp - 70400000).toNat < 2 ^ 62) ∧ [g0, g2].Pairwise (fun a b => b.first a = false) := by decide +kernel

/-- A stopped carrier that starts, one that runs to its boundary and mid-period point, writes to a stopped one, a pair that switches. -/
theorem witness_carriers :
    let q := PairSt.reset
    let x := { CarSt.reset with fx := [eff (.pwmc 0 0 0)] }
    let r := { CarSt.reset with mode := .running, bnd := 64000000 }
    let w0 := { CarSt.reset with fx := [eff (.pwmw 0 0 2 0 1000)] }
    let s := { up with cars := [(0, x)] }
    let e : State := held .PAIR_COMPARE (pairIx 0 0) 100 (held .CAR_HALF_PERIOD (carIx 0) 10 (held .PAIR_CFG (pairIx 0 0) 1 { up with cars := [(0, r)] }))
    let m : State := { e with cars := [(0, { r with mid := true, pairs := { q with ref := true } :: r.pairs.tail })] }
    let v : State := { e with cars := [(0, { r with pairs := { q with hi := { SwSt.reset with due := some 1 } } :: r.pairs.tail })] }
    let h : State := { e with cars := [(0, { r with pairs := { q with lo := { SwSt.reset with on := true, holdTo := some 1 } } :: r.pairs.tail })] }
    s.carActs 0 = true ∧ (s.car 0).fx = [eff (.pwmc 0 0 0)] ∧ (eff (.pwmc 0 0 0)).isCmd 0 = true ∧ (s.car 0).mode = .stopped ∧
    ({ up with cars := [(0, { r with fx := x.fx })] }.car 0).mode = .running ∧
    ({ up with cars := [(0, r)] }.car 0).fx = [] ∧ { up with cars := [(0, r)] }.pairCount 0 = 0 ∧ r.mid = false ∧
    w0.fx = [eff (.pwmw 0 0 2 0 1000)] ∧ w0.mode = .stopped ∧
    (1000 : Word).toNat < 2 * (held .CAR_HALF_PERIOD (carIx 0) 8 up).carHp 0 ∧ 2 * (held .CAR_HALF_PERIOD (carIx 0) 7 up).carHp 0 ≤ (1000 : Word).toNat ∧
    e.carActs 0 = true ∧ e.pairEn 0 0 = true ∧ (e.pair 0 0).ref = false ∧ 0 < e.effCompare 0 0 0 ∧ e.effCompare 0 0 0 < e.carHp 0 ∧
    m.pairEn 0 0 = true ∧ (m.pair 0 0).ref = true ∧ m.effCompare 0 0 0 < m.carHp 0 ∧
    (v.pair 0 0).hi.due = some 1 ∧ (v.pair 0 0).safe = true ∧
    (h.pair 0 0).hi.holdTo = none ∧ (h.pair 0 0).lo.holdTo = some 1 ∧ (h.pair 0 0).safe = true ∧
    0 < (h.car 0).pairs.length := by decide +kernel

/-- More of `witness_carriers`. -/
theorem witness_carriers_2 :
    let q := PairSt.reset
    let r := { CarSt.reset with mode := .running, bnd := 64000000 }
    let e : State := held .PAIR_COMPARE (pairIx 0 0) 100 (held .CAR_HALF_PERIOD (carIx 0) 10 (held .PAIR_CFG (pairIx 0 0) 1 { up with cars := [(0, r)] }))
    let h : State := { e with cars := [(0, { r with pairs := { q with lo := { SwSt.reset with on := true, holdTo := some 1 } } :: r.pairs.tail })] }
    let fx1 (k : EffKind) : CarSt := { CarSt.reset with fx := [eff k] }
    let hp8 : State := held .CAR_HALF_PERIOD (carIx 0) 8 (held .CAR_PHASE (carIx 0) 1023 (held .PAIR_CFG (pairIx 0 0) 1 (held .PAIR_MINPULSE (pairIx 0 0) 8 up)))
    let am : State := { e with cars := [(0, { CarSt.reset with mode := .armed, bnd := 64000064, fx := [eff (.pwmw 0 0 0 0 7), eff (.pwmc 0 0 1)] })] }
    let um : State := held .CAR_CTRL (carIx 0) 1 { e with cars := [(0, { r with fx := [{ eff (.pwmw 0 0 0 0 7) with stamp := 64000640 }, eff (.pwmw 0 0 1 0 9)] })] }
    let cl : PairSt := { q with ref := true, hi := { SwSt.reset with called := true, calledAt := 64000000, due := some 64000600 } }
    let at_ : State := { e with cars := [(0, { r with mid := true, pairs := cl :: r.pairs.tail })] }
    let sh : State := held .PAIR_MINPULSE (pairIx 0 0) 5 at_
    am.carActs 0 = true ∧ (am.car 0).mode ≠ .stopped ∧ am.nextBoundary 0 = 64000064 ∧
    um.bit F.CAR_CTRL_upd_mode (carIx 0) = true ∧ (um.car 0).mid = false ∧ um.pairEn 0 0 = true ∧ 0 < (um.car 0).pairs.length ∧ (um.car 0).bnd + picots (um.car 0).hold + picots (um.carHp 0) = 64000640 ∧ ((um.car 0).fx.filter (fun z => upTo z.stamp 64000640 && z.isCompare)).length = 1 ∧
    (fx1 (.pwmw 0 0 1 0 8)).fx = [eff (.pwmw 0 0 1 0 8)] ∧ hp8.hpFits 0 (8 * 64) = true ∧ hp8.fld F.CAR_PHASE_phase (carIx 0) < 2 * 8 * 64 ∧
    hp8.hpFits 0 (7 * 64) = false ∧ (held .CAR_PHASE (carIx 0) 1024 hp8).hpFits 0 (8 * 64) = true ∧ 2 * 8 * 64 ≤ (held .CAR_PHASE (carIx 0) 1024 hp8).fld F.CAR_PHASE_phase (carIx 0) ∧
    ([0, 2, 3].map (fun j => (fx1 (.pwmc 0 3 j)).fx)).length = 3 ∧ (fx1 (.pwmc 0 3 3)).mode = .stopped ∧ (fx1 (.pwmw 0 3 0 0 0)).fx = [eff (.pwmw 0 3 0 0 0)] ∧
    (at_.pair 0 0).hi.due = some 64000600 ∧ at_.turnedAway 0 0 false 64000600 = false ∧ at_.expectedOff 0 0 false 64000600 = some 64000740 ∧ ((at_.pairMp 0 0 : ℕ) : Int) ≤ dist 64000740 64000600 ∧
    (sh.pair 0 0).hi.due = some 64000600 ∧ sh.turnedAway 0 0 false 64000600 = false ∧ sh.expectedOff 0 0 false 64000600 = some 64000740 ∧ dist 64000740 64000600 < ((sh.pairMp 0 0 : ℕ) : Int) ∧ sh.bit F.PAIR_CFG_policy (pairIx 0 0) = false ∧
    at_.turnedAway 0 0 false 64000740 = true ∧ (at_.pair 0 0).tripped = false ∧
    (({ q with tripped := true, lo := { SwSt.reset with due := some 5 } } : PairSt).hi.due = none) ∧ (({ q with tripped := true, lo := { SwSt.reset with due := some 5 } } : PairSt).lo.due = some 5) ∧
    (h.pair 0 0).lo.on = true ∧ ({ q with hi := { SwSt.reset with on := true, holdTo := some 1 } } : PairSt).safe = true := by decide +kernel

/-- PAIR_CFG writes that share a pin, leave a gap, enable and disable. -/
theorem witness_pair_config :
    let k : RKey := (.PAIR_CFG, pairIx 0 0)
    let s : State := held .CAR_HALF_PERIOD (carIx 0) 1000 up
    let v : Word := 0x00010001
    opens s .pcie k = true ∧ s.unitRuns 3 0 = false ∧
    bitOf 1 0 = true ∧ bitsOf 1 8 6 = bitsOf 1 16 6 ∧
    opens s .pcie (.PAIR_CFG, pairIx 0 3) = true ∧ s.pairEn 0 2 = false ∧
    bitOf v 0 = true ∧ 64 * (0 / 16) + bitsOf v 8 6 = 0 ∧ 64 * (0 / 16) + bitsOf v 16 6 = 1 ∧
    (s.pin 0).owner = .free ∧ (s.pin 1).owner = .free ∧ s.pairEn 0 0 = false ∧ s.pairDt 0 0 + s.pairMp 0 0 ≤ s.carHp 0 ∧
    bitOf 0 0 = false ∧ s.pairEn 0 1 = false ∧
    64 * (0 / 16) + bitsOf 0x00050500 8 6 = 64 * (0 / 16) + bitsOf 0x00050500 16 6 ∧ bitOf 0x00050500 0 = false := by decide +kernel

/-- More of `witness_pair_config`. -/
theorem witness_pair_config_2 :
    let k : RKey := (.PAIR_CFG, pairIx 0 0)
    let s : State := held .CAR_HALF_PERIOD (carIx 0) 1000 up
    let e1 : State := held .PAIR_CFG (pairIx 0 0) 0x00010001 s
    let e2 : State := held .PAIR_CFG (pairIx 0 1) 0x00030201 e1
    let tr : State := { e1 with cars := [(0, { CarSt.reset with pairs := { PairSt.reset with tripped := true } :: CarSt.reset.pairs.tail })] }
    opens e2 .pcie k = true ∧ e2.unitRuns 3 0 = false ∧ e2.pairEn 0 1 = true ∧ bitOf 0x00010000 0 = false ∧
    (held .PAIR_DT (pairIx 0 0) 0xFFFF s).carHp 0 < (held .PAIR_DT (pairIx 0 0) 0xFFFF s).pairDt 0 0 + (held .PAIR_DT (pairIx 0 0) 0xFFFF s).pairMp 0 0 ∧
    ({ s with pins := [(1, { PinSt.reset with owner := .task 1 })] }.pin 1).owner = .task 1 ∧
    e1.pairEn 0 1 = false ∧ (e1.pairEn 0 0 && (e1.pair 0 0).tripped) = false ∧ bitsOf 0x00010000 8 6 ≠ bitsOf 0x00010000 16 6 ∧
    tr.pairEn 0 0 = true ∧ (tr.pair 0 0).tripped = true ∧ tr.pairEn 0 1 = false ∧ tr.unitRuns 3 0 = false ∧
    opens { s with dies := [(0, die0), (7, die0)] } .pcie (.PAIR_CFG, pairIx 127 3) = true := by decide +kernel

/-- Trip edges, an accepted active level, one that waits in a window, clears that unlatch and that are refused. -/
theorem witness_trips :
    let x := { TripSt.reset with filt := ⟨false, 63999000, true⟩ }
    let s := { up with trips := [(0, x)] }
    let t := { up with trips := [(0, { TripSt.reset with filt := ⟨true, 63999000, false⟩ })] }
    let w := { up with trips := [(0, { TripSt.reset with wins := [⟨0, 0, 63000000⟩, ⟨1, 0, 64000000⟩], waits := some 63999000 })] }
    let z := { up with trips := [(0, { TripSt.reset with wins := [⟨0, 0, 64000000⟩] })] }
    let c := { up with trips := [(0, { TripSt.reset with latched := true, fx := [eff (.tripClear 0)] })] }
    let d := { up with trips := [(0, { TripSt.reset with latched := true, hist := [(1, false)], fx := [eff (.tripClear 0)] })] }
    let k : RKey := (.TRIP_CMD, tripIx 0)
    up.dieActs 0 = true ∧ (up.trip 0).filt.raw = (up.trip 0).filt.out ∧
    (s.trip 0).filt.raw ≠ (s.trip 0).filt.out ∧ s.logging = false ∧ (s.trip 0).latched = false ∧ (s.trip 0).waits = none ∧
    (s.trip 0).filt.raw = s.tripActive 0 ∧ s.blankOpen 0 (63999000 + nsT (s.tripDelay 0)) = false ∧
    (t.trip 0).filt.raw ≠ t.tripActive 0 ∧
    (w.trip 0).blankEnd = some 64000000 ∧ (w.trip 0).waits.isSome = true ∧ (w.trip 0).latched = false ∧
    (z.trip 0).waits = none ∧ (z.trip 0).blankEnd = some 64000000 ∧
    (c.trip 0).levelAt 70400000 ≠ c.tripActive 0 ∧
    (d.trip 0).levelAt 70400000 = d.tripActive 0 ∧
    opens c .pcie k = true ∧ c.unitRuns 2 0 = false ∧ (c.trip 0).latched = true ∧ (c.trip 0).filt.out ≠ c.tripActive 0 ∧
    opens (up.at 64000064) .pcie (.TRIP_CTRL, tripIx 0) = true ∧ bitOf 0 F.TRIP_CTRL_active_level.lo = up.tripActive 0 := by decide +kernel

/-- More of `witness_trips`. -/
theorem witness_trips_2 :
    let w := { up with trips := [(0, { TripSt.reset with wins := [⟨0, 0, 63000000⟩, ⟨1, 0, 64000000⟩], waits := some 63999000 })] }
    let d := { up with trips := [(0, { TripSt.reset with latched := true, hist := [(1, false)], fx := [eff (.tripClear 0)] })] }
    let k : RKey := (.TRIP_CMD, tripIx 0)
    let wb := { up with trips := [(0, { TripSt.reset with filt := ⟨false, 63999000, true⟩, wins := [⟨0, 0, 63999001⟩] })] }
    let ow := { up with trips := [(0, { TripSt.reset with owed := some 63999000 })] }
    let lw := { up with trips := [(0, { TripSt.reset with latched := true, filt := ⟨false, 63999000, true⟩ })] }
    let iw := { up with trips := [(0, { TripSt.reset with filt := ⟨true, 63999000, false⟩, waits := some 1 })] }
    let wu : TripSt := { TripSt.reset with filt := ⟨false, 0, false⟩, waits := some 1 }
    let kc : RKey := (.TRIP_CTRL, tripIx 0)
    let pl := (w.at 64000064).plainWrite .TRIP_CTRL (tripIx 0) 2
    (wb.trip 0).owed = none ∧ (wb.trip 0).filt.raw = wb.tripActive 0 ∧ (wb.trip 0).latched = false ∧ wb.tripDelay 0 = 0 ∧ wb.blankOpen 0 63999000 = true ∧ wb.blankOpen 0 63999001 = false ∧
    (ow.trip 0).owed = some 63999000 ∧ (ow.trip 0).filt.raw = (ow.trip 0).filt.out ∧ ow.blankOpen 0 (63999000 + nsT (ow.tripDelay 0)) = false ∧
    (lw.trip 0).filt.raw = lw.tripActive 0 ∧ (lw.trip 0).latched = true ∧ (iw.trip 0).waits ≠ none ∧ (iw.trip 0).filt.raw ≠ iw.tripActive 0 ∧
    (up.trip 0).owed = none ∧ (up.trip 0).filt.stable (up.tripDelay 0 * 64) 64000000 = false ∧
    opens d .pcie k = true ∧ ({ up with trips := [(0, { TripSt.reset with latched := true, filt := ⟨true, 0, up.tripActive 0⟩ })] }.trip 0).filt.out = up.tripActive 0 ∧
    opens (w.at 64000064) .pcie kc = true ∧ w.unitRuns 2 0 = false ∧
    pl.tripActive 0 = w.tripActive 0 ∧
    wu.filt.out = pl.tripActive 0 ∧ wu.waits ≠ none ∧ (w.trip 0).filt.out ≠ pl.tripActive 0 ∧
    pl.bit F.TRIP_CTRL_unblankable (tripIx 0) = true ∧
    bitOf 1 0 ≠ w.tripActive 0 := by decide +kernel

/-- Edges of each mode, an index edge and a probe edge, deviations of every outcome, serial frames good and bad, compares armed and disarmed, FB_CTRL writes of every outcome. -/
theorem witness_feedback :
    let z := FbSt.reset
    let m (i : Nat) (x : FbSt) : State := { up with fbs := [(0, x)] }.setFld F.FB_CTRL_mode (fbIx 0) i
    let a : FbIn := ⟨64000000, 0, true⟩
    let ix : State := (m 1 { z with inbox := [⟨64000000, 2, true⟩] }).setFld F.FB_IDX_CFG_idx_mode (fbIx 0) 1
    let pr : State := (m 1 { z with inbox := [⟨64000000, 5, true⟩] }).setFld F.FB_PROBE_CTRL_edge (fbIx 0) 2
    let co : State := m 3 { z with qa := false, sector := some 0, inbox := [a] }
    up.dieActs 0 = true ∧ (up.fb 0).a.filt.raw = (up.fb 0).a.filt.out ∧
    (m 1 { z with inbox := [a] }).fbMode 0 = 1 ∧ a.line = 0 ∧ a.level ≠ z.qa ∧ z.lastEdge = none ∧
    (m 2 { z with inbox := [a] }).fbMode 0 = 2 ∧ a.level = true ∧
    before a.stamp (63999999 + nsT 25) = true ∧
    co.fbMode 0 = 3 ∧ ({ z with qa := false } : FbSt).hall = 0 ∧
    ({ z with qa := true } : FbSt).hall = 4 ∧ co.sectorOf 0 4 = some 4 ∧ (4 : Nat) = (3 + 1) % 6 ∧
    ix.fld F.FB_IDX_CFG_idx_mode (fbIx 0) ≠ 0 ∧ ix.fld F.FB_IDX_CFG_idx_dir (fbIx 0) = 0 ∧ ix.fbMode 0 = 1 ∧
    pr.bit F.FB_PROBE_CTRL_one_shot (fbIx 0) = false ∧ pr.fld F.FB_PROBE_CTRL_edge (fbIx 0) = 2 ∧
    (pr.setBit F.FB_PROBE_CTRL_one_shot (fbIx 0) true).bit F.FB_PROBE_CTRL_one_shot (fbIx 0) = true ∧ z.arm = none := by decide +kernel

/-- More of `witness_feedback`. -/
theorem witness_feedback_2 :
    let z := FbSt.reset
    let m (i : Nat) (x : FbSt) : State := { up with fbs := [(0, x)] }.setFld F.FB_CTRL_mode (fbIx 0) i
    let cp : State := ((m 1 { z with pos := 9, evs := [⟨1, 1, 9, 9, true⟩] }).setFld F.FB_CPR_cpr (fbIx 0) 4).setFld F.FB_IDX_CFG_idx_mode (fbIx 0) 2
    let se : State := m 4 { z with lastStart := some 64000000, serQ := [64000000] }
    let cs : State := m 1 { z with pos := 100, evs := [⟨1, 1, 100, 100, true⟩], fx := [eff (.fbArm 0 0 10 none 0)] }
    let cd (t : Nat) : State := m 1 { z with cmp := some ⟨1, 0, 0, none, t, 1, 0⟩, fx := [eff (.fbDisarm 0)] }
    let k : RKey := (.FB_CTRL, fbIx 0)
    let run : State := { up with tasks := [(1, { tk step0 with c := Ctx.zero })] }
    opens (up.at 64000064) .pcie (.FB_PROBE_CMD, fbIx 0) = true ∧ up.unitRuns 4 0 = false ∧ up.logging = false ∧
    ({ z with evs := [⟨1, 1, 1, 1, true⟩] } : FbSt).evs.find? (fun e => e.counts) = some ⟨1, 1, 1, 1, true⟩ ∧
    0 < cp.fld F.FB_CPR_cpr (fbIx 0) ∧ cp.bit F.FB_IDX_CFG_ref (fbIx 0) = false ∧ cp.bit F.FB_CTRL_rec_en (fbIx 0) = false ∧
    idxDev ((cp.fb 0).posAt 64000000) 0 4 = 1 ∧ idxDev 10 0 4 = 2 ∧ idxDev 11 0 4 = -1 ∧ idxDev 8 0 4 = 0 ∧
    cp.fld F.FB_IDX_CFG_idx_mode (fbIx 0) = 2 ∧ (1 : Int).natAbs ≤ (cp.setFld F.FB_IDX_CFG_idx_tol (fbIx 0) 1).fld F.FB_IDX_CFG_idx_tol (fbIx 0) ∧
    se.fbMode 0 = 4 ∧ (se.fb 0).lastStart = some 64000000 ∧ (se.fb 0).serQ = [64000000] ∧ se.logging = false ∧
    (cs.fb 0).fx = [eff (.fbArm 0 0 10 none 0)] ∧ (cs.fb 0).cmp = none ∧ (0 : Int) < 10 ∧ 0 ≤ wrap48 ((cs.fb 0).posAt 70400000 - 0) ∧
    ((cd 1).fb 0).cmp.map (fun c => c.task) = some 1 ∧ ((cd 2).fb 0).cmp.map (fun c => c.task) = some 2 ∧
    opens (run.at 64000064) .pcie k = true ∧ run.unitRuns 4 0 = true := by decide +kernel

/-- More of `witness_feedback`. -/
theorem witness_feedback_3 :
    let z := FbSt.reset
    let m (i : Nat) (x : FbSt) : State := { up with fbs := [(0, x)] }.setFld F.FB_CTRL_mode (fbIx 0) i
    let a : FbIn := ⟨64000000, 0, true⟩
    let b : FbIn := ⟨64000000, 1, true⟩
    let qd : State := m 1 { z with inbox := [a, b] }
    let wa : State := m 1 { z with a := { z.a with filt := ⟨true, 63999000, false⟩ } }
    ((up.setFld F.FB_CTRL_mode (fbIx 0) 3).at 1).isDonor 1 = true ∧
    ((up.at 1).plainWrite .FB_CTRL (fbIx 0) 7).fbCfgOk 0 = false ∧
    (List.range 8).all (fun i => ((up.at 1).plainWrite .FB_CTRL (fbIx 0) 1).fbCfgOk i) = true ∧ (up.at 1).isDonor 0 = false ∧
    (List.range 4).all (fun i => !up.bit F.HOOP_CTRL_en (hoopIx i)) = true ∧
    (m 1 z).fbSerial 0 = false ∧ (up.setFld F.FB_CTRL_mode (fbIx 0) 4).fbSerial 0 = true ∧ (z.line 2).filt.raw = (z.line 2).filt.out ∧ (up.setBit F.FB_OUT_CTRL_pt_z (fbIx 0) true).bit F.FB_OUT_CTRL_pt_z (fbIx 0) = true ∧
    (wa.fb 0).inbox = [] ∧ (wa.fb 0).a.filt.raw ≠ (wa.fb 0).a.filt.out ∧ (wa.fb 0).b.filt.raw = (wa.fb 0).b.filt.out ∧ wa.fbMode 0 = 1 ∧
    (∀ c ∈ qd.countSrcs 0, (qd.srcFilt c).waits = false) ∧ (qd.fb 0).inbox = [a, b] ∧ b.stamp = a.stamp ∧ (qd.fb 0).tooFast a.stamp = false ∧
    (∀ i ∈ [({ b with stamp := 64000001 } : FbIn)], i.line ≤ 1 → i.stamp ≠ a.stamp) ∧ ({ z with lastEdge := some 63998400 } : FbSt).tooFast 64000000 = false ∧ ({ z with lastEdge := some 63998401 } : FbSt).tooFast 64000000 = true ∧
    b.line = 1 ∧ b.level ≠ z.qb ∧ ({ a with level := false } : FbIn).level = false := by decide +kernel

/-- More of `witness_feedback`. -/
theorem witness_feedback_4 :
    let z := FbSt.reset
    let m (i : Nat) (x : FbSt) : State := { up with fbs := [(0, x)] }.setFld F.FB_CTRL_mode (fbIx 0) i
    let a : FbIn := ⟨64000000, 0, true⟩
    let ix : State := (m 1 { z with inbox := [⟨64000000, 2, true⟩] }).setFld F.FB_IDX_CFG_idx_mode (fbIx 0) 1
    let pr : State := (m 1 { z with inbox := [⟨64000000, 5, true⟩] }).setFld F.FB_PROBE_CTRL_edge (fbIx 0) 2
    let cp : State := ((m 1 { z with pos := 9, evs := [⟨1, 1, 9, 9, true⟩] }).setFld F.FB_CPR_cpr (fbIx 0) 4).setFld F.FB_IDX_CFG_idx_mode (fbIx 0) 2
    let co : State := m 3 { z with qa := false, sector := some 0, inbox := [a] }
    let hu : State := m 3 { z with qa := false, hv := false, hw := true, sector := some 0, inbox := [a] }
    let ot : State := ix.setFb 0 { z with inbox := [⟨64000000, 2, true⟩], evs := [⟨1, 1, 1, -1, true⟩] }
    let rf : State := cp.setBit F.FB_IDX_CFG_ref (fbIx 0) true
    let sw : State := ((((m 4 { z with lastStart := some 64000000, serQ := [64000000] }).setFld F.FB_SER_FRAME_nbits (fbIx 0) 4).setFld F.FB_SER_CLK_period_qns (fbIx 0) 2000).setFld F.FB_SER_PERIOD_period_ns (fbIx 0) 50000)
    let vis : Time := 64000000 + picots (ns (sw.fld F.FB_SER_TIMING_line_delay_ns (fbIx 0)) / 2) + picots (sw.frameTime 0)
    (∀ c ∈ hu.countSrcs 0, (hu.srcFilt c).waits = false) ∧ ({ z with qa := true, hw := true } : FbSt).hall = 5 ∧ (hu.sectorOf 0 5).isSome = true ∧ ({ z with qa := true, hv := true, hw := true } : FbSt).hall = 7 ∧
    ((List.range 7).drop 1).all (fun c => c == 7 || (co.sectorOf 0 c).isSome) = true ∧ ((2 : Int) - 0) % 6 = 2 ∧ ((0 : Int) - 3) % 6 = 3 ∧ ((0 : Int) - 2) % 6 = 4 ∧ ((0 : Int) - 1) % 6 = 5 ∧ ((0 : Int) - 5) % 6 = 1 ∧
    (∀ c ∈ FbSrc.ball 0 2 :: ix.countSrcs 0, (ix.srcFilt c).waits = false) ∧ (ix.fb 0).inbox = [⟨64000000, 2, true⟩] ∧ true ≠ ix.bit F.FB_IDX_CFG_z_edge (fbIx 0) ∧
    (ot.fb 0).dirAt 64000000 = some false ∧ (ix.fb 0).dirAt 64000000 = none ∧ (true ≠ (ix.setBit F.FB_IDX_CFG_z_edge (fbIx 0) true).bit F.FB_IDX_CFG_z_edge (fbIx 0)) = false ∧
    (pr.fb 0).inbox = [⟨64000000, 5, true⟩] ∧ (∀ c ∈ FbSrc.ball 0 2 :: pr.countSrcs 0, (pr.srcFilt c).waits = false) ∧ before 63999999 64000000 = true ∧ before 64000000 64000000 = false ∧
    (pr.setFld F.FB_PROBE_CTRL_edge (fbIx 0) 1).fld F.FB_PROBE_CTRL_edge (fbIx 0) = 1 ∧ ((2 : Nat) == 0) = false ∧
    rf.bit F.FB_IDX_CFG_ref (fbIx 0) = true ∧ (rf.fb 0).idx = [] ∧ cp.fld F.FB_IDX_CFG_idx_tol (fbIx 0) < (1 : Int).natAbs ∧
    sw.fbSerial 0 = true ∧ (sw.fb 0).serQ = [64000000] ∧ (sw.firstBit 0 64000000 vis).isSome = true ∧ (sw.sampleAt 0 64000000 vis (sw.lastSample 0 64000000 vis)).isNone = false ∧
    sw.frameCrcOk 0 0 = true ∧ ((sw.setFld F.FB_SER_CRC_crc_width (fbIx 0) 2).setFld F.FB_SER_CRC_INIT_crc_init (fbIx 0) 1).frameCrcOk 0 3 = false := by decide +kernel

/-- More of `witness_feedback`. -/
theorem witness_feedback_5 :
    let z := FbSt.reset
    let m (i : Nat) (x : FbSt) : State := { up with fbs := [(0, x)] }.setFld F.FB_CTRL_mode (fbIx 0) i
    let cs : State := m 1 { z with pos := 100, evs := [⟨1, 1, 100, 100, true⟩], fx := [eff (.fbArm 0 0 10 none 0)] }
    let sw : State := ((((m 4 { z with lastStart := some 64000000, serQ := [64000000] }).setFld F.FB_SER_FRAME_nbits (fbIx 0) 4).setFld F.FB_SER_CLK_period_qns (fbIx 0) 2000).setFld F.FB_SER_PERIOD_period_ns (fbIx 0) 50000)
    let vis : Time := 64000000 + picots (ns (sw.fld F.FB_SER_TIMING_line_delay_ns (fbIx 0)) / 2) + picots (sw.frameTime 0)
    let s5 : State := (m 5 { z with lastStart := some 64000000, serQ := [64000000] }).setFld F.FB_SER_FRAME_start_max (fbIx 0) 2
    let rc : State := sw.setBit F.FB_SER_CLK_ret_clk (fbIx 0) true
    let k7 : RKey := (.FB_CTRL, fbIx 7)
    let hp : State := (((up.setBit F.HOOP_CTRL_en (hoopIx 0) true).setFld F.HOOP_CTRL_src (hoopIx 0) 1).setFld F.HOOP_SRC_index (hoopIx 0) 2)
    s5.fbSerial 0 = true ∧ (s5.setBit F.FB_SER_FRAME_start_level (fbIx 0) true).firstBit 0 64000000 vis = none ∧ (rc.sampleAt 0 64000000 vis (rc.lastSample 0 64000000 vis)).isNone = true ∧
    (cs.fb 0).posAt 70400000 = 100 ∧ (wrap48 ((cs.fb 0).posAt 70400000 - 200)) < 0 ∧ wrap48 ((cs.fb 0).posAt 70400000 - 100) = 0 ∧
    opens (up.at 1) .pcie k7 = true ∧ up.unitRuns 4 7 = false ∧ (hp.at 1).bit F.HOOP_CTRL_en (hoopIx 0) = true ∧ hp.fld F.HOOP_CTRL_src (hoopIx 0) = 1 ∧ hp.fld F.HOOP_SRC_index (hoopIx 0) % 8 = 2 ∧
    ((up.at 1).acceptDue 7).isDonor 7 = false ∧ (List.range 8).all (fun i => (((up.at 1).acceptDue 0).plainWrite .FB_CTRL (fbIx 0) 1).fbCfgOk i) = true ∧
    (up.plainWrite .FB_CTRL (fbIx 0) 0x10).fbMode 0 = up.fbMode 0 := by decide +kernel

/-- Teeth in SYNC, in SEARCH and at standstill, an index edge, a stall, a coast that ends, events in every state, HOOP_CTRL and HOOP_EVT_SEL writes. -/
theorem witness_hoops :
    let z := HoopSt.reset
    let i (b : Bool) : HoopIn := ⟨64000000, 64000000, 0, b, none⟩
    let p (t : Time) (sl : Nat) : HoopPt := ⟨0, t, t, false, false, sl, 0, 0, 0, some (t + 1000000), none, none⟩
    let hs (x : HoopSt) : State := ((({ up with hoops := [(0, x)] }.setFld F.HOOP_WHEEL_teeth (hoopIx 0) 60).setFld F.HOOP_WHEEL_gap (hoopIx 0) 2).setFld F.HOOP_BAD_LIMIT_max_period_us (hoopIx 0) 100000).setFld F.HOOP_STALL_stall_us (hoopIx 0) 1000
    let sy : HoopSt := { z with st := 2, slot := some 5, pts := [p 63000000 5, p 62000000 4, p 61000000 3], lastEdges := [63000000, 62000000], inbox := [i false], found := 3, usable := 3 }
    let d : HoopDesc := ⟨0, 0x40000000, none, false, false, 0⟩
    let v : HoopEv := ⟨1, 1, 0, d, none, some 64000000, some 65000000, false, false, false, false, false, false, false, false⟩
    let vp : HoopEv := { v with desc := { d with pin := some 0 } }
    (hs sy).hoopActs 0 = true ∧ (i false).pos = none ∧ (hs sy).logging = false ∧ 5 + 1 < (hs sy).hoopReal 0 ∧
    ((hs { sy with lastEdges := [] }).setFld F.HOOP_CTRL_src (hoopIx 0) 3).hoopJudges 0 = none ∧
    (hs sy).hoopJudges 0 = some 1000000 ∧ 2 * dist 63400000 63000000 < 1000000 ∧ (hs sy).hoopSrc 0 < 2 ∧ sy.bad = 0 ∧ sy.evs = [] ∧
    (i true).back = true ∧ { sy with slot := some (4 + 1) }.slot = some (4 + 1) ∧
    ((hs { z with st := 1, idxSeen := true, inbox := [i false] }).setBit F.HOOP_CTRL_ref (hoopIx 0) true).bit F.HOOP_CTRL_ref (hoopIx 0) = true ∧
    { sy with st := 3, fwd := 0 }.st = 3 ∧ { sy with idxIn := [(1, 1)] }.idxIn = [(1, 1)] ∧ { sy with st := 6, coastEnd := some 1 }.coastEnd = some 1 ∧
    { sy with fx := [eff (.hevt 0 3 d 0)] }.fx = [eff (.hevt 0 3 d 0)] ∧
    (hs { sy with evs := [(3, v)] }).hoopEv 0 3 = some v ∧ v.active 64000000 = true ∧ v.active 0 = false ∧
    (hs sy).hoopEv 0 3 = none ∧ d.pin = none ∧ { z with st := 1 }.st ≠ 2 ∧
    lockedAt 65000000 64999999 = true ∧ v.fired = false ∧ vp.desc.pin.isSome = true ∧ v.limited = false ∧ (hs sy).bit F.HOOP_CTRL_evt_rec (hoopIx 0) = false := by decide +kernel

/-- More of `witness_hoops`. -/
theorem witness_hoops_2 :
    let z := HoopSt.reset
    let i (b : Bool) : HoopIn := ⟨64000000, 64000000, 0, b, none⟩
    let p (t : Time) (sl : Nat) : HoopPt := ⟨0, t, t, false, false, sl, 0, 0, 0, some (t + 1000000), none, none⟩
    let hs (x : HoopSt) : State := ((({ up with hoops := [(0, x)] }.setFld F.HOOP_WHEEL_teeth (hoopIx 0) 60).setFld F.HOOP_WHEEL_gap (hoopIx 0) 2).setFld F.HOOP_BAD_LIMIT_max_period_us (hoopIx 0) 100000).setFld F.HOOP_STALL_stall_us (hoopIx 0) 1000
    let sy : HoopSt := { z with st := 2, slot := some 5, pts := [p 63000000 5, p 62000000 4, p 61000000 3], lastEdges := [63000000, 62000000], inbox := [i false], found := 3, usable := 3 }
    let k : RKey := (.HOOP_CTRL, hoopIx 0)
    let en : State := (((up.setFld F.HOOP_WHEEL_teeth (hoopIx 0) 2).setFld F.HOOP_WHEEL_cpt (hoopIx 0) 1).setFld F.HOOP_BAD_LIMIT_max_period_us (hoopIx 0) 1000000).setFld F.HOOP_STALL_stall_us (hoopIx 0) 1
    let run : State := { up with tasks := [(1, tk step0)] }
    let sx : HoopSt := { sy with fx := [{ eff (.hcan 0 none) with stamp := 63999999 }] }
    { up with pins := [(0, { PinSt.reset with queue := List.replicate 32 ⟨70400000, true, 0, 1, 1, 0, false, false, 1, 1⟩ })] }.pinDepth 0 = 32 ∧
    opens (en.at 64000064) .pcie k = true ∧ en.unitRuns 5 0 = false ∧ en.bit F.HOOP_CTRL_en (hoopIx 0) = false ∧
    ((en.at 64000064).plainWrite .HOOP_CTRL (hoopIx 0) (0x16 ||| 1)).hoopRanges 0 = true ∧
    ((en.at 64000064).plainWrite .HOOP_CTRL (hoopIx 0) (0x16 ||| 1)).hoopSourceOk 0 = true ∧
    ((en.at 64000064).plainWrite .HOOP_CTRL (hoopIx 0) (0x16 ||| 1)).bit F.HOOP_CTRL_en (hoopIx 0) = true ∧
    ((up.setFld F.HOOP_WHEEL_teeth (hoopIx 0) 1).plainWrite .HOOP_CTRL (hoopIx 0) (0 ||| 1)).hoopRanges 0 = false ∧
    ((en.at 64000064).plainWrite .HOOP_CTRL (hoopIx 0) (0x16 &&& ~~~1)).bit F.HOOP_CTRL_en (hoopIx 0) = false ∧
    opens (run.at 64000064) .pcie k = true ∧ run.unitRuns 5 0 = true ∧
    opens up .pcie (.HOOP_EVT_SEL, hoopIx 0) = true ∧ up.hoopEv 0 (bitsOf 63 0 6) = none ∧
    (hs sx).hoopWaits 0 1 64000000 = true ∧ (hs sy).hoopWaits 0 1 64000000 = false := by decide +kernel

/-- More of `witness_hoops`. -/
theorem witness_hoops_3 :
    let z := HoopSt.reset
    let i (b : Bool) : HoopIn := ⟨64000000, 64000000, 0, b, none⟩
    let p (t : Time) (sl : Nat) : HoopPt := ⟨0, t, t, false, false, sl, 0, 0, 0, some (t + 1000000), none, none⟩
    let hs (x : HoopSt) : State := ((({ up with hoops := [(0, x)] }.setFld F.HOOP_WHEEL_teeth (hoopIx 0) 60).setFld F.HOOP_WHEEL_gap (hoopIx 0) 2).setFld F.HOOP_BAD_LIMIT_max_period_us (hoopIx 0) 100000).setFld F.HOOP_STALL_stall_us (hoopIx 0) 1000
    let sy : HoopSt := { z with st := 2, slot := some 5, pts := [p 63000000 5, p 62000000 4, p 61000000 3], lastEdges := [63000000, 62000000], inbox := [i false], found := 3, usable := 3 }
    let d : HoopDesc := ⟨0, 0x40000000, none, false, false, 0⟩
    let v : HoopEv := ⟨1, 1, 0, d, none, some 64000000, some 65000000, false, false, false, false, false, false, false, false⟩
    let ti (t : Time) (b : Bool) : HoopIn := ⟨t, t, 0, b, none⟩
    let s57 : HoopSt := { sy with slot := some 57, inbox := [ti 65500000 false] }
    let se_ : HoopSt := { z with st := 1, inbox := [i false], lastEdges := [63000000, 62600000] }
    let sn : HoopSt := { z with st := 5, inbox := [i false], lastEdges := [63000000, 62000000], slot := some 57, found := 2 }
    let mt : HoopSt := { sy with inbox := [] }
    let sm : HoopSt := { z with st := 2, pts := [p 63000000 0], inbox := [{ i false with pos := some 7 }] }
    let h3 (x : HoopSt) : State := (hs x).setFld F.HOOP_CTRL_src (hoopIx 0) 3
    let ev (e : HoopEv) : State := hs { z with st := 1, evs := [(3, e)] }
    let full : State := { hs { z with st := 1 } with pins := [(0, { PinSt.reset with queue := List.replicate 32 ⟨70400000, true, 0, 1, 1, 0, false, false, 1, 1⟩ })] }
    (hs s57).hoopReal 0 ≤ 57 + 1 ∧ (hs s57).slot0Ok 0 65500000 = true ∧ (hs s57).slot0Ok 0 65499999 = false ∧
    (hs s57).hoopJudges 0 = some 1000000 ∧ 1000000 ≤ 2 * dist 63500000 63000000 ∧ 2 * dist 63499999 63000000 < 1000000 ∧
    (hs se_).gapTest 0 (dist 64000000 63000000) (dist 63000000 62600000) = true ∧ (hs sn).gapTest 0 (dist 64000000 63000000) (dist 63000000 62000000) = false ∧ (hs sn).bit F.HOOP_CTRL_ref (hoopIx 0) = false ∧
    (hs se_).hoopWaits 0 1 64000000 = false ∧ (hs sn).hoopReal 0 ≤ 57 + 1 ∧ 5 + 1 < (hs sn).hoopReal 0 ∧ 2 ≤ sn.found ∧ se_.found = 0 ∧
    { sn with st := 3, fwd := 2 }.fwd = 2 ∧ (hs { sn with st := 4 }).hoopWaits 0 1 64000000 = false ∧ { sn with slot := some 0 }.slot = some 0 ∧
    (hs mt).hoopJudges 0 = some 1000000 ∧ 63000000 + picotsI (3 * 1000000 / 2) = 64500000 ∧ (hs mt).hoopWaits 0 2 64500000 = false ∧ (hs { mt with inbox := [ti 64500000 false] }).hoopWaits 0 2 64500000 = true ∧ before 64500000 64500000 = false ∧
    (hs mt).hoopWaits 0 3 (63000000 + nsT (1000 * 1000)) = true ∧ ((hs mt).setFld F.HOOP_STALL_stall_us (hoopIx 0) 1).hoopWaits 0 3 (63000000 + nsT (1 * 1000)) = false ∧
    (h3 sm).hoopActs 0 = true ∧ (h3 sm).hoopWaits 0 1 64000000 = false ∧ (sm.pts.map (fun p => p.a)) = [0] ∧ decide ((7 : Int) < 0) = false ∧ decide ((-1 : Int) < 0) = true ∧
    (hs { z with st := 1, fx := [eff (.hevt 0 3 d 0)] }).hoopWaits 0 4 70400000 = false ∧ (hs { mt with fx := [eff (.hevt 0 3 d 0)] }).hoopWaits 0 4 70400000 = true ∧
    (ev v).hoopEv 0 3 = some v ∧ v.active 70400000 = false ∧ ({ v with stop := some 80000000 } : HoopEv).active 70400000 = true ∧ full.pinDepth 0 - 0 = 32 ∧ ({ full with pins := [] } : State).pinDepth 0 - 0 < 32 := by decide +kernel

/-- More of `witness_hoops`. -/
theorem witness_hoops_4 :
    let z := HoopSt.reset
    let i (b : Bool) : HoopIn := ⟨64000000, 64000000, 0, b, none⟩
    let p (t : Time) (sl : Nat) : HoopPt := ⟨0, t, t, false, false, sl, 0, 0, 0, some (t + 1000000), none, none⟩
    let hs (x : HoopSt) : State := ((({ up with hoops := [(0, x)] }.setFld F.HOOP_WHEEL_teeth (hoopIx 0) 60).setFld F.HOOP_WHEEL_gap (hoopIx 0) 2).setFld F.HOOP_BAD_LIMIT_max_period_us (hoopIx 0) 100000).setFld F.HOOP_STALL_stall_us (hoopIx 0) 1000
    let sy : HoopSt := { z with st := 2, slot := some 5, pts := [p 63000000 5, p 62000000 4, p 61000000 3], lastEdges := [63000000, 62000000], inbox := [i false], found := 3, usable := 3 }
    let d : HoopDesc := ⟨0, 0x40000000, none, false, false, 0⟩
    let v : HoopEv := ⟨1, 1, 0, d, none, some 64000000, some 65000000, false, false, false, false, false, false, false, false⟩
    let en : State := (((up.setFld F.HOOP_WHEEL_teeth (hoopIx 0) 2).setFld F.HOOP_WHEEL_cpt (hoopIx 0) 1).setFld F.HOOP_BAD_LIMIT_max_period_us (hoopIx 0) 1000000).setFld F.HOOP_STALL_stall_us (hoopIx 0) 1
    let ti (t : Time) (b : Bool) : HoopIn := ⟨t, t, 0, b, none⟩
    let ev (e : HoopEv) : State := hs { z with st := 1, evs := [(3, e)] }
    let evw (e : HoopEv) : State := hs { z with st := 1, evs := [(3, e)], inbox := [ti 1 false] }
    ((hs sy).accAt 0 70400000).isSome = true ∧ (sy.pts.head?.map (fun p => p.synth)) = some false ∧
    ({ z with fx := [eff (.hcan 0 (some 3))] } : HoopSt).fx = [eff (.hcan 0 (some 3))] ∧ lockedAt 65000000 64993600 = true ∧ lockedAt 65000000 64993599 = false ∧
    (ev v).hoopWaits 0 5 64000000 = false ∧ (evw v).hoopWaits 0 5 64000000 = true ∧ (ev v).hoopWaits 0 5 65000000 = false ∧ ({ v with limited := true } : HoopEv).limited = true ∧
    ((ev v).setBit F.HOOP_CTRL_evt_rec (hoopIx 0) true).bit F.HOOP_CTRL_evt_rec (hoopIx 0) = true ∧ v.byHcan = false ∧ { z with st := 7 }.st = 7 ∧
    bitsOf (((en.setBit F.HOOP_CTRL_en (hoopIx 0) true).reg .HOOP_CTRL (hoopIx 0))) 1 4 ≠ bitsOf (0x16 ||| 1) 1 4 ∧ (en.setBit F.HOOP_CTRL_en (hoopIx 0) true).bit F.HOOP_CTRL_en (hoopIx 0) = true ∧
    bitsOf ((en.setFld F.HOOP_CTRL_src (hoopIx 0) 3).reg .HOOP_CTRL (hoopIx 0)) 1 4 = bitsOf (0x7 &&& ~~~1) 1 4 ∧ bitsOf ((en.setFld F.HOOP_CTRL_src (hoopIx 0) 3).reg .HOOP_CTRL (hoopIx 0)) 6 2 = bitsOf (0x7 &&& ~~~1) 6 2 ∧
    (hs { z with evs := [(63, v)] }).hoopEv 0 (bitsOf 63 0 6) = some v := by decide +kernel

/-- A port up, frames bad, unwanted and wanted, an axis frame that meets each check, samples in time and late, posted samples. -/
theorem witness_network :
    let n : State := (up.setBit F.NET_CTRL_en (pkg1 0) true).setBit F.NET_STATUS_link_up (pkg1 0) true
    let h : RxHdr := ⟨true, 64, n.groupMac, none, 0x88B5, 0⟩
    let a : State := (((n.setBit F.AXS_CFG_en (pkg1 7) true).setFld F.AXS_CFG_ports (pkg1 7) 3).setFld F.AXS_SRC_node_id (pkg1 7) 5).setFld F.LS_NODE_node_id pkg 9
    let f : AxisFrame := ⟨1, 0, false, false, 5, 0, 1, 0, 1000000, 0, 0⟩
    let r : State := a.setAxs 7 { AxsSt.reset with first := false, hist := [⟨63000000, 1, 2⟩] }
    up.dieActs 0 = true ∧ n.bit F.NET_CTRL_en (pkg1 0) = true ∧ n.portUp 0 = true ∧
    { h with len := 63 }.len < 64 ∧ 1522 < { h with len := 1523 }.len ∧
    n.rxWanted 0 { h with dst := 1 } = false ∧ n.rxWanted 0 h = true ∧ h.ethertype = n.fld F.LS_CTRL_ethertype pkg ∧
    { f with domain := 1 }.domain ≠ a.fld F.LS_CTRL_domain pkg ∧ f.domain = a.fld F.LS_CTRL_domain pkg ∧
    { f with node := 9 }.node = a.fld F.LS_NODE_node_id pkg ∧ f.node ≠ a.fld F.LS_NODE_node_id pkg ∧ a.axsMatch 0 f.node f.axis = some 7 ∧
    f.digest = a.reg .LS_LINE_DIGEST pkg ∧ { f with digest := 1 }.digest ≠ a.reg .LS_LINE_DIGEST pkg ∧
    (r.axs 7).first = false ∧ f.seq = r.reg .AXS_LAST_SEQ (pkg1 7) + 1 ∧ { f with seq := 0 }.seq = r.reg .AXS_LAST_SEQ (pkg1 7) := by decide +kernel

/-- More of `witness_network`. -/
theorem witness_network_2 :
    let n : State := (up.setBit F.NET_CTRL_en (pkg1 0) true).setBit F.NET_STATUS_link_up (pkg1 0) true
    let a : State := (((n.setBit F.AXS_CFG_en (pkg1 7) true).setFld F.AXS_CFG_ports (pkg1 7) 3).setFld F.AXS_SRC_node_id (pkg1 7) 5).setFld F.LS_NODE_node_id pkg 9
    let f : AxisFrame := ⟨1, 0, false, false, 5, 0, 1, 0, 1000000, 0, 0⟩
    let r : State := a.setAxs 7 { AxsSt.reset with first := false, hist := [⟨63000000, 1, 2⟩] }
    let e : Eff := { eff (.sample 3 1 2) with stamp := 64000000 }
    let x : State := ((({ up with flight := [e] }.setBit F.AXP_CFG_en (pkg1 3) true).setFld F.AXP_CFG_ports (pkg1 3) 1).setFld F.AXP_PERIOD_period_ns (pkg1 3) 1000).setAxp 3 { AxpSt.reset with last := some 63936000, run := 0x100000003 - 1 }
    r.logging = false ∧
    upTo 64000000 (BitVec.ofNat 64 (f.stampNs * 64) - (r.setFld F.AXS_ALLOW_allow_ns (pkg1 7) 1000).plantOffset + picots ((r.setFld F.AXS_ALLOW_allow_ns (pkg1 7) 1000).axsAllow 7) - nsT 1000) = true ∧
    upTo 64000001 (BitVec.ofNat 64 (f.stampNs * 64) - (r.setFld F.AXS_ALLOW_allow_ns (pkg1 7) 1000).plantOffset + picots ((r.setFld F.AXS_ALLOW_allow_ns (pkg1 7) 1000).axsAllow 7) - nsT 1000) = false ∧
    (r.axsRead 7 640000000).found = some (0, ⟨63000000, 1, 2⟩) ∧ (a.axsRead 7 640000000).found = none ∧
    x.flight = [e] ∧ x.bit F.AXP_CFG_en (pkg1 3) = true ∧ x.fld F.AXP_CFG_ports (pkg1 3) ≠ 0 ∧
    (x.axp 3).last = some 63936000 ∧ (x.axp 3).run = e.task * 0x100000000 + e.run + 1 ∧
    upTo (63936000 + nsT 1000) e.stamp = true ∧ upTo (63936001 + nsT 1000) e.stamp = false := by decide +kernel

/-- More of `witness_network`. -/
theorem witness_network_3 :
    let n : State := (up.setBit F.NET_CTRL_en (pkg1 0) true).setBit F.NET_STATUS_link_up (pkg1 0) true
    let a : State := (((n.setBit F.AXS_CFG_en (pkg1 7) true).setFld F.AXS_CFG_ports (pkg1 7) 3).setFld F.AXS_SRC_node_id (pkg1 7) 5).setFld F.LS_NODE_node_id pkg 9
    let f : AxisFrame := ⟨1, 0, false, false, 5, 0, 1, 0, 1000000, 0, 0⟩
    let r : State := a.setAxs 7 { AxsSt.reset with first := false, hist := [⟨63000000, 1, 2⟩] }
    let e : Eff := { eff (.sample 3 1 2) with stamp := 64000000 }
    let x : State := ((({ up with flight := [e] }.setBit F.AXP_CFG_en (pkg1 3) true).setFld F.AXP_CFG_ports (pkg1 3) 1).setFld F.AXP_PERIOD_period_ns (pkg1 3) 1000).setAxp 3 { AxpSt.reset with last := some 63936000, run := 0x100000003 - 1 }
    let late : State := r.setFld F.AXS_ALLOW_allow_ns (pkg1 7) 1000
    let lr : State := (late.setFld F.AXS_PERIOD_period_ns (pkg1 7) 1000).setTask 1 (tk step0)
    let fm : TxFrame := ⟨0, 64, none, .axis 3 1 false 0 0 0, 0⟩
    let pq : State := (x.setBit F.NET_CTRL_en (pkg1 0) true).setNet 0 { NetSt.reset with frames := [fm] }
    (up.setBit F.AXP_CFG_en (pkg1 3) true).fld F.AXP_CFG_ports (pkg1 3) = 0 ∧
    (0 : Nat) < 2 ∧ ({ f with version := 2 } : AxisFrame).version ≠ 1 ∧ ({ f with unqualified := true } : AxisFrame).unqualified = true ∧ f.version = 1 ∧
    ({ f with restart := true, seq := 0 } : AxisFrame).seq = 0 ∧ ({ a.axs 7 with first := true } : AxsSt).first = true ∧ (0 : Int) < (f.seq - r.reg .AXS_LAST_SEQ (pkg1 7)).toInt ∧ (0xFFFFFFFF - r.reg .AXS_LAST_SEQ (pkg1 7)).toInt < 0 ∧
    0 < lr.axsPeriod 7 ∧ (lr.axsMissed 7 63000000 (64000000 + picots (lr.axsAllow 7))).length = 15 ∧
    lr.task? 1 = some (tk step0) ∧ (lr.axs 7).late.contains 5 = false ∧ (tk step0).lateSeen.contains (7, 5) = false ∧ ({ tk step0 with lateSeen := [(7, 5)] } : Task).lateSeen.contains (7, 5) = true ∧
    (x.axp 3).last.isNone = false ∧ ({ AxpSt.reset with run := 1 } : AxpSt).last.isNone = true ∧ (x.fld F.AXP_CFG_ports (pkg1 3)).testBit 0 = true ∧ (x.fld F.AXP_CFG_ports (pkg1 3)).testBit 1 = false ∧
    pq.dieActs 0 = true ∧ pq.bit F.NET_CTRL_en (pkg1 0) = true ∧ (∃ f ∈ (pq.net 0).frames, f.ofEntry 3 = true) ∧ (∀ f ∈ (pq.net 1).frames, f.ofEntry 3 = false) := by decide +kernel

/-- A gate at a cycle, a swap and an entry end, an idle link with a frame that fits, one on the wire, one to drop. -/
theorem witness_gates :
    let n : State := (up.setBit F.NET_CTRL_en (pkg1 0) true).setBit F.NET_STATUS_link_up (pkg1 0) true
    let f : TxFrame := ⟨7, 64, none, .sync 0, 64000000⟩
    let g (x : NetSt) : State := ((n.setBit F.NET_GATE_CTRL_gate_en (pkg1 0) true).setFld F.NET_GATE_CYCLE_cycle_ns (pkg2 0 0) 100000).setNet 0 x
    let z := { NetSt.reset with next := some 1000000 }
    (g z).gateOn 0 = true ∧ (g z).dieActs 0 = true ∧ ((g z).net 0).next = some 1000000 ∧ ((g z).net 0).swapAt = none ∧
    ((g { z with swapAt := some 1000000 }).net 0).swapAt = some 1000000 ∧
    ((g { z with cycle := some 900000, entry := 0, entryEnd := 950000 }).net 0).entryEnd.toNat < (g z).cycleFin 0 ((g z).bank 0) 900000 none ∧
    opens (g z) .pcie (.NET_GATE_CTRL, pkg1 0) = true ∧
    bitOf (0x00020101 ||| 4) 0 = true ∧ bitsOf (0x00020101 ||| 4) 8 9 = (g z).gateLen 0 0 ∧ bitsOf (0x00020101 ||| 4) 17 9 = (g z).gateLen 0 1 ∧
    1 ≤ (g z).gateLen 0 0 ∧ (g z).gateLen 0 0 ≤ 256 ∧ ((g z).plainWrite .NET_GATE_CTRL (pkg1 0) (0x00020101 ||| 4)).bit F.NET_GATE_CTRL_pending (pkg1 0) = false ∧
    n.portUp 0 = true ∧ (n.net 0).wire = none ∧ ((n.setNet 0 { NetSt.reset with frames := [f] }).at 64000000).nextTx 0 = some f ∧
    ((n.setNet 0 { NetSt.reset with wire := some (f, 64043008) }).net 0).wire = some (f, 64043008) := by decide +kernel

/-- More of `witness_gates`. -/
theorem witness_gates_2 :
    let n : State := (up.setBit F.NET_CTRL_en (pkg1 0) true).setBit F.NET_STATUS_link_up (pkg1 0) true
    let f : TxFrame := ⟨7, 64, none, .sync 0, 64000000⟩
    let g (x : NetSt) : State := ((n.setBit F.NET_GATE_CTRL_gate_en (pkg1 0) true).setFld F.NET_GATE_CYCLE_cycle_ns (pkg2 0 0) 100000).setNet 0 x
    let z := { NetSt.reset with next := some 1000000 }
    let sh : State := g { z with cycle := some 0, entry := 0, entryEnd := 64000 }
    let dr : State := (sh.setFld F.NET_GATE_ENTRY_mask ⟨0, 0, 0, 0⟩ 0x7F).setNet 0 { z with cycle := some 0, entryEnd := 64000, frames := [{ f with since := 0 }, { f with queue := 3 }] }
    ((g { z with frames := [f] }).net 0).frames.find? (fun f => f.queue == 7) = some f ∧
    upTo 1000000 1000000 = true ∧ upTo 1000001 1000000 = false ∧
    sh.cycleFin 0 (sh.bank 0) 0 none = ((sh.gateCycle 0 0 : ℕ) : Int) ∧ dist (sh.net 0).entryEnd 0 < sh.cycleFin 0 (sh.bank 0) 0 none ∧
    sh.bankShut 0 0 = true ∧ sh.bankShut 0 1 = false ∧ n.bankShut 0 0 = false ∧ bitOf 0x00020100 0 = false ∧
    0 < sh.gateCycle 0 0 ∧ dist 0 (sh.gateBase 0 0) ≤ 0 ∧ 0 < dist 1 (sh.gateBase 0 0) ∧
    ((n.setNet 0 { NetSt.reset with wire := none }).net 0).wire = none ∧ ((n.setNet 0 NetSt.reset).at 64000000).nextTx 0 = none ∧
    dr.gateOn 0 = true ∧ (dr.net 0).frames.find? (fun f => f.queue == 7) = some { f with since := 0 } ∧ (dr.at (0 + picots (dr.gateCycle 0 (dr.bank 0)))).gateFits 0 7 f.wireTime = false ∧
    (dr.net 0).head 3 = some { f with queue := 3 } ∧ (n.setNet 0 { NetSt.reset with frames := [f] }).gateFits 0 7 f.wireTime = true := by decide +kernel

/-- Ports in the SLAVE and MASTER states under both delay mechanisms, with what each message refers to. -/
theorem witness_ptp :
    let n : State := (((up.setBit F.NET_CTRL_en (pkg1 0) true).setBit F.NET_STATUS_link_up (pkg1 0) true).setBit F.NET_PTP_CTRL_en pkg true).setFld F.NET_PTP_STATUS_state_a pkg 9
    let e2e : State := n.setFld F.NET_PTP_CTRL_profile pkg 0
    let h : RxHdr := ⟨true, 64, n.groupMac, none, 0x88F7, 0⟩
    let y : PtpPort := { PtpPort.reset with req := some (3, 63000000), ms := some 5, sync := some (3, 63000000, 0), resp := some (3, 1, 64000000, 0), lastSync := some 0 }
    n.portUp 0 = true ∧ n.rxWanted 0 h = true ∧ n.ptpUses 0 = true ∧ n.portState 0 = 9 ∧ n.peerDelay = true ∧ e2e.peerDelay = false ∧
    (e2e.setFld F.NET_PTP_STATUS_state_a pkg 6).portState 0 = 6 ∧ (e2e.setFld F.NET_PTP_STATUS_state_a pkg 6).ptpUses 0 = true ∧
    ((e2e.modPtp 0 (fun _ => y)).ptpPort 0).req = some (3, 63000000) ∧ ((e2e.modPtp 0 (fun _ => y)).ptpPort 0).ms = some 5 ∧
    n.fld F.NET_PTP_CTRL_profile pkg = 2 ∧ n.dieActs 0 = true ∧ (n.ptpPort 0).ann = none ∧
    opens (n.at 64000064) .pcie (.NET_PTP_CTRL, pkg) = true ∧ opens (n.at 64000064) .pcie (.NET_PTP_INTERVALS, pkg) = true ∧
    bitsOf 5 1 2 = 2 ∧ bitsOf 3 1 2 < 2 ∧ bitsOf 7 1 2 = 3 ∧ bitsOf 0x1000 12 4 < 2 ∧ 10 < bitsOf 0xB000 12 4 ∧
    up.anyRunning = false ∧ { up with tasks := [(1, tk step0)] }.anyRunning = true ∧ up.slewPend = none ∧
    h.ethertype = 0x88F7 ∧ h.domain = n.fld F.NET_PTP_CTRL_ptp_domain pkg ∧ ({ h with domain := 1 } : RxHdr).domain ≠ n.fld F.NET_PTP_CTRL_ptp_domain pkg ∧ h.len = 64 := by decide +kernel

/-- More of `witness_ptp`. -/
theorem witness_ptp_2 :
    let n : State := (((up.setBit F.NET_CTRL_en (pkg1 0) true).setBit F.NET_STATUS_link_up (pkg1 0) true).setBit F.NET_PTP_CTRL_en pkg true).setFld F.NET_PTP_STATUS_state_a pkg 9
    let e2e : State := n.setFld F.NET_PTP_CTRL_profile pkg 0
    let h : RxHdr := ⟨true, 64, n.groupMac, none, 0x88F7, 0⟩
    let m6 : State := n.setFld F.NET_PTP_STATUS_state_a pkg 6
    let m7 : State := m6.modPtp 0 (fun o => { o with txAt := [(ptpTxCode .sync, 64000000)] })
    let ls (a b : Option Time) : State := n.modPtp 0 (fun o => { o with lastSync := a, slaveSince := b })
    let an : State := n.modPtp 0 (fun o => { o with ann := some (⟨1, 1, 1, 1, 1, 1, 1⟩, 64000000) })
    let sv : State := (up.setFld F.NET_SERVO_step_us pkg 1)
    n.rxWanted 0 { h with ethertype := n.fld F.LS_CTRL_ethertype pkg } = true ∧
    n.dieActs 0 = true ∧ m6.ptpUses 0 = true ∧ m6.portState 0 = 6 ∧ m6.txDue 0 .sync 1 = true ∧ m6.txDue 0 .announce 1 = true ∧ m6.txDue 0 .pdelayReq 1 = true ∧
    (e2e.txDue 0 .delayReq 1) = true ∧ e2e.portState 0 = 9 ∧ m7.txDue 0 .sync 64000001 = false ∧ m7.txDue 0 .sync 0x7000000000000000 = true ∧
    n.ptpList.find? (fun p => n.portState p == 9) = some 0 ∧ ((ls (some 1) none).ptpPort 0).lastSync = some 1 ∧ ((ls none (some 2)).ptpPort 0).slaveSince = some 2 ∧ later 1 2 = 2 ∧
    upTo (2 + picots (3 * n.syncInterval)) (2 + picots (3 * n.syncInterval)) = true ∧ upTo (2 + picots (3 * n.syncInterval)) (1 + picots (3 * n.syncInterval)) = false ∧
    (an.ptpPort 0).ann.isSome = true ∧ upTo (64000000 + picots (an.fld F.NET_PTP_INTERVALS_announce_timeout pkg * logPicots (logInt (an.fld F.NET_PTP_INTERVALS_log_announce pkg)))) 0x7000000000000000 = true ∧
    logInt (bitsOf 0x3009 0 4) = -7 ∧ logInt (bitsOf 0x3009 0 4) ≤ 1 ∧ -3 ≤ logInt (bitsOf 0x30D1 4 4) ∧ logInt (bitsOf 0x3042 4 4) ≤ 4 ∧ logInt (bitsOf 2 0 4) = 2 ∧
    sv.anyRunning = false ∧ (sv.fld F.NET_SERVO_step_us pkg * 1000 : Int) < |1001| ∧ |(1000 : Int)| ≤ (sv.fld F.NET_SERVO_step_us pkg * 1000 : Int) := by decide +kernel

/-- Queues with packets to publish, releases, flushes and host releases; channels that stand, are busy, parked, fetching, pacing, moving, holding a length word and reading the tail. -/
theorem witness_queues_and_dma :
    let p : Pkt := ⟨0, 3, 64000000, false⟩
    let z : QueSt := { QueSt.reset with bound := true, cap := 16, base := 0x300000, wp := 4, pkts := [p] }
    let v : QueSt := { z with consKind := 2, pkts := [{ p with vis := true }] }
    let q (x : QueSt) : State := { up with ques := [(0, x)] }
    let r : Eff := eff (.release 0 4 0)
    let s := DmaSt.reset
    let d (x : DmaSt) : State := ({ up with dmas := [(0, x)], pcie := { Pcie.reset with bme := true } }.setFld F.DMA_CTRL_desc_space (dmaIx 0) 1).setReg .DMA_CUR_LO (dmaIx 0) 0x300000
    up.dieActs 0 = true ∧ z.pkts.find? (fun p => !p.vis) = some p ∧ v.pkts.find? (fun p => p.vis) = some { p with vis := true } ∧
    { z with relFx := [r] }.relFx = [r] ∧ r.kind = .release 0 4 0 ∧ z.gen = 0 ∧ { z with gen := 1 }.gen ≠ 0 ∧
    ((q { v with consKind := 1 }).setFld F.QUE_FLUSH_flush_us (queIx 0) 1).fld F.QUE_FLUSH_flush_us (queIx 0) ≠ 0 ∧
    z.bound = true ∧ z.dma = none ∧ z.rel ≤ z.wp ∧ 3 + 1 ≤ z.cap ∧
    opens ((q v).at 64000064) .pcie (.QUE_HOST_REL, queIx 0) = true ∧
    v.consKind = 2 ∧ bitsOf 4 0 17 ≠ 0 ∧ { p with vis := true } ∈ v.pkts ∧ ({ p with vis := true } : Pkt).fin = v.rel + bitsOf 4 0 17 ∧
    opens (d s) .pcie (.DMA_CMD, dmaIx 0) = true ∧ opens (d s) .pcie (.DMA_APPEND, dmaIx 63) = true ∧
    ((d s).dma 0).phase = .idle ∧ (d s).dmaActs 0 = true ∧
    (d { s with phase := .fetch }).dmaAccess 0 ((d { s with phase := .fetch }).descSpace 0) ((d { s with phase := .fetch }).dmaCur 0) 64 false = .ok ∧
    (d s).dmaCur 0 % 64 = 0 ∧ ((d s).setReg .DMA_CUR_LO (dmaIx 0) 0x300020).dmaCur 0 % 64 ≠ 0 ∧ ((d s).dma 0).beatTries = 0 ∧ (d s).dmaEcc ((d s).descSpace 0) ((d s).dmaCur 0) 64 = false := by decide +kernel

/-- More of `witness_queues_and_dma`. -/
theorem witness_queues_and_dma_2 :
    let p : Pkt := ⟨0, 3, 64000000, false⟩
    let z : QueSt := { QueSt.reset with bound := true, cap := 16, base := 0x300000, wp := 4, pkts := [p] }
    let v : QueSt := { z with consKind := 2, pkts := [{ p with vis := true }] }
    let q (x : QueSt) : State := { up with ques := [(0, x)] }
    let s := DmaSt.reset
    let d (x : DmaSt) : State := ({ up with dmas := [(0, x)], pcie := { Pcie.reset with bme := true } }.setFld F.DMA_CTRL_desc_space (dmaIx 0) 1).setReg .DMA_CUR_LO (dmaIx 0) 0x300000
    let desc : List Word := [0x85000000, 64, 0x300400, 0, 0x300800, 0, 0, 0, 0, 0, 0, 0, 0, 0, 0, 0]
    let mv : DmaSt := { s with phase := .moving, desc := desc, segs := [⟨0x300400, 0x300800, 64⟩] }
    ((d s).setReg .DMA_CUR_HI (dmaIx 0) 1).dmaAccess 0 1 0x100300000 64 false = .access ∧
    s.beatTries < (d s).fld F.DMA_CTRL_retry_max (dmaIx 0) ∧ (d s).fld F.DMA_CTRL_retry_max (dmaIx 0) ≤ { s with beatTries := 3 }.beatTries ∧
    (d { mv with phase := .pacing, segs := [] }).dmaPaced 0 = true ∧ ((d { mv with phase := .pacing, segs := [] }).at 64000064).dmaPlan 0 = .run [⟨0x300400, 0x300800, 64⟩] ∧
    (d mv).dmaGranted 0 = true ∧ mv.beat = some (0x300400, 0x300800, 32) ∧ (d mv).beatAccess 0 0x300400 0x300800 32 = .ok ∧
    (d mv).beatAccess 0 0x300400 0x40000000 32 = .access ∧
    mv.segDone + 32 < 64 ∧ mv.back = false ∧ mv.beatTries = 0 ∧
    (d { s with phase := .lengthHold, queue := some 0 }).putNotBefore 0 = none ∧ ((q v).que 0).consKind = 2 ∧
    ((d { mv with phase := .tailRead }).writeback 0 0 0x85000000).isSome = true ∧ bitOf (mv.w 0) 29 = false ∧
    ((d { s with phase := .parked }).setReg .DMA_APPEND_COUNT (dmaIx 0) 1).reg .DMA_APPEND_COUNT (dmaIx 0) ≠ (d s).reg .DMA_SEEN (dmaIx 0) ∧
    bitOf 0x40000000 30 = true ∧ bitOf 0x80000000 30 = false := by decide +kernel

/-- More of `witness_queues_and_dma`. -/
theorem witness_queues_and_dma_3 :
    let p : Pkt := ⟨0, 3, 64000000, false⟩
    let z : QueSt := { QueSt.reset with bound := true, cap := 16, base := 0x300000, wp := 4, pkts := [p] }
    let v : QueSt := { z with consKind := 2, pkts := [{ p with vis := true }] }
    let q (x : QueSt) : State := { up with ques := [(0, x)] }
    let r : Eff := eff (.release 0 4 0)
    let s := DmaSt.reset
    let d (x : DmaSt) : State := ({ up with dmas := [(0, x)], pcie := { Pcie.reset with bme := true } }.setFld F.DMA_CTRL_desc_space (dmaIx 0) 1).setReg .DMA_CUR_LO (dmaIx 0) 0x300000
    let desc : List Word := [0x85000000, 64, 0x300400, 0, 0x300800, 0, 0, 0, 0, 0, 0, 0, 0, 0, 0, 0]
    let mv : DmaSt := { s with phase := .moving, desc := desc, segs := [⟨0x300400, 0x300800, 64⟩] }
    let zr (t : Time) : QueSt := { z with relFx := [{ r with stamp := t }] }
    let okc : QueSt := { z with wpN := ~~~BitVec.ofNat 32 4, relN := ~~~0, slotN := ~~~BitVec.ofNat 32 z.slot }
    let qr : State := (d { mv with desc := 0x89000000 :: desc.tail, queue := some 0, segs := [], phase := .lengthHold }).setQue 0 { z with dma := some 0 }
    let ab : State := d { s with phase := .moving, desc := desc }
    let ecc : State := { d { s with phase := .fetch } with ecc := [0x300000] }
    let gr (x : DmaSt) : State := (d x).setFld F.DMA_CTRL_retry_max (dmaIx 0) 2
    (d s).dmaAccess 2 1 0x3FFFC0 64 true = .ok ∧
    upTo 63999999 p.stamp = true ∧ (zr 63999999).relFx ≠ [] ∧ upTo 64000001 p.stamp = false ∧ upTo 64000000 p.stamp = true ∧
    (zr 1).bound = true ∧ okc.copiesAgree = true ∧ (q okc).dieActs 0 = true ∧
    (qr.que 0).dma = some 0 ∧ ((qr.queReset 0 64000000).dma 0).named = some 0 ∧ ((qr.queReset 0 64000000).dma 0).phase = .lengthHold ∧ ((q z).que 0).dma = none ∧
    [1, 2, 3].length + 1 ≤ z.cap ∧ p ∈ z.pkts ∧ z.rel ≤ z.wp ∧ z.rel ≤ 4 ∧ 4 ≤ z.wp ∧
    z.bound = true ∧ (∀ p ∈ v.pkts, p.vis = true → p.fin ≠ v.rel + 3) ∧ bitsOf 0x20000 0 17 = 0 ∧
    ((d { s with phase := .parked }).dma 0).phase = .parked ∧ ab.dmaActs 0 = true ∧ (((ab.setFld F.DMA_STATUS_last_error (dmaIx 0) 5).dmaHold 0).writeback 0 5 (((ab.setFld F.DMA_STATUS_last_error (dmaIx 0) 5).dmaHold 0).dma 0 |>.w 0)).isSome = true ∧
    ((({ ab with pcie := Pcie.reset }.setFld F.DMA_CTRL_desc_space (dmaIx 0) 0).setFld F.DMA_STATUS_last_error (dmaIx 0) 5).dmaHold 0).writeback 0 5 0 = none ∧
    ecc.dmaEcc (ecc.descSpace 0) (ecc.dmaCur 0) 64 = true ∧ ecc.dmaAccess 0 (ecc.descSpace 0) (ecc.dmaCur 0) 64 false = .ok ∧
    (gr s).fld F.DMA_CTRL_retry_max (dmaIx 0) = 2 ∧ s.beatTries < 2 ∧ (2 : Nat) ≤ ({ s with beatTries := 2 } : DmaSt).beatTries ∧ ({ s with beatTries := 1 } : DmaSt).beatTries ≠ 0 := by decide +kernel

/-- More of `witness_queues_and_dma`. -/
theorem witness_queues_and_dma_4 :
    let p : Pkt := ⟨0, 3, 64000000, false⟩
    let z : QueSt := { QueSt.reset with bound := true, cap := 16, base := 0x300000, wp := 4, pkts := [p] }
    let q (x : QueSt) : State := { up with ques := [(0, x)] }
    let s := DmaSt.reset
    let d (x : DmaSt) : State := ({ up with dmas := [(0, x)], pcie := { Pcie.reset with bme := true } }.setFld F.DMA_CTRL_desc_space (dmaIx 0) 1).setReg .DMA_CUR_LO (dmaIx 0) 0x300000
    let desc : List Word := [0x85000000, 64, 0x300400, 0, 0x300800, 0, 0, 0, 0, 0, 0, 0, 0, 0, 0, 0]
    let mv : DmaSt := { s with phase := .moving, desc := desc, segs := [⟨0x300400, 0x300800, 64⟩] }
    let qr : State := (d { mv with desc := 0x89000000 :: desc.tail, queue := some 0, segs := [], phase := .lengthHold }).setQue 0 { z with dma := some 0 }
    let ab : State := d { s with phase := .moving, desc := desc }
    let wt : State := ({ ab with pcie := Pcie.reset }.setFld F.DMA_CTRL_desc_space (dmaIx 0) 0).setFld F.DMA_STATUS_last_error (dmaIx 0) 5
    let fa : State := (ab.setReg .DMA_CUR_HI (dmaIx 0) 1).setFld F.DMA_STATUS_last_error (dmaIx 0) 5
    ((d mv).dmaTake 0).dmaEcc (((d mv).dmaTake 0).dma 0).srcSpace 0x300400 32 = false ∧ (((d mv).dmaTake 0).dma 0).segs = [⟨0x300400, 0x300800, 64⟩] ∧
    ({ mv with segDone := 32 } : DmaSt).beat = some (0x300420, 0x300820, 32) ∧ ¬(32 + 32 < 64) ∧
    (d { mv with phase := .tailRead }).dmaAccess 0 1 0x300000 64 false = .ok ∧ ((d { mv with phase := .tailRead }).at 64000064).dmaAccess 0 1 0x300000 32 false = .ok ∧ (d { mv with phase := .tailRead }).dmaEcc 1 0x300000 32 = false ∧
    ({ q { z with consKind := 0, consTask := 1, lastPut := some 64000000 } with tasks := [(1, { tk step0 with sources := [⟨3, 0, 0, 100, 1000, 1⟩] })] }.putNotBefore 0).isSome = true ∧
    (d s).dmaAccess 2 0 0 0 false = .ok ∧ 2 % 8 = 2 ∧ (d s).present 0 = true ∧
    wt.dmaAccess 0 (wt.descSpace 0) (wt.dmaCur 0) 64 true = .waits ∧ (ab.dma 0).wb = none ∧ ({ s with phase := .parked, wb := some 3 } : DmaSt).wb ≠ none ∧
    ab.dmaAccess 0 (ab.descSpace 0) (ab.dmaCur 0) 64 true ≠ .waits ∧ fa.dmaAccess 0 (fa.descSpace 0) (fa.dmaCur 0) 64 true ≠ .waits ∧
    (fa.dmaHold 0).writeback 0 5 (((fa.dmaHold 0).dma 0).w 0) = none ∧ (3 : Nat) ≠ 5 ∧
    ((qr.queReset 0 64000000).dma 0).wb = none ∧ (((d { mv with wb := some 7 }).queReset 0 64000000).dma 0).wb ≠ none ∧ (d s).dmaActs 0 = true := by decide +kernel

/-- Doorbells inside and outside the ring, an entry in turn, one repeated and one out of sequence, a completion, CQ_CFG and CQ_BASE writes. -/
theorem witness_command_queues :
    let q0 : State := (placer.setFld F.CQ_CFG_log_size (pkg1 0) 4).setBit F.CQ_CFG_en (pkg1 0) true
    let q : State := (q0.setFld F.CQ_STATUS_tail (pkg1 0) 1).setBit F.CQ_CFG_space (pkg1 0) true
    let c : CqCmd := { cmd 0 [] with status := some 0 }
    opens q .pcie (.CQ_DOORBELL, pkg1 15) = true ∧ bitsOf 15 0 12 < q.cqSize 0 ∧ q.cqSize 0 ≤ bitsOf 16 0 12 ∧
    q.dieActs 0 = true ∧ q.cqTurn = some 0 ∧ q.cqTime = none ∧ q.logging = false ∧
    (q.cqEntry 0).getD 0 0 = q.reg .CQ_NEXT_SEQ (pkg1 0) ∧
    (q.cqEntry 0).getD 0 0 + 1 = (q.setReg .CQ_NEXT_SEQ (pkg1 0) 1).reg .CQ_NEXT_SEQ (pkg1 0) ∧
    (q.cqEntry 0).getD 0 0 = (q.setReg .CQ_NEXT_SEQ (pkg1 0) 0xFFFFFFFF).reg .CQ_NEXT_SEQ (pkg1 0) + 1 ∧
    q.cqHolds 0 = true ∧
    (ordered [] c).cq 0 = some c ∧ c.status = some 0 ∧ isPlacerOp c.op = false ∧
    opens placer .pcie (.CQ_CFG, pkg1 0) = true ∧ bitsOf 0x10 2 4 = 4 ∧ bitsOf 0x30 2 4 = 12 ∧ bitsOf 0x0C 2 4 < 4 ∧ 12 < bitsOf 0x34 2 4 := by decide +kernel

/-- More of `witness_command_queues`. -/
theorem witness_command_queues_2 :
    let q0 : State := (placer.setFld F.CQ_CFG_log_size (pkg1 0) 4).setBit F.CQ_CFG_en (pkg1 0) true
    let q : State := (q0.setFld F.CQ_STATUS_tail (pkg1 0) 1).setBit F.CQ_CFG_space (pkg1 0) true
    let q1 : State := { q with cqTime := some 64000000 }
    bitOf (placer.reg .CQ_CFG (pkg1 0)) 0 = false ∧
    opens placer .pcie (.CQ_BASE_HI, pkg1 0) = true ∧ (placer.port .pcie).staged = none ∧ placer.bit F.CQ_CFG_en (pkg1 0) = false ∧
    q.bit F.CQ_CFG_en (pkg1 0) = true ∧ bitsOf (placer.reg .CQ_BASE_LO (pkg1 0)) 0 6 = 0 ∧
    upTo (64000000 + nsT 4) 64000255 = false ∧ upTo (64000000 + nsT 4) 64000256 = true ∧ q1.cqTurn = some 0 ∧
    (q.setReg .CQ_NEXT_SEQ (pkg1 0) 4096).cqDist 0 0 = -4096 ∧ (q.setReg .CQ_NEXT_SEQ (pkg1 0) 4097).cqDist 0 0 = -4097 ∧ q.cqDist 0 1 = 1 ∧ q.cqDist 0 0 = 0 ∧
    ((q.modPort .pcie (fun _ => { PortSt.reset with staged := some (regAddr (.CQ_BASE_LO, pkg1 0), 1) })).port .pcie).staged = some (regAddr (.CQ_BASE_LO, pkg1 0), 1) ∧ bitsOf 1 0 6 ≠ 0 ∧
    isPlacerOp (cmd 0x10 []).op = true ∧ (cmd 0x10 []).accepted = true ∧ (0x10 : Nat) < 0x80 ∧
    bitOf (q.reg .CQ_CFG (pkg1 0)) 0 = true ∧ ((0x14 : Word) ||| 1) &&& 0x3E ≠ q.reg .CQ_CFG (pkg1 0) &&& 0x3E := by decide +kernel

/-- Records of a disabled queue, of one with room, of one that holds and of one that loses; a horizon report; EQ_CFG and EQ_HEAD writes. -/
theorem witness_event_queues :
    let q : State := ((placer.setFld F.EQ_CFG_log_size (pkg1 0) 4).setBit F.EQ_CFG_en (pkg1 0) true).setBit F.EQ_CFG_space (pkg1 0) true
    let full : State := q.setFld F.EQ_STATUS_write_index (pkg1 0) 15
    let r : Rec := ⟨64000000, 0, 0, 0, 0, 0, [], 0, 0⟩
    let lo : State := q.setEq 0 ⟨[(r, 0)], some (1, 2, 5)⟩
    let held : State := (placer.setEq 0 ⟨[(r, 0)], none⟩)
    placer.bit F.EQ_CFG_en (pkg1 0) = false ∧ q.bit F.EQ_CFG_en (pkg1 0) = true ∧ q.bit F.EQ_CFG_space (pkg1 0) = true ∧
    q.eq 0 = ⟨[], none⟩ ∧ q.eqCanWrite 0 = true ∧ full.eqCanWrite 0 = false ∧ (full.eq 0).hold.length < 512 ∧
    512 ≤ ((full.setEq 0 ⟨List.replicate 512 (r, 0), none⟩).eq 0).hold.length ∧
    placer.fencesOverdue 64000064 = placer ∧ (placer.die 0).live = true ∧ placer.dieActs 0 = true ∧ (placer.die 0).report = none ∧
    opens placer .pcie (.EQ_CFG, pkg1 15) = true ∧ bitsOf 0x10 2 5 = 4 ∧ bitsOf 0x40 2 5 = 16 ∧ bitsOf 0x1140 8 5 = 17 ∧
    opens q .pcie (.EQ_HEAD, pkg1 0) = true ∧ bitsOf 15 0 16 < q.eqSize 0 ∧ q.eqSize 0 ≤ bitsOf 16 0 16 ∧
    (lo.eq 0).losing = some (1, 2, 5) ∧ ((q.setEq 0 ⟨[(r, 0)], none⟩).eq 0).hold ≠ [] ∧ ((q.setEq 0 ⟨List.replicate 511 (r, 0), none⟩).eq 0).hold.length < 512 ∧
    bitsOf 0x44 2 5 = 17 ∧ bitsOf 0x0C 2 5 < 4 ∧ 17 < bitsOf 0x1240 8 5 ∧ bitOf (placer.reg .EQ_CFG (pkg1 0)) 0 = false ∧
    (∀ x ∈ [r, { r with stamp := 64000001 }], (x.stamp - 64000000).toNat < 2 ^ 62) ∧ [r, { r with stamp := 64000001 }].Pairwise (fun a b => recFirst b a = false) ∧
    (held.eq 0).hold.length = 1 ∧ bitOf (held.reg .EQ_CFG (pkg1 0)) 0 = false ∧ held.eqCanWrite 0 = false := by decide +kernel

/-- An armed target with a winner, claims with and without one, completions that end and that fail, doorbells of each kind, a hold-off, a mailbox. -/
theorem witness_router :
    let a : State := (((up.setBit F.RTR_STATUS_armed (pkg1 0) true).setFld F.RTR_CTRL_priv_prio (pkg1 0) 1).setReg .RTR_PRIV_EN_LO (pkg1 0) 2).setReg .RTR_PRIV_PEND_LO (pkg1 0) 2
    let act : State := up.setReg .RTR_PRIV_ACT_HI (pkg1 0) 0x80000000
    let sh : State := { up.setBit F.RTR_SRC_active (pkg1 0) true with claims := [(64, 0)] }
    a.bit F.RTR_STATUS_armed (pkg1 0) = true ∧ a.bit F.RTR_CTRL_gdis (pkg1 0) = false ∧
    (a.winner 0).isSome = true ∧ up.winner 0 = none ∧
    regAt (regAddr (.RTR_CLAIM, pkg1 17)) = some (.RTR_CLAIM, pkg1 17) ∧ up.reaches .mgmt0 (regAddr (.RTR_CLAIM, pkg1 17)) = true ∧ regAddr (.RTR_CLAIM, pkg1 17) % 4 = 0 ∧ regAddr (.RTR_CLAIM, pkg1 17) < 0x01800000 ∧
    opens up .pcie (.RTR_COMPLETE, pkg1 0) = true ∧ bitsOf 63 0 12 < 64 ∧ act.privBit .RTR_PRIV_ACT_LO .RTR_PRIV_ACT_HI 0 63 = true ∧
    sh.bit F.RTR_SRC_active (pkg1 (64 - 64)) = true ∧ nmGet? sh.claims 64 = some 0 ∧ nmGet? sh.claims 65 ≠ some 0 ∧
    opens up .pcie (.RTR_COMPLETE, pkg1 16) = true ∧ trustedPort .pcie = false ∧ trustedPort .mgmt0 = true ∧
    opens up .pcie (.RTR_DOORBELL, pkg) = true ∧
    64 ≤ bitsOf 0xFFF 0 12 ∧ bitsOf 0xFFF 12 4 = 0 ∧ bitsOf 0xFFF 21 11 = 0 ∧ bitsOf 0xFFF 16 5 = 0 := by decide +kernel

/-- More of `witness_router`. -/
theorem witness_router_2 :
    let a : State := (((up.setBit F.RTR_STATUS_armed (pkg1 0) true).setFld F.RTR_CTRL_priv_prio (pkg1 0) 1).setReg .RTR_PRIV_EN_LO (pkg1 0) 2).setReg .RTR_PRIV_PEND_LO (pkg1 0) 2
    ((List.range 4096).find? (fun n => decide (64 ≤ n) && !ownSource n)).isSome = true ∧ ((List.range 4096).find? (fun n => ownSource n)).isSome = true ∧
    bitsOf 0x000F0021 0 12 = 33 ∧ bitsOf 0x000F0021 16 5 = 15 ∧ bitsOf 0x000F0021 21 11 = 0 ∧
    nmGet? { up with groups := [(63, 64000000)] }.groups 63 = some 64000000 ∧
    up.bit F.MBOX_FULL_full (pkg1 17) = false ∧
    (a.setBit F.RTR_CTRL_gdis (pkg1 0) true).bit F.RTR_CTRL_gdis (pkg1 0) = true ∧ (17 : Nat) < 18 ∧ a.privCands 0 ++ a.sharedCands 0 ≠ [] ∧ up.privCands 0 ++ up.sharedCands 0 = [] ∧
    bitsOf 0 0 12 = 0 ∧ up.privBit .RTR_PRIV_ACT_LO .RTR_PRIV_ACT_HI 0 63 = false ∧ up.bit F.RTR_SRC_active (pkg1 0) = false ∧
    opens { up with boot := { up.boot with pair0 := true } } .mgmt0 (.RTR_COMPLETE, pkg1 17) = true ∧ opens up .pcie (.RTR_COMPLETE, pkg1 17) = true ∧
    (up.setBit F.MBOX_FULL_full (pkg1 17) true).bit F.MBOX_FULL_full (pkg1 17) = true := by decide +kernel

/-- Accesses of every form: a register, its halves, an absent die, die memory of every width, free and of a task. -/
theorem witness_registers :
    let run : State := { up with tasks := [(1, tk step0)] }
    let d4 : State := { up with variant := .d4 }
    let st : State := up.modPort .pcie (fun x => { x with staged := some (regAddr (.GT_SET_LO, pkg), 5) })
    let k : RKey := (.GT_SET_HI, pkg)
    let r : RKey := (.RTR_CTRL, pkg1 0)
    regAt (regAddr r) = some r ∧ regAddr r % 4 = 0 ∧ regAddr r < 0x01800000 ∧ up.reaches .qspi (regAddr r) = true ∧ up.reaches .pcie (regAddr r) = true ∧
    r.1.info.half = 0 ∧ (up.view r.1 r.2).2 = up ∧ r.1.info.rc = 0 ∧ r.1 ≠ .RTR_CLAIM ∧
    (Machine.Reg.GT_NOW_LO).info.half = 1 ∧ (Machine.Reg.GT_NOW_HI).info.half = 2 ∧ regAt (regAddr (.GT_NOW_LO, pkg)) = some (.GT_NOW_LO, pkg) ∧
    d4.present 7 = false ∧ d4.reaches .pcie (0x08000000 + 0x01000000 * 7 + 0xFFFFFC) = true ∧ 0xFFFFFC % 4 = 0 ∧
    up.reaches .pcie (0x08000000 + 0x3FFFF8) = true ∧ up.windowUp 0 = true ∧ up.rangeHeld 0 0x3FFFF8 8 = false ∧
    run.rangeHeld 0 0x1000 1 = true ∧ run.rangeHeld 0 0xFFF8 8 = true ∧
    opens up .pcie k = true ∧ up.lockBit k = none ∧ k.1.info.half = 2 ∧ k.1.info.rw ≠ 0 ∧
    (st.port .pcie).staged = some (regAddr (k.1.lo, k.2), 5) ∧ (up.port .pcie).staged = none := by decide +kernel

/-- More of `witness_registers`. -/
theorem witness_registers_2 :
    let run : State := { up with tasks := [(1, tk step0)] }
    let r : RKey := (.RTR_CTRL, pkg1 0)
    let mg : State := { up with boot := { up.boot with pair0 := true } }
    let lo : RKey := (.GT_SET_LO, pkg)
    opens up .pcie (.GT_SET_LO, pkg) = true ∧ (Machine.Reg.GT_SET_LO).info.half = 1 ∧ (Machine.Reg.GT_SET_LO).info.rw ≠ 0 ∧
    opens up .pcie (.GT_NOW_LO, pkg) = true ∧ (Machine.Reg.GT_NOW_LO).info.rw = 0 ∧
    run.lockBit (.CAR_HALF_PERIOD, carIx 0) = some (F.CAR_STATUS_write_reject, carIx 0) ∧ opens run .pcie (.CAR_HALF_PERIOD, carIx 0) = true ∧ up.lockBit (.CAR_HALF_PERIOD, carIx 0) = none ∧
    (Machine.Reg.GT_SLEW, dieIx 0) ≠ (Machine.Reg.GT_SLEW, dieIx 1) ∧
    ((Machine.Reg.PIN_CTRL).info.rw ||| (Machine.Reg.PIN_CTRL).info.w1c ||| (Machine.Reg.PIN_CTRL).info.w1s).testBit 31 = false ∧ (Machine.Reg.PIN_CTRL).info.rw.testBit 0 = true ∧ (Machine.Reg.PIN_CTRL).info.w1c.testBit 0 = false ∧
    up.mayWrite .mgmt0 = false ∧ mg.mayWrite .mgmt0 = true ∧ mg.mayWrite .mgmt1 = false ∧ mg.reaches .mgmt0 (regAddr r) = true ∧
    regAt (regAddr lo) = some lo ∧ regAddr lo % 8 = 0 ∧ regAt (regAddr lo + 4) = some (lo.1.hi, lo.2) ∧ lo.1.hi.info.half = 2 ∧ regAddr lo + 4 < 0x01800000 ∧
    regAt (regAddr (.PIN_NEXT_INFO, pinIx 0)) = some (.PIN_NEXT_INFO, pinIx 0) ∧ regAt (regAddr (.HOOP_TOOTH_INFO, hoopIx 0)) = some (.HOOP_TOOTH_INFO, hoopIx 0) ∧ regAt (regAddr (.PIN_NEXT_LO, pinIx 0)) = some (.PIN_NEXT_LO, pinIx 0) := by decide +kernel

/-- More of `witness_registers`. -/
theorem witness_registers_3 :
    let st : State := up.modPort .pcie (fun x => { x with staged := some (regAddr (.GT_SET_LO, pkg), 5) })
    let k : RKey := (.GT_SET_HI, pkg)
    let fen : State := { up with dies := [(0, die0), (1, { die0 with live := false, fenced := true, snapshot := [(0x900000, 7)] })] }
    let lo : RKey := (.GT_SET_LO, pkg)
    let um : State := { up with pcie := { Pcie.reset with pba := 4, bme := true } }
    fen.windowUp 1 = false ∧ fen.present 1 = true ∧ (fen.die 1).fenced = true ∧ nmGet (fen.die 1).snapshot 0x900000 0 = 7 ∧ fen.reaches .pcie (0x09000000 + 0x900000) = true ∧
    0x3FFFFF % 1 = 0 ∧ 0x3FFFFE % 2 = 0 ∧ 0x3FFFF8 % 8 = 0 ∧ up.rangeHeld 0 0x3FFFFF 1 = false ∧
    (1 : Nat) % 4 ≠ 0 ∧ (4 : Nat) % 8 ≠ 0 ∧ (4 : Nat) < 0x08000000 ∧
    ({ st with regs := st.regs }.port .pcie).staged = some (regAddr lo, 5) ∧ regAddr lo ≠ regAddr k ∧
    um.boot.inReset = false ∧ um.boot.perst = false ∧ um.pcie.pba.getLsbD 2 = true ∧ um.pcie.pba.getLsbD 3 = false ∧ um.pcieUp = true ∧
    (0xFFFC : Nat) < 0x10000 ∧ (0xFFFC : Nat) % 4 = 0 ∧ bitOf (loHalf 1) 0 = true ∧ bitOf (loHalf 2) 0 = false ∧ (63 : Nat) < 64 := by decide +kernel

/-- Selections of a task that is there and of none, a locked part, halts, single-steps and resumes of a context with its own halt and in a halt of the package, unlocks. -/
theorem witness_debug :
    let run : State := ({ up with tasks := [(1, tk step0)] }).setReg .CTX_SEL (dieIx 0) 1
    let un : State := run.setBit F.DBG_LOCK_unlocked pkg true
    let h : Task := { tk step0 with halt := some 64000000 }
    let hc : Task := { tk { step0 with cutOff := true } with halt := some 64000000 }
    let ph : State := { un with dbg := { un.dbg with halt := some 64000000 } }
    opens run .debug (.CTX_SEL, dieIx 0) = true ∧ run.taskOn (bitsOf 1 0 12) 0 = some (tk step0) ∧ run.taskOn (bitsOf 2 0 12) 0 = none ∧
    opens run .debug (.PLC_RPT_SEL, pkg) = true ∧ opens run .debug (.DBG_CTRL, dieIx 0) = true ∧ run.ctxSel 0 = 1 ∧ run.unlocked = false ∧
    un.unlocked = true ∧ un.haltedTask (tk step0) = false ∧ un.taskOn (un.ctxSel 0) 0 = some (tk step0) ∧
    un.haltedTask h = true ∧ h.halt = some 64000000 ∧ un.dbg.halt = none ∧ { h with step := none }.step = none ∧ ({ un with tasks := [(1, h)] }).taskOn 1 0 = some h ∧
    h.step = some step0 ∧ step0.cutOff = false ∧ hc.step = some { step0 with cutOff := true } ∧ ({ step0 with cutOff := true } : Step).cutOff = true ∧
    ph.haltedTask (tk step0) = true ∧ (tk step0).halt = none ∧ ph.dbg.halt.isSome = true ∧ ph.taskOn 1 0 = some (tk step0) ∧
    (un.setReg .CTX_SEL (dieIx 0) 2).taskOn ((un.setReg .CTX_SEL (dieIx 0) 2).ctxSel 0) 0 = none ∧ opens up .debug (.DBG_CTRL, dieIx 0) = true := by decide +kernel

/-- More of `witness_debug`. -/
theorem witness_debug_2 :
    let run : State := ({ up with tasks := [(1, tk step0)] }).setReg .CTX_SEL (dieIx 0) 1
    let un : State := run.setBit F.DBG_LOCK_unlocked pkg true
    let h : Task := { tk step0 with halt := some 64000000 }
    let hc : Task := { tk { step0 with cutOff := true } with halt := some 64000000 }
    let ph : State := { un with dbg := { un.dbg with halt := some 64000000 } }
    let ch : State := { up with dbg := { up.dbg with checking := true } }
    let x : CarSt := { CarSt.reset with mode := .running }
    opens up .debug (.DBG_LOCK, pkg) = true ∧ up.anyHalted = false ∧ { up with tasks := [(1, h)] }.anyHalted = true ∧ ph.anyHalted = true ∧
    { up with fuses := { up.fuses with debugDisabled := true } }.unlockRefused = true ∧
    { up with fuses := { up.fuses with debugKeyFused := true, debugKey := 1 } }.unlockRefused = false ∧
    ch.dbg.checking = true ∧ up.dbg.checking = false ∧ ch.responseOk = false ∧ ch.fuses.debugDisabled = false ∧ ch.fld F.DBG_LOCK_failures pkg < 7 ∧ 7 ≤ (ch.setFld F.DBG_LOCK_failures pkg 7).fld F.DBG_LOCK_failures pkg ∧
    opens (un.at 64000064) .debug (.DBG_PKG_CTRL, pkg) = true ∧ opens (ph.at 64000064) .debug (.DBG_PKG_CTRL, pkg) = true ∧ ph.dbg.halt = some 64000000 ∧
    x.mode ≠ .stopped ∧ hc.step.map (fun s => s.cutOff) = some true ∧ { hc with halt := none }.halt = none := by decide +kernel

/-- GT_SLEW at its bounds and past them, GT_SET and PLANT_OFFSET before and after the first step, LOG_CTRL, a log gap, a tick. -/
theorem witness_time :
    let run : State := { up with tasks := [(1, tk step0)] }
    let done : State := up.setBit F.TIME_STATUS_first_step_done pkg true
    let servo : State := up.setBit F.TIME_CTRL_servo_en pkg true
    opens (up.at 64000064) .pcie (.GT_SLEW, pkg) = true ∧ servo.bit F.TIME_CTRL_servo_en pkg = true ∧ up.bit F.TIME_CTRL_servo_en pkg = false ∧
    slewInt 500000 = 500000 ∧ slewInt (-500000) = -500000 ∧ slewInt 500001 = 500001 ∧
    opens up .pcie (.GT_SET_HI, pkg) = true ∧ up.bit F.TIME_STATUS_first_step_done pkg = false ∧ done.bit F.TIME_STATUS_first_step_done pkg = true ∧
    opens up .pcie (.PLANT_OFFSET_HI, pkg) = true ∧ run.anyRunning = true ∧ up.anyRunning = false ∧ (up.port .pcie).staged = none ∧
    opens (up.at 64000064) .pcie (.TIME_CTRL, pkg) = true ∧ opens up .pcie (.LOG_CTRL, pkg) = true ∧
    bitOf 1 0 ≠ up.logging ∧ bitOf 0 0 = up.logging := by decide +kernel

/-- More of `witness_time`. -/
theorem witness_time_2 :
    ({ up with dies := [(0, { die0 with logLost := some (1, 64000000, 2) })] }.die 0).logLost = some (1, 64000000, 2) ∧
    up.pending = [] ∧ up.dieRuns 0 = true ∧ State.reset.dieRuns 0 = false ∧ 0 ≤ up.slewFrac ∧ up.slewFrac < 1000000000 ∧
    { up with slewPend := some (1, 2) }.slewPend = some (1, 2) ∧
    up.slewPend = none ∧ (up.die 0).logLost = none ∧ upTo (64000000 + ms1) (64000000 + ms1) = true ∧ upTo (64000000 + ms1) (63999999 + ms1) = false ∧
    (up.lowHalf .pcie (.GT_SET_LO, pkg)).1 = up.reg .GT_SET_LO pkg ∧
    (up.die 0).core = true ∧ up.boot.inReset = false ∧ (State.reset.die 0).core = false ∧ State.reset.boot.inReset = true := by decide +kernel

/-- A shuttle in service, with and without a spare; a replay; a rotation in BIST; the causes of a fence on die 1 and on die 0; a fence with a clock lost and with one that came back. -/
theorem witness_shuttle_and_die_faults :
    let sp : State := up.setFld F.SHT_ROLE_spare_slot (dieIx 0) 4
    let no : State := up.setFld F.SHT_ROLE_spare_slot (dieIx 0) 7
    let two : State := { up with dies := [(0, die0), (1, { die0 with links := [true, false, false, false] })] }
    let due : State := { two with dies := [(0, die0), (2, { die0 with fenceDue := some 1 }), (3, { die0 with fenceDue := some 3 })] }
    let lost : State := { two with dies := [(0, die0), (1, { die0 with clockLost := some 64000000, fenceOpen := some (1, 64000640) })] }
    sp.slotUp 0 4 = true ∧ sp.slotUp 0 1 = true ∧ (sp.die 0).replay = none ∧ sp.spareOf 0 = 4 ∧ no.spareOf 0 = 7 ∧
    ({ sp with dies := [(0, { die0 with replay := some (1, 4) })] }.die 0).replay = some (1, 4) ∧
    sp.issues 0 (tk step0).slot = false ∧ { sp with tasks := [(1, tk step0)] }.issues 0 (tk step0).slot = true ∧ { sp with tasks := [(1, tk step0)] }.slotUp 0 (tk step0).slot = true ∧
    (sp.setFld F.SHT_ROLE_rot_phase (dieIx 0) 1).rotPhase 0 = 1 ∧ (sp.setFld F.SHT_ROLE_rot_phase (dieIx 0) 1).slotUp 0 4 = true ∧
    (two.die 1).live = true ∧ (two.die 1).fenceDue = none ∧ (two.die 1).fenced = false ∧ (two.die 0).live = true ∧ two.pkgFault = false ∧
    (two.die 1).links.getD 0 false = true ∧ (two.die 1).links.getD 1 false = false ∧
    (due.die 2).fenceDue = some 1 ∧ (due.die 2).clockBack = false ∧ (due.die 3).fenceDue = some 3 ∧
    (lost.die 1).clockLost = some 64000000 ∧ (lost.die 1).fenceOpen = some (1, 64000640) ∧ upTo 64640000 (64000000 + us10) = true ∧ upTo 64640001 (64000000 + us10) = false ∧
    ({ lost with dies := [(1, { die0 with clockLost := some 5 })] }.die 1).fenceOpen = none := by decide +kernel

/-- More of `witness_shuttle_and_die_faults`. -/
theorem witness_shuttle_and_die_faults_2 :
    let sp : State := up.setFld F.SHT_ROLE_spare_slot (dieIx 0) 4
    let no : State := up.setFld F.SHT_ROLE_spare_slot (dieIx 0) 7
    let two : State := { up with dies := [(0, die0), (1, { die0 with links := [true, false, false, false] })] }
    let due : State := { two with dies := [(0, die0), (2, { die0 with fenceDue := some 1 }), (3, { die0 with fenceDue := some 3 })] }
    let ro (a b : Nat) : State := (no.setFld F.SHT_ROLE_vacating_slot (dieIx 0) a).setDie 0 { die0 with rotFrom := b }
    let ck : State := two.setReg .CLK_STATUS pkg 3
    let pr : State := { up with boot := { up.boot with pair0 := true, pair1Ok := true } }
    let ln : State := { up with dies := [(0, { die0 with links := [true, true, true, true] }), (1, { die0 with links := [true, true, true, true] })] }
    (no.die 0).rotFrom = 7 ∧ no.vacating 0 = 7 ∧ (1 : Nat) ≠ 7 ∧
    (ro 1 2).spareOf 0 = 7 ∧ (ro 1 2).vacating 0 = 1 ∧ ((ro 1 2).die 0).rotFrom = 2 ∧
    no.slotUp 0 5 = false ∧ (sp.setFld F.SHT_ROLE_rot_phase (dieIx 0) 1).dieActs 0 = true ∧
    bitOf (ck.reg .CLK_STATUS pkg) 1 = true ∧ ck.present 1 = true ∧ ck.boot.inReset = false ∧ (ck.die 1).clockLost = none ∧
    ({ ck with dies := [(0, die0), (1, { die0 with core := false, live := false })] }.die 1).core = false ∧
    (due.die 1).fenceDue = none ∧ (two.die 1).clockLost = none ∧ pr.boot.takeover = false ∧ pr.boot.pair1Ok = true ∧ { pr with boot := { pr.boot with takeover := true } }.boot.takeover = true ∧
    ({ up with tasks := [(1, tk step0)] }.task? 1).isSome = true ∧ (tk step0).held = true ∧ (tk step0).die = 0 ∧ (tk step0).state ≠ .faulted ∧
    ((two.dropLink 1 0).die 1).links.any id = false ∧ 1 ∈ (two.dropLink 1 0).dieList ∧ (two.die 1).fenced = false ∧
    ((ln.dropLink 1 0).die 0).links.any id = true ∧ ((ln.dropLink 1 0).die 1).links.any id = true ∧ ((ln.dropLink 1 0).die 2).live = false := by decide +kernel

/-- The pair in control with a standby ready and with none, after it failed; scrubbed words of free memory and of a task; a package fault. -/
theorem witness_management_and_memory :
    let m : State := { up with boot := { up.boot with pair0 := true, pair1Ok := true } }
    let f : State := { m with boot := { m.boot with pair0 := false }, dies := [(0, die0), (1, die0)] }
    let run : State := { up with tasks := [(1, tk step0)] }
    let pf : State := up.setBit F.FLT_STATUS_package_fault pkg true
    let qs : State := { up with ques := [(0, { QueSt.reset with bound := true, cap := 16, base := 0x300000 })] }
    m.boot.pair0 = true ∧ m.boot.takeover = false ∧ m.boot.pair1Ok = true ∧ { m with boot := { m.boot with pair1Ok := false } }.boot.pair1Ok = false ∧
    f.boot.pair0 = false ∧ f.boot.takeover = false ∧ f.boot.pair1Ok = true ∧ (f.die 1).live = true ∧
    up.pkgFault = false ∧ pf.pkgFault = true ∧ up.present 0 = true ∧
    run.dieActs 0 = true ∧ run.tasksAt 0 (0x3FFFFF / 4 * 4) = [] ∧ run.queueAt 0 (0x3FFFFF / 4 * 4) = none ∧ run.tasksAt 0 0x1000 = [1] ∧
    run.task? 1 = some (tk step0) ∧ (tk step0).held = true ∧ (tk step0).die = 0 ∧ (tk step0).state ≠ .faulted ∧
    { m with boot := { m.boot with takeover := true } }.boot.takeover = true ∧ up.boot.pair0 = false ∧ up.boot.takeover = false ∧
    (qs.queueAt 0 (0x30003F / 4 * 4)) = some 0 ∧ qs.tasksAt 0 (0x30003F / 4 * 4) = [] ∧ qs.queueAt 0 (0x300040 / 4 * 4) = none ∧
    ({ tk step0 with state := .faulted } : Task).state = .faulted ∧ ((up.die 0).live) = true ∧ up.present 1 = true := by decide +kernel

/-- RST_CTRL with its key and without bit 0, both senses of the PERST# strap, the power-on reset and its end. -/
theorem witness_resets :
    let r : State := State.reset
    let e : State := { State.reset with boot := { Boot.reset with causeOn := false } }
    bitOf 0xA5C30001 0 = true ∧ bitsOf 0xA5C30001 16 16 = 0xA5C3 ∧ bitOf 0xA5C30000 0 = false ∧
    up.straps.perstSel = false ∧ { up with straps := { up.straps with perstSel := true } }.straps.perstSel = true ∧
    r.boot.inReset = true ∧ r.boot.causeOn = true ∧ r.fld F.RST_STATUS_last_cause pkg = 1 ∧
    e.boot.inReset = true ∧ e.boot.causeOn = false ∧
    (r.setFld F.RST_STATUS_last_cause pkg 3).fld F.RST_STATUS_last_cause pkg = 3 ∧
    opens up .pcie (.RST_CTRL, pkg) = true ∧ bitsOf 0xA5C20001 16 16 ≠ 0xA5C3 ∧ (4 : Nat) < 5 ∧
    up.boot.inReset = false ∧ r.boot.causeOn = true := by decide +kernel

/-- Dies 0 and 1 at each stage of the staggered start; the boot from flash and from the host; a verification that ends; READY. -/
theorem witness_start_up :
    let u0 : State := { State.reset with boot := { Boot.reset with inReset := false, causeOn := false, fusesOk := true } }
    let pll : State := u0.setReg .PWR_STATUS pkg 0x10100
    let lk : State := pll.setReg .CLK_STATUS pkg 1
    let die1 : Die := { Die.reset with core := true, sramOk := true, selfTest := true }
    let two : State := { u0 with dies := [(0, die0), (1, die1)] }
    let fl : State := { u0 with boot := { u0.boot with pair0 := true } }.setFld F.RST_STATUS_boot_state pkg 2
    let ho : State := (fl.setFld F.RST_STATUS_boot_state pkg 3).setFld F.RST_STATUS_boot_sel pkg 1
    let vf : State := { fl with boot := { fl.boot with busy := true } }.setFld F.RST_STATUS_boot_state pkg 4
    u0.starting = true ∧ { u0 with boot := { u0.boot with fusesOk := false } }.boot.fusesOk = false ∧ u0.boot.fusesOk = true ∧
    u0.present 0 = true ∧ (u0.die 0).core = false ∧ u0.startCode 0 = 0 ∧
    bitOf (pll.reg .CLK_STATUS pkg) 0 = false ∧ bitOf (lk.reg .CLK_STATUS pkg) 0 = true ∧ bitOf (lk.reg .PWR_STATUS pkg) 8 = true ∧ bitOf (lk.reg .PWR_STATUS pkg) 16 = true ∧
    two.starting = true ∧ die1.core = true ∧ die1.live = false ∧ die1.sramOk = true ∧ die1.selfTest = true ∧ (two.die 1) = die1 ∧ (two.die 0).core = true ∧
    fl.starting = true ∧ fl.boot.pair0 = true ∧ fl.fld F.RST_STATUS_boot_state pkg = 2 ∧ fl.boot.busy = false ∧ fl.boot.source ≠ 1 ∧
    { fl with boot := { fl.boot with source := 1 } }.boot.source = 1 ∧
    bitOf 0x80000010 31 = true ∧ ho.fld F.RST_STATUS_boot_state pkg = 3 ∧ ho.fld F.RST_STATUS_boot_sel pkg ≠ 0 ∧ fl.fld F.RST_STATUS_boot_state pkg ≠ 3 ∧
    vf.boot.busy = true ∧ vf.fld F.RST_STATUS_boot_state pkg = 4 := by decide +kernel

/-- More of `witness_start_up`. -/
theorem witness_start_up_2 :
    let u0 : State := { State.reset with boot := { Boot.reset with inReset := false, causeOn := false, fusesOk := true } }
    let die1 : Die := { Die.reset with core := true, sramOk := true, selfTest := true }
    let two : State := { u0 with dies := [(0, die0), (1, die1)] }
    let fl : State := { u0 with boot := { u0.boot with pair0 := true } }.setFld F.RST_STATUS_boot_state pkg 2
    let ho : State := (fl.setFld F.RST_STATUS_boot_state pkg 3).setFld F.RST_STATUS_boot_sel pkg 1
    let vf : State := { fl with boot := { fl.boot with busy := true } }.setFld F.RST_STATUS_boot_state pkg 4
    let sb : State := { two with dies := [(0, die0), (1, { die1 with live := true })], boot := { fl.boot with verified := true, pair1 := true } }
    let rd : State := { u0 with variant := .d2, dies := [(0, die0), (1, { die1 with live := true })], boot := { fl.boot with verified := true } }
    let gd : State := u0.setReg .CLK_STATUS pkg 1
    let b7 : State := (fl.setFld F.RST_STATUS_boot_state pkg 7).setFld F.RST_STATUS_boot_sel pkg 2
    sb.boot.verified = true ∧ sb.boot.pair1 = true ∧ (sb.die 1).live = true ∧ sb.boot.takeover = false ∧
    rd.canReady = true ∧
    (up.setBit F.TASK_KEY_LOCK_locked pkg true).bit F.TASK_KEY_LOCK_locked pkg = true ∧
    bitOf (gd.reg .CLK_STATUS pkg) 0 = true ∧ bitOf ((gd.setReg .PWR_STATUS pkg 0x10000).reg .PWR_STATUS pkg) 8 = false ∧ bitOf ((gd.setReg .PWR_STATUS pkg 0x100).reg .PWR_STATUS pkg) 16 = false ∧
    (0xF : BitVec 4) ≠ 0 ∧ (0 : BitVec 4) = 0 ∧ (two.die 1).fenced = false ∧ two.startCode 1 = 0 ∧ (two.setReg .START_FAIL pkg 0x40).startCode 1 = 4 ∧
    opens ho .qspi (.BOOT_CTRL, pkg) = true ∧ b7.fld F.RST_STATUS_boot_state pkg = 7 ∧ 2 ≤ b7.fld F.RST_STATUS_boot_sel pkg ∧ ho.fld F.RST_STATUS_boot_sel pkg < 2 ∧ bitOf 0x7FFFFFFF 31 = false ∧
    opens up .pcie (.TASK_KEY_LOCK, pkg) = true ∧ u0.canReady = false ∧ vf.fuses.checkFw (some vf.boot.image) none ≠ 0 ∧
    (0x3FFFFF : Nat) < 0x400000 ∧ dieAddr 0 0x3FFFFF < dieAddr 1 0 := by decide +kernel

end Sys2Proof.Tests
end

/-! # Proofs for chapter 3, the shuttle programming model

Each obligation says what `exec` answers under `State.AtInstr`. `exec` of a shuttle instruction is by definition
`State.issue` of the instruction's body, so a clause is `AtInstr.goOn` or `AtInstr.trap` (`Laws/Issue.lean`) applied to what
the body answers, and a fact about the value it computes. -/

namespace Sys2Proof.Machine

/-! ## Operands -/

/-- A general register other than g0 reads back what was written (R110). -/
theorem Ctx.rg_wg_same (c : Ctx) {r : GReg} (v : Word) (hr : r ≠ 0) : (c.wg r v).rg r = v := by
  simp [Ctx.rg, Ctx.wg, hr]

/-- A write changes no other register (R110). -/
theorem Ctx.rg_wg_ne (c : Ctx) {r q : GReg} (v : Word) (hq : q ≠ r) : (c.wg r v).rg q = c.rg q := by
  have hval : r.val ≠ q.val := fun h => hq (Fin.ext h.symm)
  by_cases hr : r = 0
  · simp [hr]
  · simp [Ctx.rg, Ctx.wg, hr, hval]

/-- Sign extension keeps the signed value. -/
theorem sext18_toInt (m : BitVec 18) : (sext18 m).toInt = m.toInt := BitVec.toInt_signExtend_of_le (by decide)

/-! ## What an issued instruction leaves

An instruction `i` that writes a register and the flags, for every body of the common forms, and one that changes its task. -/

section Results
variable {s : State} {t : Nat} {i : Instr} {k : Task} {st : Step} {n : Nat}

/-- A body that writes `r` to `rd` with Z and N from `r`. -/
theorem State.AtInstr.toRegF (h : s.AtInstr t i k st n) {body : Body} {rd : GReg} {r : Word} {c v : Bool}
    (hb : body s k (st.past n) = goRd s (st.past n) rd r (flagsZN r c v)) :
    s.issue t i body = s.toRegF t k st n rd r c v := h.goOn hb

/-- A three-register ALU instruction whose result and flags are known. -/
theorem State.AtInstr.alu3_toRegF (h : s.AtInstr t i k st n) {op : Word → Word → Word} {fl : Word → Word → Flags}
    {rd ra rb : GReg} {r : Word} {c v : Bool} (hr : op (st.w.rg ra) (st.w.rg rb) = r)
    (hf : fl (st.w.rg ra) (st.w.rg rb) = flagsZN r c v) :
    s.issue t i (alu3 op fl rd ra rb) = s.toRegF t k st n rd r c v :=
  h.toRegF (by simp [alu3, hr, hf])

/-- An ALU instruction with an immediate whose result and flags are known. -/
theorem State.AtInstr.aluI_toRegF (h : s.AtInstr t i k st n) {op : Word → Word → Word} {fl : Word → Word → Flags}
    {rd ra : GReg} {imm r : Word} {c v : Bool} (hr : op (st.w.rg ra) imm = r)
    (hf : fl (st.w.rg ra) imm = flagsZN r c v) :
    s.issue t i (aluI op fl rd ra imm) = s.toRegF t k st n rd r c v :=
  h.toRegF (by simp [aluI, hr, hf])

/-- An instruction that also changes its task leaves the changed task with the step it answers. -/
theorem State.AtInstr.goTask (h : s.AtInstr t i k st n) {body : Body} {k' : Task} {st' : Step}
    (hb : body s k (st.past n) = .go (s.setTask t k') st') : s.issue t i body = s.carryOn t k' st' := by
  simp [h.issue, hb, IRes.finish, State.modTask, State.carryOn, Step.settle, State.setTask, State.task?]

end Results

/-! ## Branches, jumps, calls and returns (R135, R136) -/

section Branches
variable {s : State} {k : Task} {st : Step}

/-- Control goes to an offset inside the code (R116). -/
theorem jumpTo_inside {x : Nat} (hx : x < k.codeWords) : jumpTo s k st x = .go s (st.goto x) := by
  simp [jumpTo, hx]

/-- An offset outside the code is SEGMENT_VIOLATION (R116). -/
theorem jumpTo_outside {x : Nat} (hx : k.codeWords ≤ x) : jumpTo s k st x = .trap s 0x02 0 := by
  simp [jumpTo, hx]

/-- What a conditional branch does: it jumps if its condition holds, and only goes on if not. -/
theorem branch_eq (p : Word → Word → Bool) (q : Flags → Bool) (ra rb : GReg) (off : BitVec 18) :
    branch p q ra rb off s k st =
      if (if ra = 0 ∧ rb = 0 then q st.w.fl else p (st.w.rg ra) (st.w.rg rb)) = true
      then jumpTo s k st (targetOf st.w.pc off) else .go s st := rfl

/-- CALL inside the code with room on the return stack pushes the next offset and jumps. -/
theorem bodyCall_inside {ra : GReg} {off : BitVec 18} (hx : targetOf (jumpBase st ra) off < k.codeWords)
    (hl : st.w.rstack.length < 8) : bodyCall ra off s k st =
      .go s ({ st with w := { st.w with rstack := BitVec.ofNat 18 st.w.pc :: st.w.rstack } }.goto
        (targetOf (jumpBase st ra) off)) := by
  simp [bodyCall, guardAll, lowest, failIf, hx.not_ge, hl.not_ge]

/-- CALL to an offset outside the code is SEGMENT_VIOLATION, with a full return stack too: the lowest code is raised (R129). -/
theorem bodyCall_outside {ra : GReg} {off : BitVec 18} (hx : k.codeWords ≤ targetOf (jumpBase st ra) off) :
    bodyCall ra off s k st = .trap s 0x02 0 := by
  by_cases hl : 8 ≤ st.w.rstack.length <;> simp [bodyCall, guardAll, lowest, failIf, hx, hl]

/-- CALL inside the code with a full return stack is RSTACK_OVERFLOW. -/
theorem bodyCall_full {ra : GReg} {off : BitVec 18} (hx : targetOf (jumpBase st ra) off < k.codeWords)
    (hl : 8 ≤ st.w.rstack.length) : bodyCall ra off s k st = .trap s 0x04 0 := by
  simp [bodyCall, guardAll, lowest, failIf, hx.not_ge, hl]

/-- RET with an empty return stack is RSTACK_UNDERFLOW. -/
theorem bodyRet_nil (h : st.w.rstack = []) : bodyRet s k st = .trap s 0x05 0 := by
  simp [bodyRet, h]

/-- RET pops the newest entry and jumps to it. -/
theorem bodyRet_cons {y : BitVec 18} {r : List (BitVec 18)} (h : st.w.rstack = y :: r) :
    bodyRet s k st = jumpTo s k { st with w := { st.w with rstack := r } } y.toNat := by
  simp [bodyRet, h]

/-- Moving past an instruction moves the offset from which a jump with ra = 0 counts. -/
theorem jumpBase_past (st : Step) (n : Nat) (ra : GReg) :
    jumpBase (st.past n) ra = if ra = 0 then st.w.pc + n else (st.w.rg ra).toNat := by
  simp [jumpBase]

/-- BGE on registers compares signed values. -/
theorem bnot_slt_eq_decide (a b : Word) : (!a.slt b) = decide (b.toInt ≤ a.toInt) := by
  rw [BitVec.slt_eq_decide, ← decide_not, decide_eq_decide, Int.not_lt]

/-- BGEU on registers compares unsigned values. -/
theorem bnot_ult_eq_decide (a b : Word) : (!a.ult b) = decide (b.toNat ≤ a.toNat) := by
  rw [BitVec.ult_eq_decide, ← decide_not, decide_eq_decide, Nat.not_lt]

end Branches

/-- Settles O4: a conditional branch by its six conditions, then JMP, CALL and RET by the cases of their targets and of the
return stack. -/
theorem branchesAndCalls : Obligations.BranchesAndCalls := by
  unfold Obligations.BranchesAndCalls
  refine ⟨?_, ?_⟩
  · rintro s t k st n ra rb off a b f x i taken rfl rfl rfl rfl hi h
    obtain ⟨p, q, hexec, htaken⟩ : ∃ p q, exec i s = .next (s.issue t i (branch p q ra rb off)) ∧
        taken = if ra = 0 ∧ rb = 0 then q st.w.fl else p (st.w.rg ra) (st.w.rg rb) := by
      rcases hi with ⟨rfl, ht⟩ | ⟨rfl, ht⟩ | ⟨rfl, ht⟩ | ⟨rfl, ht⟩ | ⟨rfl, ht⟩ | ⟨rfl, ht⟩
      · exact ⟨_, _, rfl, by rw [ht]; rfl⟩
      · exact ⟨_, _, rfl, by rw [ht, bne, beq_eq_decide, decide_not]⟩
      · exact ⟨_, _, rfl, by rw [ht, bne, beq_eq_decide, decide_not, BitVec.slt_eq_decide]⟩
      · exact ⟨_, _, rfl, by rw [ht, bnot_slt_eq_decide, beq_eq_decide]⟩
      · exact ⟨_, _, rfl, by rw [ht, BitVec.ult_eq_decide]⟩
      · exact ⟨_, _, rfl, by rw [ht, bnot_ult_eq_decide]⟩
    have hbody : branch p q ra rb off s k (st.past n) =
        if taken = true then jumpTo s k (st.past n) (targetOf (st.w.pc + n) off) else .go s (st.past n) := by
      rw [branch_eq, htaken]; simp
    rw [hexec]
    refine ⟨fun ht => ?_, fun ht hx => ?_, fun ht hx => ?_⟩ <;> rw [ht] at hbody <;> refine congrArg _ ?_
    · exact h.goOn hbody
    · exact h.goOn (hbody.trans (jumpTo_inside hx))
    · exact h.trap (hbody.trans (jumpTo_outside hx))
  · rintro s t k st n ra off base x rfl rfl
    simp only [← jumpBase_past]
    refine ⟨fun h => ⟨fun hx => ?_, fun hx => ?_⟩, fun h => ⟨fun hx hl => ?_, fun hx => ?_, fun hx hl => ?_⟩,
      fun h => ⟨fun hs => ?_, fun y r hs hy => ?_, fun y r hs hy => ?_⟩⟩ <;> refine congrArg Host.Outcome.next ?_
    · exact h.goOn (jumpTo_inside hx)
    · exact h.trap (jumpTo_outside hx)
    · exact h.goOn (bodyCall_inside hx hl)
    · exact h.trap (bodyCall_outside hx)
    · exact h.trap (bodyCall_full hx hl)
    · exact h.trap (bodyRet_nil hs)
    · exact h.goOn ((bodyRet_cons hs).trans (jumpTo_inside hy))
    · exact h.trap ((bodyRet_cons hs).trans (jumpTo_outside hy))

/-! ## The values and flags of the ALU instructions (R132, R127, R198) -/

/-- Z, N, C and V of a sum. -/
theorem flagsAdd_eq (a b : Word) :
    flagsAdd a b = flagsZN (a + b) (decide (2 ^ 32 ≤ a.toNat + b.toNat)) (outside32 (a.toInt + b.toInt)) := rfl

/-- Z, N, C and V of a difference. -/
theorem flagsSub_eq (a b : Word) :
    flagsSub a b = flagsZN (a - b) (decide (a.toNat < b.toNat)) (outside32 (a.toInt - b.toInt)) := rfl

/-- A difference is 0 exactly when its operands are equal. -/
theorem sub_beq_zero (a b : Word) : (a - b == 0) = (a == b) := by
  rw [beq_eq_decide, beq_eq_decide, decide_eq_decide]; exact sub_eq_zero

/-- The carry of a left shift by an amount that may be 0. -/
theorem shlCarry_eq (a : Word) (m : Nat) : shlCarry a m = (decide (m ≠ 0) && a.getLsbD (32 - m)) := by
  by_cases hm : m = 0 <;> simp [shlCarry, hm]

/-- The carry of a right shift by an amount that may be 0. -/
theorem shrCarry_eq (a : Word) (m : Nat) : shrCarry a m = (decide (m ≠ 0) && a.getLsbD (m - 1)) := by
  by_cases hm : m = 0 <;> simp [shrCarry, hm]

/-- MIN is the smaller of the signed values. -/
theorem minS_eq (a b : Word) : minS a b = BitVec.ofInt 32 (min a.toInt b.toInt) := by
  by_cases h : a.toInt < b.toInt
  · simp [minS, BitVec.slt_eq_decide, h, Int.min_eq_left h.le]
  · simp [minS, BitVec.slt_eq_decide, h, Int.min_eq_right (Int.not_lt.mp h)]

/-- MAX is the larger of the signed values. -/
theorem maxS_eq (a b : Word) : maxS a b = BitVec.ofInt 32 (max a.toInt b.toInt) := by
  by_cases h : a.toInt < b.toInt
  · simp [maxS, BitVec.slt_eq_decide, h, Int.max_eq_right h.le]
  · simp [maxS, BitVec.slt_eq_decide, h, Int.max_eq_left (Int.not_lt.mp h)]

/-- LUI: 14 zero bits below an immediate are a left shift by 14. -/
theorem append_zero14 (m : BitVec 18) : (m ++ (0 : BitVec 14) : Word) = m.zeroExtend 32 <<< 14 := by
  refine BitVec.eq_of_getLsbD_eq fun j hj => ?_
  rw [show (m ++ (0 : BitVec 14) : Word).getLsbD j = _ from BitVec.getLsbD_append]
  by_cases h : j < 14 <;> simp [hj, h]

/-- Settles O2: the register file by its read-after-write rules, each ALU instruction by its value and its flags. -/
theorem aluResults : Obligations.AluResults := by
  unfold Obligations.AluResults
  refine ⟨fun st r q v => ?_, ?_, ?_⟩
  · exact ⟨Ctx.rg_zero _, by simp [Step.wg], Ctx.rg_wg_same _ v, Ctx.rg_wg_ne _ v⟩
  · rintro s t k st n rd ra rb a b m rfl rfl rfl
    refine ⟨fun h => ?add, fun h => ?sub, fun h => ?and, fun h => ?or, fun h => ?xor, fun h => ?shl, fun h => ?shr,
      fun h => ?sra, fun h => ?min, fun h => ?max, fun h => ?adds, fun h => ?subs, fun h => ?cmp⟩ <;>
      refine congrArg Host.Outcome.next ?_
    case add => exact h.alu3_toRegF rfl (flagsAdd_eq _ _)
    case sub => exact h.alu3_toRegF rfl (flagsSub_eq _ _)
    case and | or | xor | adds | subs => exact h.alu3_toRegF rfl rfl
    case shl => exact h.alu3_toRegF rfl (congrArg (flagsZN _ · false) (shlCarry_eq _ _))
    case shr | sra => exact h.alu3_toRegF rfl (congrArg (flagsZN _ · false) (shrCarry_eq _ _))
    case min => exact h.alu3_toRegF (minS_eq _ _) (congrArg flagsLogic (minS_eq _ _))
    case max => exact h.alu3_toRegF (maxS_eq _ _) (congrArg flagsLogic (maxS_eq _ _))
    case cmp => exact h.goOn (by rw [bodyCmp, flagsSub_eq, flagsZN, sub_beq_zero]; rfl)
  · rintro s t k st n rd ra rb m e a l rfl
    refine ⟨fun h => ?addi, fun h => ?andi, fun h => ?ori, fun h => ?xori, fun h => ?lui, fun h => ?limm, fun h => ?crc⟩ <;>
      refine congrArg Host.Outcome.next ?_
    case addi => exact h.aluI_toRegF rfl (by rw [flagsAdd_eq, sext18_toInt]; rfl)
    case andi | ori | xori => exact h.aluI_toRegF rfl rfl
    case lui => exact h.goOn (by rw [bodyLui, append_zero14])
    case limm => exact h.goOn rfl
    case crc => cases l <;> exact h.toRegF rfl

/-! ## The values of multiply and divide (R133, R134) -/

/-- MUL keeps the low half of the signed product, which is the product modulo 2^32. -/
theorem ofInt_prodS (a b : Word) : BitVec.ofInt 32 (prodS a b) = a * b := by
  rw [prodS, BitVec.ofInt_mul, BitVec.ofInt_toInt, BitVec.ofInt_toInt]

/-- MULHU takes the high half of the 64-bit product of the zero-extended operands. -/
theorem mulHiU_eq (a b : Word) : mulHiU a b = (a.zeroExtend 64 * b.zeroExtend 64).extractLsb' 32 32 := by
  have h : BitVec.ofNat 64 (a.toNat * b.toNat) = a.zeroExtend 64 * b.zeroExtend 64 := by
    rw [BitVec.ofNat_mul, BitVec.ofNat_toNat, BitVec.ofNat_toNat]
  rw [mulHiU, hiHalf, h]

/-- DIVU by a divisor other than 0 is the quotient of the unsigned values. -/
theorem divU_eq (a b : Word) :
    divU a b = if b = 0 then 0xFFFFFFFF else BitVec.ofNat 32 (a.toNat / b.toNat) := by
  simp [divU, ← BitVec.toNat_udiv]

/-- REMU by a divisor other than 0 is the remainder of the unsigned values. -/
theorem remU_eq (a b : Word) :
    remU a b = if b = 0 then 0xFFFFFFFF else BitVec.ofNat 32 (a.toNat % b.toNat) := by
  simp [remU, ← BitVec.toNat_umod]

/-- MAC saturates the accumulator and sets V where it did; V stays set. -/
theorem bodyMac_eq (s : State) (k : Task) (st : Step) (ra rb : GReg) (x : Int)
    (hx : st.w.a.toInt + prodS (st.w.rg ra) (st.w.rg rb) = x) :
    bodyMac ra rb s k st = .go s { st with w := { st.w with
      a := BitVec.ofInt 64 (sat64 x), fl := { st.w.fl with v := st.w.fl.v || outside64 x } } } := by
  cases h : outside64 x <;> simp [bodyMac, hx, h]

/-- Settles O3: each instruction by its value and its flags. -/
theorem multiplyDivideResults : Obligations.MultiplyDivideResults := by
  unfold Obligations.MultiplyDivideResults
  refine ⟨?_, ?_⟩
  · rintro s t k st n rd ra rb a b p x r q rfl rfl rfl rfl rfl rfl
    refine ⟨fun h => ?mul, fun h => ?mulh, fun h => ?mulhu, fun h => ?mac, fun h => ?macr, fun h => ?qmul⟩ <;>
      refine congrArg Host.Outcome.next ?_
    case mul => exact h.alu3_toRegF (ofInt_prodS _ _) (congrArg (flagsZN · _ _) (ofInt_prodS _ _))
    case mulh | qmul => exact h.alu3_toRegF rfl rfl
    case mulhu => exact h.alu3_toRegF (mulHiU_eq _ _) (congrArg flagsLogic (mulHiU_eq _ _))
    case mac => exact h.goOn (bodyMac_eq _ _ _ _ _ _ (by simp [prodS]))
    case macr => exact h.goOn rfl
  · rintro s t k st n rd ra rb a b rfl rfl
    refine ⟨fun h => ?divu, fun h => ?divs, fun h => ?remu⟩ <;> refine congrArg Host.Outcome.next ?_
    case divu => exact h.alu3_toRegF (divU_eq _ _) (congrArg (flagsZN · _ _) (divU_eq _ _))
    case divs => exact h.alu3_toRegF rfl rfl
    case remu => exact h.alu3_toRegF (remU_eq _ _) (congrArg (flagsZN · _ _) (remU_eq _ _))

/-! ## The time instructions, TNOW, BRK and NOP (R138 to R140, R126) -/

/-- TCVT rounds toward minus infinity: a unit is positive, so dividing by it is the floor. -/
theorem ediv_unitPicots (x : Int) (u : TUnit) : x / (unitPicots u : Int) = Int.fdiv x (unitPicots u) :=
  (Int.fdiv_eq_ediv_of_nonneg _ (Int.natCast_nonneg _)).symm

/-- A stamp lies before another where the signed difference is negative (R66). -/
theorem before_eq_decide (a b : Time) : before a b = decide ((a - b).toInt < 0) := BitVec.msb_eq_toInt

/-- A number saturated to 32 bits is the signed value of its word. -/
theorem toInt_ofInt_sat32 (x : Int) : (BitVec.ofInt 32 (sat32 x)).toInt = sat32 x := by
  have hlo : -2147483648 ≤ sat32 x := le_max_left _ _
  have hhi : sat32 x ≤ 2147483647 := max_le (by decide) (min_le_right _ _)
  exact BitVec.toInt_ofInt_eq_self (by decide) hlo (by omega)

/-- The smaller of a saturated number and a word, as TNOW keeps it. -/
theorem minS_ofInt_sat32 (x : Int) (m : Word) :
    minS (BitVec.ofInt 32 (sat32 x)) m = BitVec.ofInt 32 (min (sat32 x) m.toInt) := by
  rw [minS_eq, toInt_ofInt_sat32]

/-- Settles O7: each instruction by what its body answers; TNOW and BRK also change the task or count. -/
theorem timeInstructionResults : Obligations.TimeInstructionResults := by
  unfold Obligations.TimeInstructionResults
  refine ⟨?_, ?_⟩
  · rintro s t k st n td ta tb rd ga gb u e a b d q rfl rfl rfl rfl
    refine ⟨fun h => ?move, fun h => ?lo, fun h => ?hi, fun h => ?pair, fun h => ?tadd, fun h => ?taddi, fun h => ?tsub,
      fun h => ?tcmp, fun h => ?tlead, fun h => ?tcvt⟩ <;> refine congrArg Host.Outcome.next (h.goOn ?_)
    case move | lo | hi | pair | tadd | tsub => rfl
    case taddi => cases u <;> rfl
    case tcmp => simp [bodyTcmp, BitVec.msb_eq_toInt]
    case tlead => simp [bodyTlead, before_eq_decide]
    case tcvt =>
      simp only [bodyTcvt, ediv_unitPicots]
      cases u <;> rfl
  · rintro s t k st n m x rfl
    refine ⟨fun h => ?nop, fun h => ?tnow, fun h hb => ?count, fun h hu hb => ?halt⟩ <;>
      refine congrArg Host.Outcome.next ?_
    case nop => exact h.goOn rfl
    case tnow => exact h.goTask (by rw [← minS_ofInt_sat32]; rfl)
    case count =>
      refine h.go (s' := s.bump F.BRK_COUNT_count (dieIx k.die)) ?_ (by simpa [State.task?] using h.task)
      rcases hb with hb | hb <;> simp [bodyBrk, hb]
    case halt => exact h.goTask (by simp [bodyBrk, hu, hb])

end Sys2Proof.Machine

section
-- Each waiting proof of the compile holds a stack of its own, so these are elaborated one after another.
set_option Elab.async false

/-! # Decoder and encoder (R121 to R126)

A word is put together from its fields again, so a decoded word is the encoding of what it decodes to once each group of the
opcode table gives back the fields it was chosen by; an encoded word shows the fields it was made of. -/

namespace Sys2Proof

/-! ## The fields of an encoded word -/

section Fields
variable (op fn a b c : Nat) (m : BitVec 18) (h : Handle)

/-- Bits [lo + w - 1 : lo] of a word of format A are those of the field that lies there; likewise for the other formats. -/
theorem encA_extract :
    (encA op fn a b c).extractLsb' 26 6 = BitVec.ofNat 6 op ∧ (encA op fn a b c).extractLsb' 22 4 = BitVec.ofNat 4 a ∧
    (encA op fn a b c).extractLsb' 18 4 = BitVec.ofNat 4 b ∧ (encA op fn a b c).extractLsb' 14 4 = BitVec.ofNat 4 c ∧
    (encA op fn a b c).extractLsb' 8 6 = BitVec.ofNat 6 fn ∧ (encA op fn a b c).extractLsb' 0 8 = 0 := by
  refine ⟨?_, ?_, ?_, ?_, ?_, ?_⟩ <;>
    simp (disch := omega) only [encA, BitVec.extractLsb'_append_eq_of_le, BitVec.extractLsb'_append_eq_of_add_le] <;>
    exact BitVec.extractLsb'_eq_self

theorem encB_extract :
    (encB op a b m).extractLsb' 26 6 = BitVec.ofNat 6 op ∧ (encB op a b m).extractLsb' 22 4 = BitVec.ofNat 4 a ∧
    (encB op a b m).extractLsb' 18 4 = BitVec.ofNat 4 b ∧ (encB op a b m).extractLsb' 0 18 = m := by
  refine ⟨?_, ?_, ?_, ?_⟩ <;>
    simp (disch := omega) only [encB, BitVec.extractLsb'_append_eq_of_le, BitVec.extractLsb'_append_eq_of_add_le] <;>
    exact BitVec.extractLsb'_eq_self

theorem encD_extract :
    (encD op a b c h).extractLsb' 26 6 = BitVec.ofNat 6 op ∧ (encD op a b c h).extractLsb' 22 4 = BitVec.ofNat 4 a ∧
    (encD op a b c h).extractLsb' 18 4 = BitVec.ofNat 4 b ∧ (encD op a b c h).extractLsb' 14 4 = BitVec.ofNat 4 c ∧
    (encD op a b c h).extractLsb' 0 14 = h := by
  refine ⟨?_, ?_, ?_, ?_, ?_⟩ <;>
    simp (disch := omega) only [encD, BitVec.extractLsb'_append_eq_of_le, BitVec.extractLsb'_append_eq_of_add_le] <;>
    exact BitVec.extractLsb'_eq_self

/-- The fields of a word of format A. -/
@[simp] theorem encA_fields :
    opOf (encA op fn a b c) = op % 64 ∧ f1Of (encA op fn a b c) = a % 16 ∧ f2Of (encA op fn a b c) = b % 16 ∧
    f3Of (encA op fn a b c) = c % 16 ∧ fnOf (encA op fn a b c) = fn % 64 ∧ lowOf (encA op fn a b c) = 0 := by
  obtain ⟨hop, ha, hb, hc, hfn, hlow⟩ := encA_extract op fn a b c
  simp [opOf, f1Of, f2Of, f3Of, fnOf, lowOf, hop, ha, hb, hc, hfn, hlow, -BitVec.extractLsb'_toNat]

/-- The fields of a word of format B or C. -/
@[simp] theorem encB_fields :
    opOf (encB op a b m) = op % 64 ∧ f1Of (encB op a b m) = a % 16 ∧ f2Of (encB op a b m) = b % 16 ∧
    immOf (encB op a b m) = m := by
  obtain ⟨hop, ha, hb, hm⟩ := encB_extract op a b m
  simp [opOf, f1Of, f2Of, immOf, hop, ha, hb, hm, -BitVec.extractLsb'_toNat]

/-- The fields of a word of format D. -/
@[simp] theorem encD_fields :
    opOf (encD op a b c h) = op % 64 ∧ f1Of (encD op a b c h) = a % 16 ∧ f2Of (encD op a b c h) = b % 16 ∧
    f3Of (encD op a b c h) = c % 16 ∧ hOf (encD op a b c h) = h := by
  obtain ⟨hop, ha, hb, hc, hh⟩ := encD_extract op a b c h
  simp [opOf, f1Of, f2Of, f3Of, hOf, hop, ha, hb, hc, hh, -BitVec.extractLsb'_toNat]

end Fields

/-! ## A word from its fields -/

section Word
variable (w : Word)

/-- The fields of four and of six bits are below 16 and 64. -/
theorem fields_lt : opOf w < 64 ∧ f1Of w < 16 ∧ f2Of w < 16 ∧ f3Of w < 16 ∧ fnOf w < 64 :=
  ⟨BitVec.isLt _, BitVec.isLt _, BitVec.isLt _, BitVec.isLt _, BitVec.isLt _⟩

/-- Bits `hi` and the `n` below them, beginning at `lo`, make one field. -/
theorem extract_join {hi lo n k : Nat} (h : hi = lo + n) :
    w.extractLsb' hi k ++ w.extractLsb' lo n = w.extractLsb' lo (k + n) :=
  BitVec.extractLsb'_append_extractLsb'_eq_extractLsb' h

theorem encB_of_fields : encB (opOf w) (f1Of w) (f2Of w) (immOf w) = w := by
  simp only [encB, opOf, f1Of, f2Of, immOf, BitVec.ofNat_toNat, BitVec.setWidth_eq]
  rw [extract_join w (hi := 26) (lo := 22) rfl, extract_join w (hi := 22) (lo := 18) rfl,
    extract_join w (hi := 18) (lo := 0) rfl]
  exact BitVec.extractLsb'_eq_self

theorem encD_of_fields : encD (opOf w) (f1Of w) (f2Of w) (f3Of w) (hOf w) = w := by
  simp only [encD, opOf, f1Of, f2Of, f3Of, hOf, BitVec.ofNat_toNat, BitVec.setWidth_eq]
  rw [extract_join w (hi := 26) (lo := 22) rfl, extract_join w (hi := 22) (lo := 18) rfl,
    extract_join w (hi := 18) (lo := 14) rfl, extract_join w (hi := 14) (lo := 0) rfl]
  exact BitVec.extractLsb'_eq_self

theorem encA_of_fields (h : lowOf w = 0) : encA (opOf w) (fnOf w) (f1Of w) (f2Of w) (f3Of w) = w := by
  have h0 : (0 : BitVec 8) = w.extractLsb' 0 8 := (BitVec.eq_of_toNat_eq (y := 0#8) h).symm
  simp only [encA, opOf, f1Of, f2Of, f3Of, fnOf, BitVec.ofNat_toNat, BitVec.setWidth_eq, h0]
  rw [extract_join w (hi := 26) (lo := 22) rfl, extract_join w (hi := 22) (lo := 18) rfl,
    extract_join w (hi := 18) (lo := 14) rfl, extract_join w (hi := 14) (lo := 8) rfl, extract_join w (hi := 8) (lo := 0) rfl]
  exact BitVec.extractLsb'_eq_self

end Word

/-! ## Register fields -/

@[simp] theorem gr_val (r : GReg) : gr r.val = r := by simp [gr]

theorem val_gr {n : Nat} (h : n < 16) : (gr n).val = n := by simp [gr, Fin.ofNat, Nat.mod_eq_of_lt h]

theorem tr_eq_some {n : Nat} {r : TReg} : tr n = some r ↔ n = r.val := by
  have := r.isLt
  unfold tr
  split <;> simp [Fin.ext_iff]
  omega

theorem td_eq_some {n : Nat} {r : TDst} : td n = some r ↔ n = r.val := by
  have := r.isLt
  unfold td
  split <;> simp [Fin.ext_iff]
  omega

@[simp] theorem tr_val (r : TReg) : tr r.val = some r := tr_eq_some.2 rfl

@[simp] theorem td_val (r : TDst) : td r.val = some r := td_eq_some.2 rfl

@[simp] theorem GReg.val_mod (r : GReg) : r.val % 16 = r.val := Nat.mod_eq_of_lt r.isLt

@[simp] theorem TReg.val_mod (r : TReg) : r.val % 16 = r.val := by omega

@[simp] theorem TDst.val_mod (r : TDst) : r.val % 16 = r.val := by omega

@[simp] theorem unitOf_imm (u : TUnit) : unitOf u.imm = some u := by cases u <;> rfl

theorem unitOf_eq_some {m : BitVec 18} {u : TUnit} : unitOf m = some u ↔ m = u.imm := by
  refine ⟨fun h => ?_, fun h => h ▸ unitOf_imm u⟩
  unfold unitOf at h
  split at h
  · cases h; assumption
  · split at h
    · cases h; assumption
    · split at h <;> cases h
      assumption

/-! ## The code of FAULT (R199) -/

/-- Sixteen bits with two 0 bits above them. -/
theorem toNat_zero2_append (m : BitVec 16) : (0#2 ++ m : BitVec 18).toNat = m.toNat :=
  (BitVec.toNat_append 0#2 m).trans (by simp)

theorem faultCode_encB (m : BitVec 16) :
    f3Of (encB 60 0 0 (0#2 ++ m)) < 4 ∧ BitVec.extractLsb' 0 16 (0#2 ++ m) = m := by
  have hm := m.isLt
  refine ⟨?_, ?_⟩
  · simp (disch := omega) only [f3Of, encB, BitVec.extractLsb'_append_eq_of_add_le]
    rw [BitVec.extractLsb'_toNat, toNat_zero2_append, Nat.shiftRight_eq_div_pow]
    omega
  · rw [BitVec.extractLsb'_append_eq_of_add_le (by omega)]
    exact BitVec.extractLsb'_eq_self

/-- An immediate whose bits [17:16] are 0 is its low 16 bits. -/
theorem immOf_of_f3Of {w : Word} (h : f3Of w < 4) : 0#2 ++ (immOf w).extractLsb' 0 16 = immOf w := by
  apply BitVec.eq_of_toNat_eq
  rw [toNat_zero2_append]
  simp [f3Of, immOf, Nat.shiftRight_eq_div_pow] at h ⊢
  omega

/-! ## What encodes decodes -/

theorem decode_encode {i : Instr} {w x : Word} {e : Option Word} (h : encode i = some (w, e)) :
    isX w = e.isSome ∧ ∃ t, decodeWord t w (e.getD x) = some i := by
  cases i
  case waite _ _ timer => cases timer <;> cases h <;> simp [isX, decodeWord, decodeA, decodeStep]
  case tmov _ m => cases m <;> cases h <;> simp [isX, decodeWord, decodeA, decodeTime]
  case tcvt _ _ _ _ u => cases h; cases u <;> simp [isX, decodeWord, decodeA, decodeTime, TUnit.fn]
  case crc _ _ _ _ n => cases h; cases n <;> simp [isX, decodeWord, decodeA, crcLenOf]
  case fault _ m => cases h; simp [isX, decodeWord, decodeBC]; exact faultCode_encB m
  all_goals cases h
  all_goals simp [isX, decodeWord, decodeA, decodeAlu, decodeMul, decodeTime, decodeStep, decodeBC, decodeD, decodeX]

/-! ## What decodes is encoded by its word -/

section Encode
variable {t fn a b c : Nat} {i : Instr}

theorem encode_of_decodeAlu (ha : a < 16) (hb : b < 16) (hc : c < 16) (h : decodeAlu t fn a b c = some i) :
    encode i = some (encA 0x01 fn a b c, none) := by
  fun_cases decodeAlu t fn a b c <;> simp_all [decodeAlu] <;> subst h <;> simp [encode.eq_def, val_gr, *]

theorem encode_of_decodeMul (ha : a < 16) (hb : b < 16) (hc : c < 16) (h : decodeMul t fn a b c = some i) :
    encode i = some (encA 0x02 fn a b c, none) := by
  fun_cases decodeMul t fn a b c <;> simp_all [decodeMul] <;> subst h <;> simp [encode.eq_def, val_gr, *]

theorem encode_of_decodeTime (ha : a < 16) (hb : b < 16) (hc : c < 16) (h : decodeTime t fn a b c = some i) :
    encode i = some (encA 0x1A fn a b c, none) := by
  fun_cases decodeTime t fn a b c <;> simp_all [decodeTime, td_eq_some, tr_eq_some] <;> subst h <;>
    simp [encode.eq_def, val_gr, TUnit.fn, *]

theorem encode_of_decodeStep {op : Nat} (ho : op = 0x1C ∨ op = 0x1D ∨ op = 0x1E) (ha : a < 16)
    (h : decodeStep t op fn a b c = some i) : encode i = some (encA op fn a b c, none) := by
  rcases ho with rfl | rfl | rfl <;> simp [decodeStep, tr_eq_some] at h <;> obtain ⟨rfl, h⟩ := h
  · obtain ⟨⟨rfl, rfl⟩, r, rfl, rfl⟩ := h
    rfl
  · split at h
    · obtain ⟨r, hr, rfl⟩ := Option.map_eq_some_iff.1 h
      simp [encode.eq_def, val_gr, tr_eq_some.1 hr, *]
    · simp at h
      obtain ⟨⟨rfl, rfl⟩, rfl⟩ := h
      simp [encode.eq_def, val_gr, *]
  · obtain ⟨⟨rfl, rfl, rfl⟩, rfl⟩ := h
    rfl

theorem encode_of_crcLen {n : CrcLen} (ha : a < 16) (hb : b < 16) (hc : c < 16) (h : crcLenOf fn = some n) :
    encode (.crc t (gr a) (gr b) (gr c) n) = some (encA 0x3B fn a b c, none) := by
  unfold crcLenOf at h
  split at h
  · cases h; simp [encode.eq_def, val_gr, *]
  · split at h
    · cases h; simp [encode.eq_def, val_gr, *]
    · split at h <;> cases h
      simp [encode.eq_def, val_gr, *]

variable {w x : Word}

theorem encode_of_decodeA (h : decodeA t w = some i) : encode i = some (w, none) := by
  obtain ⟨-, ha, hb, hc, -⟩ := fields_lt w
  simp only [decodeA] at h
  split at h
  · cases h
  · rename_i hlow
    rw [← encA_of_fields w (not_not.1 hlow)]
    split at h
    case h_1 ho => rw [ho]; exact encode_of_decodeAlu ha hb hc h
    case h_2 ho => rw [ho]; exact encode_of_decodeMul ha hb hc h
    case h_4 ho => rw [ho]; exact encode_of_decodeTime ha hb hc h
    case h_5 ho => rw [ho]; exact encode_of_decodeStep (by simp) ha h
    case h_6 ho => rw [ho]; exact encode_of_decodeStep (by simp) ha h
    case h_7 ho => rw [ho]; exact encode_of_decodeStep (by simp) ha h
    case h_8 ho =>
      rw [ho]
      obtain ⟨n, hn, rfl⟩ := Option.map_eq_some_iff.1 h
      exact encode_of_crcLen ha hb hc hn
    case h_11 => cases h
    all_goals
      simp only [Option.ite_none_right_eq_some, Option.some.injEq] at h
      obtain ⟨⟨h1, h2, h3, h4⟩, rfl⟩ := h
      simp [encode.eq_def, *]

theorem encode_of_decodeBC (h : decodeBC t w = some i) : encode i = some (w, none) := by
  obtain ⟨-, ha, hb, -, -⟩ := fields_lt w
  rw [← encB_of_fields w]
  simp only [decodeBC] at h
  split at h <;>
    simp only [Option.ite_none_right_eq_some, Option.some.injEq, Option.map_eq_some_iff, td_eq_some, tr_eq_some,
      reduceCtorEq] at h
  case h_17 | h_21 => obtain ⟨x, hx, rfl⟩ := h; simp [encode.eq_def, val_gr, *]
  case h_5 | h_12 | h_13 => obtain ⟨h0, rfl⟩ := h; simp [encode.eq_def, val_gr, *]
  case h_22 => obtain ⟨⟨h1, h2, h3⟩, rfl⟩ := h; simp [encode.eq_def, immOf_of_f3Of h3, *]
  all_goals subst h; simp [encode.eq_def, val_gr, *]

theorem encode_of_decodeD (h : decodeD t w = some i) : encode i = some (w, none) := by
  obtain ⟨-, ha, hb, hc, -⟩ := fields_lt w
  rw [← encD_of_fields w]
  simp only [decodeD] at h
  split at h <;>
    simp only [Option.ite_none_right_eq_some, Option.some.injEq, Option.map_eq_some_iff, td_eq_some, tr_eq_some,
      reduceCtorEq] at h
  case h_25 => subst h; simp [encode.eq_def, val_gr, *]
  case h_5 | h_9 | h_13 => obtain ⟨x, hx, rfl⟩ := h; simp [encode.eq_def, val_gr, *]
  case h_1 | h_2 | h_3 | h_4 | h_6 | h_7 | h_8 => obtain ⟨h0, x, hx, rfl⟩ := h; simp [encode.eq_def, val_gr, *]
  all_goals obtain ⟨h0, rfl⟩ := h; simp [encode.eq_def, val_gr, *]

theorem encode_of_decodeX {e : Word} (h : decodeX t w e = some i) : encode i = some (w, some e) := by
  obtain ⟨-, ha, hb, -, -⟩ := fields_lt w
  rw [← encB_of_fields w]
  simp only [decodeX] at h
  split at h
  case h_1 ho =>
    simp only [Option.ite_none_right_eq_some, Option.some.injEq] at h
    obtain ⟨⟨h1, h2⟩, rfl⟩ := h
    simp [encode.eq_def, val_gr, *]
  case h_2 ho =>
    split at h <;> cases h
    simp_all [encode.eq_def, td_eq_some, tr_eq_some, unitOf_eq_some]
  case h_3 => cases h

theorem encode_decode (h : decodeWord t w x = some i) : encode i = some (w, if isX w then some x else none) := by
  simp only [decodeWord] at h
  split at h
  case isTrue hx => simp [hx, encode_of_decodeX h]
  case isFalse hx =>
    rw [if_neg hx]
    split at h
    case isTrue => exact encode_of_decodeA h
    case isFalse =>
      split at h
      case isTrue => exact encode_of_decodeBC h
      case isFalse => exact encode_of_decodeD h

end Encode

/-- Settles O59, from the fields that an encoded word shows and from the groups of the opcode table. -/
theorem decodeOfEncode : Obligations.DecodeOfEncode :=
  ⟨fun _ _ _ _ => decode_encode, fun _ _ _ _ => encode_decode⟩

end Sys2Proof

/-! # One step, the state after power-on, and the words the spec writes out -/

namespace Sys2Proof.Machine

/-- Settles O1: what `step` does with a queue that is not empty. -/
theorem stepRunsFrontCommand : Obligations.StepRunsFrontCommand := by
  intro s c rest h
  simp [step, h]

/-- Settles O57, by evaluating `State.reset`; no die and no pin is listed in it, so each holds its initial state. -/
theorem resetState : Obligations.ResetState := by
  refine ⟨rfl, rfl, rfl, ?_, rfl, ?_, rfl, rfl, rfl, rfl, rfl, rfl, rfl, rfl, ?_, fun d => ⟨rfl, rfl⟩, fun p => ⟨rfl, rfl⟩⟩
  all_goals decide

/-- Settles O58, by decoding each word. -/
theorem decodedWords : Obligations.DecodedWords := by
  intro t e
  refine ⟨?_, ?_, ?_, ?_, ?_, ?_, ?_⟩ <;> rfl

/-! ## How the instructions that end a step or reach a unit run -/

theorem exec_wait (t : Nat) (a : TReg) (s : State) :
    exec (.wait t a) s = .next (s.issue t (.wait t a) (bodyWait a)) := rfl

theorem exec_waite (t : Nat) (rd : GReg) (a : Option TReg) (s : State) :
    exec (.waite t rd a) s = .next (s.issue t (.waite t rd a) (bodyWaite rd a)) := rfl

theorem exec_stch (t : Nat) (ts : TReg) (ga : GReg) (h : Handle) (s : State) :
    exec (.stch t ts ga h) s = .next (s.issue t (.stch t ts ga h) (bodyStch t ts ga h)) := rfl

theorem exec_stchr (t : Nat) (ts : TReg) (ga : GReg) (h : Handle) (s : State) :
    exec (.stchr t ts ga h) s = .next (s.issue t (.stchr t ts ga h) (bodyStchr t ts ga h)) := rfl

theorem exec_capt (t : Nat) (x : TDst) (ga : GReg) (h : Handle) (s : State) :
    exec (.capt t x ga h) s = .next (s.issue t (.capt t x ga h) (bodyCapt x ga h)) := rfl

theorem exec_captp (t : Nat) (x : TDst) (h : Handle) (s : State) :
    exec (.captp t x h) s = .next (s.issue t (.captp t x h) (bodyCaptp x h)) := rfl

theorem exec_qput (t : Nat) (ga : GReg) (h : Handle) (s : State) :
    exec (.qput t ga h) s = .next (s.issue t (.qput t ga h) (bodyQput t ga h)) := rfl

theorem exec_qrsv (t : Nat) (rd ga : GReg) (h : Handle) (s : State) :
    exec (.qrsv t rd ga h) s = .next (s.issue t (.qrsv t rd ga h) (bodyQrsv rd ga h)) := rfl

theorem exec_qend (t : Nat) (h : Handle) (s : State) :
    exec (.qend t h) s = .next (s.issue t (.qend t h) (bodyQend t h)) := rfl

theorem exec_qget (t : Nat) (rd : GReg) (h : Handle) (s : State) :
    exec (.qget t rd h) s = .next (s.issue t (.qget t rd h) (bodyQget rd h)) := rfl

theorem exec_qmark (t : Nat) (h : Handle) (s : State) :
    exec (.qmark t h) s = .next (s.issue t (.qmark t h) (bodyQmark h)) := rfl

theorem exec_qrew (t : Nat) (h : Handle) (s : State) :
    exec (.qrew t h) s = .next (s.issue t (.qrew t h) (bodyQrew h)) := rfl

theorem exec_qrel (t : Nat) (h : Handle) (s : State) :
    exec (.qrel t h) s = .next (s.issue t (.qrel t h) (bodyQrel t h)) := rfl

theorem exec_qlvl (t : Nat) (rd ga : GReg) (h : Handle) (s : State) :
    exec (.qlvl t rd ga h) s = .next (s.issue t (.qlvl t rd ga h) (bodyQlvl rd ga h)) := rfl

theorem exec_pwmw (t : Nat) (ts : TReg) (ga gb : GReg) (h : Handle) (s : State) :
    exec (.pwmw t ts ga gb h) s = .next (s.issue t (.pwmw t ts ga gb h) (bodyPwmw t ts ga gb h)) := rfl

theorem exec_pwmc (t : Nat) (ts : TReg) (ga : GReg) (h : Handle) (s : State) :
    exec (.pwmc t ts ga h) s = .next (s.issue t (.pwmc t ts ga h) (bodyPwmc t ts ga h)) := rfl

theorem exec_hooprd (t : Nat) (rd ga : GReg) (h : Handle) (s : State) :
    exec (.hooprd t rd ga h) s = .next (s.issue t (.hooprd t rd ga h) (bodyHooprd rd ga h)) := rfl

theorem exec_hevt (t : Nat) (ga gb : GReg) (h : Handle) (s : State) :
    exec (.hevt t ga gb h) s = .next (s.issue t (.hevt t ga gb h) (bodyHevt t ga gb h)) := rfl

theorem exec_hcan (t : Nat) (ga : GReg) (h : Handle) (s : State) :
    exec (.hcan t ga h) s = .next (s.issue t (.hcan t ga h) (bodyHcan t ga h)) := rfl

end Sys2Proof.Machine

/-! # Loads and stores (R86, R117 to R120, R137) -/

namespace Sys2Proof.Machine

/-! ## Faults of an instruction that checks its causes -/

/-- An instruction none of whose causes is met goes on. -/
theorem guardAll_none {s : State} {l : List (Option Nat)} (h : lowest l = none) (f : Unit → IRes) : guardAll s l f = f () := by
  simp [guardAll, h]

/-- An instruction with a cause that is met faults with the lowest code (R129). -/
theorem guardAll_some {s : State} {l : List (Option Nat)} {c : Nat} (h : lowest l = some c) (f : Unit → IRes) :
    guardAll s l f = .trap s c 0 := by
  simp [guardAll, h]

/-- The lowest of three causes with rising codes. -/
theorem lowest_three (p q r : Bool) {a b c : Nat} (hab : a ≤ b) (hbc : b ≤ c) :
    lowest [failIf p a, failIf q b, failIf r c] = if p then some a else if q then some b else if r then some c else none := by
  cases p <;> cases q <;> cases r <;> simp [lowest, failIf] <;> omega

/-- Only MEM_UNCORRECTABLE, HISTORY_LOST and SOFTWARE have further information (R120, R83, R199). -/
theorem instrFault_info (s : State) (t : Nat) (k : Task) (st : Step) (pc : Nat) {code : Nat} (info : Nat)
    (h : code ≠ 0x06 ∧ code ≠ 0x0A ∧ code ≠ 0x0F) :
    s.instrFault t k st pc code info = s.instrFault t k st pc code 0 := by
  obtain ⟨h6, hA, hF⟩ := h
  simp [State.instrFault, h6, hA, hF]

section Traps
variable {s : State} {t : Nat} {i : Instr} {k : Task} {st : Step} {n : Nat}

namespace State.AtInstr

/-- An instruction that checks its causes faults with the lowest that is met. -/
theorem guardTrap (h : s.AtInstr t i k st n) {body : Body} {l : List (Option Nat)} {f : Unit → IRes} {c : Nat}
    (hb : body s k (st.past n) = guardAll s l f) (hl : lowest l = some c) :
    s.issue t i body = s.instrFault t k st st.w.pc c 0 :=
  h.trap (hb.trans (guardAll_some hl f))

/-- An instruction that reads memory faults with the lowest cause, which tells the first bad word it reads. -/
theorem memTrap (h : s.AtInstr t i k st n) {body : Body} {d : Nat} {offs : List Nat} {l : List (Option Nat)}
    {f : State → IRes} {c : Nat} (hb : body s k (st.past n) = Machine.guardMem s d offs l f) (hl : lowest l = some c) :
    s.issue t i body =
      s.instrFault t k st st.w.pc c ((offs.find? (fun o => s.badWord (dieAddr d o))).getD 0) :=
  h.trap (hb.trans (by simp [Machine.guardMem, hl]))

/-- The same for a cause that tells no place. -/
theorem memTrap_plain (h : s.AtInstr t i k st n) {body : Body} {d : Nat} {offs : List Nat}
    {l : List (Option Nat)} {f : State → IRes} {c : Nat} (hb : body s k (st.past n) = Machine.guardMem s d offs l f)
    (hl : lowest l = some c) (hc : c ≠ 0x06 ∧ c ≠ 0x0A ∧ c ≠ 0x0F) :
    s.issue t i body = s.instrFault t k st st.w.pc c 0 :=
  (h.memTrap hb hl).trans (instrFault_info _ _ _ _ _ _ hc)

end State.AtInstr

end Traps

/-! ## The word at a place -/

section Place
variable (s : State) (k : Task) (st : Step) (n : Nat)

@[simp] theorem privWord_past (o : Nat) : s.privWord k (st.past n) o = s.privWord k st o := rfl
@[simp] theorem privBad_past (o : Nat) : s.privBad k (st.past n) o = s.privBad k st o := rfl
@[simp] theorem placeWord_past (p : Place) : s.placeWord k (st.past n) p = s.placeWord k st p := by cases p <;> rfl
@[simp] theorem placeOffs_past (m : Nat) (p : Place) : k.placeOffs (st.past n) m p = k.placeOffs st m p := by cases p <;> rfl
@[simp] theorem storeLimit_past (ws : List Nat) : (st.past n).storeLimit ws = st.storeLimit ws := rfl

/-- The error of a word is that of each of its bytes (R120). -/
theorem badWord_dieAddr (d o : Nat) : s.badWord (dieAddr d (o / 4 * 4)) = s.badWord (dieAddr d o) := by
  unfold State.badWord dieAddr
  congr 1
  omega

/-- The byte offset on the die of the word of a place. -/
def Task.wordOff (k : Task) : Place → Nat
  | .priv o => k.dataBase + o / 4 * 4
  | .table o => o / 4 * 4
  | .out => 0

/-- A bad word that a load reads is the first of its bad words, at its own place. -/
theorem find_placeOffs_one {p : Place} (h : (s.placeWord k st p).2 = true) :
    ((k.placeOffs st 1 p).find? (fun o => s.badWord (dieAddr k.die o))).getD 0 = k.wordOff p := by
  cases p with
  | priv o =>
    simp only [State.placeWord, State.privBad, Bool.and_eq_true] at h
    obtain ⟨hbuf, hbad⟩ := h
    simp [Task.placeOffs, Task.privOffs, Task.wordOff, hbad, Option.isNone_iff_eq_none.1 hbuf]
  | table o =>
    have hbad : s.badWord (dieAddr k.die (o / 4 * 4)) = true := by rw [badWord_dieAddr]; exact h
    simp [Task.placeOffs, Task.wordOff, hbad]
  | out => cases h

end Place

/-- The bytes of a word from byte `j` on, as a number. -/
theorem loadBytes_eq (w : Word) {j n : Nat} (hn : n = 1 ∨ n = 2 ∨ n = 4) :
    (w >>> (8 * j)) &&& BitVec.ofNat 32 (256 ^ n - 1) = BitVec.ofNat 32 (w.toNat / 256 ^ j % 256 ^ n) := by
  apply BitVec.eq_of_toNat_eq
  have hw := w.isLt
  have hpow : 256 ^ n = 2 ^ (8 * n) := by rw [Nat.pow_mul]
  have hle : 2 ^ (8 * n) ≤ 2 ^ 32 := Nat.pow_le_pow_right (by decide) (by omega)
  have hpos : 0 < 2 ^ (8 * n) := Nat.two_pow_pos _
  have hlt : w.toNat / 256 ^ j % 2 ^ (8 * n) < 2 ^ (8 * n) := Nat.mod_lt _ hpos
  rw [hpow, BitVec.toNat_and, BitVec.toNat_ofNat, BitVec.toNat_ofNat, BitVec.toNat_ushiftRight,
    Nat.mod_eq_of_lt (show 2 ^ (8 * n) - 1 < 2 ^ 32 by omega), Nat.and_two_pow_sub_one_eq_mod, Nat.shiftRight_eq_div_pow,
    Nat.mod_eq_of_lt (show w.toNat / 256 ^ j % 2 ^ (8 * n) < 2 ^ 32 by omega), Nat.pow_mul]

/-! ## Loads -/

section Loads
variable {s : State} {t : Nat} {k : Task} {st : Step} {n : Nat} {i : Instr}

/-- The lowest cause of a load of 1, 2 or 4 bytes. -/
theorem lowest_loadFaults (a : Word) {size : Nat} (hs : size ≠ 8) :
    lowest (s.loadFaults k st a size) =
      if k.place a.toNat size = .out then some 0x02 else if a.toNat % size ≠ 0 then some 0x03
      else if (s.placeWord k st (k.place a.toNat size)).2 then some 0x06 else none := by
  simp [State.loadFaults, lowest_three, hs]

theorem loadN_eq (size : Nat) (rd ra : GReg) (off : BitVec 18) :
    loadN size rd ra off s k (st.past n) =
      guardMem s k.die (k.placeOffs st 1 (k.place (effAddr (st.w.rg ra) off size).toNat size))
        (s.loadFaults k (st.past n) (effAddr (st.w.rg ra) off size) size)
        (fun s => .go s ((st.past n).wg rd (s.loadVal k (st.past n) (effAddr (st.w.rg ra) off size) size))) := by
  simp [loadN]

/-- LDB, LDH and LDW. -/
theorem load_result {size : Nat} {rd ra : GReg} {off : BitVec 18} {a : Nat} {p : Place} {w : Word} {bad : Bool}
    (hs : size = 1 ∨ size = 2 ∨ size = 4) (ha : a = (effAddr (st.w.rg ra) off size).toNat) (hp : p = k.place a size)
    (hw : s.placeWord k st p = (w, bad)) (h : s.AtInstr t i k st n) :
    (p ≠ .out → a % size = 0 → bad = false → s.issue t i (loadN size rd ra off) =
      s.toReg t k st n rd (BitVec.ofNat 32 (w.toNat / 256 ^ (a % 4) % 256 ^ size))) ∧
    (p = .out → s.issue t i (loadN size rd ra off) = s.instrFault t k st st.w.pc 0x02 0) ∧
    (p ≠ .out → a % size ≠ 0 → s.issue t i (loadN size rd ra off) = s.instrFault t k st st.w.pc 0x03 0) ∧
    (p ≠ .out → a % size = 0 → bad = true → s.issue t i (loadN size rd ra off) = s.instrFault t k st st.w.pc 0x06 (k.wordOff p)) := by
  subst ha hp
  have hl := lowest_loadFaults (s := s) (k := k) (st := st.past n) (effAddr (st.w.rg ra) off size) (size := size) (by omega)
  simp only [placeWord_past, hw] at hl
  refine ⟨fun hout hal hbad => ?_, fun hout => ?_, fun hout hal => ?_, fun hout hal hbad => ?_⟩
  · refine h.goOn ?_
    rw [loadN_eq, h.guardMem _ _ _ (by simp [hl, hout, hal, hbad])]
    simp only [State.loadVal, placeWord_past, hw]
    rw [loadBytes_eq w hs]
  · exact h.memTrap_plain (loadN_eq _ _ _ _) (by simp [hl, hout]) (by decide)
  · exact h.memTrap_plain (loadN_eq _ _ _ _) (by simp [hl, hout, hal]) (by decide)
  · rw [h.memTrap (loadN_eq _ _ _ _) (c := 0x06) (by simp [hl, hout, hal, hbad]),
      find_placeOffs_one s k st (by rw [hw]; exact hbad)]

/-- The lowest cause of LDD. -/
theorem lowest_loadFaultsD (a : Word) :
    lowest (s.loadFaults k st a 8) =
      if k.place a.toNat 8 = .out then some 0x02 else if a.toNat % 8 ≠ 0 then some 0x03
      else if (s.placeWord k st (k.place a.toNat 8)).2 || (s.placeWord k st (k.place a.toNat 8).next).2 then some 0x06
      else none := by
  simp [State.loadFaults, lowest_three]

/-- The first bad one of two words of the task's own data that LDD reads. -/
theorem find_privOffs_two {o : Nat} (h : s.privBad k st o = true ∨ s.privBad k st (o + 4) = true) :
    ((k.placeOffs st 2 (.priv o)).find? (fun x => s.badWord (dieAddr k.die x))).getD 0 =
      if s.privBad k st o then k.dataBase + o / 4 * 4 else k.dataBase + (o + 4) / 4 * 4 := by
  have hoffs : k.placeOffs st 2 (.priv o) =
      (if (nmGet? st.wbuf (o / 4)).isNone then [k.dataBase + o / 4 * 4] else []) ++
        (if (nmGet? st.wbuf ((o + 4) / 4)).isNone then [k.dataBase + (o + 4) / 4 * 4] else []) := by
    simp only [Task.placeOffs, Task.privOffs, show List.range 2 = [0, 1] from rfl, List.filter_cons, List.filter_nil,
      Nat.mul_zero, Nat.mul_one, Nat.add_zero]
    split <;> split <;> rfl
  rw [hoffs]
  unfold State.privBad at h ⊢
  split <;> split <;> cases h0 : s.badWord (dieAddr k.die (k.dataBase + o / 4 * 4)) <;> simp_all

/-- The first bad one of two words of a table that LDD reads. -/
theorem find_tableOffs_two {o : Nat}
    (h : s.badWord (dieAddr k.die (o / 4 * 4)) = true ∨ s.badWord (dieAddr k.die (o / 4 * 4 + 4)) = true) :
    ((k.placeOffs st 2 (.table o)).find? (fun x => s.badWord (dieAddr k.die x))).getD 0 =
      if s.badWord (dieAddr k.die (o / 4 * 4)) then o / 4 * 4 else o / 4 * 4 + 4 := by
  have hr : List.range 2 = [0, 1] := rfl
  cases h0 : s.badWord (dieAddr k.die (o / 4 * 4)) <;> simp_all [Task.placeOffs]

theorem bodyLdd_eq (td : TDst) (ra : GReg) (off : BitVec 18) :
    bodyLdd td ra off s k (st.past n) =
      guardMem s k.die (k.placeOffs st 2 (k.place (effAddr (st.w.rg ra) off 8).toNat 8))
        (s.loadFaults k (st.past n) (effAddr (st.w.rg ra) off 8) 8)
        (fun s => .go s ((st.past n).wt td (s.loadValD k (st.past n) (effAddr (st.w.rg ra) off 8)))) := by
  simp [bodyLdd]

/-- LDD of two readable words. -/
theorem ldd_result {td : TDst} {ra : GReg} {off : BitVec 18} {a : Nat} {p : Place}
    (ha : a = (effAddr (st.w.rg ra) off 8).toNat) (hp : k.place a 8 = p) (h : s.AtInstr t (.ldd t td ra off) k st n)
    (hout : p ≠ .out) (hal : a % 8 = 0) (h0 : (s.placeWord k st p).2 = false) (h1 : (s.placeWord k st p.next).2 = false) :
    s.issue t (.ldd t td ra off) (bodyLdd td ra off) =
      s.carryOn t k ((st.past n).wt td ((s.placeWord k st p.next).1 ++ (s.placeWord k st p).1)) := by
  subst ha
  refine h.goOn ?_
  rw [bodyLdd_eq, h.guardMem _ _ _ (by simp [lowest_loadFaultsD, hp, hout, hal, h0, h1])]
  simp [State.loadValD, hp]

/-- LDD with an uncorrectable word. -/
theorem ldd_bad {td : TDst} {ra : GReg} {off : BitVec 18} {a : Nat} {p : Place}
    (ha : a = (effAddr (st.w.rg ra) off 8).toNat) (hp : k.place a 8 = p) (h : s.AtInstr t (.ldd t td ra off) k st n)
    (hout : p ≠ .out) (hal : a % 8 = 0) (hbad : ((s.placeWord k st p).2 || (s.placeWord k st p.next).2) = true) :
    s.issue t (.ldd t td ra off) (bodyLdd td ra off) = s.instrFault t k st st.w.pc 0x06
      (((k.placeOffs st 2 p).find? (fun x => s.badWord (dieAddr k.die x))).getD 0) := by
  subst ha
  rw [h.memTrap (bodyLdd_eq _ _ _) (c := 0x06) (by simp [lowest_loadFaultsD, hp, hout, hal, Bool.or_eq_true _ _ ▸ hbad]), hp]

theorem place_priv {a m : Nat} (h : a + m ≤ k.dataBytes) : k.place a m = .priv a := by simp [Task.place, h]

end Loads

/-! ## Stores -/

section Stores
variable {s : State} {t : Nat} {k : Task} {st : Step} {n : Nat} {i : Instr}

theorem privOff_isNone (a m : Nat) : (k.privOff a m).isNone = decide (k.dataBytes < a + m) := by
  unfold Task.privOff
  split <;> simp <;> omega

/-- A store of `m` bytes, by its lowest cause. -/
theorem store_result {body : Body} {a m : Nat} {ws : List Nat} {st' : Step} (h : s.AtInstr t i k st n)
    (hb : body s k (st.past n) = guardAll s
      [failIf (k.privOff a m).isNone 0x02, failIf (a % m != 0) 0x03, failIf (st.storeLimit ws) 0x07] fun _ => .go s st') :
    (a + m ≤ k.dataBytes → a % m = 0 → st.storeLimit ws = false → s.issue t i body = s.carryOn t k st') ∧
    (k.dataBytes < a + m → s.issue t i body = s.instrFault t k st st.w.pc 0x02 0) ∧
    (a + m ≤ k.dataBytes → a % m ≠ 0 → s.issue t i body = s.instrFault t k st st.w.pc 0x03 0) ∧
    (a + m ≤ k.dataBytes → a % m = 0 → st.storeLimit ws = true → s.issue t i body = s.instrFault t k st st.w.pc 0x07 0) := by
  have hl := lowest_three (k.privOff a m).isNone (a % m != 0) (st.storeLimit ws) (a := 0x02) (b := 0x03) (c := 0x07)
    (by decide) (by decide)
  rw [privOff_isNone] at hl hb
  refine ⟨fun hin hal hlim => ?_, fun hout => ?_, fun hin hal => ?_, fun hin hal hlim => ?_⟩
  · exact h.goOn (hb.trans (guardAll_none (by rw [hl]; simp [hin.not_gt, hal, hlim]) _))
  · exact h.guardTrap hb (by rw [hl]; simp [hout])
  · exact h.guardTrap hb (by rw [hl]; simp [hin.not_gt, hal])
  · exact h.guardTrap hb (by rw [hl]; simp [hin.not_gt, hal, hlim])

end Stores

/-- Settles O5: each instruction by the lowest of its causes. -/
theorem loadsAndStores : Obligations.LoadsAndStores := by
  unfold Obligations.LoadsAndStores
  refine ⟨?_, ?_, ?_, ?_⟩
  · intro s t k st n size rd ra off i a p w bad hi ha hp hw h
    have hx : exec i s = .next (s.issue t i (loadN size rd ra off)) := by
      rcases hi with ⟨rfl, rfl⟩ | ⟨rfl, rfl⟩ | ⟨rfl, rfl⟩ <;> rfl
    obtain ⟨hok, hout, hal, hbad⟩ := load_result (size := size) (rd := rd) (by omega) ha hp hw h
    rw [hx]
    refine ⟨fun h1 h2 h3 => congrArg _ (hok h1 h2 h3), fun h1 => congrArg _ (hout h1),
      fun h1 h2 => congrArg _ (hal h1 h2), fun h1 h2 h3 => congrArg _ ((hbad h1 h2 h3).trans ?_)⟩
    cases p <;> rfl
  · intro s t k st n td ra off a ha h
    have hx : exec (.ldd t td ra off) s = .next (s.issue t (.ldd t td ra off) (bodyLdd td ra off)) := rfl
    rw [hx]
    have hl := lowest_loadFaultsD (s := s) (k := k) (st := st.past n) (effAddr (st.w.rg ra) off 8)
    simp only [show (effAddr (st.w.rg ra) off 8).toNat = a from ha.symm] at hl
    refine ⟨fun hin hal h0 h1 => ?_, fun o hp hal h0 h1 => ?_, fun hout => ?_, fun hout hal => ?_,
      fun hin hal hbad => ?_, fun o hp hal hbad => ?_⟩ <;> refine congrArg _ ?_
    · rw [ldd_result ha (place_priv hin) h (by simp) hal (by rw [State.placeWord]; exact h0)
          (by rw [Place.next, State.placeWord]; exact h1), Place.next, State.placeWord, State.placeWord]
    · rw [ldd_result ha hp h (by simp) hal (by rw [State.placeWord]; exact h0) (by rw [Place.next, State.placeWord]; exact h1),
        Place.next, State.placeWord, State.placeWord]
    · exact h.memTrap_plain (bodyLdd_eq _ _ _) (by simp [hl, hout]) (by decide)
    · exact h.memTrap_plain (bodyLdd_eq _ _ _) (by simp [hl, hout, hal]) (by decide)
    · rw [ldd_bad ha (place_priv hin) h (by simp) hal (by simpa [State.placeWord, Place.next] using hbad), find_privOffs_two hbad]
    · have hbad' : s.badWord (dieAddr k.die o) || s.badWord (dieAddr k.die (o + 4)) := by
        rw [← badWord_dieAddr s _ o, ← badWord_dieAddr s _ (o + 4), show (o + 4) / 4 * 4 = o / 4 * 4 + 4 by omega]
        simpa using hbad
      rw [ldd_bad ha hp h (by simp) hal hbad', find_tableOffs_two hbad]
  · intro s t k st n size ra rb off i a w hi ha hw h
    have hx : exec i s = .next (s.issue t i (storeN size ra rb off)) := by
      rcases hi with ⟨rfl, rfl⟩ | ⟨rfl, rfl⟩ | ⟨rfl, rfl⟩ <;> rfl
    rw [hx]
    simp only [Host.Outcome.next.injEq]
    subst ha hw
    exact store_result h (by simp [storeN, effAddr, sext18, Step.putWord])
  · intro s t k st n ra tb off a ha h
    have hx : exec (.std t ra tb off) s = .next (s.issue t (.std t ra tb off) (bodyStd ra tb off)) := rfl
    rw [hx]
    simp only [Host.Outcome.next.injEq]
    subst ha
    exact store_result h (by simp [bodyStd, effAddr, sext18, Step.putWords, Step.putWord])

/-! ## A load after a store of the same step -/

/-- The bits of a merged word: those of the bytes from `b` on come from the value stored. -/
theorem getLsbD_mergeWord (w v : Word) {b n j : Nat} (hj : j < 32) :
    (mergeWord w v b n).getLsbD j = if 8 * b ≤ j ∧ j < 8 * (b + n) then v.getLsbD (j - 8 * b) else w.getLsbD j := by
  have hmask : (BitVec.ofNat 32 ((256 ^ n - 1) * 256 ^ b)).getLsbD j = decide (8 * b ≤ j ∧ j < 8 * (b + n)) := by
    rw [BitVec.getLsbD_ofNat, show (256 : Nat) = 2 ^ 8 from rfl, ← Nat.pow_mul, ← Nat.pow_mul, Nat.testBit_mul_two_pow,
      Nat.testBit_two_pow_sub_one]
    by_cases h : 8 * b ≤ j <;> simp [hj, h]
    omega
  simp only [mergeWord, BitVec.getLsbD_or, BitVec.getLsbD_and, BitVec.getLsbD_not, BitVec.getLsbD_shiftLeft, hmask, hj]
  by_cases h : 8 * b ≤ j ∧ j < 8 * (b + n)
  · simp [h, h.1.not_gt]
  · simp [h]

/-- The bytes of a merged word that were stored, shifted down, are the low bytes of the value. -/
theorem mergeWord_loaded (w v : Word) {b n : Nat} (hn : n = 1 ∨ n = 2 ∨ n = 4) (hb : b + n ≤ 4) :
    (mergeWord w v b n >>> (8 * b)) &&& BitVec.ofNat 32 (256 ^ n - 1) = BitVec.ofNat 32 (v.toNat % 256 ^ n) := by
  have hv : BitVec.ofNat 32 (v.toNat % 256 ^ n) = (v >>> (8 * 0)) &&& BitVec.ofNat 32 (256 ^ n - 1) := by
    rw [loadBytes_eq v hn, Nat.pow_zero, Nat.div_one]
  have hmask (i : Nat) (hi : i < 32) : (BitVec.ofNat 32 (256 ^ n - 1)).getLsbD i = decide (i < 8 * n) := by
    rw [BitVec.getLsbD_ofNat, show (256 : Nat) = 2 ^ 8 from rfl, ← Nat.pow_mul, Nat.testBit_two_pow_sub_one]
    simp [hi]
  rw [hv]
  refine BitVec.eq_of_getLsbD_eq fun i hi => ?_
  simp only [BitVec.getLsbD_and, BitVec.getLsbD_ushiftRight, hmask i hi]
  by_cases h : i < 8 * n
  · rw [getLsbD_mergeWord _ _ (by omega), if_pos (by omega)]
    simp
  · simp [h]

/-- Settles O6, bit by bit of the word that the store merged into. -/
theorem loadAfterStore : Obligations.LoadAfterStore := by
  intro s k st a size v st' hs ha hal hin hst
  subst hst
  have hb : a % 4 + size ≤ 4 := by rcases hs with rfl | rfl | rfl <;> omega
  have hword : ∀ o, o / 4 = a / 4 → s.privWord k (st.putWord (a / 4) (mergeWord (s.privWord k st a) v (a % 4) size)) o =
      mergeWord (s.privWord k st a) v (a % 4) size := by
    intro o ho
    simp [State.privWord, Step.putWord, ho]
  have hsame : ∀ o, o / 4 = a / 4 → s.privWord k st o = s.privWord k st a := by
    intro o ho
    simp [State.privWord, ho]
  refine ⟨?_, fun o ho => ?_, fun o ho j hj hout => ?_⟩
  · have hadd : (BitVec.ofNat 32 a).toNat = a := by simpa using Nat.mod_eq_of_lt ha
    have hload : lowest (s.loadFaults k (st.putWord (a / 4) (mergeWord (s.privWord k st a) v (a % 4) size)) (BitVec.ofNat 32 a) size)
        = none := by
      rw [lowest_loadFaults _ (by omega), hadd, place_priv hin]
      simp [hal, State.placeWord, State.privBad, Step.putWord]
    simp only [State.load, hload, State.loadVal, hadd, place_priv hin, State.placeWord, hword a rfl]
    rw [mergeWord_loaded _ _ hs hb]
  · simp [State.privWord, Step.putWord, nmGet?_nmPut_ne _ _ _ _ ho]
  · rw [hword o ho, hsame o ho, getLsbD_mergeWord _ _ hj, if_neg (by omega)]

/-! ## The end of a step (R158 to R162, R199) -/

/-- The lowest cause of WAIT and WAITE with a timer. -/
theorem lowest_timerFaults (k : Task) (st : Step) (ta : Time) :
    lowest (timerFaults k st ta) =
      if before ta st.tl then some 0x09 else if k.hasTimer then st.packetOpen else some 0x11 := by
  unfold timerFaults Step.packetOpen
  cases before ta st.tl <;> cases k.hasTimer <;> cases st.pkts <;> simp [lowest, failIf]

theorem lowest_packetOpen (st : Step) : lowest [st.packetOpen] = if st.pkts = [] then none else some 0x13 := by
  unfold Step.packetOpen
  cases st.pkts <;> simp [lowest, failIf]

section EndStep
variable {s : State} {t : Nat} {k : Task} {st : Step} {n : Nat} {i : Instr} {body : Body} {next : Resume}

/-- An instruction that ends the step without a timer. -/
theorem end_result (h : s.AtInstr t i k st n)
    (hb : body s k (st.past n) = guardAll s [(st.past n).packetOpen] fun _ => .commit s (st.past n) next none) :
    (st.pkts = [] → s.issue t i body = s.commit t k (st.past n) next none) ∧
    (st.pkts ≠ [] → s.issue t i body = s.instrFault t k st st.w.pc 0x13 0) := by
  have hl := lowest_packetOpen (st.past n)
  rw [Step.past_pkts] at hl
  exact ⟨fun h0 => h.commit (hb.trans (guardAll_none (by rw [hl, if_pos h0]) _)),
    fun h0 => h.guardTrap hb (by rw [hl, if_neg h0])⟩

/-- An instruction that ends the step and sets the timer. -/
theorem endTimer_result {ta : Time} (h : s.AtInstr t i k st n)
    (hb : body s k (st.past n) =
      guardAll s (timerFaults k (st.past n) ta) fun _ => .commit s (st.past n) next (some ta)) :
    (st.pkts = [] → before ta st.tl = false → k.hasTimer = true →
      s.issue t i body = s.commit t k (st.past n) next (some ta)) ∧
    (before ta st.tl = true → s.issue t i body = s.instrFault t k st st.w.pc 0x09 0) ∧
    (before ta st.tl = false → k.hasTimer = false → s.issue t i body = s.instrFault t k st st.w.pc 0x11 0) ∧
    (before ta st.tl = false → k.hasTimer = true → st.pkts ≠ [] →
      s.issue t i body = s.instrFault t k st st.w.pc 0x13 0) := by
  have hl := lowest_timerFaults k (st.past n) ta
  rw [Step.past_tl] at hl
  refine ⟨fun hp he ht => h.commit (hb.trans (guardAll_none ?_ _)), fun he => h.guardTrap hb ?_,
    fun he ht => h.guardTrap hb ?_, fun he ht hp => h.guardTrap hb ?_⟩
  · simp [hl, he, ht, Step.packetOpen, failIf, hp]
  · simp [hl, he]
  · simp [hl, he, ht]
  · simp [hl, he, ht, Step.packetOpen, failIf, hp]

end EndStep

/-- Settles O8: each instruction by the lowest of its causes, and `Task.startCtx` by how the next step starts. -/
theorem endWaitCommit : Obligations.EndWaitCommit := by
  intro s t k st n ta rd code i next
  refine ⟨fun h hp => congrArg _ ((end_result h rfl).1 hp), fun h hp => congrArg _ ((end_result h rfl).2 hp),
    fun hi h => ?_, fun h hp => congrArg _ ((end_result h rfl).1 hp), fun h hp => congrArg _ ((end_result h rfl).2 hp),
    fun k' a x pc => ⟨fun hr hx => ?_, fun hr => ?_, fun hr => ?_⟩, fun h => ⟨congrArg _ (h.trap rfl), fun hc => ?_⟩⟩
  · rcases hi with ⟨rfl, rfl⟩ | ⟨rfl, rfl⟩ <;>
      simpa only [exec_wait, exec_waite, Host.Outcome.next.injEq] using endTimer_result h (by simp [bodyWait, bodyWaite])
  · simp [Task.startCtx, hr, hx]
  · simp [Task.startCtx, hr]
  · simp [Task.startCtx, hr, Act.descriptor, b2n]
  · refine congrArg _ ((h.trap (body := bodyFault code) rfl).trans ?_)
    simp [State.instrFault, hc]

end Sys2Proof.Machine

/-! # Commit (R88, R90, R91) -/

namespace Sys2Proof.Machine

/-! ## States to refute with -/

/-- A task with nothing in its image, placed at the start of die 0 and running. -/
def Task.bare : Task :=
  { rank := 0, stopPolicy := false, deferrable := false, privileged := false, lead := 0, codeWords := 0, dataBytes := 0, digest := 0,
    sources := [], res := [], tables := [], dataInit := [], affinity := 0, die := 0, slot := 0, ctx := 0, codeBase := 0,
    dataBase := 0, held := true, memHeld := true, cross := false, crossHist := [], mig := none, state := .running, faultCode := 0,
    faultPc := 0, run := 0, startStamp := 0, c := Ctx.zero, resume := .entry, seq := 0, lastT := 0, lastTl := 0, step := none,
    pend := [], timer := none, served := [], dropped := 0, marks := [], brk := false, halt := none, stopAt := none, falls := [],
    stitches := [], cmps := [], capts := [], rps := [], lateSeen := [] }

/-- An activation at ground time 0. -/
def Act.bare : Act := { t := 0, src := 0, slot := 0, event := 0, edge := false, k1 := 0, k2 := 0, k3 := 0, payload := [] }

/-- A step that has done nothing yet. -/
def Step.bare : Step :=
  { act := Act.bare, tl := 0, reserve := 0, running := true, w := Ctx.zero, wbuf := [], extra := 0, effs := [], stitches := [],
    cmps := [], capts := [], pkts := [], rps := [], fullRecs := [], lates := [], cutOff := false, single := false, tested := true }

/-- Refutes O9: a step whose one effect is a record (EVNT) has no failed reservation and no late sample, yet its commit numbers
the record, and so changes DIE_ORIGIN_COUNT (R501). -/
theorem not_commitIsWhole : ¬ Obligations.CommitIsWhole := by
  intro h
  have hregs := (h State.reset _ 0 Task.bare ((Step.bare).addEff 0 Task.bare 0 (.event 0 0 0 [])) .entry none rfl).2.2.1 rfl rfl
  exact absurd (congrArg List.length hregs) (by decide)

end Sys2Proof.Machine

/-! # Pin instructions (R164 to R170) -/

namespace Sys2Proof.Machine

section Past
variable (s : State) (t p : Nat) (st : Step) (n : Nat)

@[simp] theorem past_onPin : (st.past n).onPin p = st.onPin p := rfl
@[simp] theorem past_held : (st.past n).held p = st.held p := rfl
@[simp] theorem past_capts : (st.past n).capts = st.capts := rfl
@[simp] theorem past_effFault (x : Time) : (st.past n).effFault x = st.effFault x := rfl
@[simp] theorem cmpTargets_past : s.cmpTargets t (st.past n) p = s.cmpTargets t st p := rfl

end Past

section Stitches
variable {s : State} {t : Nat} {k : Task} {st : Step} {n : Nat} {i : Instr} {x : Time} {v : Word} {r : Res}

/-- The order of stitches and their count do not look at which of them are replaceable. -/
theorem beforeAny_plain (l : List (Time × Bool)) : beforeAny x (l.map fun e => (e.1, false)) = beforeAny x l := by
  simp [beforeAny, List.any_map, Function.comp_def]

theorem stitchCount_plain (p : Nat) (tn : Time) (l : List (Time × Bool)) :
    s.stitchCount t p tn (l.map fun e => (e.1, false)) = s.stitchCount t p tn l := by
  simp [State.stitchCount, List.filter_map, Function.comp_def]

theorem effFault_none (he : before x st.tl = false) (hn : st.effs.length < 128) : st.effFault x = none := by
  simp [Step.effFault, he, hn.not_ge]

/-- Where the handle, the level and the stamp are right, STITCH_ORDER and STITCH_FULL are left. -/
theorem lowest_stitchFaults (hc : s.cmpTargets t st r.a = false) (hv : v.toNat ≤ 1) (he : before x st.tl = false)
    (hn : st.effs.length < 128) (l : List (Time × Bool)) :
    lowest (s.stitchFaults t (st.past n) x v (some r) ++ s.stitchSetFaults t (some r) (st.past n) x l) =
      if beforeAny x l then some 0x0C else if 32 < s.stitchCount t r.a st.act.t l then some 0x10 else none := by
  simp only [State.stitchFaults, State.stitchSetFaults, past_effFault, effFault_none he hn, cmpTargets_past, hc, Step.past_tl, he,
    Step.past_act, hv.not_gt, decide_false]
  by_cases h1 : beforeAny x l <;> by_cases h2 : 32 < s.stitchCount t r.a st.act.t l <;> simp [lowest, failIf, h1, h2]

/-- An instruction that sets a stitch, by its lowest cause. -/
theorem stitch_result {body : Body} {st' : Step} {l : List (Time × Bool)} (h : s.AtInstr t i k st n)
    (hc : s.cmpTargets t st r.a = false) (hv : v.toNat ≤ 1) (he : before x st.tl = false) (hn : st.effs.length < 128)
    (hb : body s k (st.past n) =
      guardAll s (s.stitchFaults t (st.past n) x v (some r) ++ s.stitchSetFaults t (some r) (st.past n) x l) fun _ => .go s st') :
    (beforeAny x l = false → s.stitchCount t r.a st.act.t l ≤ 32 → s.issue t i body = s.carryOn t k st') ∧
    (beforeAny x l = true → s.issue t i body = s.instrFault t k st st.w.pc 0x0C 0) ∧
    (beforeAny x l = false → 32 < s.stitchCount t r.a st.act.t l → s.issue t i body = s.instrFault t k st st.w.pc 0x10 0) := by
  have hl := lowest_stitchFaults (n := n) hc hv he hn l
  refine ⟨fun h1 h2 => h.goOn (hb.trans (guardAll_none (by simp [hl, h1, h2.not_gt]) _)),
    fun h1 => h.guardTrap hb (by simp [hl, h1]), fun h1 h2 => h.guardTrap hb (by simp [hl, h1, h2])⟩

/-- A level of 0 or 1 is its lowest bit (R164). -/
theorem level_eq (hv : v.toNat ≤ 1) : v[0] = (v == 1#32) := by
  have h : v = 0 ∨ v = 1 := by
    rcases (show v.toNat = 0 ∨ v.toNat = 1 by omega) with h | h
    · exact .inl (BitVec.eq_of_toNat_eq h)
    · exact .inr (BitVec.eq_of_toNat_eq h)
  rcases h with rfl | rfl <;> rfl

end Stitches

/-! ## Captures -/

section Captures
variable {s : State} {t : Nat} {k : Task} {st : Step} {n : Nat} {td : TDst} {ga : GReg} {h : Handle} {r : Res} 

theorem bodyCapt_old (hr : k.handle [1, 2] h = some r) (ha : (if r.kind = 1 then 31 else 7) < (st.w.rg ga).toNat) :
    bodyCapt td ga h s k (st.past n) = .trap s 0x11 0 := by
  simp [bodyCapt, hr, ha]

theorem bodyCapt_pin (hr : k.handle [1, 2] h = some r) (hk : r.kind = 1) (ha : (st.w.rg ga).toNat ≤ 31) :
    bodyCapt td ga h s k (st.past n) = s.captPin r.a (st.w.rg ga).toNat td (st.past n) := by
  simp [bodyCapt, hr, hk, ha.not_gt]

theorem bodyCapt_trip (hr : k.handle [1, 2] h = some r) (hk : r.kind = 2) (ha : (st.w.rg ga).toNat ≤ 7) :
    bodyCapt td ga h s k (st.past n) = s.captTrip r.a (st.w.rg ga).toNat td (st.past n) := by
  simp [bodyCapt, hr, hk, ha.not_gt]

end Captures

/-- Settles O10: each stitch by the lowest of its causes, each capture by what the history holds as of T. -/
theorem pinInstructions : Obligations.PinInstructions := by
  refine ⟨?_, ?_⟩
  · intro s t k st n ts ga h r x plain hr hc hv hx he hn hplain
    subst hx hplain
    simp only [exec_stch, exec_stchr, Host.Outcome.next.injEq]
    refine ⟨fun hi => ?_, fun hi hh => ?_, fun hi old l hh hfar hl => ?_, fun hi old hh hnear => ?_⟩
    · simp only [beforeAny_plain, stitchCount_plain]
      exact stitch_result hi hc hv he hn (by simp [bodyStch, hr, level_eq hv])
    · exact stitch_result hi hc hv he hn (by simp [bodyStchr, hr, hh, level_eq hv])
    · subst hl
      have hfar' : upTo old (st.tl + nsT 100) = false := hfar
      exact stitch_result hi hc hv he hn (by simp [bodyStchr, hr, hh, hfar', level_eq hv])
    · have hnear' : upTo old (st.tl + nsT 100) = true := hnear
      have hl : lowest (s.stitchFaults t (st.past n) (st.rt ts) (st.w.rg ga) (some r)) = none := by
        simp [State.stitchFaults, hc, he, hv.not_gt, lowest, failIf]
      refine hi.go ?_ (by simpa using hi.task)
      simp [bodyStchr, hr, hh, hnear', guardAll_none hl]
  · intro s t k st n td ga h r age v hage hv
    subst hage hv
    simp only [exec_capt, exec_captp, Host.Outcome.next.injEq]
    refine ⟨fun hi hr hk => ⟨fun i x l he ha hd => ?_, fun he ha hd => ?_, fun i x l he ha hd => ?_, fun he ha hd => ?_, fun ha => ?_⟩,
      fun hi hr hk => ⟨fun i x l he ha hd => ?_, fun he ha hd => ?_, fun i x l he ha hd => ?_, fun he ha hd => ?_, fun ha => ?_⟩,
      fun hi hr => ⟨fun i x l he hd => ?_, fun i x l he hd => ?_, fun he => ⟨fun hd => ?_, fun hd => ?_⟩⟩⟩
    · exact hi.goOn (by rw [bodyCapt_pin hr hk ha]; simp [State.captPin, he, hd.not_ge])
    · exact hi.goOn (by rw [bodyCapt_pin hr hk ha]; simp [State.captPin, he, overwritten, hd.not_gt])
    · exact hi.trap (by rw [bodyCapt_pin hr hk ha]; simp [State.captPin, he, hd, unitWord])
    · exact hi.trap (by rw [bodyCapt_pin hr hk ha]; simp [State.captPin, he, overwritten, hd, unitWord])
    · exact hi.trap (bodyCapt_old hr (by simpa [hk] using ha))
    · exact hi.goOn (by rw [bodyCapt_trip hr hk ha]; simp [State.captTrip, he, hd.not_ge])
    · exact hi.goOn (by rw [bodyCapt_trip hr hk ha]; simp [State.captTrip, he, overwritten, hd.not_gt])
    · exact hi.trap (by rw [bodyCapt_trip hr hk ha]; simp [State.captTrip, he, hd, unitWord])
    · exact hi.trap (by rw [bodyCapt_trip hr hk ha]; simp [State.captTrip, he, overwritten, hd, unitWord])
    · exact hi.trap (bodyCapt_old hr (by simpa [hk] using ha))
    · exact hi.goOn (by simp [bodyCaptp, hr, he, hd.not_ge])
    · exact hi.trap (by simp [bodyCaptp, hr, he, hd, unitWord])
    · exact hi.goOn (by simp [bodyCaptp, hr, he, hd])
    · exact hi.trap (by simp [bodyCaptp, hr, he, hd, unitWord])

end Sys2Proof.Machine

/-! # Queue instructions (R187 to R193) -/

namespace Sys2Proof.Machine

section Past
variable (s : State) (st : Step) (n q : Nat)

@[simp] theorem past_openAt (slot : Nat) : (st.past n).openAt slot = st.openAt slot := rfl
@[simp] theorem past_wordLimit : (st.past n).wordLimit = st.wordLimit := rfl
@[simp] theorem queueFree_past : s.queueFree (st.past n) q = s.queueFree st q := rfl
@[simp] theorem readPoint_past : s.readPoint (st.past n) q = s.readPoint st q := rfl
@[simp] theorem qlevel_past (kind sel : Nat) : s.qlevel (st.past n) kind q sel = s.qlevel st kind q sel := rfl

end Past

/-- A step's own effect at T + L is never early (R89). -/
theorem effFault_tl {st : Step} (hn : st.effs.length < 128) : st.effFault st.tl = none :=
  effFault_none (by simp [before]) hn

theorem wordLimit_false {st : Step} (he : st.entries < 256) : st.wordLimit = false := by
  simp [Step.wordLimit]
  omega

/-! ## The producer side -/

section Producer
variable {s : State} {t : Nat} {k : Task} {st : Step} {n : Nat} {ga rd : GReg} {h : Handle} {r : Res} {p : OpenPkt}

theorem bodyQput_fits (hr : k.handle [10] h = some r) (hp : st.openAt (hSlot h) = none) (hf : 2 ≤ s.queueFree st r.a)
    (he : st.entries < 256) (hn : st.effs.length < 128) :
    bodyQput t ga h s k (st.past n) =
      .go s (((((st.past n).addEff t k st.tl (.packet r.a [st.w.rg ga])).addWord)).wf { st.w.fl with c := false }) := by
  have hl : lowest [failIf st.wordLimit 0x07, st.effFault st.tl] = none := by
    simp [wordLimit_false he, effFault_tl hn, lowest, failIf]
  simp [bodyQput, hr, hp, hf, guardAll_none hl, Step.wc, Step.addWord, Step.addEff]

theorem bodyQput_full (hr : k.handle [10] h = some r) (hp : st.openAt (hSlot h) = none) (hf : s.queueFree st r.a < 2) :
    bodyQput t ga h s k (st.past n) = .go s (((st.past n).addFull s r.a 2).wf { st.w.fl with c := true }) := by
  simp [bodyQput, hr, hp, hf.not_ge, Step.wc, Step.addFull]

theorem bodyQput_open (hr : k.handle [10] h = some r) (hp : st.openAt (hSlot h) = some p) (hv : p.isVoid = false)
    (he : st.entries < 256) :
    bodyQput t ga h s k (st.past n) = if p.words.length < p.size then
        .go s (((st.past n).setPkt { p with words := p.words ++ [st.w.rg ga] }).addWord)
      else .trap s 0x12 0 := by
  simp only [bodyQput, hr, past_openAt, hp, hv, past_wordLimit, wordLimit_false he]
  by_cases hw : p.words.length < p.size
  · simp [hw, hw.not_ge, guardAll, lowest, failIf]
  · simp [hw, Nat.not_lt.1 hw, guardAll, lowest, failIf]

theorem bodyQrsv_eq (hr : k.handle [10] h = some r) (hp : st.openAt (hSlot h) = none) (h1 : 1 ≤ (st.w.rg ga).toNat)
    (h2 : (st.w.rg ga).toNat ≤ 65535) (he : st.entries < 256) :
    bodyQrsv rd ga h s k (st.past n) =
      (let m := (st.w.rg ga).toNat
       let f := BitVec.ofNat 32 (s.queueFree st r.a)
       if m + 1 ≤ s.queueFree st r.a then
         goRd s ({ st.past n with pkts := st.pkts ++ [(⟨hSlot h, r.a, m, [], false⟩ : OpenPkt)] }.addWord) rd f ⟨f == 0, f.msb, false, st.w.fl.v⟩
       else goRd s ({ st.past n with pkts := st.pkts ++ [(⟨hSlot h, r.a, m, [], true⟩ : OpenPkt)] }.addFull s r.a (m + 1)) rd f
         ⟨f == 0, f.msb, true, st.w.fl.v⟩) := by
  have hz : (st.w.rg ga).toNat ≠ 0 := by omega
  by_cases hf : (st.w.rg ga).toNat + 1 ≤ s.queueFree st r.a <;>
    simp [bodyQrsv, hr, hp, hf, hz, h2.not_gt, wordLimit_false he, guardAll, lowest, failIf]

theorem bodyQend_void (hr : k.handle [10] h = some r) (hp : st.openAt (hSlot h) = some p) (hv : p.isVoid = true) :
    bodyQend t h s k (st.past n) =
      .go s (({ st.past n with pkts := st.pkts.filter (fun x => x.slot != p.slot) }.addFull s r.a (p.size + 1)).wf
        { st.w.fl with c := true }) := by
  simp [bodyQend, hr, hp, hv, Step.wc, Step.addFull]

theorem bodyQend_some (hr : k.handle [10] h = some r) (hp : st.openAt (hSlot h) = some p) (hv : p.isVoid = false)
    (hn : st.effs.length < 128) :
    bodyQend t h s k (st.past n) =
      .go s (({ st.past n with pkts := st.pkts.filter (fun x => x.slot != p.slot) }.addEff t k st.tl
        (.packet r.a p.words)).wf { st.w.fl with c := false }) := by
  have hl : lowest [st.effFault st.tl] = none := by simp [effFault_tl hn, lowest]
  simp [bodyQend, hr, hp, hv, Step.wc, guardAll_none hl, Step.addEff]

end Producer

/-! ## The consumer side -/

section Consumer
variable {s : State} {t : Nat} {k : Task} {st : Step} {n : Nat} {ga rd : GReg} {h : Handle} {r : Res} {i : Instr}

/-- QGET of an item that is there as of T. -/
theorem qget_item (hi : s.AtInstr t i k st n) (hr : k.handle [11] h = some r)
    (hin : (s.readPoint st r.a).rp < (s.que r.a).endAt st.act.t)
    (hb : s.badWord (s.ringAddr r.a (s.readPoint st r.a).rp) = false) :
    s.issue t i (bodyQget rd h) = s.toRegF t k (st.setRp r.a { s.readPoint st r.a with
      rp := (s.readPoint st r.a).rp + 1, gen := (s.que r.a).genAt st.act.t }) n rd (s.ringWord r.a (s.readPoint st r.a).rp) false
      ((s.que r.a).genAt st.act.t != (s.readPoint st r.a).gen) := by
  refine hi.goOn ?_
  simp only [bodyQget, hr, readPoint_past, Step.past_act, hin, if_true]
  rw [hi.guardMem _ _ _ (by simp [hb, lowest, failIf])]
  rfl

/-- QGET of the idle item (R191). -/
theorem qget_idle (hi : s.AtInstr t i k st n) (hr : k.handle [11] h = some r)
    (hin : (s.que r.a).endAt st.act.t ≤ (s.readPoint st r.a).rp) :
    s.issue t i (bodyQget rd h) = (s.bump F.QUE_IDLE_COUNT_idle_reads (queIx r.a)).toRegF t k
      (st.setRp r.a { s.readPoint st r.a with gen := (s.que r.a).genAt st.act.t }) n rd (s.reg .QUE_IDLE (queIx r.a)) true
      ((s.que r.a).genAt st.act.t != (s.readPoint st r.a).gen) := by
  refine hi.go ?_ (by simpa using hi.task)
  simp only [bodyQget, hr, readPoint_past, Step.past_act, hin.not_gt, if_false]
  rfl

/-- QLVL of a level that the side of the queue has (R193). -/
theorem qlvl_level (hi : s.AtInstr t i k st n) (hr : k.handle [10, 11] h = some r) {m : Nat}
    (hm : s.qlevel st r.kind r.a (st.w.rg ga).toNat = some m) :
    s.issue t i (bodyQlvl rd ga h) = s.toRegF t k st n rd (BitVec.ofNat 32 m) st.w.fl.c st.w.fl.v :=
  hi.goOn (by simp [bodyQlvl, hr, hm, goRd])

end Consumer

/-- Settles O14: each instruction by what its body answers. -/
theorem queueInstructions : Obligations.QueueInstructions := by
  refine ⟨?_, ?_⟩
  · intro s t k st n rd ga h r p m hr hm he hn
    subst hm
    simp only [exec_qput, exec_qrsv, exec_qend, Host.Outcome.next.injEq]
    refine ⟨fun hi hp hf => hi.goOn (bodyQput_fits hr hp hf he hn), fun hi hp hf => hi.goOn (bodyQput_full hr hp hf),
      fun hi hp hv hw => ?_, fun hi hp hv hw => ?_, fun hi hp h1 h2 hf => ?_, fun hi hp hv => ?_, fun hi hp h1 h2 hf => ?_,
      fun hi hp hv => hi.goOn (bodyQend_void hr hp hv), fun hi hp hv => hi.goOn (bodyQend_some hr hp hv hn)⟩
    · exact hi.goOn (by rw [bodyQput_open hr hp hv he, if_pos hw])
    · exact hi.trap (by rw [bodyQput_open hr hp hv he, if_neg hw.not_gt])
    · exact hi.goOn (by rw [bodyQrsv_eq hr hp h1 h2 he]; simp [hf, goRd])
    · exact hi.goOn (by simp [bodyQput, hr, hp, hv])
    · exact hi.goOn (by rw [bodyQrsv_eq hr hp h1 h2 he]; simp [hf.not_ge, goRd])
  · intro s t k st n rd ga h r p g hp hg
    subst hp hg
    simp only [exec_qget, exec_qmark, exec_qrew, exec_qrel, exec_qlvl, Host.Outcome.next.injEq]
    refine ⟨fun hi hr hin hb => qget_item hi hr hin hb, fun hi hr hin => qget_idle hi hr hin,
      fun hi hr => hi.goOn (by simp [bodyQmark, hr]), fun hi hr => hi.goOn (by simp [bodyQrew, hr]),
      fun hi hr hn => hi.goOn ?_, fun hi hr w hw => ?_⟩
    · have hl : lowest [st.effFault st.tl] = none := by simp [effFault_tl hn, lowest]
      simp [bodyQrel, hr, guardAll_none hl]
    · rcases hw with ⟨hk, ha, rfl⟩ | ⟨hk, ha, rfl⟩ | ⟨hk, ha, rfl⟩ | ⟨ha, rfl⟩ <;>
        exact qlvl_level hi hr (by simp [State.qlevel, *])

end Sys2Proof.Machine

/-! # Carrier, hoop, feedback and message instructions (R171 to R186, R194 to R197) -/

namespace Sys2Proof.Machine

/-! ## Causes -/

@[simp] theorem failIf_false (code : Nat) : failIf false code = none := rfl

/-- Where no cause is met nothing faults. -/
theorem lowest_none {l : List (Option Nat)} (h : ∀ c ∈ l, c = none) : lowest l = none := by
  unfold lowest
  induction l with
  | nil => rfl
  | cons c r ih =>
    rw [List.foldl_cons, h c (by simp)]
    exact ih fun d hd => h d (by simp [hd])

section Past
variable (s : State) (k : Task) (st : Step) (n : Nat)

@[simp] theorem privWords_past (o m : Nat) : s.privWords k (st.past n) o m = s.privWords k st o m := by
  induction m generalizing o with
  | zero => rfl
  | succ m ih => simp [State.privWords, ih]

@[simp] theorem privBads_past (o m : Nat) : s.privBads k (st.past n) o m = s.privBads k st o m := rfl
@[simp] theorem privOffs_past (o m : Nat) : k.privOffs (st.past n) o m = k.privOffs st o m := rfl
@[simp] theorem recvPayload_past (h : Handle) : recvPayload k (st.past n) h = recvPayload k st h := rfl
@[simp] theorem privBytes_past (o m : Nat) : s.privBytes k (st.past n) o m = s.privBytes k st o m := by
  simp [State.privBytes]

end Past

/-- The bits of a word from `lo` on, as a number. -/
theorem bitsOf_eq (x : Word) (lo w : Nat) : bitsOf x lo w = x.toNat / 2 ^ lo % 2 ^ w := by
  simp [bitsOf, Nat.shiftRight_eq_div_pow]

/-! ## PWMW and PWMC -/

section Pwm
variable {s : State} {t : Nat} {k : Task} {st : Step} {n : Nat} {ts : TReg} {ga gb : GReg} {h : Handle} {r : Res}

theorem bodyPwmw_eq (hr : k.handle [3] h = some r) (hn : st.effs.length < 128) (he : before (st.rt ts) st.tl = false)
    (hok : pwmwOk (s.pairCount r.a) (st.w.rg ga) (st.w.rg gb) = true) :
    bodyPwmw t ts ga gb h s k (st.past n) = .go s ((st.past n).addEff t k (st.rt ts)
      (.pwmw r.a (bitsOf (st.w.rg gb) 0 2) (bitsOf (st.w.rg gb) 4 4) (bitsOf (st.w.rg gb) 8 4) (st.w.rg ga))) := by
  simp [bodyPwmw, hr, hok, effFault_none he hn, guardAll_none (lowest_none (l := [none, none, none]) (by simp))]

theorem bodyPwmc_eq (hr : k.handle [2, 3] h = some r) (hn : st.effs.length < 128) (he : before (st.rt ts) st.tl = false)
    (hok : pwmcOk r.kind (st.w.rg ga) = true) :
    bodyPwmc t ts ga h s k (st.past n) = .go s ((st.past n).addEff t k (st.rt ts)
      (if r.kind = 3 then .pwmc r.a (bitsOf (st.w.rg ga) 4 2) (bitsOf (st.w.rg ga) 0 4) else .tripClear r.a)) := by
  simp [bodyPwmc, hr, hok, effFault_none he hn, guardAll_none (lowest_none (l := [none, none]) (by simp))]

end Pwm

/-! ## HOOPRD, HEVT and HCAN -/

section Hoop
variable {s : State} {t : Nat} {k : Task} {st : Step} {n : Nat} {ga gb rd : GReg} {h : Handle} {r : Res} {i : Instr}

@[simp] theorem hoopLate_past (hp sel : Nat) : (st.past n).hoopLate s hp sel = (st.hoopLate s hp sel).past n := by
  unfold Step.hoopLate
  simp only [Step.past_act]
  split
  · split <;> rfl
  · rfl

/-- Taking a free value changes nothing that a HOOPRD reads. -/
theorem hoopLate_freeCount (m hp sel : Nat) : st.hoopLate { s with freeCount := m } hp sel = st.hoopLate s hp sel := rfl

theorem bodyHooprd_value (hr : k.handle [5] h = some r) (hs : (st.w.rg ga).toNat ≤ 3) (hl : s.hoopLost r.a st.act.t = false)
    {v : Word} (hv : s.hoopValue r.a (st.w.rg ga).toNat st.act.t = some v) :
    bodyHooprd rd ga h s k (st.past n) = goRd s ((st.past n).hoopLate s r.a (st.w.rg ga).toNat) rd v
      ⟨v == 0, v.msb, (s.hoop r.a).stAt st.act.t != 2 && (s.hoop r.a).stAt st.act.t != 6,
        ((s.hoop r.a).ptAt st.act.t).any (fun p => p.2.synth)⟩ := by
  simp only [bodyHooprd, hr, Step.past_rg, Step.past_act, hs.not_gt, hl, hv, if_false, Bool.false_eq_true]
  cases (s.hoop r.a).ptAt st.act.t <;> rfl

theorem bodyHooprd_free (hr : k.handle [5] h = some r) (hs : (st.w.rg ga).toNat ≤ 3) (hl : s.hoopLost r.a st.act.t = false)
    (hv : s.hoopValue r.a (st.w.rg ga).toNat st.act.t = none) :
    bodyHooprd rd ga h s k (st.past n) = goRd { s with freeCount := s.freeCount + 1 }
      ((st.past n).hoopLate s r.a (st.w.rg ga).toNat) rd s.fresh.1
      ⟨s.fresh.1 == 0, s.fresh.1.msb, (s.hoop r.a).stAt st.act.t != 2 && (s.hoop r.a).stAt st.act.t != 6,
        ((s.hoop r.a).ptAt st.act.t).any (fun p => p.2.synth)⟩ := by
  simp only [bodyHooprd, hr, Step.past_rg, Step.past_act, hs.not_gt, hl, hv, if_false, Bool.false_eq_true, State.fresh,
    hoopLate_freeCount]
  have hh : { s with freeCount := s.freeCount + 1 }.hoop r.a = s.hoop r.a := rfl
  rw [hh]
  cases (s.hoop r.a).ptAt st.act.t <;> rfl

/-- HEVT with a valid descriptor, whose pin target, where it has one, is an event pin of the hoop. -/
theorem hevt_result (hi : s.AtInstr t i k st n) (hr : k.handle [5] h = some r) {a : Nat} (ha : a = (st.w.rg ga).toNat)
    (hin : a + 16 ≤ k.dataBytes) (hal : a % 8 = 0) (hb : s.privBads k st a 4 = false) (hn : st.effs.length < 128)
    (hs : (st.w.rg gb).toNat ≤ 63) {d : HoopDesc} {p : Option Nat} (hd : hevtDesc (s.privWords k st a 4) = some (d, p))
    {tgt : Option Nat} (ht : (match p with
      | some p => ((k.resAt 1 p).filter (fun q => q.flag && some q.c == some r.a)).map (fun q => q.a)
      | none => none) = tgt) (hp : p.isSome = tgt.isSome) :
    s.issue t i (bodyHevt t ga gb h) = s.carryOn t k ((st.past n).addEff t k st.tl
      (.hevt r.a (st.w.rg gb).toNat { d with pin := tgt } (hSlot h))) := by
  subst ha
  refine hi.goOn ?_
  simp only [bodyHevt, Step.past_rg, privWords_past, privBads_past, privOffs_past, hd, hr, Step.past_effs]
  rw [hi.guardMem _ _ _ (lowest_none ?_)]
  · cases p <;> simp_all
  · cases p with
    | none => simp [privOff_isNone, hin.not_gt, hal, hb, hn.not_ge, hs.not_gt]
    | some p =>
      obtain ⟨v, rfl⟩ := Option.isSome_iff_exists.1 hp.symm
      simp only [Option.map_some, ht]
      simp [privOff_isNone, hin.not_gt, hal, hb, hn.not_ge, hs.not_gt]

/-- HCAN of one slot or, with all ones, of every slot of the task. -/
theorem bodyHcan_eq (hr : k.handle [5] h = some r) (hn : st.effs.length < 128)
    (hv : (st.w.rg ga).toNat ≤ 63 ∨ (st.w.rg ga).toNat = 0xFFFFFFFF) :
    bodyHcan t ga h s k (st.past n) = .go s ((st.past n).addEff t k st.tl
      (.hcan r.a (if (st.w.rg ga).toNat = 0xFFFFFFFF then none else some (st.w.rg ga).toNat))) := by
  have hsel : (decide (63 < (st.w.rg ga).toNat) && (st.w.rg ga).toNat != 0xFFFFFFFF) = false := by
    rcases hv with hv | hv
    · simp [hv.not_gt]
    · simp [hv]
  simp only [bodyHcan, Step.past_rg, hr, Step.past_effs, hn.not_ge, hsel]
  rw [guardAll_none (lowest_none (by simp))]
  rfl

end Hoop

/-- Settles O11: each instruction by what its body answers. -/
theorem carrierAndHoopInstructions : Obligations.CarrierAndHoopInstructions := by
  refine ⟨?_, ?_⟩
  · intro s t k st n ts ga gb h r v sel hv hsel hn he
    subst hv hsel
    simp only [exec_pwmw, exec_pwmc, Host.Outcome.next.injEq]
    refine ⟨fun hi hr hok => hi.goOn (bodyPwmw_eq hr hn he hok), fun hi hr hk h64 hc => ?_, fun hi hr hk h64 hc => ?_⟩
    · rw [hi.goOn (bodyPwmc_eq hr hn he (by simp [pwmcOk, bitsOf_eq, hk, hc]; omega))]
      simp only [hk, bitsOf_eq, if_true]
      congr 4 <;> omega
    · rw [hi.goOn (bodyPwmc_eq hr hn he (by simp [pwmcOk, bitsOf_eq, hk, hc]; omega))]
      simp [hk]
  · intro s t k st n rd ga gb h r hr
    simp only [exec_hooprd, exec_hevt, exec_hcan, Host.Outcome.next.injEq]
    refine ⟨fun hi hs hl c synth hc hsy => ⟨fun v hv => ?_, fun hv => ⟨s.fresh.1, ?_⟩⟩, fun hi hs hl => ?_, fun hi hs => ?_,
      fun hi d hin hal hb hn hs hd => ?_, fun hi d p pin hin hal hb hn hs hd hp hf hc => ?_, fun hi hn hv => ?_,
      fun hi hn hv => ?_⟩
    · subst hc hsy
      exact hi.goOn (bodyHooprd_value hr hs hl hv)
    · subst hc hsy
      exact hi.go (bodyHooprd_free hr hs hl hv) hi.task
    · exact hi.trap (by simp [bodyHooprd, hr, hs.not_gt, hl, unitWord])
    · exact hi.trap (by simp [bodyHooprd, hr, hs])
    · exact hevt_result hi hr rfl hin hal hb hn hs hd rfl rfl
    · exact hevt_result hi hr rfl hin hal hb hn hs hd (by simp [hp, hf, hc]) rfl
    · rw [hi.goOn (bodyHcan_eq hr hn (.inl hv)), if_neg (by omega)]
    · rw [hi.goOn (bodyHcan_eq hr hn (.inr (by simp [hv]))), if_pos (by simp [hv])]

/-! ## FBRD, FBSPD and FBCMP -/

section Feedback
variable {s : State} {t : Nat} {k : Task} {st : Step} {n : Nat} {td : TDst} {tc : TReg} {ga gb : GReg} {h : Handle} {r : Res}
  {i : Instr}

@[simp] theorem noteLate_past (e : Nat) : (st.past n).noteLate s e = (st.noteLate s e).past n := rfl

theorem bodyFbrd_fb (hr : k.handle [4, 6] h = some r) (hk : r.kind = 4) (hs : (st.w.rg ga).toNat ≤ 3) :
    bodyFbrd td ga h s k (st.past n) = s.fbrdFb r.a (st.w.rg ga).toNat (st.past n) td := by
  simp [bodyFbrd, hr, hk, hs.not_gt]

/-- FBRD of a value that may not exist: it goes on with the value, or with a free one and C set. -/
theorem fbrdOpt_result (hi : s.AtInstr t i k st n) {body : Body} {v : Option (BitVec 64)} {o : Bool}
    (hb : body s k (st.past n) = fbrdOpt s (st.past n) td v o) :
    (∀ x, v = some x → s.issue t i body = s.carryOn t k (((st.past n).wt td x).wf (tdFlags x false o))) ∧
    (v = none → ∃ x, s.issue t i body =
      { s with freeCount := s.freeCount + 2 }.carryOn t k (((st.past n).wt td x).wf (tdFlags x true o))) := by
  refine ⟨fun x hx => hi.goOn ?_, fun hx => ⟨s.fresh64.1, hi.go (s' := { s with freeCount := s.freeCount + 2 }) ?_ hi.task⟩⟩
  · rw [hb, hx]; rfl
  · rw [hb, hx]; rfl

/-- FBCMP that arms or disarms, where no cause is met. -/
theorem fbcmp_result (hi : s.AtInstr t i k st n) (hr : k.handle [4] h = some r) (hn : st.effs.length < 128)
    {arm target : Bool} {act slot : Nat} {pin : Option Res}
    (harm : bitOf (st.w.rg gb) 0 = arm) (htgt : bitOf (st.w.rg gb) 1 = target) (hact : bitsOf (st.w.rg gb) 2 2 = act)
    (hslot : bitsOf (st.w.rg gb) 4 10 = slot) (hhi : bitsOf (st.w.rg gb) 14 18 = 0)
    (hpin : (k.resAt 1 slot).filter (fun q => !q.flag) = pin)
    (hok : arm = true → wrap48 (st.rt tc).toInt = (st.rt tc).toInt ∧
      (if target then act ≠ 3 ∧ ∃ q, pin = some q ∧ q.a / 64 = r.a / 8 else act = 0 ∧ slot = 0)) :
    s.issue t i (bodyFbcmp t tc ga gb h) = s.carryOn t k
      ({ st.past n with cmps := nmPut st.cmps r.a (⟨st.tl, k.seq.toNat, st.effs.length, arm,
          if arm then (if target then pin.map (fun (q : Res) => q.a) else none) else none, st.w.rg ga == 0⟩ : Cmp) }.addEff t k st.tl (if arm then .fbArm r.a (st.rt tc).toInt (st.w.rg ga).toInt
          (if target then pin.map (fun (q : Res) => (q.a, act)) else none) (hSlot h) else .fbDisarm r.a)) := by
  have honce : ((st.w.rg ga).toInt == 0) = (st.w.rg ga == 0) := by
    rw [Bool.eq_iff_iff, beq_iff_eq, beq_iff_eq, ← BitVec.toInt_zero (w := 32), BitVec.toInt_inj]
    rfl
  refine hi.goOn ?_
  simp only [bodyFbcmp, Step.past_rg, Step.past_rt, hr, harm, htgt, hact, hslot, hhi, hpin, Step.past_effs, hn.not_ge, honce]
  rw [guardAll_none (lowest_none ?_)]
  · cases target <;> cases arm <;> simp [Option.map_map, Function.comp_def] <;> rfl
  · cases arm
    · simp
    · obtain ⟨hw, ht⟩ := hok rfl
      cases target
      · simp_all
      · rw [if_pos rfl] at ht
        obtain ⟨h3, q, rfl, hq⟩ := ht
        simp_all [beq_eq_false_iff_ne.2 h3]

end Feedback

/-- The fields of the operand word of FBCMP (R178). -/
theorem fbcmp_word {v : Word} {slot act : Nat} (hs : slot < 1024) (ha : act ≤ 2)
    (hv : v = BitVec.ofNat 32 (3 + 4 * act + 16 * slot)) :
    bitOf v 0 = true ∧ bitOf v 1 = true ∧ bitsOf v 2 2 = act ∧ bitsOf v 4 10 = slot ∧ bitsOf v 14 18 = 0 := by
  have hn : v.toNat = 3 + 4 * act + 16 * slot := by
    rw [hv, BitVec.toNat_ofNat]
    omega
  refine ⟨?_, ?_, ?_, ?_, ?_⟩
  · rw [bitOf, BitVec.getLsbD, hn, Nat.testBit_eq_decide_div_mod_eq]; simp; omega
  · rw [bitOf, BitVec.getLsbD, hn, Nat.testBit_eq_decide_div_mod_eq]; simp; omega
  · rw [bitsOf_eq, hn]; omega
  · rw [bitsOf_eq, hn]; omega
  · rw [bitsOf_eq, hn]; omega

/-- Settles O12: each instruction by what its body answers. -/
theorem feedbackInstructions : Obligations.FeedbackInstructions := by
  intro s t k st n td tc ga gb h r
  refine ⟨fun hi hr hk hg hl hx bad hbad => congrArg Host.Outcome.next ?_, fun i hc hi hr hk => ?_, fun hi hr hk hx v hv => ?_,
    fun hi hr hk rd hrd hl hg => congrArg Host.Outcome.next ?_, fun hi hr hk rd hrd hl => congrArg Host.Outcome.next ?_, fun hi hr hk hl => congrArg Host.Outcome.next ?_,
    fun hi hr hn hg hw => congrArg Host.Outcome.next ?_, fun hi hr hn pin slot act hs ha hg hp hf hd hw => congrArg Host.Outcome.next ?_,
    fun hi hr hn hg => ?_⟩
  · refine hi.goOn ?_
    rw [bodyFbrd_fb hr hk (by simp [hg])]
    simp only [State.fbrdFb, hg, hbad, Step.past_act, hl, hx]
    cases ((s.fb r.a).frames.find? (fun e => upTo e.vis st.act.t)) <;> rfl
  · rcases hc with ⟨rfl, hg, hl⟩ | ⟨rfl, hl⟩ <;> refine congrArg Host.Outcome.next (hi.trap ?_)
    · rw [bodyFbrd_fb hr hk (by simp [hg])]
      simp [State.fbrdFb, hg, hl, unitWord]
    · simp [bodyFbspd, hr, hk, hl, unitWord]
  · have hle : (st.w.rg ga).toNat ≤ 3 := by rcases hv with ⟨hg, -⟩ | ⟨hg, -⟩ | ⟨hg, -⟩ <;> simp [hg]
    have hb : bodyFbrd td ga h s k (st.past n) = fbrdOpt s (st.past n) td v ((s.fb r.a).mismatchAt st.act.t) := by
      rw [bodyFbrd_fb hr hk hle]
      rcases hv with ⟨hg, hp, rfl⟩ | ⟨hg, rfl⟩ | ⟨hg, ha, hb, rfl⟩ <;> simp [State.fbrdFb, *]
    obtain ⟨hsome, hnone⟩ := fbrdOpt_result hi hb
    exact ⟨fun x hv => congrArg Host.Outcome.next (hsome x hv), fun hv => (hnone hv).imp fun x hx => congrArg Host.Outcome.next hx⟩
  · subst hrd
    refine hi.goOn ?_
    rcases hg with hg | hg <;> simp [bodyFbrd, hr, hk, hg, hl, fbrdOut]
  · subst hrd
    exact hi.goOn (by simp [bodyFbspd, hr, hk, hl, fbrdOut])
  · exact hi.goOn (by simp [bodyFbspd, hr, hk, hl, fbrdOut])
  · exact fbcmp_result hi hr hn (arm := true) (target := false) (act := 0) (slot := 0) (by simp [hg, bitOf]) (by simp [hg, bitOf])
      (by simp [hg, bitsOf]) (by simp [hg, bitsOf]) (by simp [hg, bitsOf]) rfl (fun _ => ⟨hw, by simp⟩)
  · obtain ⟨h0, h1, h2, h4, h14⟩ := fbcmp_word hs ha hg
    exact fbcmp_result hi hr hn h0 h1 h2 h4 h14 (pin := some pin) (by simp [hp, hf])
      (fun _ => ⟨hw, by simp only [if_true]; exact ⟨by omega, pin, rfl, hd⟩⟩)
  · refine ⟨_, ?_, ?_, ?_, congrArg Host.Outcome.next (fbcmp_result hi hr hn (arm := false) (target := false) (act := 0) (slot := 0)
      (by simp [hg, bitOf]) (by simp [hg, bitOf]) (by simp [hg, bitsOf]) (by simp [hg, bitsOf]) (by simp [hg, bitsOf]) rfl nofun)⟩ <;>
      rfl

end Sys2Proof.Machine

/-! # Message instructions (R184 to R186, R194 to R197) -/

namespace Sys2Proof.Machine

section Messages
variable {s : State} {t : Nat} {k : Task} {st : Step} {n : Nat} {ts : TReg} {rd ga gb : GReg} {h : Handle} {r : Res} {i : Instr}
  {a m : Nat}

/-- SEND of a payload that its handle takes, by the effect it makes. -/
theorem send_result (hi : s.AtInstr t i k st n) (hr : k.handle [7, 8] h = some r) (ha : a = (st.w.rg ga).toNat)
    (hm : m = sendWords (st.w.rg gb)) (hlen : sendLenOk h (st.w.rg gb) = true) (hin : a + 4 * m ≤ k.dataBytes) (hal : a % 4 = 0)
    (hb : s.privBads k st a m = false) (hn : st.effs.length < 128) (he : before (st.rt ts) st.tl = false) {e : EffKind}
    (hk : sendKind r h (s.privWords k st a m) = some e) :
    s.issue t i (bodySend t ts ga gb h) = s.carryOn t k ((st.past n).addEff t k (st.rt ts) e) := by
  subst ha hm
  refine hi.goOn ?_
  simp only [bodySend, Step.past_rg, privOffs_past, privBads_past, Step.past_rt, past_effFault, effFault_none he hn, hr,
    privWords_past, payFaults, privOff_isNone]
  rw [hi.guardMem _ _ _ (lowest_none (by simp [hin.not_gt, hal, hb, hlen]))]
  simp [hk]

/-- RECV, by what the step's activation brought (R186). -/
theorem recv_result (hi : s.AtInstr t i k st n) (hr : (k.handle [9] h).isSome) (ha : a = (st.w.rg ga).toNat)
    (hin : a + 32 ≤ k.dataBytes) (hal : a % 4 = 0)
    (hlim : st.storeLimit ((List.range ((recvPayload k st h).getD []).length).map (fun j => a / 4 + j)) = false) :
    s.issue t i (bodyRecv rd ga h) = s.carryOn t k (match recvPayload k st h with
      | some ws => (((st.past n).putWords (a / 4) ws).wg rd (BitVec.ofNat 32 ws.length)).wf ⟨false, false, false, false⟩
      | none => ((st.past n).wg rd 0).wf ⟨true, false, false, false⟩) := by
  subst ha
  have hsome : (k.handle [9] h).isNone = false := by simpa using hr
  refine hi.goOn ?_
  simp only [bodyRecv, Step.past_rg, recvPayload_past, payFaults, privOff_isNone, storeLimit_past, hlim, hsome, Bool.and_false]
  rw [guardAll_none (lowest_none (by simp [hin.not_gt, hal]))]
  cases recvPayload k st h <;> rfl

/-- EVNT of a task's own record type (R194). -/
theorem evnt_result (hi : s.AtInstr t i k st n) (hr : k.handle [12] h = some r) (ha : a = (st.w.rg ga).toNat)
    (hm : m = (st.w.rg gb).toNat) (h80 : 0x80 ≤ m) (hff : m ≤ 0xFF) (hin : a + 15 ≤ k.dataBytes) (hal : a % 4 = 0)
    (hb : s.privBads k st a 4 = false) (hn : st.effs.length < 128) :
    s.issue t i (bodyEvnt t ga gb h) =
      s.carryOn t k ((st.past n).addEff t k st.tl (.event r.a r.b m (s.privBytes k st a 15))) := by
  subst ha hm
  refine hi.goOn ?_
  simp only [bodyEvnt, Step.past_rg, privOffs_past, privBads_past, Step.past_tl, past_effFault, effFault_tl hn, hr, privBytes_past,
    payFaults, privOff_isNone]
  rw [hi.guardMem _ _ _ (lowest_none (by simp [hin.not_gt, hal, hb, h80.not_gt, hff.not_gt]))]

/-- CAMH of a valid profile (R196, R197). -/
theorem camh_result (hi : s.AtInstr t i k st n) {x : Table} {sh : Nat} (hr : k.handle [14] h = some r)
    (hx : k.tables.find? (fun x => x.k == r.a) = some x) (hm : m = (st.w.rg gb).toNat) (hal : m % 8 = 0)
    (hs : s.camShift k x m = some sh) (hb : s.camBad k x m (st.w.rg ga) = false) :
    s.issue t i (bodyCamh rd ga gb h) = s.toRegF t k st n rd (BitVec.ofInt 32 (sat32 (s.camValue k x m sh (st.w.rg ga)))) false
      (outside32 (s.camValue k x m sh (st.w.rg ga))) := by
  subst hm
  refine hi.goOn ?_
  simp only [bodyCamh, hr, Option.bind_some, hx, Step.past_rg, hal, hs]
  rw [if_neg (by simp), hi.guardMem _ _ _ (lowest_none (by simp [hb])), hs]
  rfl

end Messages

/-- Settles O13: each instruction by what its body answers. -/
theorem messageInstructions : Obligations.MessageInstructions := by
  intro s t k st n ts rd ga gb h r a m ha hm
  refine ⟨fun hi hr hk h1 h8 hin hal hb hn he => congrArg Host.Outcome.next ?_,
    fun hi hr hk h4 hin hal hb hn he => congrArg Host.Outcome.next ?_,
    fun hi hr hp hin hal hlim => congrArg Host.Outcome.next ?_,
    fun hi hr ws hp hin hal hlim => congrArg Host.Outcome.next ?_,
    fun hi hr h80 hff hin hal hb hn => congrArg Host.Outcome.next (evnt_result hi hr ha hm h80 hff hin hal hb hn),
    fun hi hr hn => congrArg Host.Outcome.next (hi.goOn ?_),
    fun hi x sh hr hx hal hs hb => congrArg Host.Outcome.next (camh_result hi hr hx hm hal hs hb)⟩
  · exact send_result hi hr ha (by simp [sendWords]; omega) (by simp [sendLenOk, hk]; omega) hin hal hb hn he
      (by simp [sendKind, hk])
  · have hw : st.w.rg gb = 4 := BitVec.eq_of_toNat_eq (hm.symm.trans h4)
    exact send_result hi hr ha (m := 4) (by simp [sendWords, hw]) (by simp [sendLenOk, hk, hw]) hin hal hb hn he
      (by simp [sendKind, hk, State.privWords, joinHalves, Nat.add_assoc])
  · simpa [hp] using recv_result (h := h) (rd := rd) hi (by simp [hr]) ha hin hal (by simpa [hp] using hlim)
  · simpa [hp] using recv_result (h := h) (rd := rd) hi (by simp [hr]) ha hin hal (by simpa [hp] using hlim)
  · simp only [bodyRing, Step.past_tl, past_effFault, effFault_tl hn, hr]
    rw [guardAll_none (lowest_none (by simp))]

end Sys2Proof.Machine

/-! # Faults of instructions, corrected words, and steps that were cut off (R120, R128 to R131, R143, R144, R151) -/

namespace Sys2Proof.Machine

/-! ## What a record and a count leave alone -/

namespace State

/-- A record that a die sends changes registers and dies only. -/
@[simp] theorem emit_fields (s : State) (r : Rec) :
    (s.emit r).tasks = s.tasks ∧ (s.emit r).dieMem = s.dieMem ∧ (s.emit r).ring = s.ring ∧ (s.emit r).hostMem = s.hostMem ∧
    (s.emit r).ecc = s.ecc ∧ (s.emit r).now = s.now ∧ (s.emit r).flight = s.flight ∧ (s.emit r).msgs = s.msgs ∧
    (s.emit r).posts = s.posts ∧ (s.emit r).pins = s.pins ∧ (s.emit r).cars = s.cars ∧ (s.emit r).trips = s.trips ∧
    (s.emit r).fbs = s.fbs ∧ (s.emit r).hoops = s.hoops ∧ (s.emit r).ques = s.ques ∧ (s.emit r).dmas = s.dmas := by
  unfold State.emit State.numberRec
  split <;> simp [State.modDie, State.setDie]

@[simp] theorem breach_fields (s : State) (n : Nat) :
    (s.breach n).tasks = s.tasks ∧ (s.breach n).dieMem = s.dieMem ∧ (s.breach n).ecc = s.ecc ∧ (s.breach n).now = s.now := by
  simp [State.breach]

@[simp] theorem detRec_fields (s : State) (d src ty : Nat) (stamp : Time) (p : List Byte) :
    (s.detRec d src ty stamp p).tasks = s.tasks ∧ (s.detRec d src ty stamp p).dieMem = s.dieMem ∧
    (s.detRec d src ty stamp p).ecc = s.ecc ∧ (s.detRec d src ty stamp p).now = s.now := by
  simp [State.detRec, State.emitUnit]

@[simp] theorem historyLost_fields (s : State) (t d unit : Nat) (tAct fin : Time) :
    (s.historyLost t d unit tAct fin).tasks = s.tasks ∧ (s.historyLost t d unit tAct fin).dieMem = s.dieMem ∧
    (s.historyLost t d unit tAct fin).now = s.now := by
  simp [State.historyLost]

@[simp] theorem sawBad_fields (s : State) (d off : Nat) (b : Bool) :
    (s.sawBad d off b).tasks = s.tasks ∧ (s.sawBad d off b).dieMem = s.dieMem ∧ (s.sawBad d off b).now = s.now := by
  simp [State.sawBad]

/-! ## A corrected word (R120) -/

@[simp] theorem correctWord_fields (s : State) (d o : Nat) :
    (s.correctWord d o).tasks = s.tasks ∧ (s.correctWord d o).dieMem = s.dieMem ∧ (s.correctWord d o).ecc = s.ecc := by
  unfold State.correctWord
  split <;> simp

@[simp] theorem corrected_fields (s : State) (d : Nat) (offs : List Nat) :
    (s.corrected d offs).tasks = s.tasks ∧ (s.corrected d offs).dieMem = s.dieMem ∧ (s.corrected d offs).ecc = s.ecc := by
  unfold State.corrected
  induction offs generalizing s with
  | nil => simp
  | cons o r ih => simp [ih]

@[simp] theorem corrected_task? (s : State) (d : Nat) (offs : List Nat) (t : Nat) :
    (s.corrected d offs).task? t = s.task? t := by simp [State.task?]

@[simp] theorem corrected_badWord (s : State) (d : Nat) (offs : List Nat) (a : Nat) :
    (s.corrected d offs).badWord a = s.badWord a := by simp [State.badWord]

@[simp] theorem corrected_placeWord (s : State) (d : Nat) (offs : List Nat) (k : Task) (st : Step) (p : Place) :
    (s.corrected d offs).placeWord k st p = s.placeWord k st p := by
  cases p <;> simp [State.placeWord, State.privWord, State.privBad]

@[simp] theorem corrected_loadFaults (s : State) (d : Nat) (offs : List Nat) (k : Task) (st : Step) (a : Word) (n : Nat) :
    (s.corrected d offs).loadFaults k st a n = s.loadFaults k st a n := by simp [State.loadFaults]

@[simp] theorem corrected_loadVal (s : State) (d : Nat) (offs : List Nat) (k : Task) (st : Step) (a : Word) (n : Nat) :
    (s.corrected d offs).loadVal k st a n = s.loadVal k st a n := by simp [State.loadVal]

/-! ## A task fault (R128, R491) -/

/-- What a fault leaves of its task, and that it leaves the others. -/
theorem taskFault_some {s : State} {t : Nat} {k : Task} (h : s.task? t = some k) (code pc info : Nat) (tAct : Time) :
    ∃ k', (s.taskFault t code pc info tAct false).task? t = some k' ∧ k'.state = .faulted ∧ k'.faultCode = code ∧
      k'.faultPc = pc ∧ k'.step = none ∧ k'.timer = none ∧ k'.pend = [] ∧ k'.c = k.c ∧ k'.seq = k.seq ∧
      (∀ u, u ≠ t → (s.taskFault t code pc info tAct false).task? u = s.task? u) ∧
      (s.taskFault t code pc info tAct false).dieMem = s.dieMem := by
  simp only [State.taskFault, h]
  refine ⟨_, ((State.bump_reads _ _ _).2.1 t).trans (State.task_setTask _ _ _), rfl, rfl, rfl, rfl, rfl, rfl, rfl, rfl, fun u hu => ?_, by simp [State.setTask]⟩
  simp [State.task_setTask_ne _ _ _ _ hu]

/-- Outside the cycle of the cut-off a fault of an instruction is a task fault, in a state with the same tasks and memory. -/
theorem instrFault_eq {s : State} (t : Nat) {k : Task} {st : Step} (pc code info : Nat) (h : s.now ≠ k.cutoff st.act.t) :
    ∃ (s' : State) (info' : Nat), s'.tasks = s.tasks ∧ s'.dieMem = s.dieMem ∧
      s.instrFault t k st pc code info = s'.taskFault t code pc info' st.act.t false := by
  unfold State.instrFault
  by_cases h6 : code = 0x06
  · subst h6
    exact ⟨s.sawBad k.die info false, pc, by simp, by simp, by simp [h]⟩
  · by_cases hA : code = 0x0A
    · subst hA
      exact ⟨s.historyLost t k.die info st.act.t st.tl, pc, by simp, by simp, by simp [h]⟩
    · exact ⟨s, if code = 0x0F then info else pc, rfl, rfl, by simp [h, h6, hA]⟩

end State

/-! ## An instruction issued with words to correct, or on a step that was cut off -/

section Issue
variable {s : State} {t : Nat} {k : Task} {st : Step} {n : Nat} {i : Instr}

/-- What issuing does, with the words of the instruction corrected (R120). -/
theorem State.issue_corrected (ht : s.task? t = some k) (hst : k.step = some st) (hm : s.mayIssue k st = true)
    (hf : s.fetch t k st.w.pc = .inr (i, n)) (body : Body) :
    s.issue t i body = (body (s.corrected k.die (k.codeOffs st.w.pc n)) k (st.past n)).finish t k st st.w.pc := by
  simp [State.issue, ht, hst, hm, hf, Step.past, Step.goto]

namespace IRes

/-- Going on leaves the step carried on. -/
theorem finish_go {u : State} (ht : u.task? t = some k) (st' : Step) (pc : Nat) :
    (IRes.go u st').finish t k st pc = u.carryOn t k st' := by
  simp [IRes.finish, State.modTask, ht, State.carryOn, Step.settle]

/-- A fault of a step that was cut off leaves the step as it was. -/
theorem finish_trap_cutOff {u : State} (ht : u.task? t = some k) (hc : st.cutOff = true) (code info pc : Nat) :
    (IRes.trap u code info).finish t k st pc = u.carryOn t k st := by
  simp [IRes.finish, hc, State.modTask, ht, State.carryOn, Step.settle]

/-- So does a commit. -/
theorem finish_commit_cutOff {u : State} (ht : u.task? t = some k) (hc : st.cutOff = true) (st' : Step) (next : Resume)
    (tm : Option Time) (pc : Nat) : (IRes.commit u st' next tm).finish t k st pc = u.carryOn t k st := by
  simp [IRes.finish, hc, ht, State.carryOn, Step.settle]

end IRes

end Issue

/-- LDW in a state that the fetch left, with its own word corrected. -/
theorem ldw_corrected {s : State} {t d : Nat} {offs : List Nat} {k : Task} {st : Step} {n : Nat} {rd ra : GReg} {off : BitVec 18}
    {a : Nat} {p : Place} (ht : (s.corrected d offs).task? t = some k)
    (ha : a = (effAddr (st.w.rg ra) off 4).toNat) (hp : p = k.place a 4) (hout : p ≠ .out) (hal : a % 4 = 0)
    (hb : (s.placeWord k st p).2 = false) (pc : Nat) :
    (bodyLdw rd ra off (s.corrected d offs) k (st.past n)).finish t k st pc =
      ((s.corrected d offs).corrected k.die (k.placeOffs st 1 p)).toReg t k st n rd (s.placeWord k st p).1 := by
  subst ha hp
  have hlow : lowest (s.loadFaults k (st.past n) (effAddr (st.w.rg ra) off 4) 4) = none := by
    rw [lowest_loadFaults _ (by decide), if_neg hout, if_neg (not_not.2 hal), placeWord_past, hb]
    rfl
  have hval : s.loadVal k (st.past n) (effAddr (st.w.rg ra) off 4) 4 =
      (s.placeWord k st (k.place (effAddr (st.w.rg ra) off 4).toNat 4)).1 := by
    rw [State.loadVal, hal, loadBytes_eq _ (by decide)]
    exact BitVec.eq_of_toNat_eq (by simpa using (s.placeWord k st _).1.isLt)
  rw [bodyLdw, loadN_eq]
  simp only [guardMem, State.corrected_loadFaults, hlow, State.corrected_loadVal, hval]
  exact IRes.finish_go ((State.corrected_task? _ _ _ _).trans ht) _ _

/-! ## A handle that names no resource (R151) -/

section BadHandle
variable {s : State} {t : Nat} {k : Task} {st : Step} {n : Nat} {td : TDst} {ts : TReg} {rd ga gb : GReg} {h : Handle}
  {kinds : List Nat} {i : Instr} {a m : Nat}

/-- The instructions that look at their handle before all else. -/
theorem badHandle_first (hk : k.handle kinds h = none) (hi : s.AtInstr t i k st n)
    (hc : (i = .capt t td ga h ∧ kinds = [1, 2]) ∨ (i = .captp t td h ∧ kinds = [1]) ∨ (i = .fbrd t td ga h ∧ kinds = [4, 6]) ∨
        (i = .fbspd t td h ∧ kinds = [4, 6]) ∨ (i = .hooprd t rd ga h ∧ kinds = [5]) ∨ (i = .qput t ga h ∧ kinds = [10]) ∨
        (i = .qrsv t rd ga h ∧ kinds = [10]) ∨ (i = .qend t h ∧ kinds = [10]) ∨ (i = .qget t rd h ∧ kinds = [11]) ∨
        (i = .qmark t h ∧ kinds = [11]) ∨ (i = .qrew t h ∧ kinds = [11]) ∨ (i = .qlvl t rd ga h ∧ kinds = [10, 11]) ∨
        (i = .camh t rd ga gb h ∧ kinds = [14])) :
    exec i s = .next (s.instrFault t k st st.w.pc 0x0D 0) := by
  rcases hc with ⟨rfl, rfl⟩ | ⟨rfl, rfl⟩ | ⟨rfl, rfl⟩ | ⟨rfl, rfl⟩ | ⟨rfl, rfl⟩ | ⟨rfl, rfl⟩ | ⟨rfl, rfl⟩ | ⟨rfl, rfl⟩ | ⟨rfl, rfl⟩ |
    ⟨rfl, rfl⟩ | ⟨rfl, rfl⟩ | ⟨rfl, rfl⟩ | ⟨rfl, rfl⟩ <;> refine congrArg Host.Outcome.next (hi.trap ?_)
  case inr.inl => simp [bodyCaptp, Task.ownPinOf, hk]
  all_goals
    simp only [bodyCapt, bodyFbrd, bodyFbspd, bodyHooprd, bodyQput, bodyQrsv, bodyQend, bodyQget, bodyQmark, bodyQrew, bodyQlvl,
      bodyCamh, hk, Option.bind_none]

@[simp] theorem failIf_true (code : Nat) : failIf true code = some code := rfl

/-! The lowest of several causes, cause by cause. -/

@[simp] theorem lowest_nil : lowest [] = none := rfl
@[simp] theorem lowest_cons_none (l : List (Option Nat)) : lowest (none :: l) = lowest l := rfl
@[simp] theorem lowest_single (c : Nat) : lowest [some c] = some c := rfl
@[simp] theorem lowest_some_none (c : Nat) (l : List (Option Nat)) : lowest (some c :: none :: l) = lowest (some c :: l) := rfl

theorem lowest_some_failIf {c d : Nat} (b : Bool) (l : List (Option Nat)) (h : c ≤ d) :
    lowest (some c :: failIf b d :: l) = lowest (some c :: l) := by
  cases b
  · rfl
  · simp [lowest, Nat.min_eq_left h]

/-- The instructions that have an effect at T + L, which must find room. -/
theorem badHandle_effect (hk : k.handle kinds h = none) (hi : s.AtInstr t i k st n) (hn : st.effs.length < 128)
    (hc : (i = .qrel t h ∧ kinds = [11]) ∨ (i = .ring t h ∧ kinds = [13]) ∨ (i = .hcan t ga h ∧ kinds = [5]) ∨
            (i = .fbcmp t ts ga gb h ∧ kinds = [4])) :
    exec i s = .next (s.instrFault t k st st.w.pc 0x0D 0) := by
  rcases hc with ⟨rfl, rfl⟩ | ⟨rfl, rfl⟩ | ⟨rfl, rfl⟩ | ⟨rfl, rfl⟩ <;> refine congrArg Host.Outcome.next (hi.trap ?_)
  · simp [bodyQrel, hk, effFault_tl hn, guardAll]
  · simp [bodyRing, hk, effFault_tl hn, guardAll]
  · simp [bodyHcan, hk, hn.not_ge, guardAll, lowest_some_failIf]
  · simp [bodyFbcmp, hk, hn.not_ge, guardAll]

/-- The instructions with a stamp, which must not be early. -/
theorem badHandle_stamped (hk : k.handle kinds h = none) (hi : s.AtInstr t i k st n) (hn : st.effs.length < 128)
    (he : before (st.rt ts) st.tl = false)
    (hc : (i = .stch t ts ga h ∧ kinds = [1]) ∨ (i = .stchr t ts ga h ∧ kinds = [1]) ∨ (i = .pwmw t ts ga gb h ∧ kinds = [3]) ∨
            (i = .pwmc t ts ga h ∧ kinds = [2, 3])) :
    exec i s = .next (s.instrFault t k st st.w.pc 0x0D 0) := by
  rcases hc with ⟨rfl, rfl⟩ | ⟨rfl, rfl⟩ | ⟨rfl, rfl⟩ | ⟨rfl, rfl⟩ <;> refine congrArg Host.Outcome.next (hi.trap ?_)
  · simp [bodyStch, Task.ownPinOf, hk, State.stitchFaults, State.stitchSetFaults, effFault_none he hn, he, guardAll,
      lowest_some_failIf]
  · simp [bodyStchr, Task.ownPinOf, hk, State.stitchFaults, State.stitchSetFaults, effFault_none he hn, he, guardAll,
      lowest_some_failIf]
  · simp [bodyPwmw, hk, effFault_none he hn, guardAll, lowest_some_failIf]
  · simp [bodyPwmc, hk, effFault_none he hn, guardAll]

/-- An instruction that reads memory, with the lowest cause it meets. -/
theorem guardMem_some {l : List (Option Nat)} {c : Nat} (hl : lowest l = some c) (d : Nat) (offs : List Nat) (f : State → IRes) :
    guardMem s d offs l f = .trap s c ((offs.find? (fun o => s.badWord (dieAddr d o))).getD 0) := by
  simp [guardMem, hl]

/-- SEND, EVNT and HEVT, whose payload must lie in the task's own data, be aligned and readable. -/
theorem badHandle_payload (hk : k.handle kinds h = none) (hi : s.AtInstr t i k st n) (hn : st.effs.length < 128)
    (ha : a = (st.w.rg ga).toNat) (hm : m = sendWords (st.w.rg gb)) (hal : a % 8 = 0)
    (hc : (i = .send t ts ga gb h ∧ kinds = [7, 8] ∧ a + 4 * m ≤ k.dataBytes ∧ s.privBads k st a m = false ∧
              before (st.rt ts) st.tl = false) ∨
            (i = .evnt t ga gb h ∧ kinds = [12] ∧ a + 15 ≤ k.dataBytes ∧ s.privBads k st a 4 = false) ∨
            (i = .hevt t ga gb h ∧ kinds = [5] ∧ a + 16 ≤ k.dataBytes ∧ s.privBads k st a 4 = false)) :
    exec i s = .next (s.instrFault t k st st.w.pc 0x0D 0) := by
  have hal4 : a % 4 = 0 := by omega
  subst ha hm
  rcases hc with ⟨rfl, rfl, hin, hb, he⟩ | ⟨rfl, rfl, hin, hb⟩ | ⟨rfl, rfl, hin, hb⟩ <;> refine congrArg Host.Outcome.next ?_
  · refine hi.memTrap_plain (c := 0x0D) (by rw [bodySend]) ?_ (by decide)
    simp [payFaults, privOff_isNone, hin.not_gt, hal4, hb, effFault_none he hn, hk, lowest_some_failIf]
  · refine hi.memTrap_plain (c := 0x0D) (by rw [bodyEvnt]) ?_ (by decide)
    simp [payFaults, privOff_isNone, hin.not_gt, hal4, hb, effFault_tl hn, hk, lowest_some_failIf]
  · refine hi.memTrap_plain (c := 0x0D) (by rw [bodyHevt]) ?_ (by decide)
    simp [privOff_isNone, hin.not_gt, hal, hb, hn.not_ge, hk, lowest_some_failIf]

theorem badHandle_recv (hk : k.handle [9] h = none) (hi : s.AtInstr t (.recv t rd ga h) k st n) (ha : a = (st.w.rg ga).toNat)
    (hh : isHostPort k h = false) (hp : recvPayload k st h = none) (hin : a + 32 ≤ k.dataBytes) (hal : a % 4 = 0)
    (hlim : st.storeLimit [] = false) :
    exec (.recv t rd ga h) s = .next (s.instrFault t k st st.w.pc 0x0D 0) := by
  subst ha
  refine congrArg Host.Outcome.next (hi.trap ?_)
  simp [bodyRecv, hp, payFaults, privOff_isNone, hin.not_gt, hal, hlim, hh, hk, guardAll]

end BadHandle

/-- Settles O15: each instruction by its causes, a fault by `State.taskFault_some`, and a step that was cut off by what
`IRes.finish` does with it. -/
theorem instructionFaults : Obligations.InstructionFaults := by
  refine ⟨?_, ?_, ?_⟩
  · intro s t k st n i td ts rd ga gb h kinds a m ha hm hc hk hi
    rcases hc with hc | hc | hc | hc | hc | hc | hc | hc | hc | hc | hc | hc | hc | ⟨hn, hc⟩ | ⟨hn, he, hc⟩ | ⟨hn, hal, hc⟩ |
      ⟨rfl, rfl, hh, hp, hin, hal, hlim⟩
    case inr.inr.inr.inr.inr.inr.inr.inr.inr.inr.inr.inr.inr.inl => exact badHandle_effect hk hi hn hc
    case inr.inr.inr.inr.inr.inr.inr.inr.inr.inr.inr.inr.inr.inr.inl => exact badHandle_stamped hk hi hn he hc
    case inr.inr.inr.inr.inr.inr.inr.inr.inr.inr.inr.inr.inr.inr.inr.inl => exact badHandle_payload hk hi hn ha hm hal hc
    case inr.inr.inr.inr.inr.inr.inr.inr.inr.inr.inr.inr.inr.inr.inr.inr => exact badHandle_recv hk hi ha hh hp hin hal hlim
    all_goals exact badHandle_first (td := td) (rd := rd) (ga := ga) (gb := gb) hk hi (by simp [hc])
  · intro s t k st pc code info ht hnow
    obtain ⟨s', info', htasks, hmem, heq⟩ := State.instrFault_eq t pc code info hnow
    have htask (u : Nat) : s'.task? u = s.task? u := by simp [State.task?, htasks]
    rw [heq, ← hmem]
    simpa only [htask] using State.taskFault_some ((htask t).trans ht) code pc info' st.act.t
  · intro s u t k st n rd ra off i a d o p
    refine ⟨fun h => by simp [State.correctWord, h], fun h => by simp [State.correctWord, h], fun ht hst hm hf hu => ?_⟩
    have hut : u.task? t = some k := by simpa [hu] using ht
    have hissue := State.issue_corrected ht hst hm hf
    rw [← hu] at hissue
    refine ⟨?_, ?_, ?_, ?_⟩
    · rintro rfl
      exact congrArg Host.Outcome.next ((hissue _).trans (IRes.finish_go hut _ _))
    · rintro rfl ha hp - hout hal hb
      refine congrArg Host.Outcome.next ((hissue _).trans ?_)
      rw [hu]
      exact ldw_corrected (hu ▸ hut) ha hp hout hal hb _
    · rintro hc rfl
      refine congrArg Host.Outcome.next ((hissue _).trans ?_)
      unfold bodyEnd guardAll
      split
      · exact IRes.finish_trap_cutOff hut hc _ _ _
      · exact IRes.finish_commit_cutOff hut hc _ _ _ _
    · rintro hc rfl hout
      refine congrArg Host.Outcome.next ((hissue _).trans ?_)
      rw [bodyLdw, loadN_eq, guardMem_some (c := 0x02)]
      · exact IRes.finish_trap_cutOff hut hc _ _ _
      · exact (lowest_loadFaults _ (by decide)).trans (if_pos hout)

end Sys2Proof.Machine

/-! # Ordered lists, the choice of the next step, and the begin of a run (R66, R74, R92, R94, R95, R470) -/

namespace Sys2Proof.Machine

/-! ## Stamps in a window in which R66's comparison is an order -/

section Window
variable {a b w : Time}

/-- In a window the comparison of R66 is that of the distances from its begin. -/
theorem before_window (ha : (a - w).toNat < 2 ^ 62) (hb : (b - w).toNat < 2 ^ 62) :
    before a b = decide ((a - w).toNat < (b - w).toNat) := by
  have hab : a - b = (a - w) - (b - w) := by bv_omega
  unfold before
  rw [hab, BitVec.msb_eq_decide, BitVec.toNat_sub]
  generalize (a - w).toNat = x at *
  generalize (b - w).toNat = y at *
  exact decide_eq_decide.2 (by omega)

theorem stamp_eq_iff (w : Time) : a = b ↔ (a - w).toNat = (b - w).toNat :=
  ⟨fun h => h ▸ rfl, fun h => by bv_omega⟩

end Window

/-! ## Insertion (R74, R92, R470) -/

section Insert
variable {α : Type} {r : α → α → Bool}

/-- Insertion before the first entry that the new one comes before keeps a list in order, where the order is one. -/
theorem pairwise_orderedInsert (a : α) (l : List α)
    (hasymm : ∀ x ∈ l, r a x = true → r x a = false)
    (htrans : ∀ x ∈ l, ∀ y ∈ l, r a x = true → r y x = false → r y a = false)
    (hl : l.Pairwise (fun x y => r y x = false)) :
    (l.orderedInsert (fun x y => r x y = true) a).Pairwise (fun x y => r y x = false) := by
  induction l with
  | nil => simp
  | cons b l ih =>
    obtain ⟨hb, hl⟩ := List.pairwise_cons.1 hl
    by_cases hab : r a b = true
    · rw [List.orderedInsert_cons, if_pos hab]
      refine List.pairwise_cons.2 ⟨fun x hx => ?_, List.pairwise_cons.2 ⟨hb, hl⟩⟩
      rcases List.mem_cons.1 hx with rfl | hx
      · exact hasymm x (by simp) hab
      · exact htrans b (by simp) x (by simp [hx]) hab (hb x hx)
    · rw [List.orderedInsert_cons, if_neg hab]
      refine List.pairwise_cons.2 ⟨fun x hx => ?_, ih (fun x hx => hasymm x (by simp [hx]))
        (fun x hx y hy => htrans x (by simp [hx]) y (by simp [hy])) hl⟩
      rcases List.mem_cons.1 ((List.perm_orderedInsert _ a l).mem_iff.1 hx) with rfl | hx
      · simpa using hab
      · exact hb x hx

end Insert

theorem actInsert_eq (a : Act) (l : List Act) : actInsert a l = l.orderedInsert (fun x y => x.first y = true) a := by
  induction l with
  | nil => rfl
  | cons b l ih => rw [actInsert, List.orderedInsert_cons, ih]

theorem effInsert_eq (a : Eff) (l : List Eff) : effInsert a l = l.orderedInsert (fun x y => x.first y = true) a := by
  induction l with
  | nil => rfl
  | cons b l ih => rw [effInsert, List.orderedInsert_cons, ih]

theorem recInsert_eq (a : Rec) (l : List Rec) : recInsert a l = l.orderedInsert (fun x y => recFirst x y = true) a := by
  induction l with
  | nil => rfl
  | cons b l ih => rw [recInsert, List.orderedInsert_cons, ih]

/-- The order of R92 in a window: by stamp, rank, sequence and index. -/
theorem Eff.first_window {a b : Eff} {w : Time} (ha : (a.stamp - w).toNat < 2 ^ 62) (hb : (b.stamp - w).toNat < 2 ^ 62) :
    a.first b = true ↔ (a.stamp - w).toNat < (b.stamp - w).toNat ∨ (a.stamp - w).toNat = (b.stamp - w).toNat ∧
      (a.rank < b.rank ∨ a.rank = b.rank ∧ (a.seq < b.seq ∨ a.seq = b.seq ∧ a.idx < b.idx)) := by
  unfold Eff.first
  rw [before_window ha hb]
  simp only [stamp_eq_iff w (a := a.stamp)]
  split_ifs <;> simp_all

/-- The order of R470 in a window: by stamp, source and origin. -/
theorem recFirst_window {a b : Rec} {w : Time} (ha : (a.stamp - w).toNat < 2 ^ 62) (hb : (b.stamp - w).toNat < 2 ^ 62) :
    recFirst a b = true ↔ (a.stamp - w).toNat < (b.stamp - w).toNat ∨ (a.stamp - w).toNat = (b.stamp - w).toNat ∧
      (a.src < b.src ∨ a.src = b.src ∧ (a.o1 < b.o1 ∨ a.o1 = b.o1 ∧ (a.o2 < b.o2 ∨ a.o2 = b.o2 ∧ a.o3 < b.o3))) := by
  unfold recFirst
  rw [before_window ha hb]
  simp only [stamp_eq_iff w (a := a.stamp)]
  split_ifs <;> simp_all

/-- Settles O25: each list is one that `List.orderedInsert` gives. -/
theorem orderedListsKeepAll : Obligations.OrderedListsKeepAll := by
  refine ⟨fun a l => ?_, fun e l => ⟨?_, fun w hw hl => ?_⟩, fun r l w => ⟨?_, fun hw hl => ?_⟩⟩
  · rw [actInsert_eq]
    exact List.perm_orderedInsert _ a l
  · rw [effInsert_eq]
    exact List.perm_orderedInsert _ e l
  · have hin (x) (hx : x ∈ l) := hw x (List.mem_cons_of_mem _ hx)
    have he := hw e List.mem_cons_self
    rw [effInsert_eq]
    refine pairwise_orderedInsert e l (fun x hx h => ?_) (fun x hx y hy h hyx => ?_) hl
    · rw [← Bool.not_eq_true, Eff.first_window (hin x hx) he]
      rw [Eff.first_window he (hin x hx)] at h
      omega
    · rw [← Bool.not_eq_true, Eff.first_window (hin y hy) (hin x hx)] at hyx
      rw [← Bool.not_eq_true, Eff.first_window (hin y hy) he]
      rw [Eff.first_window he (hin x hx)] at h
      omega
  · rw [recInsert_eq]
    exact List.perm_orderedInsert _ r l
  · have hin (x) (hx : x ∈ l) := hw x (List.mem_cons_of_mem _ hx)
    have hr := hw r List.mem_cons_self
    rw [recInsert_eq]
    refine pairwise_orderedInsert r l (fun x hx h => ?_) (fun x hx y hy h hyx => ?_) hl
    · rw [← Bool.not_eq_true, recFirst_window (hin x hx) hr]
      rw [recFirst_window hr (hin x hx)] at h
      omega
    · rw [← Bool.not_eq_true, recFirst_window (hin y hy) (hin x hx)] at hyx
      rw [← Bool.not_eq_true, recFirst_window (hin y hy) hr]
      rw [recFirst_window hr (hin x hx)] at h
      omega

/-! ## The choice of the next step (R95) -/

/-- The order of R95 in a window: by deadline and rank. -/
theorem deadlineFirst_window {x y : Task} {a b : Step} {w : Time} (ha : (a.tl - w).toNat < 2 ^ 62)
    (hb : (b.tl - w).toNat < 2 ^ 62) :
    deadlineFirst x a y b = true ↔ (a.tl - w).toNat < (b.tl - w).toNat ∨ (a.tl - w).toNat = (b.tl - w).toNat ∧ x.rank < y.rank := by
  unfold deadlineFirst
  rw [before_window ha hb]
  simp only [stamp_eq_iff w (a := a.tl)]
  split_ifs <;> simp_all

namespace Task

/-- The step of a task that is ready on a shuttle. -/
def readyOn (k : Task) (d slot : Nat) : Option Step :=
  if k.die = d ∧ k.slot = slot ∧ k.held = true ∧ k.mig = none then
    k.step.filter (fun st => !st.running && !st.cutOff)
  else none

theorem readyOn_eq_some {k : Task} {d slot : Nat} {st : Step} :
    k.readyOn d slot = some st ↔ (k.die = d ∧ k.slot = slot ∧ k.held = true ∧ k.mig = none) ∧ k.step = some st ∧
      st.running = false ∧ st.cutOff = false := by
  simp [Task.readyOn]

end Task

/-- The better of what was chosen so far and a task that is ready. -/
def chooseStep (d slot : Nat) (best : Option (Nat × Task × Step)) (e : Nat × Task) : Option (Nat × Task × Step) :=
  match e.2.readyOn d slot, best with
  | none, _ => best
  | some st, none => some (e.1, e.2, st)
  | some st, some b => if deadlineFirst e.2 st b.2.1 b.2.2 then some (e.1, e.2, st) else some b

theorem State.nextOn_eq (s : State) (d slot : Nat) : s.nextOn d slot = s.tasks.foldl (chooseStep d slot) none := by
  unfold State.nextOn
  congr 1
  funext best e
  unfold chooseStep Task.readyOn
  cases he : e.2.step with
  | none => simp
  | some st => cases hr : st.running <;> cases hc : st.cutOff <;> cases best <;> simp [hr, hc, Option.filter] <;> split_ifs <;> simp_all

/-- Coming before is transitive in a window, and so is not coming before. -/
theorem deadlineFirst_trans {x y z : Task} {a b c : Step} {w : Time} (ha : (a.tl - w).toNat < 2 ^ 62) (hb : (b.tl - w).toNat < 2 ^ 62)
    (hc : (c.tl - w).toNat < 2 ^ 62) (hab : deadlineFirst x a y b = false) (hbc : deadlineFirst y b z c = false) :
    deadlineFirst x a z c = false := by
  rw [← Bool.not_eq_true, deadlineFirst_window ha hb] at hab
  rw [← Bool.not_eq_true, deadlineFirst_window hb hc] at hbc
  rw [← Bool.not_eq_true, deadlineFirst_window ha hc]
  omega

theorem deadlineFirst_asymm {x y : Task} {a b : Step} {w : Time} (ha : (a.tl - w).toNat < 2 ^ 62) (hb : (b.tl - w).toNat < 2 ^ 62)
    (hab : deadlineFirst x a y b = true) : deadlineFirst y b x a = false := by
  rw [deadlineFirst_window ha hb] at hab
  rw [← Bool.not_eq_true, deadlineFirst_window hb ha]
  omega

theorem deadlineFirst_self (x : Task) (a : Step) : deadlineFirst x a x a = false := by simp [deadlineFirst]

/-- One choice is of a ready step or of what was chosen before, and neither of the two comes before it. -/
theorem chooseStep_spec {d slot : Nat} {w : Time} (best : Option (Nat × Task × Step)) (e : Nat × Task)
    (he : ∀ y, e.2.step = some y → (y.tl - w).toNat < 2 ^ 62) (hbest : ∀ b ∈ best, (b.2.2.tl - w).toNat < 2 ^ 62) :
    (chooseStep d slot best e = best ∨
      ∃ st, e.2.readyOn d slot = some st ∧ chooseStep d slot best e = some (e.1, e.2, st)) ∧
    (∀ c ∈ chooseStep d slot best e, ∀ b ∈ best, deadlineFirst b.2.1 b.2.2 c.2.1 c.2.2 = false) ∧
    (best.isSome ∨ (e.2.readyOn d slot).isSome → (chooseStep d slot best e).isSome) ∧
    ∀ c ∈ chooseStep d slot best e, ∀ y, e.2.readyOn d slot = some y → deadlineFirst e.2 y c.2.1 c.2.2 = false := by
  unfold chooseStep
  cases hr : e.2.readyOn d slot with
  | none => simp +contextual [deadlineFirst_self]
  | some st =>
    have hst := he st (Task.readyOn_eq_some.1 hr).2.1
    cases best with
    | none => simp [deadlineFirst_self]
    | some b =>
      have hb := hbest b rfl
      by_cases hf : deadlineFirst e.2 st b.2.1 b.2.2 = true
      · simp [hf, deadlineFirst_self, deadlineFirst_asymm hst hb hf]
      · simp [hf, deadlineFirst_self]

/-- What the fold chooses is ready or was chosen before, and nothing that it saw comes before it. -/
theorem foldl_chooseStep {d slot : Nat} {w : Time} (l : List (Nat × Task)) (best : Option (Nat × Task × Step))
    (c : Nat × Task × Step) (hl : ∀ e ∈ l, ∀ y, e.2.step = some y → (y.tl - w).toNat < 2 ^ 62)
    (hbest : ∀ b ∈ best, (b.2.2.tl - w).toNat < 2 ^ 62) (h : l.foldl (chooseStep d slot) best = some c) :
    (best = some c ∨ (c.1, c.2.1) ∈ l ∧ c.2.1.readyOn d slot = some c.2.2) ∧
      (∀ b ∈ best, deadlineFirst b.2.1 b.2.2 c.2.1 c.2.2 = false) ∧
      ∀ e ∈ l, ∀ y, e.2.readyOn d slot = some y → deadlineFirst e.2 y c.2.1 c.2.2 = false := by
  induction l generalizing best with
  | nil =>
    obtain rfl : best = some c := h
    simp [deadlineFirst_self]
  | cons e l ih =>
    have he := hl e List.mem_cons_self
    obtain ⟨hfrom, hkeep, hsome, hready⟩ := chooseStep_spec (d := d) (slot := slot) best e he hbest
    have hwin : ∀ b ∈ chooseStep d slot best e, (b.2.2.tl - w).toNat < 2 ^ 62 := by
      rcases hfrom with h | ⟨st, hst, h⟩
      · rwa [h]
      · rw [h]
        rintro b hb
        obtain rfl := Option.some.inj hb
        exact he st (Task.readyOn_eq_some.1 hst).2.1
    obtain ⟨hin, hfirst, hrest⟩ := ih (chooseStep d slot best e) (fun x hx => hl x (by simp [hx])) hwin h
    have hc : (c.2.2.tl - w).toNat < 2 ^ 62 := by
      rcases hin with hin | ⟨hmem, hin⟩
      · exact hwin c hin
      · exact hl _ (List.mem_cons_of_mem _ hmem) _ (Task.readyOn_eq_some.1 hin).2.1
    refine ⟨?_, fun b hb => ?_, fun x hx y hy => ?_⟩
    · rcases hin with hin | ⟨hmem, hin⟩
      · rcases hfrom with h | ⟨st, hst, h⟩
        · exact Or.inl (h ▸ hin)
        · obtain rfl : (e.1, e.2, st) = c := by simpa [h] using hin
          exact Or.inr ⟨by simp, hst⟩
      · exact Or.inr ⟨by simp [hmem], hin⟩
    · obtain ⟨b', hb'⟩ := Option.isSome_iff_exists.1 (hsome (Or.inl (Option.isSome_iff_exists.2 ⟨b, hb⟩)))
      exact deadlineFirst_trans (hbest b hb) (hwin b' hb') hc (hkeep b' hb' b hb) (hfirst b' hb')
    · rcases List.mem_cons.1 hx with rfl | hx
      · obtain ⟨b', hb'⟩ := Option.isSome_iff_exists.1 (hsome (Or.inr (Option.isSome_iff_exists.2 ⟨y, hy⟩)))
        exact deadlineFirst_trans (he y (Task.readyOn_eq_some.1 hy).2.1) (hwin b' hb') hc (hready b' hb' y hy) (hfirst b' hb')
      · exact hrest x hx y hy

/-- Settles O17: the fold over the tasks keeps the best of those it saw. -/
theorem dispatchTakesEarliest : Obligations.DispatchTakesEarliest := by
  intro s d slot t k st w hw h
  rw [State.nextOn_eq] at h
  obtain ⟨hin, -, hfirst⟩ := foldl_chooseStep s.tasks none (t, k, st) hw (by simp) h
  obtain ⟨hmem, hready⟩ := hin.resolve_left (by simp)
  obtain ⟨⟨hd, hslot, -, -⟩, hst, hrun, hcut⟩ := Task.readyOn_eq_some.1 hready
  exact ⟨hmem, hst, hd, hslot, hrun, hcut, fun e he y hd hslot hheld hmig hy hr hc =>
    hfirst e he y (Task.readyOn_eq_some.2 ⟨⟨hd, hslot, hheld, hmig⟩, hy, hr, hc⟩)⟩

/-! ## The begin of a run (R94, R112, R209) -/

theorem memRead_memClear (m : List Host.Cell) {lo n a : Nat} (h : lo ≤ a ∧ a < lo + n) : memRead (memClear m lo n) a = memDefault := by
  unfold memRead memClear
  induction m with
  | nil => rfl
  | cons e m ih =>
    obtain ⟨b, v⟩ := e
    by_cases hb : b < lo ∨ lo + n ≤ b
    · simpa [List.filter_cons, hb, amGet, show b ≠ a by omega] using ih
    · simpa [List.filter_cons, hb] using ih

/-- Settles O21. -/
theorem runBeginsClean : Obligations.RunBeginsClean := by
  intro s t k
  refine ⟨_, State.task_setTask _ _ _, rfl, rfl, rfl, rfl, rfl, rfl, rfl, fun u hu => ?_, fun o ho => ?_⟩
  · exact State.task_setTask_ne _ _ _ _ hu
  · have hmem : (s.beginRun t k).dieMem = memWriteList (memClear s.dieMem (dieAddr k.die k.dataBase) k.dataBytes)
        (dieAddr k.die k.dataBase) (k.dataInit.take k.dataBytes) := rfl
    rw [hmem]
    by_cases hlen : o < (k.dataInit.take k.dataBytes).length
    · rw [memRead_memWriteList_at _ _ _ _ hlen, List.getD_eq_getElem _ _ hlen]
    · rw [memRead_memWriteList_outside _ _ _ _ (by omega), memRead_memClear _ (by omega), List.getD_eq_default _ _ (by omega)]
      rfl

end Sys2Proof.Machine

/-! # What folds over a state keep -/

namespace Sys2Proof.Machine

section Fold
variable {α β γ : Type}

/-- What each step of a fold leaves as it is, the fold leaves as it is. -/
theorem foldl_keep {f : β → α → β} (g : β → γ) (h : ∀ b a, g (f b a) = g b) (l : List α) (b : β) :
    g (l.foldl f b) = g b := by
  induction l generalizing b with
  | nil => rfl
  | cons a l ih => exact (ih _).trans (h b a)

/-- What each step of a fold keeps true, the fold keeps true. -/
theorem foldl_inv {f : β → α → β} {P : β → Prop} (h : ∀ b a, P b → P (f b a)) (l : List α) {b : β} (hb : P b) :
    P (l.foldl f b) := by
  induction l generalizing b with
  | nil => exact hb
  | cons a l ih => exact ih (h b a hb)

end Fold

end Sys2Proof.Machine

/-! # Memories in canonical form: what the state's own operations keep (log entry 5)

`State.Canon` says that die memory, ring memory and host memory are in canonical form. Only a few operations write a memory at all, each
through `memWrite`, `memWriteList`, `memPutWord` or `memClear`, which keep a memory canonical; all the others change what a state holds
beside its memories (`State.Canon.update`) or call operations of which this is known. So each operation of the model has one lemma here,
named after it, whose proof follows its text. -/

namespace Sys2Proof.Machine

/-- Die memory, ring memory and host memory are in canonical form. -/
def State.Canon (s : State) : Prop := s.memOk = true

namespace State.Canon

theorem ite {c : Prop} [Decidable c] {s u : State} (hs : s.Canon) (hu : u.Canon) : (if c then s else u).Canon := by
  split
  · exact hs
  · exact hu

theorem ifThen {c : Prop} [Decidable c] {s u : State} (hu : s.Canon → u.Canon) (hs : s.Canon) : (if c then u else s).Canon :=
  .ite (hu hs) hs

theorem iteSnd {α : Type} {c : Prop} [Decidable c] {x y : α × State} (hx : x.2.Canon) (hy : y.2.Canon) :
    (if c then x else y).2.Canon := by
  split
  · exact hx
  · exact hy

theorem iteFst {α : Type} {c : Prop} [Decidable c] {x y : State × α} (hx : x.1.Canon) (hy : y.1.Canon) :
    (if c then x else y).1.Canon := by
  split
  · exact hx
  · exact hy

theorem iteSnd2 {α β : Type} {c : Prop} [Decidable c] {x y : α × β × State} (hx : x.2.2.Canon) (hy : y.2.2.Canon) :
    (if c then x else y).2.2.Canon := by
  split
  · exact hx
  · exact hy

theorem foldl {α : Type} {f : State → α → State} {l : List α} {s : State} (hf : ∀ u a, u.Canon → (f u a).Canon) (hs : s.Canon) :
    (l.foldl f s).Canon := foldl_inv hf l hs

/-- What a state holds beside its memories is of no account. It is stated over the constructor so that it applies to every record
update of a state. -/
theorem update {s : State} {pending : List Instr} {variant : Variant} {fuses : Fuses} {straps : Straps}
    {regs : List (RKey × Word)} {ports : List (Nat × PortSt)} {now : Time} {slew : Int} {slewFrac : Int}
    {slewPend : Option (Time × Int)} {ecc : List Nat} {weak : List Nat} {tasks : List (Nat × Task)} {flight : List Eff}
    {msgs : List Msg} {sent : Nat} {dies : List (Nat × Die)} {boot : Boot} {dbg : Dbg} {pcie : Pcie} {recs : List Rec}
    {posts : List (Time × Nat)} {cqs : List (Nat × CqCmd)} {cqLast : Nat} {cqTime : Option Time} {eqs : List (Nat × EqSt)}
    {groups : List (Nat × Time)} {claims : List (Nat × Nat)} {coreIrq : List Nat} {asleep : List Nat} {prods : Nat}
    {pins : List (Nat × PinSt)} {cars : List (Nat × CarSt)} {trips : List (Nat × TripSt)} {fbs : List (Nat × FbSt)}
    {hoops : List (Nat × HoopSt)} {ques : List (Nat × QueSt)} {dmas : List (Nat × DmaSt)} {nets : List (Nat × NetSt)}
    {ptpPorts : List (Nat × PtpPort)} {ptp : PtpSt} {axps : List (Nat × AxpSt)} {axss : List (Nat × AxsSt)} {freeCount : Nat}
    (h : s.Canon) : (State.mk pending variant fuses straps regs ports now slew slewFrac slewPend s.dieMem s.ring s.hostMem ecc weak
      tasks flight msgs sent dies boot dbg pcie recs posts cqs cqLast cqTime eqs groups claims coreIrq asleep prods pins cars trips
      fbs hoops ques dmas nets ptpPorts ptp axps axss freeCount).Canon := h

end State.Canon

theorem canon_iff {s : State} : s.Canon ↔ Memory.wf s.dieMem = true ∧ Memory.wf s.ring = true ∧ Memory.wf s.hostMem = true := by
  simp only [State.Canon, State.memOk, Bool.and_eq_true, and_assoc]

namespace State.Canon

theorem setReg {s : State} {r : Reg} {ix : Ix} {v : Word} (h : s.Canon) : (s.setReg r ix v).Canon := .update h

theorem setFld {s : State} {f : Fld} {ix : Ix} {v : Nat} (h : s.Canon) : (s.setFld f ix v).Canon := .setReg h

theorem setBit {s : State} {f : Fld} {ix : Ix} {b : Bool} (h : s.Canon) : (s.setBit f ix b).Canon := .setFld h

theorem bumpBy {s : State} {f : Fld} {ix : Ix} {n : Nat} (h : s.Canon) : (s.bumpBy f ix n).Canon := .setFld h

theorem bump {s : State} {f : Fld} {ix : Ix} (h : s.Canon) : (s.bump f ix).Canon := .bumpBy h

theorem bumpMod {s : State} {f : Fld} {ix : Ix} (h : s.Canon) : (s.bumpMod f ix).Canon := .setFld h

theorem setReg64 {s : State} {lo hi : Reg} {ix : Ix} {v : BitVec 64} (h : s.Canon) : (s.setReg64 lo hi ix v).Canon :=
  .setReg (.setReg h)

theorem plainWrite {s : State} {r : Reg} {ix : Ix} {v : Word} (h : s.Canon) : (s.plainWrite r ix v).Canon := .setReg h

theorem atTime {s : State} {t : Time} (h : s.Canon) : (s.at t).Canon := .ite (.update h) h

theorem setDie {s : State} {d : Nat} {x : Die} (h : s.Canon) : (s.setDie d x).Canon := .update h

theorem modDie {s : State} {d : Nat} {f : Die → Die} (h : s.Canon) : (s.modDie d f).Canon := .setDie h

theorem dropEnd {s : State} {d k : Nat} (h : s.Canon) : (s.dropEnd d k).Canon := .modDie h

theorem dropLink {s : State} {d k : Nat} (h : s.Canon) : (s.dropLink d k).Canon := .dropEnd (.dropEnd h)

theorem writeDie {s : State} {d off : Nat} {bs : List Byte} (h : s.Canon) : (s.writeDie d off bs).Canon := by
  obtain ⟨hdie, hring, hhost⟩ := canon_iff.1 h
  exact canon_iff.2 ⟨memWriteList_wf _ _ _ hdie, hring, hhost⟩

theorem writeDieWord {s : State} {d off : Nat} {v : Word} (h : s.Canon) : (s.writeDieWord d off v).Canon := by
  obtain ⟨hdie, hring, hhost⟩ := canon_iff.1 h
  exact canon_iff.2 ⟨memPutWord_wf _ _ _ hdie, hring, hhost⟩

theorem correctWord {s : State} {d off : Nat} (h : s.Canon) : (s.correctWord d off).Canon :=
  .ite (.bump (.bump (.update h))) h

theorem corrected {s : State} {d : Nat} {offs : List Nat} (h : s.Canon) : (s.corrected d offs).Canon :=
  .foldl (fun _ _ h1 => .correctWord h1) h

theorem sawBad {s : State} {d off : Nat} {shadow : Bool} (h : s.Canon) : (s.sawBad d off shadow).Canon :=
  .setReg (.bump h)

theorem spaceWrite {s : State} {ring : Bool} {a : Nat} {bs : List Byte} (h : s.Canon) :
    (s.spaceWrite ring a bs).Canon := by
  obtain ⟨hdie, hring, hhost⟩ := canon_iff.1 h
  exact .ite (canon_iff.2 ⟨hdie, memWriteList_wf _ _ _ hring, hhost⟩) (canon_iff.2 ⟨hdie, hring, memWriteList_wf _ _ _ hhost⟩)

theorem numberRec {s : State} {d : Nat} (h : s.Canon) : (s.numberRec d).Canon := .setReg h

theorem emit {s : State} {r : Rec} (h : s.Canon) : (s.emit r).Canon := .ite h (.modDie (.numberRec h))

theorem emitUnit {s : State} {d src ty : Nat} {stamp : Time} {eq : Nat} {payload : List Byte} (h : s.Canon) :
    (s.emitUnit d src ty stamp eq payload).Canon :=
  .emit (.update h)

theorem faultRec {s : State} {d src ty : Nat} {stamp : Time} {payload : List Byte} (h : s.Canon) :
    (s.faultRec d src ty stamp payload).Canon :=
  .emitUnit h

theorem detRec {s : State} {d src ty : Nat} {stamp : Time} {payload : List Byte} (h : s.Canon) :
    (s.detRec d src ty stamp payload).Canon :=
  .emitUnit h

theorem breach {s : State} {k : Nat} (h : s.Canon) : (s.breach k).Canon := .bump (.setReg h)

theorem postShared {s : State} {n : Nat} (h : s.Canon) : (s.postShared n).Canon := .ite (.setBit h) h

theorem setPriv {s : State} {lo hi : Reg} {t p : Nat} {b : Bool} (h : s.Canon) : (s.setPriv lo hi t p b).Canon :=
  .setReg64 h

theorem postPriv {s : State} {t p : Nat} (h : s.Canon) : (s.postPriv t p).Canon := .setPriv h

theorem wake {s : State} (h : s.Canon) : s.wake.Canon := .update h

theorem capWrite {s : State} (h : s.Canon) : s.capWrite.Canon :=
  .wake (.postShared (.setReg (.setReg (.setReg (.foldl (fun _ _ h1 => .setReg h1) (.setReg (.setReg (.setReg (.setReg
    (.setFld (.setFld h)))))))))))

theorem capUpdate {s : State} (h : s.Canon) : s.capUpdate.Canon := .ite (.capWrite h) h

theorem fresh {s : State} (h : s.Canon) : (s.fresh).2.Canon := .update h

theorem setTask {s : State} {t : Nat} {k : Task} (h : s.Canon) : (s.setTask t k).Canon := .update h

theorem modTask {s : State} {t : Nat} {f : Task → Task} (h : s.Canon) : (s.modTask t f).Canon := by
  unfold State.modTask
  split
  · exact .setTask h
  · exact h

theorem taskFault {s : State} {t code pc info : Nat} {tAct : Time} {keep : Bool} (h : s.Canon) :
    (s.taskFault t code pc info tAct keep).Canon := by
  unfold State.taskFault
  dsimp only
  split
  · exact h
  · exact .bump (.setTask h)

theorem taskFaultAt {s : State} {t code : Nat} {tD : Time} (h : s.Canon) : (s.taskFaultAt t code tD).Canon :=
  .taskFault h

theorem historyLost {s : State} {t d unit : Nat} {tAct fin : Time} (h : s.Canon) :
    (s.historyLost t d unit tAct fin).Canon :=
  .detRec (.breach h)

theorem beginRun {s : State} {t : Nat} {k : Task} (h : s.Canon) : (s.beginRun t k).Canon := by
  obtain ⟨hdie, hring, hhost⟩ := canon_iff.1 h
  exact .setTask (.writeDie (canon_iff.2 ⟨memClear_wf _ _ _ hdie, hring, hhost⟩))

theorem activate {s : State} {t : Nat} {a : Act} (h : s.Canon) : (s.activate t a).Canon := by
  unfold State.activate
  split
  · exact .bump h
  · refine .ite (.bump h) ?_
    refine .ite h ?_
    split
    · exact h
    · exact .ite (.ite (.setTask h) (.taskFault h)) (.setTask h)

theorem overrun {s : State} {t : Nat} {k : Task} {tAct : Time} {keep : Bool} (h : s.Canon) :
    (s.overrun t k tAct keep).Canon :=
  .ite (.taskFault (.detRec (.breach h))) (.ite (.detRec (.breach h)) (.modTask (.detRec (.breach h))))

theorem launch {s : State} {d : Nat} {e : Eff} (h : s.Canon) : (s.launch d e).Canon := by
  unfold State.launch
  split
  · exact .emit h
  · exact .update h
  · exact .update h
  · exact .update h

theorem setAxs {s : State} {e : Nat} {x : AxsSt} (h : s.Canon) : (s.setAxs e x).Canon := .update h

theorem axsLate {s : State} {t e : Nat} {tRead x : Time} (h : s.Canon) : (s.axsLate t e tRead x).Canon := by
  unfold State.axsLate
  dsimp only
  split
  · exact .ite h (.bump (.setAxs h))
  · exact .ite (.ite h (.bump (.setAxs h))) (.detRec (.breach (.setTask (.ite h (.bump (.setAxs h))))))

theorem queueFull {s : State} {t d q words : Nat} {tAct fin : Time} (h : s.Canon) :
    (s.queueFull t d q words tAct fin).Canon :=
  .detRec (.breach h)

theorem drain {s : State} {k : Task} {wbuf : List (Nat × Word)} (h : s.Canon) : (s.drain k wbuf).Canon :=
  .foldl (fun _ _ h1 => .writeDieWord h1) h

theorem commit {s : State} {t : Nat} {k : Task} {st : Step} {next : Resume} {timer : Option Time} (h : s.Canon) :
    (s.commit t k st next timer).Canon :=
  .foldl (fun _ _ h1 => .ite (.bump h1) (.queueFull (.bump h1))) (.foldl (fun _ _ h1 => .axsLate h1) (.foldl
    (fun _ _ h1 => .launch h1) (.drain (.setTask h))))

theorem cutHalted {s : State} {t : Nat} {k : Task} {st : Step} (h : s.Canon) : (s.cutHalted t k st).Canon :=
  .overrun (.setTask h)

theorem instrFault {s : State} {t : Nat} {k : Task} {st : Step} {pc code info : Nat} (h : s.Canon) :
    (s.instrFault t k st pc code info).Canon :=
  .ite (.ite (.cutHalted (.ite (.sawBad h) h)) (.overrun (.ite (.sawBad h) h))) (.taskFault (.ite (.historyLost (.ite
    (.sawBad h) h)) (.ite (.sawBad h) h)))

end State.Canon

/-- The state an instruction leaves. -/
def IRes.state : IRes → State
  | .go s _ => s
  | .trap s _ _ => s
  | .commit s _ _ _ => s

namespace State.Canon

theorem finish {r : IRes} {t : Nat} {k : Task} {st : Step} {pc : Nat} (h : r.state.Canon) :
    (r.finish t k st pc).Canon := by
  cases r with
  | go s st' => exact .modTask h
  | trap s code info => exact .ite (.modTask h) (.instrFault h)
  | commit s st' next timer =>
    simp only [IRes.finish]
    split
    · exact .ite (.setTask h) (.commit h)
    · exact h

theorem recross {s : State} {from_ : Time} (h : s.Canon) : (s.recross from_).Canon := .update h

theorem setQue {s : State} {q : Nat} {x : QueSt} (h : s.Canon) : (s.setQue q x).Canon := .update h

theorem modQue {s : State} {q : Nat} {f : QueSt → QueSt} (h : s.Canon) : (s.modQue q f).Canon := .setQue h

theorem ringWrite {s : State} {q pos : Nat} {l : List Word} (h : s.Canon) : (s.ringWrite q pos l).Canon := by
  induction l generalizing s pos with
  | nil => exact h
  | cons w l ih =>
    obtain ⟨hdie, hring, hhost⟩ := canon_iff.1 h
    exact ih (canon_iff.2 ⟨memPutWord_wf _ _ _ hdie, hring, hhost⟩)

theorem putPacket {s : State} {q : Nat} {stamp : Time} {ws : List Word} (h : s.Canon) :
    (s.putPacket q stamp ws).Canon :=
  .modQue (.ringWrite h)

theorem request {s : State} {q : Nat} {flush : Bool} (h : s.Canon) : (s.request q flush).Canon :=
  .ite (.setQue h) (.ite (.setQue h) h)

theorem releaseTo {s : State} {q upto : Nat} {t : Time} (h : s.Canon) : (s.releaseTo q upto t).Canon :=
  .request (.setQue h)

theorem publish {s : State} {q : Nat} {p : Pkt} (h : s.Canon) : (s.publish q p).Canon := by
  unfold State.publish
  dsimp only
  refine .ite ?_ (.ite (.update (.request (.bumpMod (.modQue h)))) (.request (.bumpMod (.modQue h))))
  split
  · exact .activate (.request (.bumpMod (.modQue h)))
  · exact .request (.bumpMod (.modQue h))

theorem closeGap {s : State} {d : Nat} {g : Time} (h : s.Canon) : (s.closeGap d g).Canon := by
  unfold State.closeGap
  split
  · exact h
  · exact .detRec (.modDie h)

theorem log {s : State} {d kind flags unit : Nat} {stamp : Time} {payload : List Word} (h : s.Canon) :
    (s.log d kind flags unit stamp payload).Canon :=
  .ite (.ite (.putPacket (.closeGap h)) (.modDie (.ite (.closeGap (.setReg h)) (.setReg h)))) h

theorem setPin {s : State} {p : Nat} {x : PinSt} (h : s.Canon) : (s.setPin p x).Canon := .update h

theorem modPin {s : State} {p : Nat} {f : PinSt → PinSt} (h : s.Canon) : (s.modPin p f).Canon := .setPin h

theorem setCar {s : State} {c : Nat} {x : CarSt} (h : s.Canon) : (s.setCar c x).Canon := .update h

theorem modCar {s : State} {c : Nat} {f : CarSt → CarSt} (h : s.Canon) : (s.modCar c f).Canon := .setCar h

theorem setTrip {s : State} {j : Nat} {x : TripSt} (h : s.Canon) : (s.setTrip j x).Canon := .update h

theorem modTrip {s : State} {j : Nat} {f : TripSt → TripSt} (h : s.Canon) : (s.modTrip j f).Canon := .setTrip h

theorem setFb {s : State} {n : Nat} {x : FbSt} (h : s.Canon) : (s.setFb n x).Canon := .update h

theorem modFb {s : State} {n : Nat} {f : FbSt → FbSt} (h : s.Canon) : (s.modFb n f).Canon := .setFb h

theorem setHoop {s : State} {h' : Nat} {x : HoopSt} (h : s.Canon) : (s.setHoop h' x).Canon := .update h

theorem modHoop {s : State} {h' : Nat} {f : HoopSt → HoopSt} (h : s.Canon) : (s.modHoop h' f).Canon := .setHoop h

theorem ownPin {s : State} {p : Nat} {o : POwner} (h : s.Canon) : (s.ownPin p o).Canon := .modPin h

theorem fbPush {s : State} {n : Nat} {stamp : Time} {line : Nat} {level : Bool} (h : s.Canon) :
    (s.fbPush n stamp line level).Canon :=
  .modFb h

theorem hoopEdge {s : State} {h' : Nat} {stamp : Time} {level : Bool} {delay : Nat} (h : s.Canon) :
    (s.hoopEdge h' stamp level delay).Canon := by
  unfold State.hoopEdge
  dsimp only
  refine .ite ?_ (.ite (.setHoop h) h)
  refine .ite (.setHoop h) ?_
  split
  · exact h
  · exact .setHoop h

theorem hoopIndex {s : State} {h' : Nat} {stamp : Time} {level : Bool} {delay : Nat} (h : s.Canon) :
    (s.hoopIndex h' stamp level delay).Canon :=
  .ite (.modHoop h) h

theorem pinToUnits {s : State} {p : Nat} {stamp : Time} {level : Bool} (h : s.Canon) :
    (s.pinToUnits p stamp level).Canon := by
  unfold State.pinToUnits
  refine .foldl (fun _ _ h1 => .ifThen .fbPush (.ifThen (fun h2 => ?_) h1)) (.foldl (fun _ _ h1 => .ifThen (fun h2 => ?_) h1) h)
  · exact .ifThen .fbPush (.ifThen .fbPush h2)
  · exact .ifThen .hoopIndex (.ifThen .hoopEdge h2)

theorem ballToUnits {s : State} {n line : Nat} {stamp : Time} {level : Bool} (h : s.Canon) :
    (s.ballToUnits n line stamp level).Canon := by
  unfold State.ballToUnits
  refine .ifThen (.foldl fun _ _ => .ifThen .fbPush) (.foldl (fun _ _ => .ifThen fun h1 => ?_) ?_)
  · exact .ite (.hoopEdge h1) (.ifThen .hoopIndex h1)
  · exact .ifThen (.foldl fun _ _ => .ifThen .fbPush) (.ite (.fbPush h) (.ifThen .fbPush h))

theorem pinAccept {s : State} {p : Nat} (h : s.Canon) : (s.pinAccept p).Canon := by
  unfold State.pinAccept
  dsimp only
  refine .ite ?_ (.pinToUnits (.setPin h))
  split
  · split
    · exact .activate (.log (.bumpMod (.modPin (.pinToUnits (.setPin h)))))
    · exact .log (.bumpMod (.modPin (.pinToUnits (.setPin h))))
  · exact .log (.bumpMod (.modPin (.pinToUnits (.setPin h))))

theorem pinInputEdge {s : State} {p : Nat} {stamp : Time} {level : Bool} (h : s.Canon) :
    (pinInputEdge s p stamp level).Canon :=
  .ite h (.ite (.setPin h) (.ite (.ite (.bump (.setPin (.atTime h))) (.ite (.modPin (.pinAccept (.atTime h))) (.setPin
    (.atTime h)))) (.setPin (.atTime h))))

theorem pinFilterAccept {s : State} {p : Nat} (h : s.Canon) : (pinFilterAccept s p).Canon :=
  .ite (.pinAccept (.atTime h)) h

theorem pushStitch {s : State} {p : Nat} {a : Stitch} (h : s.Canon) : (s.pushStitch p a).Canon := .modPin h

theorem dropWins {s : State} {p : Nat} {stamps : List Time} (h : s.Canon) : (s.dropWins p stamps).Canon := .update h

theorem pushEdge {s : State} {p : Nat} {stamp : Time} {level : Bool} (h : s.Canon) :
    (s.pushEdge p stamp level).Canon := by
  unfold State.pushEdge
  dsimp only
  refine .ite ?_ (.pushStitch h)
  refine .bump ?_
  refine .modPin ?_
  split
  · exact .dropWins h
  · exact h

theorem takeEdge {s : State} {p : Nat} {a : Stitch} (h : s.Canon) : (s.takeEdge p a).Canon :=
  .ite (.bump (.modPin h)) (.modPin h)

theorem stitchApply {s : State} {p : Nat} (h : s.Canon) : (stitchApply s p).Canon := by
  unfold Machine.stitchApply
  dsimp only
  split
  · exact h
  · refine .ite h ?_
    split
    · exact .ite (.bump (.dropWins (.modPin (.atTime h)))) (.takeEdge (.modPin (.atTime h)))
    · exact .takeEdge (.modPin (.atTime h))

theorem stitchLock {s : State} {p : Nat} (h : s.Canon) : (stitchLock s p).Canon := by
  unfold Machine.stitchLock
  dsimp only
  split
  · exact h
  · exact .ite (.modPin (.atTime h)) h

theorem stitchArrive {s : State} {e : Eff} {p : Nat} {level repl : Bool} {old : Option Time} (h : s.Canon) :
    (s.stitchArrive e p level repl old).Canon :=
  .setPin h

theorem pinToFallback {s : State} {p t run : Nat} (h : s.Canon) : (s.pinToFallback p t run).Canon := .modPin h

theorem pinCtrlWrite {s : State} {port : Port} {p : Nat} {v : Word} (h : s.Canon) :
    (pinCtrlWrite s port p v).Canon :=
  .ite (.setBit h) (.ite (.modPin (.modPin (.plainWrite h))) (.modPin (.plainWrite h)))

theorem pinCapSelWrite {s : State} {port : Port} {p : Nat} {v : Word} (h : s.Canon) :
    (pinCapSelWrite s port p v).Canon := by
  unfold Machine.pinCapSelWrite
  dsimp only
  split <;> exact .setReg64 (.setReg (.plainWrite h))

theorem setPair {s : State} {c n : Nat} {x : PairSt} (h : s.Canon) : (s.setPair c n x).Canon := .modCar h

theorem modSw {s : State} {c n : Nat} {low : Bool} {f : SwSt → SwSt} (h : s.Canon) : (s.modSw c n low f).Canon :=
  .setPair h

theorem openWindows {s : State} {c n : Nat} {low on : Bool} {t : Time} (h : s.Canon) :
    (s.openWindows c n low on t).Canon :=
  .ite h (.foldl (fun _ _ h1 => .ite (.modTrip h1) h1) h)

theorem swOn {s : State} {c n : Nat} {low : Bool} {t : Time} (h : s.Canon) : (s.swOn c n low t).Canon :=
  .pushEdge (.modSw h)

theorem swOff {s : State} {c n : Nat} {low : Bool} {t : Time} (h : s.Canon) : (s.swOff c n low t).Canon :=
  .ite (.pushEdge (.modSw (.modSw h))) h

theorem swUncall {s : State} {c n : Nat} {low : Bool} (h : s.Canon) : (s.swUncall c n low).Canon := .modSw h

theorem bothOff {s : State} {c n : Nat} {t : Time} {window : Bool} (h : s.Canon) : (s.bothOff c n t window).Canon :=
  .swOff (.swOff (.ite (.openWindows (.ite (.openWindows (.swUncall (.swUncall h))) (.swUncall (.swUncall h)))) (.ite
    (.openWindows (.swUncall (.swUncall h))) (.swUncall (.swUncall h)))))

theorem swCall {s : State} {c n : Nat} {low : Bool} {t : Time} (h : s.Canon) : (s.swCall c n low t).Canon := .modSw h

theorem swRelease {s : State} {c n : Nat} {low : Bool} {t : Time} (h : s.Canon) : (s.swRelease c n low t).Canon :=
  .ite (.swUncall h) (.ite (.modSw (.ite (.swUncall h) (.bump (.swUncall h)))) (.swOff (.openWindows (.swUncall h))))

theorem setRef {s : State} {c n : Nat} {on : Bool} {t : Time} (h : s.Canon) : (s.setRef c n on t).Canon :=
  .ite h (.ite (.swCall (.swRelease (.setPair h))) (.setPair h))

theorem pairResume {s : State} {c n : Nat} {t : Time} (h : s.Canon) : (s.pairResume c n t).Canon := .swCall h

theorem pairTrip {s : State} {c n : Nat} {t : Time} (h : s.Canon) : (s.pairTrip c n t).Canon :=
  .ite h (.ite (.bothOff (.setPair h)) (.modSw (.swOff (.swUncall (.swUncall (.setPair h))))))

theorem pairUntrip {s : State} {c n : Nat} {t : Time} (h : s.Canon) : (s.pairUntrip c n t).Canon :=
  .setPair (.bothOff h)

theorem retrip {s : State} {d : Nat} {t : Time} (h : s.Canon) : (s.retrip d t).Canon :=
  .foldl (fun _ _ h1 => .ite (.pairTrip h1) (.ite (.pairUntrip h1) h1)) h

theorem carFallback {s : State} {c t run : Nat} {at_ : Time} (h : s.Canon) : (s.carFallback c t run at_).Canon :=
  .foldl (fun _ _ h1 => .setPair (.ite h1 (.bothOff h1))) (.modCar h)

theorem carReject {s : State} {c : Nat} (h : s.Canon) : (s.carReject c).Canon := .bump h

theorem applyCompare {s : State} {c : Nat} {e : Eff} (h : s.Canon) : (s.applyCompare c e).Canon := by
  unfold State.applyCompare
  split
  · exact .setFld (.setReg h)
  · exact h

theorem applyPeriod {s : State} {c : Nat} {hp ph : Option Nat} (h : s.Canon) : (s.applyPeriod c hp ph).1.Canon := by
  have htake {α : Type} {u : State} {p : Prop} [Decidable p] {a b : α} (hu : u.Canon) :
      (if p then (a, u) else (b, u.carReject c)).2.Canon := .iteSnd hu (.carReject hu)
  have hreject {α : Type} {u : State} {p : Prop} [Decidable p] {a b : α} (hu : u.Canon) :
      (if p then (a, u.carReject c) else (b, u)).2.Canon := .iteSnd (.carReject hu) hu
  cases hp with
  | none =>
    cases ph with
    | none => exact .setFld (.setFld (hreject h))
    | some x => exact .setFld (.setFld (hreject (hreject h)))
  | some y =>
    cases ph with
    | none => exact .setFld (.setFld (hreject (htake h)))
    | some x => exact .setFld (.setFld (hreject (hreject (htake h))))

theorem applyPairCmd {s : State} {c : Nat} {e : Eff} {t : Time} (h : s.Canon) : (s.applyPairCmd c e t).Canon := by
  unfold State.applyPairCmd
  dsimp only
  split
  · exact .setPair (.ite h (.bothOff h))
  · exact .setPair h
  · exact h

theorem carrierStartApply {s : State} {c : Nat} (h : s.Canon) : (carrierStartApply s c).Canon := by
  unfold Machine.carrierStartApply
  dsimp only
  split
  · exact h
  · exact .ite h (.ite (.modCar (.modCar (.atTime h))) (.carReject (.modCar (.atTime h))))

theorem boundaryPairs {s : State} {c : Nat} {t : Time} {was : List Bool} (h : s.Canon) :
    (s.boundaryPairs c t was).Canon :=
  .foldl (fun _ _ h1 => .ite (.ite (.setRef (.ite (.pairUntrip h1) h1)) (.ite (.pairResume (.setPair (.ite
    (.pairUntrip h1) h1))) (.setPair (.ite (.pairUntrip h1) h1)))) h1) h

theorem carrierBoundary {s : State} {c : Nat} (h : s.Canon) : (carrierBoundary s c).Canon := by
  have hdue {l l' : List Eff} {hp ph : Option Nat} {t : Time} {f : CarSt → CarSt} :
      ((l'.foldl (fun s e => s.applyPairCmd c e t) ((l.foldl (fun s e => s.applyCompare c e) ((s.at t).modCar c f)).applyPeriod c hp
        ph).1).setReg64 .CAR_LAST_BOUNDARY_LO .CAR_LAST_BOUNDARY_HI (carIx c) t).Canon :=
    .setReg64 (.foldl (fun _ _ => .applyPairCmd) (.applyPeriod (.foldl (fun _ _ => .applyCompare) (.modCar (.atTime h)))))
  unfold Machine.carrierBoundary
  exact .ite h (.ite (.modCar (.foldl (fun _ _ h1 => .setPair (.ite (.ite h1 (.pairUntrip h1)) (.bothOff h1))) hdue))
    (.boundaryPairs (.modCar hdue)))

theorem carrierMidpoint {s : State} {c : Nat} (h : s.Canon) : (carrierMidpoint s c).Canon :=
  .ite h (.foldl (fun _ _ h1 => .ite (.setRef h1) h1) (.foldl (fun _ _ h1 => .applyCompare h1) (.modCar (.atTime h))))

theorem phaseHoldEnd {s : State} {c : Nat} (h : s.Canon) : (phaseHoldEnd s c).Canon := .ite (.atTime h) h

theorem pwmStoppedWriteApply {s : State} {c : Nat} (h : s.Canon) : (pwmStoppedWriteApply s c).Canon := by
  unfold Machine.pwmStoppedWriteApply
  dsimp only
  split
  · exact h
  · refine .ite h ?_
    split
    · exact .ite (.setFld (.applyPairCmd (.applyCompare (.modCar (.atTime h))))) (.carReject (.applyPairCmd (.applyCompare (.modCar
        (.atTime h)))))
    · exact .ite (.setFld (.applyPairCmd (.applyCompare (.modCar (.atTime h))))) (.carReject (.applyPairCmd (.applyCompare (.modCar
        (.atTime h)))))
    · exact .applyPairCmd (.applyCompare (.modCar (.atTime h)))

theorem referenceEdge {s : State} {c n : Nat} (h : s.Canon) : (referenceEdge s c n).Canon :=
  .ite h (.ite (.setRef (.atTime h)) (.ite (.setRef (.atTime h)) h))

theorem pulse {s : State} {c n : Nat} {low : Bool} {t : Time} (h : s.Canon) : (s.pulse c n low t).Canon :=
  .ite (.swOn (.atTime h)) (.ite (.modSw (.atTime h)) (.ite (.swOn (.openWindows (.atTime h))) (.ite (.modSw (.bump (.swOn
    (.openWindows (.atTime h))))) (.bump (.modSw (.atTime h))))))

theorem deadTimeExpiry {s : State} {c n : Nat} (h : s.Canon) : (deadTimeExpiry s c n).Canon := by
  unfold Machine.deadTimeExpiry
  dsimp only
  refine .ite h ?_
  split
  · exact .pulse h
  · exact .pulse h
  · exact h

theorem minPulseExpiry {s : State} {c n : Nat} (h : s.Canon) : (minPulseExpiry s c n).Canon := by
  unfold Machine.minPulseExpiry
  dsimp only
  refine .ite h ?_
  split
  · exact .swOff (.openWindows (.atTime h))
  · exact .swOff (.openWindows (.atTime h))
  · exact h

theorem takePairPin {s : State} {c n : Nat} {low : Bool} {p : Nat} (h : s.Canon) : (s.takePairPin c n low p).Canon :=
  .modPin (.ite h (.ownPin h))

theorem freePairPins {s : State} {c n : Nat} {keep : List Nat} (h : s.Canon) : (s.freePairPins c n keep).Canon := by
  unfold State.freePairPins
  refine .foldl ?_ h
  intro _ _ h1
  split
  · exact .ite (.ownPin h1) h1
  · exact h1

theorem pairCfgWrite {s : State} {p : Port} {c n : Nat} {v : Word} (h : s.Canon) : (pairCfgWrite s p c n v).Canon := by
  unfold Machine.pairCfgWrite
  refine .ite (.setBit h) ?_
  have hcfg (b : Bool) : ((if b then s.pairUntrip c n s.now else s).plainWrite .PAIR_CFG (pairIx c n) v).Canon :=
    .plainWrite (.ifThen .pairUntrip h)
  exact .ite (.retrip (.takePairPin (.takePairPin (.setPair (.ite (.freePairPins (hcfg _)) (.setPair (.freePairPins (hcfg _))))))))
    (.setPair (.freePairPins (hcfg _)))

theorem carHalfPeriodWrite {s : State} {port : Port} {c : Nat} {v : Word} (h : s.Canon) :
    (carHalfPeriodWrite s port c v).Canon :=
  .ite (.setBit h) (.plainWrite h)

theorem carPhaseWrite {s : State} {port : Port} {c : Nat} {v : Word} (h : s.Canon) :
    (carPhaseWrite s port c v).Canon :=
  .ite (.setBit h) (.plainWrite h)

theorem pairTimeWrite {s : State} {r : Reg} {c n : Nat} {v : Word} (h : s.Canon) : (pairTimeWrite s r c n v).Canon :=
  .ite (.setBit h) (.plainWrite h)

end State.Canon

end Sys2Proof.Machine

/-! # Memories in canonical form: router, records, queues, DMA, trips, hoops and the network -/

namespace Sys2Proof.Machine

namespace State.Canon

theorem msix {s : State} {t : Nat} (h : s.Canon) : (s.msix t).Canon := .ite (.update h) (.ite (.update h) (.update h))

theorem msixFlush {s : State} (h : s.Canon) : s.msixFlush.Canon := .ite (.foldl (fun _ _ h1 => .msix h1) (.update h)) h

theorem routerNotify {s : State} {t : Nat} (h : s.Canon) : (routerNotify s t).Canon :=
  .ite (.ite (.msix (.setBit h)) (.update (.setBit h))) h

theorem startHoldoff {s : State} {g : Nat} (h : s.Canon) : (s.startHoldoff g).Canon := .ite h (.update (.setBit h))

theorem take {s : State} {t : Nat} {c : Cand} (h : s.Canon) : (s.take t c).Canon :=
  .ite (.setBit (.ite (.startHoldoff (.setPriv (.setPriv h))) (.startHoldoff (.update (.setBit (.setBit h)))))) (.ite
    (.startHoldoff (.setPriv (.setPriv h))) (.startHoldoff (.update (.setBit (.setBit h)))))

theorem coreClaims {s : State} {port : Port} {t : Nat} (h : s.Canon) : (s.coreClaims port t).Canon := .ite (.update h) h

theorem rtrClaimRead {s : State} {port : Port} {t : Nat} (h : s.Canon) : (rtrClaimRead s port t).2.Canon := by
  unfold Machine.rtrClaimRead
  split
  · exact .ite h (.coreClaims (.take h))
  · exact .ite h (.coreClaims (.setBit h))

theorem targetGate {s : State} {port : Port} {t : Nat} {f : State → State} (hf : ∀ u, u.Canon → (f u).Canon)
    (h : s.Canon) : (targetGate s port t f).Canon :=
  .ite (.setBit h) (hf _ h)

theorem rtrCompleteWrite {s : State} {port : Port} {t : Nat} {v : Word} (h : s.Canon) :
    (rtrCompleteWrite s port t v).Canon :=
  .targetGate (fun _ h1 => .ite (.ite (.setPriv h1) (.setBit h1)) (.ite (.update (.setBit h1)) (.setBit h1))) h

theorem rtrTargetWrite {s : State} {port : Port} {r : Reg} {t : Nat} {v : Word} (h : s.Canon) :
    (rtrTargetWrite s port r t v).Canon :=
  .targetGate (fun _ h1 => .wake (.plainWrite h1)) h

theorem rtrSrcWrite {s : State} {port : Port} {n : Nat} {v : Word} (h : s.Canon) : (rtrSrcWrite s port n v).Canon :=
  .ite (.bump h) (.wake (.plainWrite h))

theorem rtrDoorbellWrite {s : State} {port : Port} {v : Word} (h : s.Canon) : (rtrDoorbellWrite s port v).Canon :=
  .ite (.bump h) (.ite (.ite h (.wake (.postPriv h))) (.wake (.postShared h)))

theorem groupExpiry {s : State} {g : Nat} (h : s.Canon) : (groupExpiry s g).Canon := by
  unfold Machine.groupExpiry
  dsimp only
  split
  · exact h
  · exact .update (.setBit (.atTime h))

theorem mailboxPost {s : State} {t : Nat} {ws : List Word} (h : s.Canon) : (mailboxPost s t ws).Canon :=
  .ite (.wake (.postPriv (.setBit (.foldl (fun _ _ h1 => .setReg h1) h)))) h

theorem setEq {s : State} {n : Nat} {x : EqSt} (h : s.Canon) : (s.setEq n x).Canon := .setBit (.update h)

theorem eqWrite {s : State} {n : Nat} {r : Rec} {seq : Word} (h : s.Canon) : (s.eqWrite n r seq).Canon :=
  .ite (.wake (.postPriv (.ite (.setBit (.setFld (.spaceWrite h))) (.setFld (.spaceWrite h))))) (.ite (.setBit (.setFld
    (.spaceWrite h))) (.setFld (.spaceWrite h)))

theorem eqTake {s : State} {n : Nat} (h : s.Canon) : (s.eqTake n).2.Canon := .setReg h

theorem eqDrain {s : State} {n fuel : Nat} (h : s.Canon) : (s.eqDrain n fuel).Canon := by
  induction fuel generalizing s with
  | zero => exact h
  | succ fuel ih =>
    rw [State.eqDrain]
    refine .ite h ?_
    dsimp only
    split
    · exact .ite (ih (.eqWrite (.setEq h))) h
    · split
      · exact h
      · exact .ite (.eqWrite (.setEq (.eqTake h))) (.setEq (.eqTake h))

theorem eqPut {s : State} {r : Rec} (h : s.Canon) : (s.eqPut r).Canon := by
  unfold State.eqPut
  dsimp only
  refine .ite (.bump (.eqTake h)) ?_
  split
  · exact .setEq (.bump (.eqTake h))
  · exact .ite (.eqWrite (.eqTake h)) (.ite (.setEq (.eqTake h)) (.setEq (.bump (.eqTake h))))

theorem drainHolds {s : State} (h : s.Canon) : s.drainHolds.Canon := .foldl (fun _ _ h1 => .eqDrain h1) h

theorem release {s : State} {h' : Time} (h : s.Canon) : (s.release h').Canon :=
  .wake (.foldl (fun _ _ h1 => .postShared h1) (.update (.foldl (fun _ _ h1 => .eqPut h1) (.update h))))

theorem newHorizon {s : State} (h : s.Canon) : s.newHorizon.Canon := by
  unfold State.newHorizon
  dsimp only
  split
  · exact h
  · exact .release (.setReg64 h)

theorem receive {s : State} {d : Nat} {rs : List Rec} (h : s.Canon) : (s.receive d rs).Canon := .modDie (.update h)

theorem rebaseReports {s : State} (h : s.Canon) : s.rebaseReports.Canon := by
  unfold State.rebaseReports
  dsimp only
  split
  · exact .setReg64 (.foldl (fun _ _ h1 => .modDie h1) h)
  · exact .foldl (fun _ _ h1 => .modDie h1) h

theorem horizonReport {s : State} {d : Nat} {g : Time} (h : s.Canon) : (horizonReport s d g).Canon :=
  .ite (.drainHolds (.newHorizon (.receive (.setDie (.atTime h))))) (.atTime h)

theorem eqCfgWrite {s : State} {port : Port} {n : Nat} {v : Word} (h : s.Canon) : (eqCfgWrite s port n v).Canon :=
  .ite (.setBit h) (.ite (.setEq (.bumpBy (.setReg (.setFld (.setBit (.setFld (.plainWrite h))))))) (.plainWrite h))

theorem eqBaseWrite {s : State} {port : Port} {n : Nat} {lo hi : Word} (h : s.Canon) :
    (eqBaseWrite s port n lo hi).Canon :=
  .ite (.setBit h) (.setReg (.setReg h))

theorem eqHeadWriteReg {s : State} {port : Port} {n : Nat} {v : Word} (h : s.Canon) :
    (eqHeadWriteReg s port n v).Canon :=
  .ite (.setBit h) (.eqDrain (.setFld h))

theorem setCq {s : State} {q : Nat} {c : CqCmd} (h : s.Canon) : (s.setCq q c).Canon := .update h

theorem cqDoorbellWrite {s : State} {port : Port} {q : Nat} {v : Word} (h : s.Canon) :
    (cqDoorbellWrite s port q v).Canon :=
  .ite (.setBit h) (.setFld h)

theorem cqEntryDecode {s : State} {q : Nat} {g : Time} (h : s.Canon) : (cqEntryDecode s q g).Canon :=
  .ite (.ite (.log (.setCq (.setReg (.setBit (.update (.setFld (.atTime h))))))) (.setCq (.setBit (.update (.setFld
    (.atTime h)))))) h

theorem completion {s : State} {q : Nat} {c : CqCmd} {status : Nat} (h : s.Canon) :
    (s.completion q c status).Canon :=
  .emitUnit h

theorem commandComplete {s : State} {q : Nat} {g : Time} (h : s.Canon) : (commandComplete s q g).Canon := by
  unfold Machine.commandComplete
  dsimp only
  split
  · exact h
  · split
    · exact h
    · exact .ite (.ite (.setFld (.setBit (.update (.completion (.atTime h))))) (.setBit (.update (.completion (.atTime h))))) h

theorem cqCfgWrite {s : State} {port : Port} {q : Nat} {v : Word} (h : s.Canon) : (cqCfgWrite s port q v).Canon :=
  .ite (.setBit h) (.ite (.setBit (.plainWrite h)) (.plainWrite h))

theorem cqBaseWrite {s : State} {port : Port} {q : Nat} {lo hi : Word} (h : s.Canon) :
    (cqBaseWrite s port q lo hi).Canon :=
  .ite (.setBit h) (.setFld (.setFld (.setReg (.setReg h))))

theorem cqNextSeqWrite {s : State} {port : Port} {q : Nat} {v : Word} (h : s.Canon) :
    (cqNextSeqWrite s port q v).Canon :=
  .ite (.setBit h) (.setReg h)

theorem cqEnd {s : State} {q : Nat} {c : CqCmd} {status : Nat} (h : s.Canon) : (s.cqEnd q c status).Canon := .setCq h

theorem hostTask {s : State} {t : Nat} {a : Act} (h : s.Canon) : (s.hostTask t a).2.Canon := by
  unfold State.hostTask
  dsimp only
  split
  · exact h
  · refine .iteSnd h ?_
    split
    · exact .iteSnd (.activate h) (.activate h)
    · exact .activate h

theorem queuePublish {s : State} {q : Nat} (h : s.Canon) : (queuePublish s q).Canon := by
  unfold Machine.queuePublish
  dsimp only
  split
  · exact h
  · exact .ite (.publish (.atTime h)) h

theorem applyRel {s : State} {q : Nat} {e : Eff} (h : s.Canon) : (s.applyRel q e).Canon := by
  unfold State.applyRel
  dsimp only
  split
  · exact .ite (.releaseTo (.modQue (.atTime h))) (.modQue (.atTime h))
  · exact .modQue (.atTime h)

theorem qrelApply {s : State} {q : Nat} (h : s.Canon) : (qrelApply s q).Canon := by
  unfold Machine.qrelApply
  dsimp only
  split
  · exact h
  · exact .ite (.applyRel h) h

theorem queEvents {s : State} {q : Nat} {g : Time} {n : Nat} (h : s.Canon) : (s.queEvents q g n).Canon := by
  induction n generalizing s with
  | zero => exact h
  | succ n ih =>
    rw [State.queEvents]
    split
    · exact ih (.ite (.applyRel h) (.publish (.atTime h)))
    · exact ih (.applyRel h)
    · exact ih (.publish (.atTime h))
    · exact h

theorem queueFlush {s : State} {q : Nat} (h : s.Canon) : (queueFlush s q).Canon := by
  unfold Machine.queueFlush
  dsimp only
  split
  · exact h
  · exact .ite (.request (.atTime h)) h

theorem outRelease {s : State} {q upto : Nat} (h : s.Canon) : (s.outRelease q upto).Canon :=
  .releaseTo (.ite (.log h) h)

theorem queHostRel {s : State} {port : Port} {q : Nat} {v : Word} (h : s.Canon) : (queHostRel s port q v).Canon :=
  .ite (.outRelease h) (.setBit h)

theorem keepNotices {s : State} {q : Nat} (h : s.Canon) : (s.keepNotices q).Canon := by
  unfold State.keepNotices
  dsimp only
  refine .ite ?_ h
  split
  · exact .foldl (fun _ _ h1 => .activate h1) h
  · exact h

theorem queReset {s : State} {q : Nat} {g : Time} (h : s.Canon) : (s.queReset q g).Canon :=
  .faultRec (.bump (.bump (.request (.ite (.modTask (.update (.setQue (.keepNotices (.queEvents h))))) (.update (.setQue
    (.keepNotices (.queEvents h))))))))

theorem queCfgWrite {s : State} {port : Port} {r : Reg} {q : Nat} {v : Word} (h : s.Canon) :
    (queCfgWrite s port r q v).Canon :=
  .ite (.setBit h) (.ite (.setBit h) (.request (.plainWrite h)))

theorem setDma {s : State} {c : Nat} {x : DmaSt} (h : s.Canon) : (s.setDma c x).Canon := .setBit (.setFld (.update h))

theorem modDma {s : State} {c : Nat} {f : DmaSt → DmaSt} (h : s.Canon) : (s.modDma c f).Canon := .setDma h

theorem setCur {s : State} {c a : Nat} (h : s.Canon) : (s.setCur c a).Canon := .setReg64 h

theorem dmaWrite {s : State} {space a : Nat} {bs : List Byte} (h : s.Canon) : (s.dmaWrite space a bs).Canon := by
  obtain ⟨hdie, hring, hhost⟩ := canon_iff.1 h
  exact .ite (canon_iff.2 ⟨hdie, hring, memWriteList_wf _ _ _ hhost⟩) (.writeDie h)

theorem dmaPost {s : State} {c : Nat} (h : s.Canon) : (s.dmaPost c).Canon := .wake (.postShared h)

theorem writeback {s u : State} {c err : Nat} {w0 : Word} (h : s.Canon)
    (hu : s.writeback c err w0 = some u) : u.Canon := by
  unfold State.writeback at hu
  dsimp only at hu
  split at hu
  · rw [← Option.some.inj hu]
    exact .dmaWrite (.dmaWrite (.dmaWrite h))
  · cases hu

theorem dmaSettle {s : State} {c : Nat} (h : s.Canon) : (s.dmaSettle c).Canon := by
  unfold State.dmaSettle
  dsimp only
  split
  · exact h
  · exact .ite (.request (.modQue (.ite (.outRelease h) h))) (.ite (.outRelease h) h)

theorem dmaHalt {s : State} {c err : Nat} {wbFail : Bool} (h : s.Canon) : (s.dmaHalt c err wbFail).Canon :=
  .faultRec (.bump (.dmaPost (.ite (.setBit (.setBit (.modDma h))) (.setBit (.modDma h)))))

theorem dmaHold {s : State} {c : Nat} (h : s.Canon) : (s.dmaHold c).Canon := .ite (.modDma h) h

theorem dmaStopped {s : State} {c err : Nat} {wbFail : Bool} (h : s.Canon) : (s.dmaStopped c err wbFail).Canon :=
  .ite (.dmaPost (.setBit (.ite (.setBit (.modDma h)) (.modDma h)))) (.dmaHalt h)

theorem dmaEnd {s : State} {c err : Nat} (h : s.Canon) : (s.dmaEnd c err).Canon := by
  unfold State.dmaEnd
  refine .ite (.modDma (.dmaSettle h)) ?_
  dsimp only
  split
  · next u hu => exact .dmaStopped (.dmaSettle (.writeback (.dmaHold h) hu))
  · exact .dmaStopped (.dmaSettle (.dmaHold h))

theorem dmaFail {s : State} {c err at_ : Nat} (h : s.Canon) : (s.dmaFail c err at_).Canon :=
  .dmaEnd (.setReg64 (.setFld h))

theorem dmaBegin {s : State} {c : Nat} {segs : List DmaSeg} (h : s.Canon) : (s.dmaBegin c segs).Canon := by
  unfold State.dmaBegin
  dsimp only
  split
  · exact .setDma h
  · refine .ite (.request (.modQue (.modDma (.setDma h)))) ?_
    split
    · exact .dmaFail (.setDma h)
    · exact .ite (.modDma (.setDma h)) (.dmaFail (.setDma h))

theorem dmaBusError {s : State} {c a : Nat} (h : s.Canon) : (s.dmaBusError c a).Canon :=
  .ite (.bump (.setDma h)) (.dmaFail h)

theorem dmaBeatOk {s : State} {c : Nat} (h : s.Canon) : (s.dmaBeatOk c).Canon := .ite h (.bump (.modDma h))

theorem dmaOwnRead {s : State} {c a n : Nat} {f : State → State} (hf : ∀ u, u.Canon → (f u).Canon) (h : s.Canon) :
    (s.dmaOwnRead c a n f).Canon := by
  unfold State.dmaOwnRead
  dsimp only
  split
  · exact h
  · exact .dmaFail h
  · exact .dmaBusError h
  · exact .ite (.dmaFail h) (hf _ (.dmaBeatOk h))

theorem dmaGo {s : State} {c : Nat} (h : s.Canon) : (s.dmaGo c).Canon := by
  unfold State.dmaGo
  split
  · exact .dmaFail h
  · exact .dmaBusError h
  · exact h
  · exact .ite (.dmaBegin h) (.modDma h)

theorem dmaResume {s : State} (h : s.Canon) : s.dmaResume.Canon := by
  unfold State.dmaResume
  refine .foldl ?_ h
  intro _ _ h1
  split
  · exact .ite (.dmaEnd h1) h1
  · exact h1

theorem dmaCmdWrite {s : State} {port : Port} {c : Nat} {v : Word} (h : s.Canon) : (dmaCmdWrite s port c v).Canon :=
  .ite (.setBit h) (.ite (.ite (.setDma (.setBit (.setReg64 h))) (.setBit h)) (.ite (.ite (.setBit h) (.ite (.dmaStopped h)
    (.dmaEnd (.setFld h)))) h))

theorem dmaAppendWrite {s : State} {port : Port} {c : Nat} {port' : Word} (h : s.Canon) :
    (dmaAppendWrite s port c port').Canon :=
  .setReg h

theorem dmaCfgWrite {s : State} {c : Nat} {f : State → State} (hf : ∀ u, u.Canon → (f u).Canon) (h : s.Canon) :
    (dmaCfgWrite s c f).Canon :=
  .ite (hf _ h) (.setBit h)

theorem dmaFetchDone {s : State} {c : Nat} (h : s.Canon) : (dmaFetchDone s c).Canon :=
  .ite (.ite (.dmaFail h) (.dmaOwnRead (fun _ h1 => .dmaGo (.modDma h1)) h)) h

theorem dmaPacingMet {s : State} {c : Nat} {g : Time} (h : s.Canon) : (dmaPacingMet s c g).Canon := by
  unfold Machine.dmaPacingMet
  dsimp only
  refine .ite ?_ h
  split
  · exact .dmaFail (.atTime h)
  · exact .dmaBusError (.atTime h)
  · exact .atTime h
  · exact .dmaBegin (.atTime h)

theorem dmaTake {s : State} {c : Nat} (h : s.Canon) : (s.dmaTake c).Canon :=
  .foldl (fun _ _ h1 => .ite (.modDma h1) h1) h

theorem ringPut {s : State} {q a : Nat} {bs : List Byte} (h : s.Canon) : (s.ringPut q a bs).Canon := by
  refine .foldl (fun u b hu => ?_) h
  obtain ⟨hdie, hring, hhost⟩ := canon_iff.1 hu
  exact canon_iff.2 ⟨memWrite_wf _ _ _ hdie, hring, hhost⟩

theorem beatWrite {s : State} {c dst : Nat} {bs : List Byte} (h : s.Canon) : (s.beatWrite c dst bs).Canon := by
  unfold State.beatWrite
  dsimp only
  refine .ite ?_ (.dmaWrite h)
  split
  · exact .ringPut h
  · exact h

theorem dmaTail {s : State} {c : Nat} (h : s.Canon) : (s.dmaTail c).Canon := .modDma h

theorem segEnd {s : State} {c : Nat} (h : s.Canon) : (s.segEnd c).Canon := by
  unfold State.segEnd
  dsimp only
  split
  · exact h
  · refine .ite (.setDma h) ?_
    refine .ite ?_ (.ite (.modDma (.setDma h)) (.dmaTail (.setDma h)))
    split
    · exact .ite (.modDma (.setDma h)) (.dmaTail (.dmaSettle (.setDma h)))
    · exact .dmaTail (.dmaSettle (.setDma h))

theorem dmaBeatDone {s : State} {c : Nat} {g : Time} (h : s.Canon) : (dmaBeatDone s c g).Canon := by
  unfold Machine.dmaBeatDone
  dsimp only
  refine .ite ?_ h
  split
  · exact h
  · split
    · exact .dmaFail (.atTime h)
    · exact .dmaBusError (.atTime h)
    · exact h
    · refine .ite (.dmaFail (.dmaTake (.atTime h))) ?_
      split
      · exact .setDma (.setReg64 (.dmaBeatOk (.beatWrite (.dmaTake (.atTime h)))))
      · exact .ite (.setDma (.setReg64 (.dmaBeatOk (.beatWrite (.dmaTake (.atTime h)))))) (.segEnd (.setDma (.setReg64 (.dmaBeatOk
          (.beatWrite (.dmaTake (.atTime h)))))))

theorem dmaBeatError {s : State} {c : Nat} {ecc : Bool} {g : Time} (h : s.Canon) : (dmaBeatError s c ecc g).Canon := by
  unfold Machine.dmaBeatError
  dsimp only
  split
  · exact h
  · exact .ite (.ite (.dmaFail (.atTime h)) (.dmaBusError (.atTime h))) h

theorem logPut {s : State} {q : Nat} {stamp : Time} {ws : List Word} {off fuel : Nat} (h : s.Canon) :
    (s.logPut q stamp ws off fuel).Canon := by
  induction fuel generalizing s ws off with
  | zero => exact h
  | succ fuel ih =>
    rw [State.logPut]
    exact .ite (.log h) (ih (.log h))

theorem dmaLengthWord {s : State} {c : Nat} {g : Time} (h : s.Canon) : (dmaLengthWord s c g).Canon := by
  unfold Machine.dmaLengthWord
  dsimp only
  split
  · exact .ite (.dmaTail (.ifThen .logPut (.modQue (.putPacket (.modQue (.atTime h)))))) h
  · exact h

theorem dmaNext {s : State} {c : Nat} {w0 : Word} {next : Nat} {seen : Word} (h : s.Canon) :
    (s.dmaNext c w0 next seen).Canon :=
  .ite (.modDma (.setReg h)) (.modDma (.setCur h))

theorem dmaTailReadDone {s : State} {c : Nat} {ok : Bool} {g : Time} (h : s.Canon) :
    (dmaTailReadDone s c ok g).Canon := by
  unfold Machine.dmaTailReadDone
  refine .ite (.dmaOwnRead (fun u hu => ?_) (.atTime h)) h
  dsimp only
  split
  · exact .dmaHalt (.setFld hu)
  · next v hv =>
    have hw : v.Canon := by
      split at hv
      · exact .writeback (.setFld hu) hv
      · cases hv
    exact .dmaNext (.ifThen (fun h1 => .dmaPost (.setBit h1)) (.bump hw))

theorem dmaParkReread {s : State} {c : Nat} (h : s.Canon) : (dmaParkReread s c).Canon :=
  .ite (.dmaOwnRead (fun _ h1 => .dmaNext (.setReg h1)) h) h

theorem queResetAll {s : State} {q : Nat} {g : Time} (h : s.Canon) : (s.queResetAll q g).Canon := by
  unfold State.queResetAll
  dsimp only
  split
  · exact .queReset h
  · exact .ite (.dmaFail (.modDma (.queReset h))) (.queReset h)

theorem queCheck {s : State} {q : Nat} {g : Time} (h : s.Canon) : (s.queCheck q g).Canon := .ite h (.queResetAll h)

theorem queuePointerMismatch {s : State} {q : Nat} {g : Time} (h : s.Canon) : (queuePointerMismatch s q g).Canon :=
  .ite (.queCheck (.modQue (.atTime h))) h

theorem setLatch {s : State} {j : Nat} {t : Time} {on : Bool} (h : s.Canon) : (s.setLatch j t on).Canon :=
  .retrip (.modTrip h)

theorem tripFire {s : State} {j : Nat} {f : Time} {atEnd : Bool} (h : s.Canon) : (s.tripFire j f atEnd).Canon :=
  .ite (.emitUnit (.bump (.setReg64 (.setLatch (.modTrip h))))) (.bump (.setReg64 (.setLatch (.modTrip h))))

theorem tripTurns {s : State} {j : Nat} {t : Time} (h : s.Canon) : (s.tripTurns j t).Canon :=
  .ite h (.ite (.modTrip h) (.tripFire h))

theorem tripOff {s : State} {j : Nat} (h : s.Canon) : (s.tripOff j).Canon := .ite (.bump (.modTrip h)) (.modTrip h)

theorem tripTransition {s : State} {j : Nat} {stamp : Time} {level : Bool} {t : Time} (h : s.Canon) :
    (s.tripTransition j stamp level t).Canon :=
  .ite (.tripTurns (.log (.modTrip h))) (.tripOff (.log (.modTrip h)))

theorem tripAccept {s : State} {j : Nat} (h : s.Canon) : (s.tripAccept j).Canon := .tripTransition (.setTrip h)

theorem tripOwed {s : State} {j : Nat} {t : Time} (h : s.Canon) : (s.tripOwed j t).Canon := .tripTurns (.modTrip h)

theorem tripUpTo {s : State} {j : Nat} {stamp : Time} (h : s.Canon) : (s.tripUpTo j stamp).Canon := by
  unfold State.tripUpTo
  dsimp only
  split
  · exact .ite (.tripAccept h) (.ite (.tripAccept (.ite (.tripOwed h) h)) (.ite (.tripOwed h) h))
  · exact .ite (.tripAccept h) h

theorem tripInputEdge {s : State} {j : Nat} {stamp : Time} {level : Bool} (h : s.Canon) :
    (tripInputEdge s j stamp level).Canon :=
  .ite h (.ite (.setTrip h) (.modTrip (.tripUpTo (.atTime h))))

theorem tripFilterAccept {s : State} {j : Nat} (h : s.Canon) : (tripFilterAccept s j).Canon := by
  unfold Machine.tripFilterAccept
  dsimp only
  refine .ite h ?_
  split
  · exact .ite (.tripAccept (.atTime h)) (.tripOwed (.atTime h))
  · exact .ite (.tripAccept (.atTime h)) h

theorem blankWindowEnd {s : State} {j : Nat} (h : s.Canon) : (blankWindowEnd s j).Canon := by
  unfold Machine.blankWindowEnd
  dsimp only
  split
  · exact h
  · exact .ite h (.ite (.tripFire (.modTrip (.atTime h))) (.modTrip (.atTime h)))

theorem tripClear {s : State} {j : Nat} {level : Bool} {t : Time} (h : s.Canon) : (s.tripClear j level t).Canon :=
  .ite h (.ite (.bump (.setBit h)) (.setLatch h))

theorem tripClearApply {s : State} {j : Nat} (h : s.Canon) : (tripClearApply s j).Canon := by
  unfold Machine.tripClearApply
  dsimp only
  split
  · exact h
  · exact .ite h (.tripClear (.modTrip (.atTime h)))

theorem tripCmdWrite {s : State} {port : Port} {j : Nat} {v : Word} (h : s.Canon) :
    (tripCmdWrite s port j v).Canon :=
  .ite (.tripClear h) h

theorem tripCtrlWrite {s : State} {port : Port} {j : Nat} {v : Word} (h : s.Canon) :
    (tripCtrlWrite s port j v).Canon :=
  .ite (.log (.modTrip (.plainWrite h))) (.ite (.tripOff (.plainWrite h)) (.ite (.tripFire (.plainWrite h)) (.plainWrite h)))

theorem tripRouteChanged {s : State} {j : Nat} (h : s.Canon) : (s.tripRouteChanged j).Canon := .retrip h

theorem failPin {s : State} {p : Nat} (h : s.Canon) : (s.failPin p).Canon := by
  unfold State.failPin
  dsimp only
  split
  · exact .retrip (.modPin h)
  · exact .modPin h

theorem pinFault {s : State} {p cause : Nat} {expected g : Time} (h : s.Canon) :
    (s.pinFault p cause expected g).Canon :=
  .faultRec (.bump (.failPin h))

theorem pinCmdWrite {s : State} {port : Port} {p : Nat} {v : Word} (h : s.Canon) : (pinCmdWrite s port p v).Canon :=
  .ite h (.ite (.retrip (.modPin h)) (.setBit h))

theorem tripCheck {s : State} {j : Nat} {filterOk forceOk : Bool} {g : Time} (h : s.Canon) :
    (tripCheck s j filterOk forceOk g).Canon :=
  .ite h (.ite (.setFld (.setFld (.atTime h))) (.ite (.atTime h) (.faultRec (.bump (.foldl (fun _ _ h1 => .failPin h1) (.setFld
    (.atTime h)))))))

theorem setAxp {s : State} {e : Nat} {x : AxpSt} (h : s.Canon) : (s.setAxp e x).Canon := .update h

theorem fresh64 {s : State} (h : s.Canon) : (s.fresh64).2.Canon := .fresh (.fresh h)

theorem hoopRecord {s : State} {h' ty : Nat} {stamp : Time} {payload : List Byte} (h : s.Canon) :
    (s.hoopRecord h' ty stamp payload).Canon :=
  .emitUnit h

theorem hoopRec {s : State} {h' kind b19 : Nat} {v : BitVec 64} {stamp : Time} (h : s.Canon) :
    (s.hoopRec h' kind b19 v stamp).Canon :=
  .ite (.hoopRecord h) h

theorem hoopRefuse {s : State} {h' slot reason : Nat} {stamp : Time} (h : s.Canon) :
    (s.hoopRefuse h' slot reason stamp).Canon :=
  .hoopRecord (.bump h)

theorem hoopEnter {s : State} {h' st : Nat} {t : Time} (h : s.Canon) : (s.hoopEnter h' st t).Canon := .modHoop h

theorem setEv {s : State} {h' slot : Nat} {e : HoopEv} (h : s.Canon) : (s.setEv h' slot e).Canon := .modHoop h

theorem dropStitches {s : State} {p slot : Nat} (h : s.Canon) : (s.dropStitches p slot).Canon := .modPin h

theorem evStitches {s : State} {h' slot : Nat} (h : s.Canon) : (s.evStitches h' slot).Canon := by
  unfold State.evStitches
  dsimp only
  split
  · exact h
  · split
    · exact h
    · split
      · refine .pushStitch ?_
        split
        · exact .ite (.pushStitch (.dropStitches h)) (.dropStitches h)
        · exact .dropStitches h
      · split
        · exact .ite (.pushStitch (.dropStitches h)) (.dropStitches h)
        · exact .dropStitches h

theorem dropEv {s : State} {h' slot : Nat} (h : s.Canon) : (s.dropEv h' slot).Canon := by
  unfold State.dropEv
  dsimp only
  split
  · exact h
  · refine .modHoop ?_
    split
    · exact .dropStitches h
    · exact h

theorem evStamps {s : State} {h' slot : Nat} {t : Time} {synth : Bool} (h : s.Canon) :
    (s.evStamps h' slot t synth).Canon := by
  unfold State.evStamps
  dsimp only
  split
  · exact h
  · split
    · exact h
    · exact .evStitches (.ifThen .bump (.setEv h))

theorem evTargets {s : State} {h' slot : Nat} {acc : Int} (h : s.Canon) : (s.evTargets h' slot acc).Canon := by
  unfold State.evTargets
  dsimp only
  split
  · exact h
  · exact .setEv h

theorem pinBump {s : State} {e : HoopEv} {f : Fld} (h : s.Canon) : (s.pinBump e f).Canon := by
  unfold State.pinBump
  split
  · exact .bump h
  · exact h

theorem evRefresh {s : State} {h' slot : Nat} {tt : Time} {synth : Bool} (h : s.Canon) :
    (s.evRefresh h' slot tt synth).Canon := by
  have hclamp {u : State} {e : HoopEv} {ix : Ix} (hu : u.Canon) :
      ((u.pinBump e F.PIN_CLAMP_COUNT_count).bump F.HOOP_LIMIT_COUNT_clamped ix).Canon := .bump (.pinBump hu)
  unfold State.evRefresh
  dsimp only
  split
  · exact h
  · split
    · split
      · exact .evStitches (.ifThen .pinBump (.ifThen hclamp (.ifThen .pinBump (.ifThen hclamp (.setEv h)))))
      · exact h
    · exact h

theorem endActive {s : State} {h' : Nat} {e : Time} (h : s.Canon) : (s.endActive h' e).Canon := by
  unfold State.endActive
  dsimp only
  refine .foldl ?_ h
  intro _ _ h1
  refine .ite ?_ h1
  split
  · exact h1
  · exact .ite (.setEv h1) (.evStitches (.setEv h1))

theorem cancelSlots {s : State} {h' kind : Nat} {l : List Nat} {e : Time} (h : s.Canon) :
    (s.cancelSlots h' kind l e).Canon :=
  .ite h (.hoopRec (.bumpBy (.foldl (fun _ _ h1 => .dropEv h1) h)))

theorem hoopLoss {s : State} {h' cause : Nat} {e : Time} (h : s.Canon) : (s.hoopLoss h' cause e).Canon :=
  .cancelSlots (.hoopRec (.setFld (.bump (.modHoop (.hoopEnter (.endActive h))))))

theorem fbSourceFails {s : State} {n : Nat} {e : Time} (h : s.Canon) : (s.fbSourceFails n e).Canon :=
  .foldl (fun _ _ h1 => .ite (.hoopLoss h1) h1) h

theorem axisSourceFails {s : State} {src entry : Nat} {e : Time} (h : s.Canon) :
    (s.axisSourceFails src entry e).Canon :=
  .foldl (fun _ _ h1 => .ite (.hoopLoss h1) h1) h

theorem hoopReverse {s : State} {h' : Nat} {i : HoopIn} (h : s.Canon) : (s.hoopReverse h' i).Canon :=
  .cancelSlots (.hoopRec (.modHoop (.hoopEnter (.endActive (.modHoop h)))))

theorem hoopStalls {s : State} {h' : Nat} {e : Time} (h : s.Canon) : (s.hoopStalls h' e).Canon := by
  unfold State.hoopStalls
  dsimp only
  refine .hoopRec ?_
  refine .bump ?_
  refine .modHoop ?_
  refine .hoopEnter ?_
  refine .foldl ?_ (.endActive h)
  intro _ _ h1
  split
  · exact .evStitches (.setEv h1)
  · exact h1

theorem hoopFallback {s : State} {h' : Nat} {e : Time} (h : s.Canon) : (s.hoopFallback h' e).Canon := by
  unfold State.hoopFallback
  dsimp only
  refine .foldl ?_ (.cancelSlots (.hoopRec (.modHoop (.hoopEnter (.endActive h)))))
  intro _ _ h1
  split
  · refine .ite ?_ h1
    split
    · exact .pinToFallback h1
    · exact h1
  · exact h1

theorem hoopsCoast {s : State} {t : Time} (h : s.Canon) : (s.hoopsCoast t).Canon :=
  .foldl (fun _ _ h1 => .ite (.ite (.hoopFallback (.hoopRec (.modHoop (.hoopEnter h1)))) (.hoopRec (.modHoop
    (.hoopEnter h1)))) h1) h

theorem hoopsRequalify {s : State} {t : Time} (h : s.Canon) : (s.hoopsRequalify t).Canon :=
  .foldl (fun _ _ h1 => .ite (.cancelSlots (.modHoop (.hoopEnter (.endActive h1)))) h1) h

theorem addPoint {s : State} {h' : Nat} {a : Int} {t tt : Time} {synth back : Bool} {slot width : Nat} (h : s.Canon) :
    (s.addPoint h' a t tt synth back slot width).Canon :=
  .setHoop h

theorem refreshAll {s : State} {h' : Nat} (h : s.Canon) : (s.refreshAll h').Canon := by
  unfold State.refreshAll
  split
  · exact h
  · refine .foldl ?_ h
    intro _ _ h1
    split
    · exact .evStamps (.evTargets h1)
    · exact .evStamps h1
    · exact .evRefresh h1

theorem hoopSync {s : State} {h' : Nat} {stalled : Bool} (h : s.Canon) : (s.hoopSync h' stalled).Canon := by
  unfold State.hoopSync
  dsimp only
  split
  · exact h
  · exact .refreshAll (.ite (.cancelSlots (.hoopRec (.hoopEnter h))) (.hoopRec (.hoopEnter h)))

theorem hoopDropTask {s : State} {h' t run : Nat} (h : s.Canon) : (s.hoopDropTask h' t run).Canon :=
  .modHoop (.foldl (fun _ _ h1 => .ite (.dropEv h1) h1) h)

theorem hoopVirtual {s : State} {n : Nat} {t tt : Time} {pos : Int} (h : s.Canon) :
    (s.hoopVirtual n t tt pos).Canon :=
  .foldl (fun _ _ h1 => .ite (.modHoop h1) h1) h

theorem hoopSample {s : State} {src entry : Nat} {t tt : Time} {pos : BitVec 64} (h : s.Canon) :
    (s.hoopSample src entry t tt pos).Canon :=
  .foldl (fun _ _ h1 => .ite (.modHoop h1) h1) h

theorem acceptSlew {s : State} {ppb : Int} (h : s.Canon) : (s.acceptSlew ppb).Canon := .update (.setFld h)

theorem gtSlewW {s : State} {port : Port} {v : Word} (h : s.Canon) : (gtSlewW s port v).Canon :=
  .ite (.setBit h) (.acceptSlew h)

theorem slewApply {s : State} (h : s.Canon) : (slewApply s).Canon := by
  unfold Machine.slewApply
  dsimp only
  split
  · exact h
  · exact .update (.atTime h)

theorem tick {s : State} (h : s.Canon) : s.tick.Canon := .update h

theorem gtSetW {s : State} {port : Port} {lo hi : Word} (h : s.Canon) : (gtSetW s port lo hi).Canon :=
  .ite (.setBit h) (.update (.setReg (.setReg h)))

theorem plantOffsetW {s : State} {port : Port} {lo hi : Word} (h : s.Canon) : (plantOffsetW s port lo hi).Canon :=
  .ite (.setBit h) (.setReg (.setReg h))

theorem timeRec {s : State} {kind cause : Nat} (h : s.Canon) : (s.timeRec kind cause).Canon := .emitUnit h

theorem setUnqual {s : State} {cause : Nat} (h : s.Canon) : (s.setUnqual cause).Canon :=
  .ite h (.hoopsCoast (.timeRec (.bump (.setBit h))))

theorem clearUnqual {s : State} {cause : Nat} (h : s.Canon) : (s.clearUnqual cause).Canon :=
  .ite (.hoopsRequalify (.timeRec (.setBit h))) h

theorem timeCtrlW {s : State} {port : Port} {v : Word} (h : s.Canon) : (timeCtrlW s port v).Canon :=
  .ite (.setUnqual (.plainWrite h)) (.clearUnqual (.plainWrite h))

theorem bindLog {s : State} {d : Nat} {on : Bool} (h : s.Canon) : (s.bindLog d on).Canon :=
  .ite (.ite (.modDma (.setReg (.setReg (.setReg (.setReg (.modQue h)))))) (.setReg (.setReg (.setReg (.setReg
    (.modQue h)))))) (.ite (.modDma (.modQue h)) (.modQue h))

theorem logCtrlW {s : State} {port : Port} {v : Word} (h : s.Canon) : (logCtrlW s port v).Canon :=
  .ite h (.ite (.setBit h) (.foldl (fun _ _ h1 => .bindLog h1) (.plainWrite h)))

theorem setNet {s : State} {p : Nat} {x : NetSt} (h : s.Canon) : (s.setNet p x).Canon := .update h

theorem modNet {s : State} {p : Nat} {f : NetSt → NetSt} (h : s.Canon) : (s.modNet p f).Canon := .setNet h

theorem netLinkChange {s : State} {p : Nat} {up : Bool} {g : Time} (h : s.Canon) : (netLinkChange s p up g).Canon :=
  .ite (.ite (.setBit (.setBit (.setBit (.atTime h)))) (.modNet (.setBit (.setBit (.atTime h))))) h

theorem netCtrlW {s : State} {port : Port} {p : Nat} {v : Word} (h : s.Canon) : (netCtrlW s port p v).Canon :=
  .ite (.plainWrite h) (.ite (.capUpdate (.modNet (.setBit (.setBit (.plainWrite h))))) (.capUpdate (.plainWrite h)))

theorem receiveFrame {s : State} {p : Nat} {h' : RxHdr} {raw : Time}
    {f : State → Time → State} (hf : ∀ u a', u.Canon → (f u a').Canon)
    (h : s.Canon) : (s.receiveFrame p h' raw f).Canon :=
  .ite (.ite (.bump (.atTime h)) (.ite (hf _ _ (.atTime h)) (.bump (.atTime h)))) h

theorem takeSample {s : State} {p e : Nat} {f : AxisFrame} {rx : Time} (h : s.Canon) :
    (s.takeSample p e f rx).Canon :=
  .ite (.hoopSample (.setBit (.setReg64 (.setAxs (.bump (.log h)))))) (.bump (.log h))

theorem axisFrame {s : State} {p : Nat} {f : AxisFrame} {rx : Time} (h : s.Canon) : (s.axisFrame p f rx).Canon := by
  unfold State.axisFrame
  dsimp only
  refine .ite (.bump h) ?_
  refine .ite (.bump h) ?_
  split
  · exact .bump h
  · exact .ite (.bump h) (.ite (.bump h) (.ite (.bump h) (.ite (.bump h) (.ite (.bump h) (.takeSample (.ite (.setBit (.setAxs
      (.setReg h))) (.setAxs (.setReg h))))))))

theorem axisFrameRx {s : State} {p : Nat} {h' : RxHdr} {f : AxisFrame} {raw : Time} (h : s.Canon) :
    (axisFrameRx s p h' f raw).Canon :=
  .receiveFrame (fun _ _ h1 => .ite (.axisFrame h1) h1) h

theorem noteFits {s : State} {p : Nat} (h : s.Canon) : (s.noteFits p).Canon := .modNet h

theorem startCycle {s : State} {p : Nat} {c : Time} (h : s.Canon) : (s.startCycle p c).Canon := .noteFits (.setNet h)

theorem gateCycleStart {s : State} {p : Nat} (h : s.Canon) : (gateCycleStart s p).Canon := by
  unfold Machine.gateCycleStart
  dsimp only
  refine .ite ?_ h
  split
  · exact h
  · split
    · exact .ite (.startCycle (.modNet (.setBit (.setFld (.atTime h))))) (.startCycle (.atTime h))
    · exact .startCycle (.atTime h)

theorem gateEntryEnd {s : State} {p : Nat} (h : s.Canon) : (gateEntryEnd s p).Canon := by
  unfold Machine.gateEntryEnd
  dsimp only
  split
  · exact h
  · exact .ite (.noteFits (.setNet (.atTime h))) h

theorem swapNow {s : State} {p : Nat} (h : s.Canon) : (s.swapNow p).Canon := .modNet (.setBit (.setFld h))

theorem netReject {s : State} {p : Nat} (h : s.Canon) : (s.netReject p).Canon := .setBit h

theorem netGateCtrlW {s : State} {p : Port} {n : Nat} {v : Word} (h : s.Canon) : (netGateCtrlW s p n v).Canon := by
  have hw : (s.plainWrite .NET_GATE_CTRL (pkg1 n) v).Canon := .plainWrite h
  have hon {c c' : Prop} [Decidable c] [Decidable c'] {f f' : NetSt → NetSt} :
      (if c then (s.plainWrite .NET_GATE_CTRL (pkg1 n) v).modNet n f
        else if c' then (s.plainWrite .NET_GATE_CTRL (pkg1 n) v).modNet n f' else s.plainWrite .NET_GATE_CTRL (pkg1 n) v).Canon :=
    .ite (.modNet hw) (.ifThen .modNet hw)
  unfold Machine.netGateCtrlW
  exact .ite (.netReject h) (.ite (.ifThen .swapNow hon) (.ifThen (fun h1 => .modNet (.setBit h1)) hon))

theorem netBankW {s : State} {r : Reg} {ix : Ix} {lo v : Word} (h : s.Canon) : (netBankW s r ix lo v).Canon := by
  refine .ite (.netReject h) ?_
  cases r with
  | NET_GATE_BASE_HI => exact .setReg (.setReg h)
  | NET_GATE_CYCLE => exact .ite (.netReject h) (.plainWrite h)
  | _ => exact .plainWrite h

theorem queueFrame {s : State} {p q len : Nat} {tag : Option (Nat × Nat)} {b : TxBody} (h : s.Canon) :
    (s.queueFrame p q len tag b).Canon :=
  .modNet h

theorem frameTxEnd {s : State} {p : Nat} (h : s.Canon) : (frameTxEnd s p).Canon := by
  unfold Machine.frameTxEnd
  split
  · exact h
  · exact .ite (.bumpMod (.modNet (.atTime h))) h

theorem gateDrop {s : State} {p q : Nat} (h : s.Canon) : (gateDrop s p q).Canon := by
  unfold Machine.gateDrop
  dsimp only
  split
  · exact h
  · exact .ite (.ite (.atTime h) (.bump (.modNet (.atTime h)))) h

theorem postFrame {s : State} {p e : Nat} {b : TxBody} (h : s.Canon) : (s.postFrame p e b).Canon :=
  .ite (.ite (.bump (.setNet h)) (.queueFrame h)) h

theorem postSample {s : State} {e run : Nat} {ts : Time} {pos vel : BitVec 64} (h : s.Canon) :
    (s.postSample e run ts pos vel).Canon :=
  .ite h (.ite (.hoopSample (.setAxp h)) (.ite (.bump (.hoopSample (.setAxp h))) (.postFrame (.postFrame (.setAxp (.setReg
    (.hoopSample (.setAxp h))))))))

theorem axpSamplePost {s : State} {i : Nat} (h : s.Canon) : (axpSamplePost s i).Canon := by
  unfold Machine.axpSamplePost
  dsimp only
  split
  · exact h
  · split
    · exact .postSample (.atTime (.update h))
    · exact h

theorem lsLocked {s : State} (h : s.Canon) : s.lsLocked.Canon := .setBit h

theorem lsBad {s : State} (h : s.Canon) : s.lsBad.Canon := .setBit h

theorem lsWrite {s : State} {port : Port} {r : Reg} {v : Word} (h : s.Canon) : (lsWrite s port r v).Canon :=
  .ite (.lsLocked h) (.ite (.lsBad h) (.plainWrite h))

theorem lsGroupMacW {s : State} {port : Port} {lo hi : Word} (h : s.Canon) : (lsGroupMacW s port lo hi).Canon :=
  .ite (.lsLocked h) (.ite (.lsBad h) (.setReg (.setReg h)))

theorem axpWrite {s : State} {port : Port} {r : Reg} {e : Nat} {v : Word} (h : s.Canon) :
    (axpWrite s port r e v).Canon :=
  .ite (.lsLocked h) (.ite (.lsBad h) (.ite (.lsBad h) (.ite (.axisSourceFails (.plainWrite h)) (.plainWrite h))))

theorem axsWrite {s : State} {port : Port} {r : Reg} {e : Nat} {v : Word} (h : s.Canon) :
    (axsWrite s port r e v).Canon :=
  .ite (.lsLocked h) (.ite (.lsBad h) (.ite (.setBit (.setAxs (.plainWrite h))) (.ite (.axisSourceFails (.plainWrite h))
    (.plainWrite h))))

theorem deliver {s : State} {e : Eff} (h : s.Canon) : (s.deliver e).Canon := by
  unfold State.deliver
  split
  · exact .ite (.stitchArrive h) h
  · exact .modCar h
  · exact .modCar h
  · exact .modTrip h
  · exact .modFb h
  · exact .modFb h
  · exact .modHoop h
  · exact .modHoop h
  · exact .request (.putPacket h)
  · exact .modQue h
  · exact h

theorem effectArrival {s : State} {i : Nat} (h : s.Canon) : (effectArrival s i).Canon := by
  unfold Machine.effectArrival
  dsimp only
  split
  · exact h
  · exact .ite h (.ite (.deliver (.update h)) (.update h))

theorem dropFlight {s : State} {t run : Nat} {after : Time} (h : s.Canon) : (s.dropFlight t run after).Canon :=
  .update h

theorem fenceWire {s : State} {d cause : Nat} (h : s.Canon) : (s.fenceWire d cause).Canon := .modDie h

theorem fenceCopies {s : State} {l : List Nat} (h : s.Canon) : (s.fenceCopies l).Canon :=
  .foldl (fun _ _ h1 => .fenceWire h1) h

theorem spoilCopies {s : State} {bad : BitVec 8} (h : s.Canon) : (s.spoilCopies bad).Canon :=
  .foldl (fun _ _ h1 => .ite (.modDie h1) h1) h

theorem setDigest {s : State} {v : Word} (h : s.Canon) : (s.setDigest v).Canon := .update (.setReg h)

theorem updateDigest {s : State} (h : s.Canon) : s.updateDigest.Canon := .fenceCopies (.setDigest h)

end State.Canon

end Sys2Proof.Machine

/-! # Memories in canonical form: feedback, angle events and admission -/

namespace Sys2Proof.Machine

namespace State.Canon

theorem fbSpeedBits {s : State} {n : Nat} {t : Time} (h : s.Canon) : (s.fbSpeedBits n t).Canon := .setBit (.setBit h)

theorem fbRec {s : State} {n kind : Nat} {stamp : Time} {d p : Int} (h : s.Canon) :
    (s.fbRec n kind stamp d p).Canon :=
  .ite (.emitUnit h) h

theorem cmpRegs {s : State} {n : Nat} (h : s.Canon) : (s.cmpRegs n).Canon := by
  unfold State.cmpRegs
  dsimp only
  split
  · exact .setReg (.setReg (.setReg64 h))
  · exact .setFld h

theorem cmpMiss {s : State} {n k : Nat} (h : s.Canon) : (s.cmpMiss n k).Canon := .bumpBy h

theorem cmpAct {s : State} {n : Nat} {c : FbCmp} {hit : Time} {order : Nat} (h : s.Canon) :
    (s.cmpAct n c hit order).Canon := by
  unfold State.cmpAct
  dsimp only
  split
  · exact .activate h
  · exact .ite (.cmpMiss h) (.pushStitch (.modFb h))

theorem cmpStep {s : State} {n : Nat} {t vis : Time} {p step : Int} (h : s.Canon) :
    (s.cmpStep n t vis p step).Canon := by
  unfold State.cmpStep
  dsimp only
  split
  · exact h
  · exact .ite (.cmpMiss (.cmpRegs (.modFb h))) (.ite h (.cmpAct (.ite (.cmpRegs (.modFb (.bump (.modFb h)))) (.cmpMiss (.cmpRegs
      (.modFb (.bump (.modFb h))))))))

theorem fbCompareArmApply {s : State} {n : Nat} (h : s.Canon) : (fbCompareArmApply s n).Canon := by
  unfold Machine.fbCompareArmApply
  dsimp only
  split
  · exact h
  · split
    · exact .ite h (.cmpMiss (.cmpRegs (.setFb (.modFb (.atTime h)))))
    · exact h

theorem cmpDisarm {s : State} {n : Nat} (h : s.Canon) : (s.cmpDisarm n).Canon := .cmpRegs (.modFb h)

theorem fbCompareDisarmApply {s : State} {n : Nat} (h : s.Canon) : (fbCompareDisarmApply s n).Canon := by
  unfold Machine.fbCompareDisarmApply
  dsimp only
  split
  · exact h
  · split
    · refine .ite h ?_
      split
      · exact .ite (.cmpDisarm (.modFb (.atTime h))) (.modFb (.atTime h))
      · exact .modFb (.atTime h)
    · exact h

theorem divStep {s : State} {n : Nat} {dir : Int} {t : Time} (h : s.Canon) : (s.divStep n dir t).Canon :=
  .ifThen .pushEdge (.ifThen .pushEdge (.ifThen .pushEdge (.modFb h)))

theorem divide {s : State} {n : Nat} {step : Int} {t : Time} (h : s.Canon) : (s.divide n step t).Canon :=
  .ite (.ite (.divStep (.modFb h)) (.modFb h)) h

theorem fbStep {s : State} {n : Nat} {t vis : Time} {step : Int} {counts : Bool} (h : s.Canon) :
    (s.fbStep n t vis step counts).Canon :=
  .cmpStep (.ite (.ite (.divide (.fbSpeedBits (.setBit (.setReg64 (.hoopVirtual (.modFb h)))))) (.fbSpeedBits (.setBit
    (.setReg64 (.hoopVirtual (.modFb h)))))) (.modFb h))

theorem fbFirst {s : State} {n : Nat} {t vis : Time} {p : Int} (h : s.Canon) : (s.fbFirst n t vis p).Canon := .modFb h

theorem ballAccept {s : State} {n l : Nat} (h : s.Canon) : (s.ballAccept n l).Canon :=
  .ite h (.ite (.pushEdge (.ballToUnits (.log (.setFb (.atTime h))))) (.ballToUnits (.log (.setFb (.atTime h)))))

theorem fbRaw {s : State} {n i : Nat} {stamp : Time} {level : Bool} (h : s.Canon) :
    (s.fbRaw n i stamp level).Canon :=
  .ite h (.ite (.pushEdge (.modFb h)) (.modFb h))

theorem fbInputEdge {s : State} {n : Nat} {l : Line} {stamp : Time} {level : Bool} (h : s.Canon) :
    (fbInputEdge s n l stamp level).Canon :=
  .ite h (.ite (.fbRaw h) (.ite (.ite (.fbRaw (.atTime h)) (.atTime h)) (.fbRaw (.ite (.ballAccept (.atTime h)) (.atTime h)))))

theorem srcAccept {s : State} {port : FbSrc} (h : s.Canon) : (s.srcAccept port).Canon := by
  unfold State.srcAccept
  split
  · exact .ballAccept h
  · exact .pinFilterAccept h

theorem acceptOldest {s : State} {n : Nat} {srcs : List FbSrc} {ls : List Nat} (h : s.Canon) :
    (s.acceptOldest n srcs ls).Canon :=
  .foldl (fun _ _ h1 => .srcAccept h1) h

theorem acceptDue {s : State} {n : Nat} (h : s.Canon) : (s.acceptDue n).Canon :=
  .foldl (fun _ _ h1 => .ite (.srcAccept h1) h1) h

theorem overspeed {s : State} {n : Nat} (h : s.Canon) : (s.overspeed n).Canon := .fbSourceFails (.setBit (.bump h))

theorem quadEdges {s : State} {n : Nat} {l : List FbIn} {t : Time} (h : s.Canon) : (s.quadEdges n l t).Canon :=
  .ite (.foldl (fun _ _ h1 => .overspeed h1) (.setFb h)) (.ite (.bump (.setFb h)) (.ite (.setFb h) (.fbStep (.setFb h))))

theorem pulseEdge {s : State} {n : Nat} {e : FbIn} (h : s.Canon) : (s.pulseEdge n e).Canon :=
  .ite (.setFb h) (.ite (.overspeed (.setFb h)) (.ite (.fbStep (.setFb h)) (.setFb h)))

theorem countNext {s : State} {n : Nat} {e : FbIn} (h : s.Canon) : (s.countNext n e).Canon :=
  .ite (.quadEdges (.modFb h)) (.pulseEdge (.modFb h))

theorem fbCountEdge {s : State} {n : Nat} (h : s.Canon) : (fbCountEdge s n).Canon := by
  unfold Machine.fbCountEdge
  dsimp only
  refine .ite h ?_
  split
  · exact .acceptOldest h
  · exact .countNext (.acceptOldest h)

theorem commCode {s : State} {n : Nat} {t : Time} (h : s.Canon) : (s.commCode n t).Canon := by
  unfold State.commCode
  dsimp only
  split
  · exact .bump (.setBit h)
  · split
    · exact .fbFirst (.setFld (.setFb (.setBit h)))
    · exact .ite (.setFld (.setFb (.setBit h))) (.fbStep (.ite (.setFld (.setFb (.setBit h))) (.bump (.setFld (.setFb
        (.setBit h))))))

theorem commNext {s : State} {n : Nat} {e : FbIn} (h : s.Canon) : (s.commNext n e).Canon := .commCode (.modFb h)

theorem commCodeChange {s : State} {n : Nat} (h : s.Canon) : (commCodeChange s n).Canon := by
  unfold Machine.commCodeChange
  dsimp only
  refine .ite h ?_
  split
  · exact .acceptOldest h
  · exact .commNext (.acceptOldest h)

theorem fbIndex {s : State} {n : Nat} {t : Time} (h : s.Canon) : (s.fbIndex n t).Canon := by
  have hpush {u : State} {f : FbSt → FbSt} {ix : Ix} {bad : Bool} (hu : u.Canon) :
      ((u.modFb n f).setBit F.FB_STATUS_idx_mismatch ix bad).Canon := .setBit (.modFb hu)
  unfold State.fbIndex
  refine .ite (.fbRec (.fbStep (.setBit (hpush (.setReg64 h))))) (.ite (hpush (.setReg (.setReg64 h))) (.ite ?_ ?_))
  · exact .fbRec (.fbStep (.bump (hpush (.setReg (.setReg64 h)))))
  · exact .fbRec (.bump (hpush (.setReg (.setReg64 h))))

theorem countsTo {s : State} {n : Nat} {t : Time} {k : Nat} (h : s.Canon) : (s.countsTo n t k).Canon := by
  induction k generalizing s with
  | zero => exact h
  | succ k ih =>
    rw [State.countsTo]
    refine .ite h ?_
    dsimp only
    split
    · exact .acceptOldest h
    · exact .ite (ih (.ite (.commNext (.acceptOldest h)) (.countNext (.acceptOldest h)))) (.acceptOldest h)

theorem indexNext {s : State} {n : Nat} {e : FbIn} (h : s.Canon) : (s.indexNext n e).Canon :=
  .ite (.fbIndex (.modFb (.countsTo h))) (.modFb (.countsTo h))

theorem fbIndexEdge {s : State} {n : Nat} (h : s.Canon) : (fbIndexEdge s n).Canon := by
  unfold Machine.fbIndexEdge
  dsimp only
  refine .ite h ?_
  split
  · exact .acceptOldest h
  · exact .indexNext (.acceptOldest h)

theorem indexTo {s : State} {n : Nat} {t : Time} {k : Nat} (h : s.Canon) : (s.indexTo n t k).Canon := by
  induction k generalizing s with
  | zero => exact .countsTo h
  | succ k ih =>
    rw [State.indexTo]
    split
    · exact .ite (ih (.indexNext (.acceptOldest h))) (.countsTo (.acceptOldest h))
    · exact .countsTo (.acceptOldest h)

theorem fbProbeEdge {s : State} {n : Nat} (h : s.Canon) : (fbProbeEdge s n).Canon := by
  unfold Machine.fbProbeEdge
  dsimp only
  refine .ite h ?_
  split
  · refine .ite h ?_
    split
    · exact .ballAccept h
    · exact h
  · refine .ite ?_ ?_
    · refine .setBit ?_
      refine .setReg64 ?_
      refine .setReg64 ?_
      refine .modFb ?_
      refine .modFb ?_
      refine .indexTo ?_
      refine .ite h ?_
      split
      · exact .ballAccept h
      · exact h
    · refine .modFb ?_
      refine .indexTo ?_
      refine .ite h ?_
      split
      · exact .ballAccept h
      · exact h

theorem fbProbeCmdWrite {s : State} {port : Port} {n : Nat} {v : Word} (h : s.Canon) :
    (fbProbeCmdWrite s port n v).Canon :=
  .ite (.log (.modFb h)) h

theorem serialFrameStart {s : State} {n : Nat} (h : s.Canon) : (serialFrameStart s n).Canon :=
  .ite (.fbRaw (.modFb (.atTime h))) h

theorem frameGood {s : State} {n frame : Nat} {t vis : Time} (h : s.Canon) : (s.frameGood n frame t vis).Canon := by
  unfold State.frameGood
  have hx : ((s.setFb n { s.fb n with lastSt := some (s.frameField n frame).2, fails := 0 }).setBit F.FB_STATUS_frame_lost (fbIx n)
      false).Canon := .setBit (.setFb h)
  dsimp only
  refine .ite ?_ ?_
  · split
    · exact .fbFirst hx
    · exact .ite hx (.fbStep hx)
  · split
    · exact .fbFirst hx
    · exact .ite hx (.fbStep hx)

theorem frameBad {s : State} {n : Nat} {late : Bool} {t : Time} (h : s.Canon) : (s.frameBad n late t).Canon :=
  .ite (.fbSourceFails (.fbRec (.setBit (.modFb (.bump h))))) (.modFb (.bump h))

theorem serialFrameVisible {s : State} {n : Nat} {crossedLate measured : Bool} {asked came : Time} (h : s.Canon) :
    (serialFrameVisible s n crossedLate measured asked came).Canon := by
  have hmeas {u : State} {ix : Ix} {c : Prop} [Decidable c] {v : Word} {b : Bool} (hu : u.Canon) :
      ((if c then u.setReg .FB_SER_LD_MEAS ix v else u).setBit F.FB_STATUS_ld_warn ix b).Canon := .setBit (.ifThen .setReg hu)
  unfold Machine.serialFrameVisible
  dsimp only
  split
  · exact h
  · refine .ite h ?_
    have hat {f : FbSt → FbSt} {t : Time} : ((s.at t).modFb n f).Canon := .modFb (.atTime h)
    exact .ite (.frameGood (.modFb (.ifThen hmeas (.log (.setReg64 (.iteSnd (.fresh64 hat) hat))))))
      (.frameBad (.modFb (.ifThen hmeas (.log (.setReg64 (.iteSnd (.fresh64 hat) hat))))))

theorem fbStandstill {s : State} {n : Nat} (h : s.Canon) : (fbStandstill s n).Canon := by
  unfold Machine.fbStandstill
  dsimp only
  split
  · exact h
  · exact .ite (.fbSpeedBits (.atTime h)) h

theorem fbTakePins {s o : State} {n : Nat} (h : s.Canon) : (s.fbTakePins o n).Canon :=
  .foldl (fun _ _ h1 => .ite h1 (.modPin (.ownPin h1))) (.foldl (fun _ _ h1 => .ite (.ownPin h1) h1) h)

theorem divFall {s : State} {n : Nat} {old : FbSt} {g : Time} (h : s.Canon) : (s.divFall n old g).Canon :=
  .ite (.ite (.pushEdge (.ite (.pushEdge (.ite (.pushEdge h) h)) (.ite (.pushEdge h) h))) (.ite (.pushEdge (.ite
    (.pushEdge h) h)) (.ite (.pushEdge h) h))) h

theorem fbReset {s : State} {n : Nat} {g : Time} (h : s.Canon) : (s.fbReset n g).Canon := by
  unfold State.fbReset
  have hreg {u : State} {x : FbSt} {ix : Ix} {v v' : Word} {w w' : BitVec 64} (hu : u.Canon) :
      (((((((((u.setFb n x).setReg .FB_STATUS ix v).setReg64 .FB_LAST_EVENT_LO .FB_LAST_EVENT_HI ix w).setReg64 .FB_IDX_POS_LO
        .FB_IDX_POS_HI ix w').setReg .FB_IDX_DEV ix v').setFld F.FB_COMM_STATE_sector ix 7).setReg .FB_SER_LD_MEAS ix v').cmpRegs n).divFall
        n (s.fb n) g).Canon :=
    .divFall (.cmpRegs (.setReg (.setFld (.setReg (.setReg64 (.setReg64 (.setReg (.setFb hu))))))))
  exact .ite (.commCode (hreg h)) (.ifThen .fbRaw (hreg h))

theorem fbCfgWrite {s : State} {r : Reg} {n : Nat} {v : Word} (h : s.Canon) : (s.fbCfgWrite r n v).Canon :=
  .ite (.setBit (.ite (.acceptDue h) h)) (.ite (.fbSourceFails (.fbReset (.fbTakePins (.plainWrite (.ite
    (.acceptDue h) h))))) (.fbTakePins (.plainWrite (.ite (.acceptDue h) h))))

theorem hoopBad {s : State} {h' : Nat} {e : Time} (h : s.Canon) : (s.hoopBad h' e).Canon :=
  .ite (.modHoop h) (.hoopLoss h)

theorem noSynthetic {s : State} {h' : Nat} (h : s.Canon) : (s.noSynthetic h').Canon := .setBit h

theorem placeTooth {s : State} {h' slot : Nat} {rev : Int} {i : HoopIn} (h : s.Canon) :
    (s.placeTooth h' slot rev i).Canon :=
  .addPoint (.modHoop h)

theorem searchTooth {s : State} {h' : Nat} {i : HoopIn} (h : s.Canon) : (s.searchTooth h' i).Canon := by
  unfold State.searchTooth
  dsimp only
  refine .ite (.setHoop h) (.ite (.placeTooth (.modHoop (.setHoop h))) ?_)
  split
  · exact .modHoop (.setHoop h)
  · exact .ifThen .hoopSync (.placeTooth (.setHoop h))

theorem countTooth {s : State} {h' : Nat} {i : HoopIn} (h : s.Canon) : (s.countTooth h' i).Canon := by
  unfold State.countTooth
  dsimp only
  split
  · exact h
  · exact .ite (.placeTooth (.ite (.hoopReverse h) (.modHoop h))) (.ifThen .hoopSync (.placeTooth (.modHoop h)))

theorem syncTooth {s : State} {h' : Nat} {i : HoopIn} (h : s.Canon) : (s.syncTooth h' i).Canon := by
  unfold State.syncTooth
  dsimp only
  split
  · exact .ite (.placeTooth (.hoopReverse (.noSynthetic h)))
      (.ite (.hoopBad (.bump h)) (.ite (.hoopLoss (.modHoop (.noSynthetic h))) (.refreshAll (.placeTooth (.modHoop
        (.noSynthetic h))))))
  · exact h

theorem samplePoint {s : State} {h' : Nat} {a : Int} {i : HoopIn} (h : s.Canon) : (s.samplePoint h' a i).Canon := by
  unfold State.samplePoint
  refine .ite h ?_
  extract_lets back fwd add u v
  have hadd {w : State} (hw : w.Canon) : (add w).Canon := .addPoint hw
  have hu : u.Canon := .ifThen .setBit h
  have hv : v.Canon := .ite hu (.noSynthetic hu)
  clear_value v add
  split
  · exact .ifThen .hoopSync (.modHoop (hadd hv))
  · exact .ifThen .hoopSync (.modHoop (hadd hv))
  · exact .ite (hadd (.hoopReverse hv)) (.refreshAll (hadd (.modHoop hv)))
  · exact .ite (hadd (.hoopReverse hv)) (.ifThen .hoopSync (.modHoop (hadd hv)))
  · exact .ifThen .hoopSync (.modHoop (hadd hv))
  · exact hv

theorem hoopTooth {s : State} {h' : Nat} (h : s.Canon) : (hoopTooth s h').Canon := by
  unfold Machine.hoopTooth
  dsimp only
  refine .ite h ?_
  split
  · exact .ite (.ballAccept h) h
  · refine .ite (.ite (.ballAccept h) h) ?_
    split
    · exact .samplePoint (.modHoop (.atTime (.ite (.ballAccept h) h)))
    · split
      · exact .searchTooth (.noSynthetic (.setBit (.log (.modHoop (.atTime (.ite (.ballAccept h) h))))))
      · exact .searchTooth (.noSynthetic (.setBit (.log (.modHoop (.atTime (.ite (.ballAccept h) h))))))
      · exact .syncTooth (.setBit (.log (.modHoop (.atTime (.ite (.ballAccept h) h)))))
      · exact .countTooth (.noSynthetic (.setBit (.log (.modHoop (.atTime (.ite (.ballAccept h) h))))))
      · exact .countTooth (.noSynthetic (.setBit (.log (.modHoop (.atTime (.ite (.ballAccept h) h))))))
      · exact .setBit (.log (.modHoop (.atTime (.ite (.ballAccept h) h))))

theorem hoopIndexEdge {s : State} {h' : Nat} (h : s.Canon) : (hoopIndexEdge s h').Canon := by
  unfold Machine.hoopIndexEdge
  dsimp only
  refine .ite h ?_
  split
  · exact .ite (.ballAccept h) h
  · exact .modHoop (.atTime (.ite (.ballAccept h) h))

theorem synthetic {s : State} {h' : Nat} {e : Time} {add : State → State} (hadd : ∀ u, u.Canon → (add u).Canon)
    (h : s.Canon) : (s.synthetic h' e add).Canon :=
  .ite (.modHoop (.refreshAll (hadd _ (.foldl (fun _ _ h2 => .ite (.setEv h2) h2) (.setBit (.bump h)))))) (.hoopLoss (hadd _
    (.foldl (fun _ _ h2 => .ite (.setEv h2) h2) (.setBit (.bump h)))))

theorem hoopMissingTooth {s : State} {h' : Nat} (h : s.Canon) : (hoopMissingTooth s h').Canon := by
  unfold Machine.hoopMissingTooth
  dsimp only
  refine .ite h ?_
  split
  · refine .ite h ?_
    refine .ite ?_ ?_
    · split
      · split <;> exact .synthetic (fun _ h1 => .addPoint (.modHoop h1)) (.atTime h)
      · exact h
    · split
      · exact .synthetic (fun _ h1 => .addPoint h1) (.atTime h)
      · exact h
  · exact h

theorem hoopStall {s : State} {h' : Nat} (h : s.Canon) : (hoopStall s h').Canon := by
  unfold Machine.hoopStall
  split
  · exact .ite h (.hoopStalls (.atTime h))
  · exact h

theorem hoopCoastExpiry {s : State} {h' : Nat} (h : s.Canon) : (hoopCoastExpiry s h').Canon := by
  unfold Machine.hoopCoastExpiry
  split
  · exact .ite (.hoopFallback (.atTime h)) h
  · exact h

theorem hevtApply {s : State} {h' : Nat} (h : s.Canon) : (hevtApply s h').Canon := by
  unfold Machine.hevtApply
  dsimp only
  split
  · exact h
  · split
    · refine .ite h ?_
      refine .ite (.hoopRefuse (.modHoop (.atTime h))) ?_
      refine .ite ?_ ?_
      · refine .hoopRefuse ?_
        split
        · exact .bump (.modHoop (.atTime h))
        · exact .modHoop (.atTime h)
      · refine .ite ?_ (.setEv (.dropEv (.modHoop (.atTime h))))
        split
        · exact .evStamps (.evTargets (.setEv (.dropEv (.modHoop (.atTime h)))))
        · exact .setEv (.dropEv (.modHoop (.atTime h)))
    · exact h

theorem cancelEv {s : State} {h' slot : Nat} {t : Time} (h : s.Canon) : (s.cancelEv h' slot t).Canon := by
  unfold State.cancelEv
  split
  · exact h
  · refine .ite ?_ (.dropEv h)
    split
    · exact h
    · exact .ite h (.evStitches (.setEv h))

theorem hcanApply {s : State} {h' : Nat} (h : s.Canon) : (hcanApply s h').Canon := by
  unfold Machine.hcanApply
  dsimp only
  split
  · exact h
  · split
    · refine .ite h ?_
      split
      · exact .cancelEv (.modHoop (.atTime h))
      · exact .foldl (fun _ _ h1 => .ite (.cancelEv h1) h1) (.modHoop (.atTime h))
    · exact h

theorem evActivate {s : State} {h' slot : Nat} {e : HoopEv} {t : Time} {fin : Bool} (h : s.Canon) :
    (s.evActivate h' slot e t fin).Canon := by
  unfold State.evActivate
  split
  · exact h
  · exact .activate h

theorem hoopEventStart {s : State} {h' slot : Nat} (h : s.Canon) : (hoopEventStart s h' slot).Canon := by
  unfold Machine.hoopEventStart
  split
  · exact h
  · split
    · exact h
    · exact .ite h (.evActivate (.setEv (.atTime h)))

theorem hoopEventEnd {s : State} {h' slot : Nat} (h : s.Canon) : (hoopEventEnd s h' slot).Canon := by
  unfold Machine.hoopEventEnd
  dsimp only
  split
  · exact h
  · split
    · refine .ite h ?_
      refine .ite ?_ (.ite (.hoopRecord (.evActivate (.ite (.bump (.modHoop (.atTime h))) (.modHoop (.atTime h))))) (.evActivate (.ite
        (.bump (.modHoop (.atTime h))) (.modHoop (.atTime h)))))
      split
      · exact .pinToFallback (.ite (.hoopRecord (.evActivate (.ite (.bump (.modHoop (.atTime h))) (.modHoop (.atTime h)))))
          (.evActivate (.ite (.bump (.modHoop (.atTime h))) (.modHoop (.atTime h)))))
      · exact .ite (.hoopRecord (.evActivate (.ite (.bump (.modHoop (.atTime h))) (.modHoop (.atTime h))))) (.evActivate (.ite (.bump
          (.modHoop (.atTime h))) (.modHoop (.atTime h))))
    · exact h

theorem hoopStart {s : State} {h' : Nat} {g : Time} (h : s.Canon) : (s.hoopStart h' g).Canon :=
  .recross (.foldl (fun _ _ h1 => .ownPin h1) (.hoopEnter (.setHoop h)))

theorem hoopStop {s : State} {h' : Nat} {g : Time} (h : s.Canon) : (s.hoopStop h' g).Canon :=
  .recross (.foldl (fun _ _ h1 => .ite (.ownPin h1) h1) (.modHoop (.hoopEnter (.foldl (fun _ _ h1 => .dropEv h1) h))))

theorem hoopCfgWrite {s : State} {r : Reg} {h' : Nat} {v : Word} (h : s.Canon) : (s.hoopCfgWrite r h' v).Canon :=
  .ite (.setBit h) (.ite (.hoopStart (.plainWrite h)) (.ite (.hoopStop (.plainWrite h)) (.plainWrite h)))

theorem hoopEvtSelWrite {s : State} {port : Port} {h' : Nat} {v : Word} (h : s.Canon) :
    (hoopEvtSelWrite s port h' v).Canon := by
  unfold Machine.hoopEvtSelWrite
  dsimp only
  split <;> exact .setReg64 (.setReg64 (.setReg (.plainWrite h)))

theorem rotEnd {s : State} {d : Nat} (h : s.Canon) : (s.rotEnd d).Canon := .modDie (.bump (.setReg h))

theorem rotCheck {s : State} {d : Nat} (h : s.Canon) : (s.rotCheck d).Canon := .ite (.rotEnd h) h

theorem rotChecks {s : State} (h : s.Canon) : s.rotChecks.Canon := .foldl (fun _ _ h1 => .rotCheck h1) h

end State.Canon

end Sys2Proof.Machine

/-! # Memories in canonical form: start-up, images, placement, migration and PTP -/

namespace Sys2Proof.Machine

namespace State.Canon

theorem packageFault {s : State} {cause : Nat} (h : s.Canon) : (s.packageFault cause).Canon :=
  .ite h (.setFld (.setBit h))

theorem packageReset {s : State} {cause : Nat} {holds : Bool} (h : s.Canon) : (s.packageReset cause holds).Canon :=
  .setFld (.update h)

theorem linkReset {s : State} (h : s.Canon) : s.linkReset.Canon :=
  .setFld (.foldl (fun _ _ h1 => .ite h1 (.setBit h1)) (.foldl (fun _ _ h1 => .ite h1 (.setBit h1)) (.update h)))

theorem rstCtrlWrite {s : State} {port : Port} {v : Word} (h : s.Canon) : (rstCtrlWrite s port v).Canon :=
  .ite (.packageReset h) h

theorem initFilters {s : State} {d : Nat} (h : s.Canon) : (s.initFilters d).Canon :=
  .foldl (fun _ _ h1 => .setTrip h1) (.update h)

theorem startFail {s : State} {d code : Nat} (h : s.Canon) : (s.startFail d code).Canon :=
  .ite (.packageFault h) (.ite (.setReg (.modDie h)) (.modDie h))

theorem beginVerify {s : State} {source : Nat} {img : List Byte} (h : s.Canon) : (s.beginVerify source img).Canon :=
  .setFld (.bump (.setFld (.update h)))

theorem bootFailed {s : State} {source code : Nat} (h : s.Canon) : (s.bootFailed source code).Canon :=
  .ite (.setFld (.update (.update (.setFld h)))) (.ite (.setFld (.update (.update (.setFld h)))) (.setFld (.update
    (.setFld h))))

theorem bootCtrlWrite {s : State} {port : Port} {v : Word} (h : s.Canon) : (bootCtrlWrite s port v).Canon :=
  .ite (.ite (.beginVerify h) (.setBit h)) h

theorem firstSpare {s : State} {d : Nat} (h : s.Canon) : (s.firstSpare d).Canon := .ite (.setFld h) h

theorem taskKeyHashWrite {s : State} {port : Port} {k : Nat} {v : Word} (h : s.Canon) :
    (taskKeyHashWrite s port k v).Canon :=
  .ite h (.setReg h)

theorem bindRecords {s : State} {l : List Bind} (h : s.Canon) : (s.bindRecords l).Canon := .update h

theorem bindQueue {s : State} {b : Bind} (h : s.Canon) : (s.bindQueue b).Canon := by
  unfold State.bindQueue
  dsimp only
  refine .ite ?_ (.setQue h)
  split
  · exact .modDma (.request (.setReg (.setReg (.setReg (.setReg (.setQue h))))))
  · exact .request (.setReg (.setReg (.setReg (.setReg (.setQue h)))))

theorem unbindQueue {s : State} {q : Nat} (h : s.Canon) : (s.unbindQueue q).Canon := by
  unfold State.unbindQueue
  dsimp only
  refine .ite h ?_
  split
  · exact .modDma (.update (.setQue h))
  · exact .update (.setQue h)

theorem withPlace {s : State} {t : Nat} {k : Task} {p : Spot} (h : s.Canon) : (s.withPlace t k p).Canon :=
  .modTask (.bindRecords (.setTask h))

theorem placerCmd {s : State} {q op : Nat} {f : CqCmd → State → Nat × State} (hf : ∀ a' u, u.Canon → (f a' u).2.Canon)
    (h : s.Canon) : (s.placerCmd q op f).Canon := by
  unfold State.placerCmd
  dsimp only
  split
  · exact .cqEnd (hf _ _ h)
  · exact h

theorem ownPins {s : State} {t : Nat} {res : List Res} (h : s.Canon) : (s.ownPins t res).Canon :=
  .foldl (fun _ _ h1 => .ite (.ownPin h1) h1) h

theorem writeImage {s : State} {i : Image} {p : Spot} (h : s.Canon) : (s.writeImage i p).Canon := by
  unfold State.writeImage
  dsimp only
  refine .foldl ?_ (.writeDie h)
  intro _ _ h1
  split
  · exact .writeDie h1
  · exact h1

theorem settleAt {s : State} {t : Nat} {k : Task} {p : Spot} {from_ : Time} (h : s.Canon) :
    (s.settleAt t k p from_).Canon :=
  .recross (.foldl (fun _ _ h1 => .bindQueue h1) (.withPlace h))

theorem loadTask {s : State} {t : Nat} {b : List Byte} {mask : Nat} {accept : Time} (h : s.Canon) :
    (s.loadTask t b mask accept).2.Canon := by
  unfold State.loadTask
  dsimp only
  split
  · exact .fenceCopies h
  · split
    · exact .fenceCopies h
    · exact .iteSnd (.updateDigest (.ownPins (.writeImage (.settleAt (.fenceCopies h))))) (.fenceCopies h)

theorem copyTask {s : State} {k : Task} {die codeBase dataBase : Nat} {tables : List Table} (h : s.Canon) :
    (s.copyTask k die codeBase dataBase tables).Canon :=
  .ite h (.foldl (fun _ _ h1 => .writeDie h1) (.writeDie (.writeDie h)))

theorem placeAgain {s : State} {t : Nat} {k : Task} {from_ : Time} (h : s.Canon) :
    (s.placeAgain t k from_).2.Canon := by
  unfold State.placeAgain
  refine .iteSnd h ?_
  refine .iteSnd h ?_
  split
  · exact h
  · exact .settleAt (.copyTask h)

theorem startRun {s : State} {t : Nat} {k : Task} {a : Act} (h : s.Canon) : (s.startRun t k a).Canon :=
  .activate (.ite (.setTask h) (.beginRun h))

theorem startTask {s : State} {t : Nat} {a : Act} (h : s.Canon) : (s.startTask t a).2.Canon := by
  unfold State.startTask
  dsimp only
  split
  · exact h
  · refine .iteSnd h ?_
    refine .iteSnd h ?_
    refine .iteSnd h ?_
    split
    · exact .startRun (.iteSnd h (.placeAgain h))
    · exact h

theorem stopTask {s : State} {t : Nat} {ts : Time} (h : s.Canon) : (s.stopTask t ts).2.Canon := by
  unfold State.stopTask
  split
  · exact h
  · exact .iteSnd h (.setTask h)

theorem freePins {s : State} {res : List Res} (h : s.Canon) : (s.freePins res).Canon :=
  .foldl (fun _ _ h1 => .ite (.ownPin h1) h1) h

theorem unloadTask {s : State} {t : Nat} {accept : Time} (h : s.Canon) : (s.unloadTask t accept).2.Canon := by
  unfold State.unloadTask
  dsimp only
  split
  · exact h
  · exact .iteSnd h (.updateDigest (.rotChecks (.recross (.foldl (fun _ _ h1 => .ite (.unbindQueue h1) h1) (.freePins
      (.update h))))))

theorem setAffinity {s : State} {q : Nat} (h : s.Canon) : (setAffinity s q).Canon := by
  unfold Machine.setAffinity
  dsimp only
  split
  · exact h
  · refine .ite h ?_
    split
    · exact .cqEnd h
    · refine .ite (.cqEnd h) ?_
      refine .ite (.cqEnd (.setTask h)) ?_
      split
      · exact .cqEnd h
      · exact .setCq h

theorem setSplit {s : State} {code que : Nat} (h : s.Canon) : (s.setSplit code que).2.Canon :=
  .iteSnd h (.setFld (.setFld (.setFld h)))

theorem outputsFall {s : State} {t run : Nat} {res : List Res} {g : Time} (h : s.Canon) :
    (s.outputsFall t run res g).Canon := by
  unfold State.outputsFall
  dsimp only
  refine .foldl ?_ (.dropFlight h)
  intro _ _ h1
  split
  · exact .pinToFallback h1
  · exact .modTrip h1
  · exact .carFallback h1
  · split
    · exact .ite (.cmpDisarm (.modFb h1)) (.modFb h1)
    · exact .modFb h1
  · exact .hoopDropTask h1
  · exact h1

theorem taskFaultRec {s : State} {t d : Nat} {f : Nat × Nat × Time} {stamp : Time} (h : s.Canon) :
    (s.taskFaultRec t d f stamp).Canon :=
  .faultRec h

theorem taskFall {s : State} {t : Nat} {fault : Bool} (h : s.Canon) : (taskFall s t fault).Canon := by
  unfold Machine.taskFall
  dsimp only
  split
  · exact h
  · split
    · exact h
    · split
      · exact .taskFaultRec (.modTask (.outputsFall (.atTime h)))
      · exact .modTask (.outputsFall (.atTime h))

theorem migrationStart {s : State} {t : Nat} {g : Time} (h : s.Canon) : (migrationStart s t g).Canon := by
  unfold Machine.migrationStart
  dsimp only
  split
  · exact h
  · refine .ite h ?_
    refine .ite (.ite (.setTask (.atTime h)) h) ?_
    split
    · exact h
    · split
      · exact .cqEnd h
      · exact .ite (.setTask (.atTime h)) h

theorem arrive {s : State} {t : Nat} {k : Task} {m : Mig} {g : Time} (h : s.Canon) : (s.arrive t k m g).Canon :=
  .recross (.modTask (.ite (.bump (.setTask (.copyTask h))) (.setTask (.copyTask h))))

theorem migrationEnd {s : State} {t : Nat} {g : Time} (h : s.Canon) : (migrationEnd s t g).Canon := by
  unfold Machine.migrationEnd
  dsimp only
  split
  · exact h
  · split
    · exact h
    · split
      · split
        · exact .cqEnd (.modTask (.rotChecks (.arrive (.atTime h))))
        · exact .modTask (.rotChecks (.arrive (.atTime h)))
      · exact .modDie (.rotChecks (.arrive (.atTime h)))

theorem rotationStart {s : State} {d : Nat} {g : Time} (h : s.Canon) : (rotationStart s d g).Canon :=
  .ite (.ite (.setFld (.atTime h)) (.ite (.rotCheck (.modDie (.setFld (.atTime h)))) h)) h

theorem bistPass {s : State} {d : Nat} {g : Time} (h : s.Canon) : (s.bistPass d g).Canon :=
  .rotCheck (.setReg (.modDie (.bumpMod h)))

theorem modPtp {s : State} {p : Nat} {f : PtpPort → PtpPort} (h : s.Canon) : (s.modPtp p f).Canon := .update h

theorem setPortState {s : State} {p c : Nat} (h : s.Canon) : (s.setPortState p c).Canon :=
  .ite (.setFld (.modPtp h)) (.setFld (.modPtp h))

theorem setPortStates {s : State} {c : Nat} (h : s.Canon) : (s.setPortStates c).Canon :=
  .foldl (fun _ _ h1 => .setPortState h1) h

theorem setGm {s : State} {id : BitVec 64} (h : s.Canon) : (s.setGm id).Canon := .setReg (.setReg h)

theorem unqualIf {s : State} {cause : Nat} (h : s.Canon) : (s.unqualIf cause).Canon := .ite (.setUnqual h) h

theorem follow {s : State} {id : BitVec 64} (h : s.Canon) : (s.follow id).Canon := by
  unfold State.follow
  dsimp only
  split
  · exact .ite (.update (.setGm h)) (.unqualIf (.bump (.update (.setGm h))))
  · exact .update (.setGm h)

theorem becomeGm {s : State} (h : s.Canon) : s.becomeGm.Canon :=
  .ite (.follow (.setBit (.setPortStates h))) (.clearUnqual (.follow (.setBit (.setPortStates h))))

theorem bmca {s : State} (h : s.Canon) : s.bmca.Canon := by
  unfold State.bmca
  dsimp only
  refine .ite (.unqualIf (.setBit (.setPortStates h))) ?_
  split
  · exact .ite (.unqualIf (.setBit (.setPortStates h))) (.becomeGm h)
  · exact .ite (.becomeGm h) (.follow (.setBit (.foldl (fun _ _ h1 => .setPortState h1) h)))

theorem ptpRestart {s : State} (h : s.Canon) : s.ptpRestart.Canon := .unqualIf (.setBit (.setPortStates (.update h)))

theorem netPtpW {s : State} {port : Port} {intervals : Bool} {v : Word} (h : s.Canon) :
    (netPtpW s port intervals v).Canon :=
  .ite (.setBit h) (.ptpRestart (.plainWrite h))

theorem netServoW {s : State} {port : Port} {r : Reg} {v : Word} (h : s.Canon) : (netServoW s port r v).Canon :=
  .ite (.setBit h) (.plainWrite h)

theorem steer {s : State} {o : Int} (h : s.Canon) : (s.steer o).Canon :=
  .ite (.update (.setReg64 h)) (.acceptSlew (.update h))

theorem servo {s : State} {o : Int} (h : s.Canon) : (s.servo o).Canon :=
  .ite h (.ite (.ite (.setUnqual (.update (.setReg (.steer h)))) (.ite (.clearUnqual (.update (.setReg (.steer h))))
    (.update (.setReg (.steer h))))) (.update h))

theorem syncDone {s : State} {p : Nat} {rx : Time} {originNs corr : Int} (h : s.Canon) :
    (s.syncDone p rx originNs corr).Canon :=
  .servo (.modPtp h)

theorem setDelay {s : State} {p : Nat} {twice : Int} (h : s.Canon) : (s.setDelay p twice).Canon := .setReg h

theorem ptpRx {s : State} {p : Nat} {h' : RxHdr} {raw : Time}
    {f : State → Time → State} (hf : ∀ u a', u.Canon → (f u a').Canon)
    (h : s.Canon) : (s.ptpRx p h' raw f).Canon :=
  .receiveFrame (fun _ _ h2 => .ite (hf _ _ h2) h2) h

theorem ptpSend {s : State} {p n : Nat} {peer : Bool} {b : TxBody} (h : s.Canon) : (s.ptpSend p n peer b).Canon :=
  .ite (.queueFrame h) h

theorem ptpNew {s : State} {p n : Nat} {peer : Bool} {b : Nat → TxBody} (h : s.Canon) :
    (s.ptpNew p n peer b).Canon :=
  .ptpSend (.modPtp h)

theorem txStamp {s : State} {p : Nat} {b : TxBody} {tx : Time} (h : s.Canon) : (s.txStamp p b tx).Canon := by
  unfold State.txStamp
  split
  · exact .ite (.ptpSend h) h
  · exact .ite (.ptpSend h) h
  · exact .modPtp h
  · exact .modPtp h
  · exact h

theorem frameTxStart {s : State} {p : Nat} {g : Time} (h : s.Canon) : (frameTxStart s p g).Canon := by
  unfold Machine.frameTxStart
  dsimp only
  refine .ite ?_ h
  split
  · exact .atTime h
  · exact .txStamp (.modNet (.atTime h))

theorem stepReady {s : State} {t : Nat} (h : s.Canon) : (stepReady s t).Canon := by
  unfold Machine.stepReady
  dsimp only
  split
  · exact h
  · split
    · exact h
    · exact .ite (.modTask (.ite (.beginRun (.atTime h)) (.atTime h))) h

theorem tooSoonAct {s : State} {t : Nat} {k : Task} {a : Act} (h : s.Canon) : (s.tooSoonAct t k a).Canon :=
  .ite (.setTask h) (.taskFault (.setTask h))

theorem stepDispatch {s : State} {d slot : Nat} (h : s.Canon) : (stepDispatch s d slot).Canon := by
  unfold Machine.stepDispatch
  dsimp only
  refine .ite ?_ h
  split
  · exact h
  · exact .ite (.tooSoonAct h) (.setTask (.setBit h))

theorem cutPending {s : State} {t : Nat} {k : Task} {a : Act} {keep : Bool} (h : s.Canon) :
    (s.cutPending t k a keep).Canon :=
  .ite (.tooSoonAct (.atTime h)) (.overrun (.setTask (.atTime h)))

theorem stepCutOff {s : State} {t : Nat} (h : s.Canon) : (stepCutOff s t).Canon := by
  unfold Machine.stepCutOff
  dsimp only
  split
  · exact h
  · refine .ite h ?_
    split
    · refine .ite ?_ (.ite (.tooSoonAct (.atTime h)) (.ite (.cutHalted (.setTask (.atTime h))) (.overrun (.setTask (.atTime h)))))
      split
      · exact h
      · exact .ite h (.cutPending h)
    · split
      · exact h
      · exact .ite (.cutPending h) h

theorem timerFire {s : State} {t : Nat} (h : s.Canon) : (timerFire s t).Canon := by
  unfold Machine.timerFire
  dsimp only
  split
  · exact h
  · split
    · exact h
    · exact .ite (.ite (.setTask (.atTime h)) (.activate (.setTask (.atTime h)))) h

theorem takeMsg {s : State} {m : Msg} (h : s.Canon) : (s.takeMsg m).Canon := by
  unfold State.takeMsg
  split
  · exact .bump h
  · split
    · exact h
    · exact .activate h

theorem messageDeliver {s : State} {i : Nat} (h : s.Canon) : (messageDeliver s i).Canon := by
  unfold Machine.messageDeliver
  split
  · exact h
  · exact .ite (.takeMsg (.update h)) h

end State.Canon

end Sys2Proof.Machine

/-! # Memories in canonical form: faults, debug, the host's registers and accesses -/

namespace Sys2Proof.Machine

namespace State.Canon

theorem stopPlaced {s : State} {t code : Nat} {tD : Time} (h : s.Canon) : (s.stopPlaced t code tD).Canon := by
  unfold State.stopPlaced
  dsimp only
  split
  · exact h
  · exact .modTask (.ite (.setBit (.ite h (.taskFaultAt h))) (.ite h (.taskFaultAt h)))

theorem makeRoom {s : State} {t : Nat} {k : Task} {tD : Time} {l : List Nat} (h : s.Canon) :
    (s.makeRoom t k tD l).2.2.Canon := by
  induction l generalizing s with
  | nil => exact h
  | cons v l ih =>
    rw [State.makeRoom]
    dsimp only
    split
    · exact .stopPlaced h
    · exact ih (.stopPlaced h)

theorem takePlace {s : State} {t : Nat} {k : Task} {p : Spot} {tD : Time} (h : s.Canon) :
    (s.takePlace t k p tD).Canon :=
  .modTask (.settleAt (.ite (.copyTask h) (.bump (.copyTask h))))

theorem displace {s : State} {t : Nat} {own : Bool} {tD : Time} (h : s.Canon) : (s.displace t own tD).2.2.Canon := by
  unfold State.displace
  dsimp only
  split
  · exact h
  · split
    · exact .takePlace (.setTask h)
    · split
      · exact .takePlace (.setTask h)
      · refine .iteSnd2 (.stopPlaced (.setTask h)) ?_
        split
        · exact .takePlace (.makeRoom (.setTask h))
        · exact .stopPlaced (.makeRoom (.setTask h))

theorem displaceAll {s : State} {own : Bool} {tD : Time} {l : List (Nat × Task)} (h : s.Canon) :
    (s.displaceAll own tD l).2.2.Canon :=
  .rotChecks (foldl_inv (P := fun acc : Nat × Nat × State => acc.2.2.Canon) (f := fun (acc : Nat × Nat × State) (e : Nat × Task) =>
    (acc.1 + (acc.2.2.displace e.1 own tD).1, acc.2.1 + (acc.2.2.displace e.1 own tD).2.1, (acc.2.2.displace e.1 own tD).2.2))
    (fun _ _ hacc => .displace hacc) _ h)

theorem shuttleRec {s : State} {d slot cause took placed stopped : Nat} {g : Time} (h : s.Canon) :
    (s.shuttleRec d slot cause took placed stopped g).Canon :=
  .faultRec h

theorem shuttleOut {s : State} {d slot cause : Nat} (h : s.Canon) : (s.shuttleOut d slot cause).Canon :=
  .capUpdate (.bump (.setReg (.update (.modDie h))))

theorem shuttleFault {s : State} {d slot cause : Nat} {g : Time} (h : s.Canon) :
    (s.shuttleFault d slot cause g).Canon := by
  unfold State.shuttleFault
  dsimp only
  refine .ite (.shuttleRec (.setReg (.shuttleOut (.atTime h)))) ?_
  split
  · exact .shuttleRec (.modDie (.modDie (.setReg (.shuttleOut (.atTime h)))))
  · exact .shuttleRec (.displaceAll (.modDie (.modDie (.setReg (.shuttleOut (.atTime h))))))

theorem fenceCause {s : State} {d cause : Nat} (h : s.Canon) : (s.fenceCause d cause).Canon :=
  .ite (.packageFault h) (.fenceWire h)

theorem record0 {s : State} {r : Rec} (h : s.Canon) : (s.record0 r).Canon := .update (.receive (.numberRec h))

theorem gapRecs {s : State} {d : Nat} {known : Bool} (h : s.Canon) : (s.gapRecs d known).Canon :=
  .ite h (.modDie (.setBit (.foldl (fun _ _ h1 => .record0 h1) h)))

theorem fenceTasks {s : State} {d : Nat} {readable : Bool} {tF : Time} (h : s.Canon) :
    (s.fenceTasks d readable tF).2.2.Canon :=
  .iteSnd2 (.displaceAll (.update (.foldl (fun _ _ h1 => .stopPlaced h1) h))) (.rotChecks (.foldl
    (fun _ _ h1 => .stopPlaced h1) (.update (.foldl (fun _ _ h1 => .stopPlaced h1) h))))

theorem fenceSettle {s : State} {d cause : Nat} {tF : Time} {readable : Bool} (h : s.Canon) :
    (s.fenceSettle d cause tF readable).Canon :=
  .record0 (.fenceTasks (.gapRecs (.modDie h)))

theorem mgmtRec {s : State} {kind cause : Nat} {g : Time} (h : s.Canon) : (s.mgmtRec kind cause g).Canon := .faultRec h

theorem fenceMgmt {s : State} {d : Nat} {g : Time} (h : s.Canon) : (s.fenceMgmt d g).Canon :=
  .ite h (.ite (.packageFault h) (.ite (.mgmtRec (.update h)) h))

theorem fenceCutOff {s : State} (h : s.Canon) : s.fenceCutOff.Canon := .foldl (fun _ _ h1 => .ite (.fenceWire h1) h1) h

theorem dropLinks {s : State} {d : Nat} (h : s.Canon) : (s.dropLinks d).Canon := .foldl (fun _ _ h1 => .dropLink h1) h

theorem dieFence {s : State} {d : Nat} {g : Time} (h : s.Canon) : (dieFence s d g).Canon := by
  unfold Machine.dieFence
  dsimp only
  split
  · exact h
  · have hcap {u : State} {f : Die → Die} {fl : Fld} {v : Nat} (hu : u.Canon) :
        (((((u.modDie d f).dropLinks d).fenceCutOff.setFld fl pkg v).fenceMgmt d g).capUpdate).Canon :=
      .capUpdate (.fenceMgmt (.setFld (.fenceCutOff (.dropLinks (.modDie hu)))))
    exact .ite (.ifThen .bmca (hcap (.atTime h))) (.fenceSettle (.ifThen .bmca (hcap (.atTime h))))

theorem clockReturn {s : State} {d : Nat} {g : Time} (h : s.Canon) : (clockReturn s d g).Canon := by
  unfold Machine.clockReturn
  dsimp only
  split
  · exact h
  · split
    · exact .fenceSettle (.setReg (.modDie (.atTime h)))
    · exact .setReg (.modDie (.atTime h))

theorem fencesOverdue {s : State} {g : Time} (h : s.Canon) : (s.fencesOverdue g).Canon := by
  unfold State.fencesOverdue
  refine .foldl ?_ h
  intro _ _ h1
  split
  · exact .ite (.fenceSettle h1) h1
  · exact h1

theorem linkLost {s : State} {d k : Nat} (h : s.Canon) : (s.linkLost d k).Canon :=
  .ite (.fenceCause (.ite (.fenceCutOff (.dropLink h)) (.capUpdate (.fenceCutOff (.dropLink h))))) (.ite (.fenceCutOff
    (.dropLink h)) (.capUpdate (.fenceCutOff (.dropLink h))))

theorem mgmtFails {s : State} {cause : Nat} (h : s.Canon) : (s.mgmtFails cause).Canon :=
  .ite (.update h) (.ite (.packageFault h) h)

theorem badFound {s : State} {d off : Nat} {g : Time} (h : s.Canon) : (s.badFound d off g).Canon := by
  unfold State.badFound
  dsimp only
  refine .ite ?_ ?_
  · refine .foldl ?_ (.update h)
    intro _ _ h1
    split
    · exact .ite h1 (.taskFaultAt h1)
    · exact h1
  · split
    · exact .queResetAll (.update h)
    · exact .bump (.writeDieWord h)

theorem setRegs {s : State} {l : List (RKey × Word)} (h : s.Canon) : (s.setRegs l).Canon :=
  .foldl (fun _ _ h1 => .setReg h1) h

theorem ctxSelW {s : State} {port : Port} {d : Nat} {v : Word} (h : s.Canon) : (ctxSelW s port d v).Canon := by
  unfold Machine.ctxSelW
  dsimp only
  split <;> exact .setRegs (.plainWrite h)

theorem haltRec {s : State} {d : Nat} {entry : Time} (h : s.Canon) : (s.haltRec d entry).Canon := .detRec (.breach h)

theorem ctxHaltDo {s : State} {t : Nat} {k : Task} (h : s.Canon) : (ctxHaltDo s t k).Canon := .setTask h

theorem ctxResumeDo {s : State} {t : Nat} {k : Task} (h : s.Canon) : (ctxResumeDo s t k).Canon := by
  unfold Machine.ctxResumeDo
  split
  · exact h
  · exact .haltRec (.setTask h)

theorem ctxSingleDo {s : State} {t : Nat} {k : Task} (h : s.Canon) : (ctxSingleDo s t k).Canon := .setTask h

theorem dbgCtrlWrite {s : State} {port : Port} {d : Nat} {v : Word} (h : s.Canon) :
    (dbgCtrlWrite s port d v).Canon := by
  unfold Machine.dbgCtrlWrite
  dsimp only
  refine .ite h ?_
  refine .ite (.setBit h) ?_
  refine .ite (.setBit h) ?_
  split
  · exact .setBit h
  · exact .ite (.setBit h) (.ite (.ctxHaltDo h) (.ite (.ctxResumeDo h) (.ite (.ctxSingleDo h) (.setTask h))))

theorem newChallenge {s : State} (h : s.Canon) : s.newChallenge.Canon :=
  .update (.foldl (fun _ _ h1 => .setReg (.fresh h1)) h)

theorem voidChallenge {s : State} (h : s.Canon) : s.voidChallenge.Canon := .update (.foldl (fun _ _ h1 => .setReg h1) h)

theorem dbgNewChallenge {s : State} (h : s.Canon) : (dbgNewChallenge s).Canon := .ite (.setBit h) (.newChallenge h)

theorem dbgSubmit {s : State} (h : s.Canon) : (dbgSubmit s).Canon := .ite (.setBit h) (.update (.setBit h))

theorem setUnlocked {s : State} {b : Bool} (h : s.Canon) : (s.setUnlocked b).Canon :=
  .foldl (fun _ _ h1 => .setBit h1) (.setBit h)

theorem dbgLock {s : State} (h : s.Canon) : (dbgLock s).Canon := .ite (.setBit h) (.setUnlocked h)

theorem dbgLockWrite {s : State} {p : Port} {v : Word} (h : s.Canon) : (dbgLockWrite s p v).Canon :=
  .ifThen .dbgLock (.ifThen .dbgSubmit (.ifThen .dbgNewChallenge (.plainWrite h)))

theorem dbgUnlockCheckDone {s : State} (h : s.Canon) : (dbgUnlockCheckDone s).Canon :=
  .ite (.ite (.setUnlocked (.update (.setBit h))) (.ite (.setBit (.voidChallenge (.setFld (.update (.setBit h)))))
    (.voidChallenge (.setFld (.update (.setBit h)))))) h

theorem packageHalt {s : State} (h : s.Canon) : (packageHalt s).Canon := .ite (.update (.setBit h)) (.setBit h)

theorem packageResume {s : State} (h : s.Canon) : (packageResume s).Canon := by
  unfold Machine.packageResume
  dsimp only
  split
  · exact .setBit h
  · have hb : (s.setBit F.DBG_PKG_CTRL_halted pkg false).Canon := .setBit h
    exact .haltRec (.update (.update hb))

theorem viewHoopValue {s : State} {h' sel : Nat} (h : s.Canon) : (s.viewHoopValue h' sel).2.Canon := by
  unfold State.viewHoopValue
  split
  · exact h
  · exact .iteSnd h (.fresh h)

theorem view {s : State} {r : Reg} {ix : Ix} (h : s.Canon) : (s.view r ix).2.Canon := by
  cases r with
  | PIN_CAL => exact .iteSnd (.update h) h
  | HOOP_ANGLE | HOOP_REVS | HOOP_PERIOD => exact .viewHoopValue h
  | _ => exact h

theorem modPort {s : State} {p : Port} {f : PortSt → PortSt} (h : s.Canon) : (s.modPort p f).Canon := .update h

theorem absentAccess {s : State} (h : s.Canon) : s.absentAccess.Canon := .bump h

theorem setMsixMask {s : State} {t : Nat} {m : Bool} (h : s.Canon) : (s.setMsixMask t m).Canon :=
  .ite (.update h) (.ite (.msix (.update h)) (.update h))

theorem bar2Write {s : State} {o : Nat} {v : Word} (h : s.Canon) : (s.bar2Write o v).Canon :=
  .ite h (.ite (.setMsixMask h) (.update h))

theorem rcClear {s : State} {p : Port} {r : Reg} {ix : Ix} (h : s.Canon) : (s.rcClear p r ix).Canon :=
  .ite h (.setReg h)

theorem readLo {s : State} {p : Port} {r : Reg} {ix : Ix} (h : s.Canon) : (s.readLo p r ix).2.Canon := by
  unfold State.readLo
  dsimp only
  split
  · exact .modPort (.modPort h)
  · exact .modPort (.modPort h)
  · exact .modPort h

theorem readKey {s : State} {p : Port} {k : RKey} (h : s.Canon) : (s.readKey p k).2.Canon := by
  unfold State.readKey
  dsimp only
  split
  · exact .rtrClaimRead h
  · exact h
  · exact h
  · exact .iteSnd (.readLo h) (.iteSnd h (.rcClear (.view h)))

theorem readWindow {s : State} {p : Port} {d o : Nat} (h : s.Canon) : (s.readWindow p d o).2.Canon := by
  unfold State.readWindow
  refine .iteSnd h ?_
  split
  · exact .readKey h
  · exact h

theorem hostRead {s : State} {p : Port} {a : Nat} (h : s.Canon) : (s.hostRead p a).2.Canon := by
  unfold State.hostRead
  refine .iteSnd h ?_
  refine .iteSnd (.absentAccess h) ?_
  refine .iteSnd h ?_
  refine .iteSnd (.readWindow h) ?_
  refine .iteSnd h ?_
  split
  · exact .readKey h
  · exact h

theorem hostReadN {s : State} {p : Port} {a n : Nat} (h : s.Canon) : (s.hostReadN p a n).2.Canon :=
  .iteSnd (.hostRead h) (.iteSnd (.absentAccess h) (.iteSnd (.hostRead (.hostRead h)) (.iteSnd h h)))

theorem readN {s : State} {p : Port} {a n : Nat} (h : s.Canon) : (s.readN p a n).Canon := .modPort (.hostReadN h)

theorem readAt {s : State} {p : Port} {a : Nat} (h : s.Canon) : (s.readAt p a).Canon := .readN h

theorem plainWrite64 {s : State} {lo : Reg} {ix : Ix} {l h' : Word} (h : s.Canon) :
    (s.plainWrite64 lo ix l h').Canon :=
  .plainWrite (.plainWrite h)

theorem fbIdxValueWrite {s : State} {n : Nat} {l h' : Word} (h : s.Canon) : (s.fbIdxValueWrite n l h').Canon :=
  .ite (.setBit h) (.setReg (.setBit (.fbCfgWrite (.setBit h))))

theorem write64 {s : State} {p : Port} {lo : Reg} {ix : Ix} {l h' : Word} (h : s.Canon) :
    (s.write64 p lo ix l h').Canon := by
  cases lo with
  | GT_SET_LO => exact .ite (.gtSetW (port := p) h) (.rebaseReports (.gtSetW (port := p) h))
  | PLANT_OFFSET_LO => exact .plantOffsetW (port := p) h
  | TRIP_ROUTE_LO => exact .tripRouteChanged (.plainWrite64 h)
  | FB_IDX_VALUE_LO => exact .fbIdxValueWrite h
  | NET_GATE_BASE_LO => exact .netBankW h
  | LS_GROUP_MAC_LO => exact .lsGroupMacW (port := p) h
  | CQ_BASE_LO => exact .cqBaseWrite (port := p) h
  | EQ_BASE_LO => exact .eqBaseWrite (port := p) h
  | RTR_PRIV_EN_LO => exact .targetGate (fun _ h1 => .wake (.plainWrite64 h1)) h
  | DMA_HEAD_LO | DMA_HWIN_BASE_LO => exact .dmaCfgWrite (fun _ h1 => .plainWrite64 h1) h
  | _ => exact .plainWrite64 h

theorem plcRptSel {s : State} {v : Word} (h : s.Canon) : (plcRptSel s v).Canon := .setRegs (.plainWrite h)

theorem dbgPkgWrite {s : State} {v : Word} (h : s.Canon) : (dbgPkgWrite s v).Canon :=
  .ite (.setBit h) (.ite (.packageHalt h) (.ite (.packageResume h) h))

theorem writePkg {s : State} {p : Port} {r : Reg} {ix : Ix} {v : Word} (h : s.Canon) : (s.writePkg p r ix v).Canon := by
  cases r with
  | GT_SLEW => exact .gtSlewW (port := p) h
  | TIME_CTRL => exact .timeCtrlW (port := p) h
  | LOG_CTRL => exact .logCtrlW (port := p) h
  | PLC_ROT_PERIOD => exact .ite (.plainWrite h) h
  | PLC_RPT_SEL => exact .plcRptSel h
  | NET_CTRL => exact .netCtrlW (port := p) h
  | NET_GATE_CTRL => exact .netGateCtrlW (p := p) h
  | NET_GATE_CYCLE | NET_GATE_ENTRY => exact .netBankW h
  | NET_PTP_CTRL | NET_PTP_INTERVALS => exact .netPtpW (port := p) h
  | NET_SERVO | NET_SERVO_GAIN | NET_QUAL => exact .netServoW (port := p) h
  | LS_CTRL | LS_NODE | LS_LINE_DIGEST => exact .lsWrite (port := p) h
  | AXP_CFG | AXP_PERIOD => exact .axpWrite (port := p) h
  | AXS_CFG | AXS_SRC | AXS_PERIOD | AXS_ALLOW => exact .axsWrite (port := p) h
  | CQ_CFG => exact .cqCfgWrite (port := p) h
  | CQ_NEXT_SEQ => exact .cqNextSeqWrite (port := p) h
  | EQ_CFG => exact .eqCfgWrite (port := p) h
  | EQ_HEAD => exact .eqHeadWriteReg (port := p) h
  | RTR_COMPLETE => exact .rtrCompleteWrite (port := p) h
  | RTR_CTRL | RTR_IDLE | RTR_STATUS => exact .rtrTargetWrite (port := p) h
  | RTR_SRC => exact .rtrSrcWrite (port := p) h
  | RTR_DOORBELL => exact .rtrDoorbellWrite (port := p) h
  | CQ_DOORBELL => exact .cqDoorbellWrite (port := p) h
  | RST_CTRL => exact .rstCtrlWrite (port := p) h
  | BOOT_CTRL => exact .bootCtrlWrite (port := p) h
  | TASK_KEY_HASH => exact .taskKeyHashWrite (port := p) h
  | DBG_LOCK => exact .dbgLockWrite (p := p) h
  | DBG_PKG_CTRL => exact .dbgPkgWrite h
  | _ => exact .plainWrite h

theorem writeDieReg {s : State} {p : Port} {r : Reg} {ix : Ix} {v : Word} (h : s.Canon) :
    (s.writeDieReg p r ix v).Canon := by
  unfold State.writeDieReg
  dsimp only
  split
  · exact .ctxSelW h
  · exact .dbgCtrlWrite h
  · exact .pinCtrlWrite h
  · exact .pinCmdWrite h
  · exact .pinCapSelWrite h
  · exact .carHalfPeriodWrite h
  · exact .carPhaseWrite h
  · exact .pairCfgWrite h
  · exact .pairTimeWrite h
  · exact .pairTimeWrite h
  · exact .tripCmdWrite h
  · exact .tripCtrlWrite h
  · exact .fbProbeCmdWrite h
  · exact .plainWrite h
  · exact .plainWrite h
  · exact .plainWrite h
  · exact .hoopEvtSelWrite h
  · exact .queHostRel h
  · exact .queCfgWrite h
  · exact .queCfgWrite h
  · exact .queCfgWrite h
  · exact .queCfgWrite h
  · exact .queCfgWrite h
  · exact .dmaCmdWrite h
  · exact .dmaAppendWrite h
  · exact .dmaCfgWrite (fun _ h1 => .plainWrite h1) h
  · exact .dmaCfgWrite (fun _ h1 => .plainWrite h1) h
  · exact .ite (.plainWrite h) h
  · exact .ite (.plainWrite h) (.ite (.fbCfgWrite h) (.ite (.hoopCfgWrite h) (.plainWrite h)))

theorem stage {s : State} {p : Port} {k : RKey} {v : Word} (h : s.Canon) : (s.stage p k v).Canon := .ite h (.modPort h)

theorem writeHi {s : State} {p : Port} {k : RKey} {v : Word} (h : s.Canon) : (s.writeHi p k v).Canon := by
  unfold State.writeHi
  dsimp only
  refine .ite h ?_
  split
  · exact .ite (.write64 (.modPort h)) (.write64 h)
  · exact .write64 h

theorem writeKey {s : State} {p : Port} {k : RKey} {v : Word} (h : s.Canon) : (s.writeKey p k v).Canon := by
  unfold State.writeKey
  split
  · exact .setBit h
  · exact .ite (.stage h) (.ite (.writeHi h) (.ite (.writeDieReg h) (.writePkg h)))

theorem writeCfg {s : State} {p : Port} {k : RKey} {v : Word} (h : s.Canon) : (s.writeCfg p k v).Canon :=
  .ite (.updateDigest (.writeKey h)) (.writeKey h)

theorem hostWriteReg {s : State} {p : Port} {k : RKey} {v : Word} (h : s.Canon) : (s.hostWriteReg p k v).Canon :=
  .ite h (.ite (.absentAccess h) (.writeCfg h))

theorem dieMemWrite {s : State} {p : Port} {d off n : Nat} {v : BitVec 64} (h : s.Canon) :
    (s.dieMemWrite p d off n v).Canon :=
  .ite h (.ite (.absentAccess h) (.ite h (.ite (.bump h) (.writeDie h))))

theorem hostWrite {s : State} {p : Port} {a : Nat} {v : Word} (h : s.Canon) : (s.hostWrite p a v).Canon := by
  unfold State.hostWrite
  dsimp only
  refine .ite (.ite (.bar2Write h) h) ?_
  refine .ite h ?_
  refine .ite (.absentAccess h) ?_
  refine .ite h ?_
  refine .ite ?_ ?_
  · refine .ite (.dieMemWrite h) ?_
    split
    · exact .hostWriteReg h
    · exact h
  · refine .ite (.spaceWrite h) ?_
    split
    · exact .hostWriteReg h
    · exact h

theorem hostWriteN {s : State} {p : Port} {a n : Nat} {v : BitVec 64} (h : s.Canon) : (s.hostWriteN p a n v).Canon :=
  .ite (.hostWrite h) (.ite (.dieMemWrite h) (.ite (.ite (.absentAccess h) h) (.ite (.hostWrite (.hostWrite h)) h)))

theorem idle {s : State} (h : s.Canon) : (idle s).Canon := .ite (.tick h) h

end State.Canon

end Sys2Proof.Machine

/-! # Every step keeps the memories canonical (O60) -/

namespace Sys2Proof.Machine

/-! ## What the instructions leave -/

/-- The state an instruction leaves is canonical. -/
def IRes.Canon (r : IRes) : Prop := r.state.Canon

/-- A body that leaves canonical memories canonical. -/
def KeepsCanon (body : Body) : Prop := ∀ s k st, s.Canon → (body s k st).Canon

/-- A body that keeps the memories canonical makes an instruction that does. -/
theorem State.Canon.issue {s : State} {t : Nat} {i : Instr} {body : Body} (hbody : KeepsCanon body) (h : s.Canon) :
    (s.issue t i body).Canon := by
  unfold State.issue
  split
  · exact h
  · split
    · exact h
    · refine .ite ?_ h
      split
      · exact .finish (r := .trap _ _ _) h
      · exact .ite (.finish (hbody _ _ _ (.corrected h))) h

namespace IRes.Canon

theorem ite {c : Prop} [Decidable c] {r r' : IRes} (hr : r.Canon) (hr' : r'.Canon) : (if c then r else r').Canon := by
  split
  · exact hr
  · exact hr'

theorem guardAll {s : State} {l : List (Option Nat)} {f : Unit → IRes} (h : s.Canon) (hf : (f ()).Canon) :
    (guardAll s l f).Canon := by
  unfold Machine.guardAll
  split
  · exact h
  · exact hf

theorem guardMem {s : State} {d : Nat} {offs : List Nat} {l : List (Option Nat)} {f : State → IRes} (h : s.Canon)
    (hf : ∀ u, u.Canon → (f u).Canon) : (guardMem s d offs l f).Canon := by
  unfold Machine.guardMem
  split
  · exact h
  · exact hf _ (.corrected h)

end IRes.Canon

theorem keepsCanon_alu3 {op : Word → Word → Word} {fl : Word → Word → Flags} {rd ra rb : GReg} : KeepsCanon (alu3 op fl rd ra rb) :=
  fun _ _ _ h => h

theorem keepsCanon_aluI {op : Word → Word → Word} {fl : Word → Word → Flags} {rd ra : GReg} {imm : Word} :
    KeepsCanon (aluI op fl rd ra imm) :=
  fun _ _ _ h => h

theorem IRes.Canon.jumpTo {s : State} {k : Task} {st : Step} {x : Nat} (h : s.Canon) : (jumpTo s k st x).Canon := .ite h h

theorem keepsCanon_branch {onRegs : Word → Word → Bool} {onFlags : Flags → Bool} {ra rb : GReg} {off : BitVec 18} :
    KeepsCanon (branch onRegs onFlags ra rb off) :=
  fun _ _ _ h => .ite (.jumpTo h) h

theorem keepsCanon_bodyJmp {ra : GReg} {off : BitVec 18} : KeepsCanon (bodyJmp ra off) := fun _ _ _ h => .jumpTo h

theorem keepsCanon_bodyTmov {f : TmovForm} : KeepsCanon (bodyTmov f) := by
  cases f with
  | move | lo | hi | pair => exact fun _ _ _ h => h

theorem keepsCanon_storeN {n : Nat} {ra rb : GReg} {off : BitVec 18} : KeepsCanon (storeN n ra rb off) := by
  intro s k st h
  unfold storeN
  exact .guardAll h h

theorem keepsCanon_loadN {n : Nat} {rd ra : GReg} {off : BitVec 18} : KeepsCanon (loadN n rd ra off) := by
  intro s k st h
  unfold loadN
  exact .guardMem h fun _ hu => hu

theorem keepsCanon_bodyCall {ra : GReg} {off : BitVec 18} : KeepsCanon (bodyCall ra off) := by
  intro s k st h
  unfold bodyCall
  exact .guardAll h h

theorem keepsCanon_bodyRet : KeepsCanon bodyRet := by
  intro s k st h
  unfold bodyRet
  split
  · exact h
  · exact .jumpTo h

theorem keepsCanon_bodyLdd {x : TDst} {ra : GReg} {off : BitVec 18} : KeepsCanon (bodyLdd x ra off) := by
  intro s k st h
  unfold bodyLdd
  exact .guardMem h fun _ hu => hu

theorem keepsCanon_bodyStd {ra : GReg} {tb : TReg} {off : BitVec 18} : KeepsCanon (bodyStd ra tb off) := by
  intro s k st h
  unfold bodyStd
  exact .guardAll h h

theorem keepsCanon_bodyTnow {t : Nat} {m : GReg} : KeepsCanon (bodyTnow t m) := by
  intro s k st h
  unfold bodyTnow
  exact State.Canon.setTask h

theorem keepsCanon_bodyEnd : KeepsCanon (bodyEnd) := by
  intro s k st h
  unfold bodyEnd
  exact .guardAll h h

theorem keepsCanon_bodyWait {a : TReg} : KeepsCanon (bodyWait a) := by
  intro s k st h
  unfold bodyWait
  exact .guardAll h h

theorem keepsCanon_bodyStch {t : Nat} {ts : TReg} {ga : GReg} {hd : Handle} : KeepsCanon (bodyStch t ts ga hd) := by
  intro s k st h
  unfold bodyStch
  exact .guardAll h h

theorem keepsCanon_bodyPwmw {t : Nat} {ts : TReg} {ga gb : GReg} {hd : Handle} : KeepsCanon (bodyPwmw t ts ga gb hd) := by
  intro s k st h
  unfold bodyPwmw
  exact .guardAll h h

theorem keepsCanon_bodyBrk {t : Nat} : KeepsCanon (bodyBrk t) := fun _ _ _ h => .ite (.setTask h) (.bump h)

theorem keepsCanon_bodyWaite {rd : GReg} {a : Option TReg} : KeepsCanon (bodyWaite rd a) := by
  intro s k st h
  unfold bodyWaite
  split <;> exact .guardAll h h

theorem keepsCanon_bodyQput {t : Nat} {ga : GReg} {hd : Handle} : KeepsCanon (bodyQput t ga hd) := by
  intro s k st h
  unfold bodyQput
  split
  · exact h
  · dsimp only
    split
    · exact .ite h (.guardAll h h)
    · exact .ite (.guardAll h h) h

theorem keepsCanon_bodyQrsv {rd ga : GReg} {hd : Handle} : KeepsCanon (bodyQrsv rd ga hd) := by
  intro s k st h
  unfold bodyQrsv
  dsimp only
  split
  · exact h
  · exact .guardAll h h

theorem keepsCanon_bodyQend {t : Nat} {hd : Handle} : KeepsCanon (bodyQend t hd) := by
  intro s k st h
  unfold bodyQend
  split
  · exact h
  · split
    · exact h
    · exact .ite h (.guardAll h h)

theorem keepsCanon_bodyQget {rd : GReg} {hd : Handle} : KeepsCanon (bodyQget rd hd) := by
  intro s k st h
  unfold bodyQget
  split
  · exact h
  · exact .ite (.guardMem h fun _ hu => hu) (State.Canon.bump h)

theorem keepsCanon_bodyQmark {hd : Handle} : KeepsCanon (bodyQmark hd) := by
  intro s k st h
  unfold bodyQmark
  split <;> exact h

theorem keepsCanon_bodyQrew {hd : Handle} : KeepsCanon (bodyQrew hd) := by
  intro s k st h
  unfold bodyQrew
  split <;> exact h

theorem keepsCanon_bodyQrel {t : Nat} {hd : Handle} : KeepsCanon (bodyQrel t hd) := by
  intro s k st h
  unfold bodyQrel
  split <;> exact .guardAll h h

theorem keepsCanon_bodyQlvl {rd ga : GReg} {hd : Handle} : KeepsCanon (bodyQlvl rd ga hd) := by
  intro s k st h
  unfold bodyQlvl
  split
  · exact h
  · split <;> exact h

theorem keepsCanon_bodyStchr {t : Nat} {ts : TReg} {ga : GReg} {hd : Handle} : KeepsCanon (bodyStchr t ts ga hd) := by
  intro s k st h
  unfold bodyStchr
  dsimp only
  split
  · exact .ite (.guardAll h (State.Canon.bump h)) (.guardAll h h)
  · exact .guardAll h h

namespace IRes.Canon

theorem captPin {s : State} {p age : Nat} {x : TDst} {st : Step} (h : s.Canon) : (s.captPin p age x st).Canon := by
  unfold State.captPin
  dsimp only
  split <;> exact .ite h h

theorem captTrip {s : State} {j age : Nat} {x : TDst} {st : Step} (h : s.Canon) : (s.captTrip j age x st).Canon := by
  unfold State.captTrip
  dsimp only
  split <;> exact .ite h h

end IRes.Canon

theorem keepsCanon_bodyCapt {x : TDst} {ga : GReg} {hd : Handle} : KeepsCanon (bodyCapt x ga hd) := by
  intro s k st h
  unfold bodyCapt
  dsimp only
  split
  · exact h
  · exact .ite h (.ite (.captPin h) (.captTrip h))

theorem keepsCanon_bodyCaptp {x : TDst} {hd : Handle} : KeepsCanon (bodyCaptp x hd) := by
  intro s k st h
  unfold bodyCaptp
  split
  · exact h
  · dsimp only
    split <;> exact .ite h h

namespace IRes.Canon

theorem fbrdOpt {s : State} {st : Step} {x : TDst} {v : Option (BitVec 64)} {o : Bool} (h : s.Canon) :
    (fbrdOpt s st x v o).Canon := by
  cases v with
  | none => exact State.Canon.fresh64 h
  | some v => exact h

theorem fbrdFb {s : State} {n sel : Nat} {st : Step} {x : TDst} (h : s.Canon) : (s.fbrdFb n sel st x).Canon := by
  unfold State.fbrdFb
  refine .ite h ?_
  split
  · exact h
  · exact .fbrdOpt h
  · exact .fbrdOpt h
  · exact .fbrdOpt h

end IRes.Canon

theorem keepsCanon_bodyFbrd {x : TDst} {ga : GReg} {hd : Handle} : KeepsCanon (bodyFbrd x ga hd) := by
  intro s k st h
  unfold bodyFbrd
  dsimp only
  split
  · exact h
  · exact .ite (.ite h (.fbrdFb h)) (.ite h (.ite h h))

theorem keepsCanon_bodyFbspd {x : TDst} {hd : Handle} : KeepsCanon (bodyFbspd x hd) := by
  intro s k st h
  unfold bodyFbspd
  split
  · exact h
  · exact .ite (.ite h h) (.ite h h)

theorem keepsCanon_bodyFbcmp {t : Nat} {tc : TReg} {ga gb : GReg} {hd : Handle} : KeepsCanon (bodyFbcmp t tc ga gb hd) := by
  intro s k st h
  unfold bodyFbcmp
  split <;> exact .guardAll h h

theorem keepsCanon_bodySend {t : Nat} {ts : TReg} {ga gb : GReg} {hd : Handle} : KeepsCanon (bodySend t ts ga gb hd) := by
  intro s k st h
  unfold bodySend
  refine .guardMem h fun u hu => ?_
  split
  · exact hu
  · split <;> exact hu

theorem keepsCanon_bodyRecv {rd ga : GReg} {hd : Handle} : KeepsCanon (bodyRecv rd ga hd) := by
  intro s k st h
  unfold bodyRecv
  refine .guardAll h ?_
  split <;> exact h

theorem keepsCanon_bodyEvnt {t : Nat} {ga gb : GReg} {hd : Handle} : KeepsCanon (bodyEvnt t ga gb hd) := by
  intro s k st h
  unfold bodyEvnt
  refine .guardMem h fun u hu => ?_
  split <;> exact hu

theorem keepsCanon_bodyRing {t : Nat} {hd : Handle} : KeepsCanon (bodyRing t hd) := by
  intro s k st h
  unfold bodyRing
  refine .guardAll h ?_
  split <;> exact h

theorem keepsCanon_bodyCamh {rd ga gb : GReg} {hd : Handle} : KeepsCanon (bodyCamh rd ga gb hd) := by
  intro s k st h
  unfold bodyCamh
  split
  · exact h
  · exact .ite h (.guardMem h fun _ hu => hu)

theorem keepsCanon_bodyHooprd {rd ga : GReg} {hd : Handle} : KeepsCanon (bodyHooprd rd ga hd) := by
  intro s k st h
  unfold bodyHooprd
  dsimp only
  split
  · exact h
  · refine .ite h (.ite h ?_)
    split
    · exact h
    · exact State.Canon.fresh h

theorem keepsCanon_bodyHevt {t : Nat} {ga gb : GReg} {hd : Handle} : KeepsCanon (bodyHevt t ga gb hd) := by
  intro s k st h
  unfold bodyHevt
  refine .guardMem h fun u hu => ?_
  split <;> exact hu

theorem keepsCanon_bodyHcan {t : Nat} {ga : GReg} {hd : Handle} : KeepsCanon (bodyHcan t ga hd) := by
  intro s k st h
  unfold bodyHcan
  refine .guardAll h ?_
  split <;> exact h

theorem keepsCanon_bodyPwmc {t : Nat} {ts : TReg} {ga : GReg} {hd : Handle} : KeepsCanon (bodyPwmc t ts ga hd) := by
  intro s k st h
  unfold bodyPwmc
  dsimp only
  split <;> exact .guardAll h h

/-! ## What the commands leave -/

/-- The state a command leads to is canonical, if it leads to one. -/
def CanonNext : Host.Outcome State Fault Refusal → Prop
  | .next t => t.Canon
  | .fault _ | .refused _ => True

theorem canonNext_next {t : State} (h : t.Canon) : CanonNext (.next t) := h

theorem canonNext_execCmdNop {q : Nat} {s : State} (h : s.Canon) : CanonNext (execCmdNop q s) := by
  unfold execCmdNop
  refine canonNext_next ?_
  split
  · exact .cqEnd h
  · exact h

theorem canonNext_execTask {q : Nat} {s : State} (h : s.Canon) : CanonNext (execTask q s) := by
  unfold execTask
  refine canonNext_next ?_
  dsimp only
  split
  · exact .cqEnd (.hostTask h)
  · exact h

theorem canonNext_execStop {q : Nat} {s : State} (h : s.Canon) : CanonNext (execStop q s) := by
  unfold execStop
  refine canonNext_next ?_
  split
  · exact .ite h (.placerCmd (fun _ _ h1 => .stopTask h1) h)
  · exact h

theorem canonNext_execUnload {q : PlacerRun} {s : State} (h : s.Canon) : CanonNext (execUnload q s) := by
  unfold execUnload
  refine canonNext_next ?_
  split
  · exact .ite h (.placerCmd (fun _ _ h1 => .unloadTask (.spoilCopies h1)) h)
  · exact h

theorem canonNext_execMigrationTimeout {q : Nat} {g : Time} {s : State} (h : s.Canon) : CanonNext (execMigrationTimeout q g s) := by
  unfold execMigrationTimeout
  refine canonNext_next ?_
  split
  · split
    · exact .ite (.cqEnd (.atTime h)) h
    · exact h
  · exact h

theorem canonNext_execReadbackMismatch {p : Nat} {m : Mismatch} {g : Time} {s : State} (h : s.Canon) :
    CanonNext (execReadbackMismatch p m g s) := by
  unfold execReadbackMismatch
  refine canonNext_next ?_
  refine .ite ?_ h
  split <;> exact .pinFault (.atTime h)

theorem canonNext_execPtpFollowUpRx {p : Nat} {h' : RxHdr} {seq : Nat} {originNs corr : Int} {raw : Time} {s : State}
    (h : s.Canon) : CanonNext (execPtpFollowUpRx p h' seq originNs corr raw s) := by
  unfold execPtpFollowUpRx
  refine canonNext_next ?_
  refine .ptpRx ?_ h
  intro _ _ h1
  split
  · exact .ite (.syncDone h1) h1
  · exact h1

theorem canonNext_execPtpDelayRespRx {p : Nat} {h' : RxHdr} {seq : Nat} {rxNs corr : Int} {raw : Time} {s : State} (h : s.Canon) :
    CanonNext (execPtpDelayRespRx p h' seq rxNs corr raw s) := by
  unfold execPtpDelayRespRx
  refine canonNext_next ?_
  dsimp only
  refine .ptpRx ?_ h
  intro _ _ h1
  split
  · exact .ite (.setDelay (.modPtp h1)) h1
  · exact h1

theorem canonNext_execPtpPdelayRespRx {p : Nat} {h' : RxHdr} {m : PtpReq} {rxNs : Int} {twoStep : Bool} {raw : Time} {s : State}
    (h : s.Canon) : CanonNext (execPtpPdelayRespRx p h' m rxNs twoStep raw s) := by
  unfold execPtpPdelayRespRx
  refine canonNext_next ?_
  refine .ptpRx ?_ h
  intro _ _ h1
  split
  · exact .ite (.ite (.setDelay (.modPtp h1)) (.modPtp h1)) h1
  · exact h1

theorem canonNext_execPtpPdelayRespFollowUpRx {p : Nat} {h' : RxHdr} {seq : Nat} {txNs corr : Int} {raw : Time} {s : State}
    (h : s.Canon) : CanonNext (execPtpPdelayRespFollowUpRx p h' seq txNs corr raw s) := by
  unfold execPtpPdelayRespFollowUpRx
  refine canonNext_next ?_
  dsimp only
  refine .ptpRx ?_ h
  intro _ _ h1
  split
  · exact .ite (.setDelay (.modPtp h1)) h1
  · exact h1

theorem canonNext_execPtpTxInterval {p : Nat} {m : PtpTx} {g : Time} {s : State} (h : s.Canon) :
    CanonNext (execPtpTxInterval p m g s) := by
  unfold execPtpTxInterval
  refine canonNext_next ?_
  dsimp only
  refine .ite ?_ h
  split <;> exact .ite (.ptpNew (.modPtp (.atTime h))) (.modPtp (.atTime h))

theorem canonNext_execPtpSyncTimeout {g : Time} {s : State} (h : s.Canon) : CanonNext (execPtpSyncTimeout g s) := by
  unfold execPtpSyncTimeout
  refine canonNext_next ?_
  dsimp only
  split
  · exact h
  · split
    · exact .ite (.unqualIf (.update (.atTime h))) h
    · exact h

theorem canonNext_execPtpAnnounceTimeout {p : Nat} {g : Time} {s : State} (h : s.Canon) :
    CanonNext (execPtpAnnounceTimeout p g s) := by
  unfold execPtpAnnounceTimeout
  refine canonNext_next ?_
  dsimp only
  refine .ite ?_ h
  split
  · exact .bmca (.atTime h)
  · exact .ite (.bmca (.modPtp (.atTime h))) h

theorem canonNext_execShuttleReplayLoad {d : Nat} {g : Time} {s : State} (h : s.Canon) :
    CanonNext (execShuttleReplayLoad d g s) := by
  unfold execShuttleReplayLoad
  refine canonNext_next ?_
  dsimp only
  split
  · exact h
  · exact .ite (.setReg (.update (.modDie (.atTime h)))) h

theorem canonNext_execScrubUncorrectable {d off : Nat} {shadowOf : Option Nat} {g : Time} {s : State} (h : s.Canon) :
    CanonNext (execScrubUncorrectable d off shadowOf g s) := by
  unfold execScrubUncorrectable
  refine canonNext_next ?_
  dsimp only
  refine .ite ?_ h
  split
  · split
    · exact .ite (.taskFaultAt (.sawBad (.atTime h))) (.sawBad (.atTime h))
    · exact .sawBad (.atTime h)
  · exact .badFound (.sawBad (.atTime h))

theorem canonNext_execSramClearEnd {d : Nat} {ok : Bool} {s : State} (h : s.Canon) : CanonNext (execSramClearEnd d ok s) := by
  obtain ⟨hdie, hring, hhost⟩ := canon_iff.1 h
  exact State.Canon.ite (.ite (.modDie (canon_iff.2 ⟨memClear_wf _ _ _ hdie, hring, hhost⟩)) (.startFail h)) h

theorem canonNext_execFlashImageReadDone {slot : Nat} {image : Option (List Byte)} {s : State} (h : s.Canon) :
    CanonNext (execFlashImageReadDone slot image s) := by
  unfold execFlashImageReadDone
  refine canonNext_next ?_
  dsimp only
  refine .ite ?_ h
  split
  · exact .beginVerify h
  · exact .bootFailed (.bump (.setFld h))

/-- Every command keeps the memories canonical: an instruction through its body, any other through the operation it is. -/
theorem canonNext_exec {s : State} (i : Instr) (h : s.Canon) : CanonNext (exec i s) := by
  cases i with
  | add | sub | and | or | xor | shl | shr | sra | min | max | adds | subs | mul | mulh | mulhu | qmul | divu | divs | remu =>
    exact .issue keepsCanon_alu3 h
  | cmp | lui | limm | mac | macr | tadd | taddi | tsub | tcmp | tlead | tcvt | nop | crc | fault =>
    exact .issue (fun _ _ _ hu => hu) h
  | addi | andi | ori | xori => exact .issue keepsCanon_aluI h
  | beq | bne | blt | bge | bltu | bgeu => exact .issue keepsCanon_branch h
  | jmp => exact .issue keepsCanon_bodyJmp h
  | call => exact .issue keepsCanon_bodyCall h
  | ret => exact .issue keepsCanon_bodyRet h
  | ldb | ldh | ldw => exact .issue keepsCanon_loadN h
  | ldd => exact .issue keepsCanon_bodyLdd h
  | stb | sth | stw => exact .issue keepsCanon_storeN h
  | std => exact .issue keepsCanon_bodyStd h
  | tmov => exact .issue keepsCanon_bodyTmov h
  | tnow => exact .issue keepsCanon_bodyTnow h
  | brk => exact .issue keepsCanon_bodyBrk h
  | endStep => exact .issue keepsCanon_bodyEnd h
  | wait => exact .issue keepsCanon_bodyWait h
  | waite => exact .issue keepsCanon_bodyWaite h
  | stch => exact .issue keepsCanon_bodyStch h
  | stchr => exact .issue keepsCanon_bodyStchr h
  | capt => exact .issue keepsCanon_bodyCapt h
  | captp => exact .issue keepsCanon_bodyCaptp h
  | pwmw => exact .issue keepsCanon_bodyPwmw h
  | pwmc => exact .issue keepsCanon_bodyPwmc h
  | fbrd => exact .issue keepsCanon_bodyFbrd h
  | fbspd => exact .issue keepsCanon_bodyFbspd h
  | fbcmp => exact .issue keepsCanon_bodyFbcmp h
  | hooprd => exact .issue keepsCanon_bodyHooprd h
  | hevt => exact .issue keepsCanon_bodyHevt h
  | hcan => exact .issue keepsCanon_bodyHcan h
  | send => exact .issue keepsCanon_bodySend h
  | recv => exact .issue keepsCanon_bodyRecv h
  | qput => exact .issue keepsCanon_bodyQput h
  | qrsv => exact .issue keepsCanon_bodyQrsv h
  | qend => exact .issue keepsCanon_bodyQend h
  | qget => exact .issue keepsCanon_bodyQget h
  | qmark => exact .issue keepsCanon_bodyQmark h
  | qrew => exact .issue keepsCanon_bodyQrew h
  | qrel => exact .issue keepsCanon_bodyQrel h
  | qlvl => exact .issue keepsCanon_bodyQlvl h
  | evnt => exact .issue keepsCanon_bodyEvnt h
  | ring => exact .issue keepsCanon_bodyRing h
  | camh => exact .issue keepsCanon_bodyCamh h
  | stepReady => exact .stepReady h
  | stepDispatch => exact .stepDispatch h
  | stepCutOff => exact .stepCutOff h
  | timerFire => exact .timerFire h
  | messageDeliver => exact .messageDeliver h
  | cmdNop => exact canonNext_execCmdNop h
  | task => exact canonNext_execTask h
  | load => exact .ite (.placerCmd (fun _ _ h1 => .loadTask (.setBit (.spoilCopies h1))) h) h
  | start => exact .placerCmd (fun _ _ h1 => .startTask h1) h
  | stop => exact canonNext_execStop h
  | unload => exact canonNext_execUnload h
  | setAffinity => exact .setAffinity h
  | setSplit => exact .placerCmd (fun _ _ h1 => .setSplit h1) h
  | stopFallback | taskFaultFallback => exact .taskFall h
  | migrationStart => exact .migrationStart h
  | migrationEnd => exact .migrationEnd h
  | migrationTimeout => exact canonNext_execMigrationTimeout h
  | rotationStart => exact .rotationStart h
  | bistDone => exact .ite (.ite (.bistPass (.atTime h)) (.shuttleFault (.bumpMod h))) h
  | rotationDefer => exact .ite (.bump (.setFld (.atTime h))) h
  | pinInputEdge => exact .pinInputEdge h
  | pinFilterAccept => exact .pinFilterAccept h
  | stitchLock => exact .stitchLock h
  | stitchApply => exact .stitchApply h
  | engineDisagree => exact .ite (.pinFault (.atTime h)) h
  | readbackMismatch => exact canonNext_execReadbackMismatch h
  | pinFaultClear | pinCtrlWrite | pinCapSelWrite | pairCfgWrite | tripCmdClear | hoopEvtSelWrite | gateSwap | dmaStart
    | dmaAbort | dmaAppend | cqDoorbell | cqEnable | cqBaseHiWrite | eqEnable | eqHeadWrite | rtrDoorbell | rtrComplete
    | ctxSelWrite | plcRptSelWrite | ctxHalt | ctxResume | ctxSingleStep | brkEnable | brkDisable | dbgNewChallenge | dbgSubmit
    | dbgLock | gtSet | plantOffsetWrite | logCtrlWrite | rstCtrlReset | bootGo | taskKeyLockWrite => exact .hostWriteReg h
  | carrierStartApply => exact .carrierStartApply h
  | carrierBoundary => exact .carrierBoundary h
  | carrierMidpoint => exact .carrierMidpoint h
  | phaseHoldEnd => exact .phaseHoldEnd h
  | pwmStoppedWriteApply => exact .pwmStoppedWriteApply h
  | referenceEdge => exact .referenceEdge h
  | deadTimeExpiry => exact .deadTimeExpiry h
  | minPulseExpiry => exact .minPulseExpiry h
  | tripInputEdge => exact .tripInputEdge h
  | tripFilterAccept => exact .tripFilterAccept h
  | blankWindowEnd => exact .blankWindowEnd h
  | tripClearApply => exact .tripClearApply h
  | tripCtrlWrite | probeArm | fbModeWrite | hoopEnable | hoopDisable | netPtpCtrlWrite | queHostRelWrite | packageDebugHalt
    | packageDebugResume | gtSlewWrite | timeCtrlWrite => exact .hostWriteReg (.atTime h)
  | tripCheck => exact .tripCheck h
  | fbCountEdge => exact .fbCountEdge h
  | commCodeChange => exact .commCodeChange h
  | fbIndexEdge => exact .fbIndexEdge h
  | fbProbeEdge => exact .fbProbeEdge h
  | serialFrameStart => exact .serialFrameStart h
  | serialFrameVisible => exact .serialFrameVisible h
  | fbStandstill => exact .fbStandstill h
  | fbCompareArmApply => exact .fbCompareArmApply h
  | fbCompareDisarmApply => exact .fbCompareDisarmApply h
  | hoopTooth => exact .hoopTooth h
  | hoopIndexEdge => exact .hoopIndexEdge h
  | hoopMissingTooth => exact .hoopMissingTooth h
  | hoopStall => exact .hoopStall h
  | hoopCoastExpiry => exact .hoopCoastExpiry h
  | hevtApply => exact .hevtApply h
  | hcanApply => exact .hcanApply h
  | hoopEventStart => exact .hoopEventStart h
  | hoopEventEnd => exact .hoopEventEnd h
  | netLinkChange => exact .netLinkChange h
  | axisFrameRx => exact .axisFrameRx h
  | ptpSyncRx => exact .ptpRx (fun _ _ h1 => .ite (.ite (.modPtp (.modPtp h1)) (.syncDone (.modPtp h1))) h1) h
  | ptpFollowUpRx => exact canonNext_execPtpFollowUpRx h
  | ptpDelayReqRx | ptpPdelayReqRx => exact .ptpRx (fun _ _ h1 => .ite (.ptpSend h1) h1) h
  | ptpDelayRespRx => exact canonNext_execPtpDelayRespRx h
  | ptpPdelayRespRx => exact canonNext_execPtpPdelayRespRx h
  | ptpPdelayRespFollowUpRx => exact canonNext_execPtpPdelayRespFollowUpRx h
  | ptpAnnounceRx => exact .ptpRx (fun _ _ h1 => .bmca (.modPtp h1)) h
  | ptpSignalingRx => exact .ptpRx (fun _ _ h1 => .ite (.modPtp h1) h1) h
  | ptpTxInterval => exact canonNext_execPtpTxInterval h
  | ptpSyncTimeout => exact canonNext_execPtpSyncTimeout h
  | ptpAnnounceTimeout => exact canonNext_execPtpAnnounceTimeout h
  | gateCycleStart => exact .gateCycleStart h
  | gateEntryEnd => exact .gateEntryEnd h
  | frameTxStart => exact .frameTxStart h
  | frameTxEnd => exact .frameTxEnd h
  | gateDrop => exact .gateDrop h
  | axpSamplePost => exact .axpSamplePost h
  | queuePacketPublish => exact .queuePublish h
  | qrelApply => exact .qrelApply h
  | queueFlushTimeout => exact .queueFlush h
  | queuePointerMismatch => exact .queuePointerMismatch h
  | dmaDescFetchDone => exact .dmaFetchDone h
  | dmaPacingMet => exact .dmaPacingMet h
  | dmaBeatDone => exact .dmaBeatDone h
  | dmaBeatError => exact .dmaBeatError h
  | dmaLengthWordWrite => exact .dmaLengthWord h
  | dmaTailReadDone => exact .dmaTailReadDone h
  | dmaParkReread => exact .dmaParkReread h
  | cqEntryDecode => exact .cqEntryDecode h
  | cqRingReadFail => exact .ite (.wake (.postPriv (.setBit h))) h
  | commandComplete => exact .commandComplete h
  | horizonReport => exact .horizonReport (.fencesOverdue h)
  | horizonReportTimeout | prickingUncorrectable => exact .ite (.fenceCause (.atTime h)) h
  | routerNotify => exact .routerNotify h
  | rtrClaim => exact .ite (.readAt h) h
  | groupHoldoffExpiry => exact .groupExpiry h
  | mailboxPost => exact .mailboxPost h
  | qspiWrite32 => exact .hostWrite h
  | qspiRead32 => exact .readAt h
  | qspiReadTimeout => exact .modPort (.readAt h)
  | linkOnlyReset => exact .linkReset h
  | reg64LoRead | rcFieldRead => exact .readN h
  | reg64HiWrite | registerWrite => exact .hostWriteN h
  | absentDieAccess => exact .ite (.ite (.hostWriteN h) (.readN h)) h
  | dieMemoryWrite => exact .dieMemWrite h
  | dbgUnlockCheckDone => exact .dbgUnlockCheckDone h
  | slewApply => exact .slewApply h
  | logGapClose => exact .ite (.closeGap (.atTime h)) h
  | linkRetransmit => exact .ite (.bump h) h
  | linkOutOfService => exact .ite (.linkLost (.faultRec (.bump (.atTime h)))) h
  | syncLaneLossTimeout => exact .ite (.fenceCause (.setReg (.atTime h))) h
  | clockLoss => exact .ite (.fenceCause (.setReg (.fresh (.bump (.modDie (.atTime h)))))) h
  | shuttleCheckFail | issueWatchdog => exact .ite (.shuttleFault h) h
  | shuttleReplayLoad => exact canonNext_execShuttleReplayLoad h
  | dieFence => exact .dieFence h
  | mgmtFailure => exact .ite (.mgmtFails (.atTime h)) h
  | mgmtWatchdogExpiry => exact .mgmtFails (.atTime h)
  | mgmtTakeoverDone => exact .ite (.mgmtRec (.capUpdate (.update (.atTime h)))) h
  | standbyLost => exact .ite (.mgmtRec (.capUpdate (.update (.fresh (.atTime h))))) h
  | packageFault => exact .ite (.packageFault h) h
  | scrubUncorrectable => exact canonNext_execScrubUncorrectable h
  | channelBankOutOfRange =>
    exact .ite (.ite (.foldl (fun _ _ h1 => .ite (.pinFault h1) h1) (.setReg (.atTime h))) (.setReg (.atTime h))) h
  | supplyOutOfRange => exact .ite (.packageReset (.update h)) h
  | porRelease => exact .ite (.update h) h
  | sysRstNAssert => exact .packageReset h
  | perstAssert => exact .ite (.update (.linkReset h)) (.packageReset (.update h))
  | packageResetEnd => exact .ite (.setBit (.setFld (.setBit (.update h)))) h
  | fuseLoadDone => exact .ite (.ite (.setFld (.update h)) (.packageFault h)) h
  | pllLock | channelBankInRange => exact .ite (.setReg h) h
  | dieCoreEnable => exact .ite (.ite (.startFail h) (.ite (.startFail h) (.initFilters (.modDie (.ite (.update h) (.atTime h)))))) h
  | sramClearStart | shuttleSlotEnable => exact .ite (.modDie h) h
  | sramClearEnd => exact canonNext_execSramClearEnd h
  | mgmtPairEnable => exact .ite (.ite (.setFld (.update h)) (.ite (.update h) h)) h
  | releasePathSelfTest => exact .ite (.ite (.modDie (.setBit h)) (.startFail h)) h
  | dieStartCheck => exact .ite (.ite (.startFail h) (.ite (.startFail h) (.ite (.startFail h) (.setReg (.modDie h))))) h
  | flashImageReadDone => exact canonNext_execFlashImageReadDone h
  | fwVerifyDone => exact .ite (.ite (.setFld (.setReg (.setFld (.update h)))) (.bootFailed h)) h
  | standbyImageCheckDone => exact .ite (.capUpdate (.update (.atTime h))) (.atTime h)
  | readySet => exact .ite (.capWrite (.setBit (.updateDigest (.setFld (.foldl (fun _ _ h1 => .firstSpare h1) (.setBit h)))))) h
  | effectArrival => exact .effectArrival h
  | fbInputEdge => exact .fbInputEdge h
  | clockReturn => exact .clockReturn h
  | perstRelease => exact .setBit (.update h)
  | pcieConfigWrite => exact .dmaResume (.drainHolds (.msixFlush (.update h)))
  | scrubCorrectedWord => exact .ite (.bump (.bump (.update h))) h
  | pcieCorrectableError => exact .bump h

theorem canonNext_step {s : State} (h : s.Canon) : CanonNext (step s) := by
  unfold step
  split
  · exact State.Canon.idle h
  · exact canonNext_exec _ (.update h)

/-- Settles O60: each command keeps the memories canonical, and so does an idle cycle. -/
theorem memoryStaysCanonical : Obligations.MemoryStaysCanonical := by
  unfold Obligations.MemoryStaysCanonical
  intro s t hs ht
  have hnext := canonNext_step hs
  rw [ht] at hnext
  exact hnext

end Sys2Proof.Machine

/-! # The placer commands LOAD, UNLOAD, SET_AFFINITY and SET_SPLIT (R200 to R220) -/

namespace Sys2Proof.Machine

/-- The tasks that are resident, with a task taken off the list. -/
theorem nmGet?_nmDel {α : Type} (m : List (Nat × α)) (k : Nat) : nmGet? (nmDel m k) k = none := by
  induction m with
  | nil => rfl
  | cons e m ih =>
    obtain ⟨a, v⟩ := e
    by_cases h : a = k
    · simpa [nmDel, h] using ih
    · simpa [nmDel, List.filter_cons, h, nmGet?] using ih

namespace State

@[simp] theorem spoilCopies_tasks (s : State) (bad : BitVec 8) : (s.spoilCopies bad).tasks = s.tasks :=
  foldl_keep State.tasks (fun s d => by split <;> simp) _ _

@[simp] theorem fenceCopies_tasks (s : State) (l : List Nat) : (s.fenceCopies l).tasks = s.tasks :=
  foldl_keep State.tasks (fun s d => by simp [State.fenceWire]) _ _

@[simp] theorem updateDigest_tasks (s : State) : s.updateDigest.tasks = s.tasks := by
  simp [State.updateDigest, State.setDigest]

@[simp] theorem rotCheck_tasks (s : State) (d : Nat) : (s.rotCheck d).tasks = s.tasks := by
  unfold State.rotCheck
  split <;> simp [State.rotEnd]

@[simp] theorem rotChecks_tasks (s : State) : s.rotChecks.tasks = s.tasks :=
  foldl_keep State.tasks (fun s d => by simp) _ _

@[simp] theorem freePins_tasks (s : State) (res : List Res) : (s.freePins res).tasks = s.tasks :=
  foldl_keep State.tasks (fun s r => by split <;> simp [State.ownPin]) _ _

@[simp] theorem unbindQueue_tasks (s : State) (q : Nat) : (s.unbindQueue q).tasks = s.tasks := by
  unfold State.unbindQueue
  split
  · rfl
  · dsimp only
    split <;> simp [State.modDma]

/-- A change of crossness makes no task resident. -/
theorem recross_task?_none {s : State} {t : Nat} (h : s.task? t = none) (g : Time) : (s.recross g).task? t = none := by
  unfold State.task? State.recross at *
  dsimp only
  generalize s.tasks = l at h
  induction l with
  | nil => rfl
  | cons e l ih =>
    obtain ⟨u, k⟩ := e
    have hu : u ≠ t := fun hu => by simp [nmGet?, hu] at h
    have hl : nmGet? l t = none := by simpa [nmGet?, hu] using h
    rw [List.map_cons]
    split_ifs <;> simpa [nmGet?, hu] using ih hl

/-- UNLOAD of a task that does not run makes it no longer resident. -/
theorem unloadTask_ok {s : State} {t : Nat} {k : Task} (h : s.task? t = some k) (hk : k.state ≠ .running) (g : Time) :
    (s.unloadTask t g).1 = 0 ∧ (s.unloadTask t g).2.task? t = none := by
  simp only [State.unloadTask, h, hk, if_false, true_and]
  simp only [State.task?, State.updateDigest_tasks, State.rotChecks_tasks]
  refine State.recross_task?_none ?_ g
  rw [State.task?, foldl_keep State.tasks (fun s r => by split <;> simp), State.freePins_tasks]
  exact nmGet?_nmDel _ _

/-- A placer command that the placer can run. -/
theorem placerCmd_runs {s : State} {q op : Nat} {c : CqCmd} (h : s.placerRuns q op = some c) (f : CqCmd → State → Nat × State) :
    s.placerCmd q op f = (f c s).2.setCq q { c with status := some (f c s).1 } := by
  simp [State.placerCmd, h, State.cqEnd]

end State

/-- LOAD, while the host's memory can be read. -/
theorem execLoad_eq {s s1 : State} {q t : Nat} {bad : BitVec 8} {c : CqCmd} {b : List Byte} (hup : s.pcieUp = true)
    (hc : s.placerRuns q 0x10 = some c) (ht : t = (c.param 0).toNat)
    (hs1 : s1 = (s.spoilCopies bad).setBit F.TASK_KEY_LOCK_locked pkg true)
    (hb : b = s1.spaceRead false (joinHalves (c.param 2) (c.param 1)).toNat (c.param 3).toNat) :
    exec (.load ⟨q, bad⟩) s = .next ((s1.loadTask t b (c.param 4).toNat c.accept).2.setCq q
      { c with status := some (s1.loadTask t b (c.param 4).toNat c.accept).1 }) := by
  subst ht hb hs1
  refine congrArg Host.Outcome.next ?_
  rw [if_pos hup, State.placerCmd_runs hc]

theorem State.fenceCopies_nil (s : State) : s.fenceCopies [] = s := rfl

/-- Settles O20: each command by what the placer answers. -/
theorem placerCommands : Obligations.PlacerCommands := by
  refine ⟨?_, fun s q bad c => ⟨?_, ?_, ?_, ?_, ?_, ?_, ?_⟩⟩
  · intro s s1 q t bad c b i l hup hc ht hs1 hb
    rw [execLoad_eq hup hc ht hs1 hb]
    refine ⟨fun p hbad hi hcodes hp => ?_, fun hbad hi => ?_, fun p hbad hi hcodes hp => ?_, fun r hbad hi hp => ?_, fun hbad hi => ?_⟩
    · simp [State.loadTask, hbad, hi, hcodes, hp, State.fenceCopies_nil]
    · simp [State.loadTask, hbad, hi, State.fenceCopies_nil]
    · have hcodes' : (l ++ s1.loadCodes t i).isEmpty = false := by simpa using hcodes
      simp only [State.loadTask, hbad, hi, hp, State.fenceCopies_nil, List.isEmpty_nil, if_true, List.append_nil, hcodes']
      rfl
    · simp [State.loadTask, hbad, hi, hp, State.fenceCopies_nil]
    · simp [State.loadTask, hbad, hi]
  · intro hc k hk hrun hfalls
    have hk' : (s.spoilCopies bad).task? (c.param 0).toNat = some k := by simpa [State.task?] using hk
    obtain ⟨h0, hnone⟩ := State.unloadTask_ok hk' hrun c.accept
    refine ⟨congrArg Host.Outcome.next ?_, hnone⟩
    simp [hc, State.namedTask, hk, hfalls, State.placerCmd_runs hc, h0]
  · intro hc hk
    have hk' : (s.spoilCopies bad).task? (c.param 0).toNat = none := by simpa [State.task?] using hk
    refine congrArg Host.Outcome.next ?_
    simp [hc, State.namedTask, hk, State.placerCmd_runs hc, State.unloadTask, hk']
  · intro hc hw k p hk hheld hadm hdie hp
    have hdie' : k.die ∉ s.admitted (c.param 4).toNat := by simpa using hdie
    refine congrArg Host.Outcome.next ?_
    simp [setAffinity, hc, hw, hk, hadm, hheld, hdie', hp]
  · intro hc hw k hk hheld hdie
    have hmem : k.die ∈ s.admitted (c.param 4).toNat := by simpa using hdie
    refine congrArg Host.Outcome.next ?_
    simp [setAffinity, hc, hw, hk, List.ne_nil_of_mem hmem, hheld, hmem, State.cqEnd]
  · intro hc hw k hk hadm
    refine congrArg Host.Outcome.next ?_
    simp [setAffinity, hc, hw, hk, hadm, State.cqEnd]
  · intro hc ht cg qg hcg hqg h4 h16 hq hsum
    subst hcg hqg
    refine congrArg Host.Outcome.next ?_
    simp [State.placerCmd_runs hc, State.setSplit, ht, h4.not_gt, h16.not_gt, hq.not_gt, hsum.not_gt]
  · intro hc ht
    refine congrArg Host.Outcome.next ?_
    simp [State.placerCmd_runs hc, State.setSplit, ht]

end Sys2Proof.Machine

/-! # The two switches of a pair (R275, R276, R281, R284) -/

namespace Sys2Proof.Machine

/-! ## Switches of a pair -/

section PairSt
variable (x : PairSt) (low : Bool) (w : SwSt)

namespace PairSt

@[simp] theorem sw_setSw_same : (x.setSw low w).sw low = w := by cases low <;> rfl
@[simp] theorem sw_not_setSw : (x.setSw low w).sw (!low) = x.sw (!low) := by cases low <;> rfl
@[simp] theorem sw_setSw_not : (x.setSw (!low) w).sw low = x.sw low := by cases low <;> rfl

/-- Safety, said of one switch and its partner. -/
theorem safe_iff : x.safe = true ↔
    ((x.sw low).on = true → (x.sw (!low)).on = false) ∧ ((x.sw low).due.isSome = true → (x.sw (!low)).on = false) ∧
    ((x.sw (!low)).due.isSome = true → (x.sw low).on = false) ∧ ((x.sw low).due.isSome = true → (x.sw (!low)).due = none) := by
  cases low <;> cases hh : x.hi.on <;> cases hl : x.lo.on <;> cases dh : x.hi.due <;> cases dl : x.lo.due <;>
    simp [PairSt.safe, PairSt.sw, hh, hl, dh, dl]

theorem safe_tripped (b : Bool) : ({ x with tripped := b } : PairSt).safe = x.safe := rfl

end PairSt

end PairSt

/-! ## The switches after an operation on a pair -/

namespace State

@[simp] theorem pushEdge_cars (s : State) (p : Nat) (t : Time) (b : Bool) : (s.pushEdge p t b).cars = s.cars := by
  unfold State.pushEdge
  split
  · dsimp only
    split <;> simp [State.dropWins]
  · simp [State.pushStitch]

@[simp] theorem openWindows_cars (s : State) (c n : Nat) (low on : Bool) (t : Time) :
    (s.openWindows c n low on t).cars = s.cars := by
  unfold State.openWindows
  dsimp only
  split
  · rfl
  · exact foldl_keep State.cars (fun s j => by split <;> simp) _ _

@[simp] theorem pushEdge_car (s : State) (p : Nat) (t : Time) (b : Bool) (c : Nat) : (s.pushEdge p t b).car c = s.car c := by
  simp [State.car]

@[simp] theorem openWindows_car (s : State) (c n : Nat) (low on : Bool) (t : Time) (c' : Nat) :
    (s.openWindows c n low on t).car c' = s.car c' := by
  simp [State.car]

@[simp] theorem pair_of_at (s : State) (t : Time) (c n : Nat) : (s.at t).pair c n = s.pair c n := by simp [State.pair]
@[simp] theorem pair_pushEdge (s : State) (p : Nat) (t : Time) (b : Bool) (c n : Nat) :
    (s.pushEdge p t b).pair c n = s.pair c n := by simp [State.pair]
@[simp] theorem pair_openWindows (s : State) (c n : Nat) (low on : Bool) (t : Time) (c' n' : Nat) :
    (s.openWindows c n low on t).pair c' n' = s.pair c' n' := by simp [State.pair]
@[simp] theorem pair_bump (s : State) (f : Fld) (ix : Ix) (c n : Nat) : (s.bump f ix).pair c n = s.pair c n := by
  simp [State.pair]

/-- Carrier `c` has a pair `n`. -/
def hasPair (s : State) (c n : Nat) : Prop := n < (s.car c).pairs.length

end State

section Pair
variable {s : State} {c n : Nat}

namespace State

@[simp] theorem hasPair_setPair (x : PairSt) : (s.setPair c n x).hasPair c n ↔ s.hasPair c n := by
  simp [State.hasPair, State.setPair, State.modCar]
@[simp] theorem hasPair_modSw (low : Bool) (f : SwSt → SwSt) : (s.modSw c n low f).hasPair c n ↔ s.hasPair c n := by
  simp [State.modSw]
@[simp] theorem hasPair_swUncall (low : Bool) : (s.swUncall c n low).hasPair c n ↔ s.hasPair c n := by simp [State.swUncall]
@[simp] theorem hasPair_at (t : Time) : (s.at t).hasPair c n ↔ s.hasPair c n := by simp [State.hasPair]
@[simp] theorem hasPair_bump (f : Fld) (ix : Ix) : (s.bump f ix).hasPair c n ↔ s.hasPair c n := by simp [State.hasPair]
@[simp] theorem hasPair_openWindows (low on : Bool) (t : Time) (n' : Nat) :
    (s.openWindows c n' low on t).hasPair c n ↔ s.hasPair c n := by simp [State.hasPair]
@[simp] theorem hasPair_pushEdge (p : Nat) (t : Time) (b : Bool) : (s.pushEdge p t b).hasPair c n ↔ s.hasPair c n := by
  simp [State.hasPair]
@[simp] theorem hasPair_swOff (low : Bool) (t : Time) : (s.swOff c n low t).hasPair c n ↔ s.hasPair c n := by
  unfold State.swOff
  split <;> simp

theorem pair_setPair (h : s.hasPair c n) (x : PairSt) : (s.setPair c n x).pair c n = x := by
  unfold State.hasPair at h
  simp [State.pair, State.setPair, State.modCar, h]

theorem pair_modSw (h : s.hasPair c n) (low : Bool) (f : SwSt → SwSt) :
    (s.modSw c n low f).pair c n = (s.pair c n).setSw low (f ((s.pair c n).sw low)) := State.pair_setPair h _

theorem pair_swUncall (h : s.hasPair c n) (low : Bool) :
    (s.swUncall c n low).pair c n = (s.pair c n).setSw low { (s.pair c n).sw low with called := false, due := none } :=
  State.pair_modSw h _ _

/-- A switch that turns on. -/
theorem pair_swOn (h : s.hasPair c n) (low : Bool) (t : Time) : (s.swOn c n low t).pair c n =
    (s.pair c n).setSw low { (s.pair c n).sw low with on := true, onAt := t, due := none, holdTo := none, counted := false } := by
  simp [State.swOn, State.pair_modSw h]

/-- A switch that is off stays as it is, and so does its partner. -/
theorem swOff_off {low : Bool} (t : Time) (h : ((s.pair c n).sw low).on = false) : s.swOff c n low t = s := by
  simp [State.swOff, h]

/-- A switch that is on turns off and waits for nothing; its partner stays on or off. -/
theorem swOff_on (hn : s.hasPair c n) {low : Bool} (t : Time) (h : ((s.pair c n).sw low).on = true) :
    (((s.swOff c n low t).pair c n).sw low).on = false ∧ (((s.swOff c n low t).pair c n).sw low).due = none ∧
    (((s.swOff c n low t).pair c n).sw (!low)).on = ((s.pair c n).sw (!low)).on ∧
    (((s.pair c n).sw (!low)).called = false → (((s.swOff c n low t).pair c n).sw (!low)).due = ((s.pair c n).sw (!low)).due) := by
  have hn' (f) : (s.modSw c n low f).hasPair c n := by simpa
  simp only [State.swOff, h, if_true, State.pair_pushEdge, State.pair_modSw (hn' _), State.pair_modSw hn, PairSt.sw_setSw_not,
    PairSt.sw_setSw_same, PairSt.sw_not_setSw, true_and]
  split <;> simp_all

/-- A pair of the carrier whose two switches are safe. -/
def safePair (s : State) (c n : Nat) : Prop := s.hasPair c n ∧ (s.pair c n).safe = true

theorem safePair_swUncall (h : s.safePair c n) (low : Bool) : (s.swUncall c n low).safePair c n := by
  obtain ⟨hn, hs⟩ := h
  refine ⟨by simpa, ?_⟩
  rw [PairSt.safe_iff _ low] at hs ⊢
  rw [State.pair_swUncall hn]
  simp_all

theorem safePair_swOff (h : s.safePair c n) (low : Bool) (t : Time) : (s.swOff c n low t).safePair c n := by
  obtain ⟨hn, hs⟩ := h
  refine ⟨by simpa, ?_⟩
  cases hon : ((s.pair c n).sw low).on
  · rwa [State.swOff_off t hon]
  · obtain ⟨hoff, hdue, hother, -⟩ := State.swOff_on hn t hon
    rw [PairSt.safe_iff _ low] at hs ⊢
    simp_all

theorem safePair_openWindows (h : s.safePair c n) (low on : Bool) (t : Time) : (s.openWindows c n low on t).safePair c n := by
  simpa [State.safePair] using h

theorem safePair_at (h : s.safePair c n) (t : Time) : (s.at t).safePair c n := by simpa [State.safePair] using h

/-- A change of a switch that leaves it on or off, and waiting only if it waited. -/
theorem safePair_modSw (h : s.safePair c n) (low : Bool) (f : SwSt → SwSt) (hon : ∀ w, (f w).on = w.on)
    (hdue : ∀ w, (f w).due = w.due ∨ (f w).due = none) : (s.modSw c n low f).safePair c n := by
  obtain ⟨hn, hs⟩ := h
  refine ⟨by simpa, ?_⟩
  rw [PairSt.safe_iff _ low] at hs ⊢
  rw [State.pair_modSw hn]
  rcases hdue ((s.pair c n).sw low) with hd | hd <;> simp_all

/-- A change of a pair that leaves its switches alone. -/
theorem safePair_setPair (hn : s.hasPair c n) {x : PairSt} (hx : x.safe = true) : (s.setPair c n x).safePair c n :=
  ⟨by simpa, by rwa [State.pair_setPair hn]⟩

/-- A switch turns on with its partner off and waiting for nothing. -/
theorem safePair_swOn (h : s.safePair c n) {low : Bool} (t : Time) (hd : ((s.pair c n).sw low).due.isSome = true) :
    (s.swOn c n low t).safePair c n := by
  obtain ⟨hn, hs⟩ := h
  refine ⟨by simpa [State.swOn], ?_⟩
  rw [PairSt.safe_iff _ low] at hs ⊢
  rw [State.pair_swOn hn]
  simp_all

theorem safePair_bothOff (h : s.safePair c n) (t : Time) (b : Bool) : (s.bothOff c n t b).safePair c n := by
  unfold State.bothOff
  have h := State.safePair_swUncall (State.safePair_swUncall h false) true
  refine State.safePair_swOff (State.safePair_swOff ?_ _ _) _ _
  split_ifs <;> simpa [State.safePair] using h

theorem safePair_swRelease (h : s.safePair c n) (low : Bool) (t : Time) : (s.swRelease c n low t).safePair c n := by
  have hu := State.safePair_swUncall h low
  unfold State.swRelease
  dsimp only
  split_ifs
  · exact hu
  · exact State.safePair_modSw hu _ _ (fun _ => rfl) (fun _ => Or.inl rfl)
  · exact State.safePair_modSw (by simpa [State.safePair] using hu) _ _ (fun _ => rfl) (fun _ => Or.inl rfl)
  · exact State.safePair_swOff (State.safePair_openWindows hu _ _ _) _ _

/-- A switch that is released waits for nothing. -/
theorem swRelease_due (hn : s.hasPair c n) (low : Bool) (t : Time) :
    (((s.swRelease c n low t).pair c n).sw low).due = none := by
  have hn' : (s.swUncall c n low).hasPair c n := by simpa
  unfold State.swRelease
  dsimp only
  split_ifs with hoff hlate hcount
  · simp [State.pair_swUncall hn]
  · simp [State.pair_modSw hn', State.pair_swUncall hn]
  · rw [State.pair_modSw (by simpa)]
    simp [State.pair_swUncall hn]
  · exact (State.swOff_on (by simpa) t (by simpa using hoff)).2.1

/-- Calling a switch whose partner waits for nothing. -/
theorem safePair_swCall (h : s.safePair c n) {low : Bool} (t : Time) (hd : ((s.pair c n).sw (!low)).due = none) :
    (s.swCall c n low t).safePair c n := by
  obtain ⟨hn, hs⟩ := h
  refine ⟨by simpa [State.swCall], ?_⟩
  rw [PairSt.safe_iff _ low] at hs ⊢
  simp only [State.swCall, State.pair_modSw hn, PairSt.sw_setSw_same, PairSt.sw_not_setSw]
  cases hon : ((s.pair c n).sw low).on <;> cases hother : ((s.pair c n).sw (!low)).on <;> simp_all

theorem safePair_setRef (h : s.safePair c n) (on : Bool) (t : Time) : (s.setRef c n on t).safePair c n := by
  have hset : (s.setPair c n { s.pair c n with ref := on }).safePair c n := State.safePair_setPair h.1 h.2
  unfold State.setRef
  dsimp only
  split_ifs
  · exact h
  · exact State.safePair_swCall (State.safePair_swRelease hset _ _) _ (by simpa using State.swRelease_due hset.1 on t)
  · exact hset

/-- Turning on after the partner turned off (R281). -/
theorem safePair_tripOn (h : s.safePair c n) {low : Bool} (t fin : Time)
    (hon : ((s.pair c n).sw (!low)).on = false) (hd : ((s.pair c n).sw (!low)).due = none) :
    (s.modSw c n low (fun w => if w.on then { w with called := true, calledAt := t, holdTo := none }
                                else { w with called := true, calledAt := t, due := some fin })).safePair c n := by
  obtain ⟨hn, hs⟩ := h
  refine ⟨by simpa, ?_⟩
  rw [PairSt.safe_iff _ low] at hs ⊢
  rw [State.pair_modSw hn]
  cases hw : ((s.pair c n).sw low).on <;> simp_all

/-- A switch that waits for nothing is off after turning off, and still waits for nothing. -/
theorem swOff_result (hn : s.hasPair c n) {low : Bool} (t : Time) (hd : ((s.pair c n).sw low).due = none) :
    (((s.swOff c n low t).pair c n).sw low).on = false ∧ (((s.swOff c n low t).pair c n).sw low).due = none := by
  cases hon : ((s.pair c n).sw low).on
  · rw [State.swOff_off t hon]
    exact ⟨hon, hd⟩
  · obtain ⟨hoff, hdue, -⟩ := State.swOff_on hn t hon
    exact ⟨hoff, hdue⟩

theorem swUncall_both_due (hn : s.hasPair c n) (low : Bool) :
    ((((s.swUncall c n false).swUncall c n true).pair c n).sw low).due = none := by
  have hn' : (s.swUncall c n false).hasPair c n := by simpa
  cases low <;> simp [State.pair_swUncall hn', State.pair_swUncall hn, PairSt.sw, PairSt.setSw]

theorem safePair_pairTrip (h : s.safePair c n) (t : Time) : (s.pairTrip c n t).safePair c n := by
  have hset : (s.setPair c n { s.pair c n with tripped := true }).safePair c n := State.safePair_setPair h.1 h.2
  unfold State.pairTrip
  dsimp only
  split_ifs
  · exact h
  · exact State.safePair_bothOff hset _ _
  · have hu := State.safePair_swUncall (State.safePair_swUncall hset false) true
    obtain ⟨hon, hd⟩ := State.swOff_result hu.1 (low := !(s.fld F.PAIR_CFG_trip_state (pairIx c n) == 2)) t
      (State.swUncall_both_due hset.1 _)
    exact State.safePair_tripOn (State.safePair_swOff hu _ _) _ _ hon hd

theorem safePair_pairUntrip (h : s.safePair c n) (t : Time) : (s.pairUntrip c n t).safePair c n :=
  have hb := State.safePair_bothOff h t false
  State.safePair_setPair hb.1 ((PairSt.safe_tripped _ _).trans hb.2)

/-- A switch that waits to turn on, at the instant it waits for (R276). -/
theorem safePair_pulse (h : s.safePair c n) {low : Bool} (t : Time) (hd : ((s.pair c n).sw low).due.isSome = true) :
    (s.pulse c n low t).safePair c n := by
  have ha := State.safePair_at h t
  have hda : (((s.at t).pair c n).sw low).due.isSome = true := by simpa
  have hw := State.safePair_openWindows ha low true t
  have hon := State.safePair_swOn hw t (by simpa)
  have hdrop := State.safePair_modSw ha low (fun w => { w with due := none }) (fun _ => rfl) (fun _ => Or.inr rfl)
  have hbump (u : State) (f : Fld) (ix : Ix) (hu : u.safePair c n) : (u.bump f ix).safePair c n := by simpa [State.safePair] using hu
  unfold State.pulse
  dsimp only
  split_ifs
  · exact State.safePair_swOn ha t hda
  · exact hdrop
  · exact hon
  · exact State.safePair_modSw (hbump _ _ _ hon) _ _ (fun _ => rfl) (fun _ => Or.inl rfl)
  · exact hbump _ _ _ hdrop

theorem safePair_deadTimeExpiry (h : s.safePair c n) : (deadTimeExpiry s c n).safePair c n := by
  unfold deadTimeExpiry
  dsimp only
  split
  · exact h
  · split
    case h_1 hd => exact State.safePair_pulse h (low := false) _ (by simp [PairSt.sw, hd])
    case h_2 hd => exact State.safePair_pulse h (low := true) _ (by simp [PairSt.sw, hd])
    case h_3 => exact h

theorem safePair_minPulseExpiry (h : s.safePair c n) : (minPulseExpiry s c n).safePair c n := by
  have hoff (low : Bool) (t : Time) : (((s.at t).openWindows c n low false t).swOff c n low t).safePair c n :=
    State.safePair_swOff (State.safePair_openWindows (State.safePair_at h t) low false t) low t
  unfold minPulseExpiry
  dsimp only
  split
  · exact h
  · split
    · exact hoff false _
    · exact hoff true _
    · exact h

end State

end Pair

/-- Settles O28: each operation keeps a pair safe. -/
theorem noShootThrough : Obligations.NoShootThrough := by
  intro s s' c n t b low hn hs hop
  have h : s.safePair c n := ⟨hn, hs⟩
  rcases hop with rfl | rfl | rfl | rfl | rfl | rfl | rfl
  · exact (State.safePair_swRelease h low t).2
  · exact (State.safePair_setRef h b t).2
  · exact (State.safePair_bothOff h t b).2
  · exact (State.safePair_pairTrip h t).2
  · exact (State.safePair_pairUntrip h t).2
  · exact (State.safePair_deadTimeExpiry h).2
  · exact (State.safePair_minPulseExpiry h).2

end Sys2Proof.Machine

/-! # Registers and their fields (R14, R19) -/

namespace Sys2Proof.Machine

/-- Bit `b` of what a plain write leaves. -/
theorem getLsbD_writeMask (r : Reg) (old v : Word) {b : Nat} (hb : b < 32) :
    (writeMask r old v).getLsbD b = (((old.getLsbD b && !r.info.rw.testBit b) || (v.getLsbD b && r.info.rw.testBit b)) &&
      !(v.getLsbD b && r.info.w1c.testBit b) || (v.getLsbD b && r.info.w1s.testBit b)) := by
  simp only [writeMask, BitVec.getLsbD_or, BitVec.getLsbD_and, BitVec.getLsbD_not, BitVec.getLsbD_ofNat, hb, decide_true,
    Bool.true_and]

/-- Settles O48, bit by bit. -/
theorem plainWritesKeepOtherBits : Obligations.PlainWritesKeepOtherBits := by
  intro s r q ix jx v b
  refine ⟨fun h => State.reg_setReg_ne _ _ _ _ _ _ (Ne.symm h), fun hb h => ?_, fun hb hrw hw1c => ?_, rfl, rfl⟩
  · simp only [Nat.testBit_or, Bool.or_eq_false_iff] at h
    obtain ⟨⟨hrw, hw1c⟩, hw1s⟩ := h
    simp [State.plainWrite, getLsbD_writeMask _ _ _ hb, hrw, hw1c, hw1s]
  · simp [State.plainWrite, getLsbD_writeMask _ _ _ hb, hrw, hw1c]
    tauto

/-! ## Fields -/

/-- Bit `b` of a word with a field replaced. -/
theorem getLsbD_putBits (x : Word) (lo w v : Nat) {b : Nat} (hb : b < 32) :
    (putBits x lo w v).getLsbD b = if lo ≤ b ∧ b < lo + w then v.testBit (b - lo) else x.getLsbD b := by
  have hm : ((2 ^ w - 1) * 2 ^ lo).testBit b = decide (lo ≤ b ∧ b < lo + w) := by
    rw [Nat.testBit_mul_two_pow, Nat.testBit_two_pow_sub_one]
    rcases Nat.lt_or_ge b lo with h | h
    · simp [h.not_ge]
    · simp [h, show b - lo < w ↔ b < lo + w by omega]
  simp only [putBits, BitVec.getLsbD_or, BitVec.getLsbD_and, BitVec.getLsbD_not, BitVec.getLsbD_ofNat, hb, hm, decide_true,
    Bool.true_and, Nat.testBit_mul_two_pow]
  by_cases h : lo ≤ b ∧ b < lo + w <;> simp [h]

namespace State

/-- A register other than that of the field. -/
theorem reg_setFld_ne (s : State) {f : Fld} {q : Reg} (ix jx : Ix) (v : Nat) (h : q ≠ f.reg) :
    (s.setFld f ix v).reg q jx = s.reg q jx := State.reg_setReg_ne _ _ _ _ _ _ (by simp [h])

theorem reg_setBit_ne (s : State) {f : Fld} {q : Reg} (ix jx : Ix) (v : Bool) (h : q ≠ f.reg) :
    (s.setBit f ix v).reg q jx = s.reg q jx := State.reg_setFld_ne _ _ _ _ h

theorem reg_bump_ne (s : State) {f : Fld} {q : Reg} (ix jx : Ix) (h : q ≠ f.reg) :
    (s.bump f ix).reg q jx = s.reg q jx := State.reg_setFld_ne _ _ _ _ h

theorem reg_bumpBy_ne (s : State) {f : Fld} {q : Reg} (ix jx : Ix) (n : Nat) (h : q ≠ f.reg) :
    (s.bumpBy f ix n).reg q jx = s.reg q jx := State.reg_setFld_ne _ _ _ _ h

theorem reg_setReg_other (s : State) {r q : Reg} (ix jx : Ix) (v : Word) (h : q ≠ r) :
    (s.setReg r ix v).reg q jx = s.reg q jx := State.reg_setReg_ne _ _ _ _ _ _ (by simp [h])

theorem reg_setReg64_ne (s : State) {r r' q : Reg} (ix jx : Ix) (v : BitVec 64) (h : q ≠ r ∧ q ≠ r') :
    (s.setReg64 r r' ix v).reg q jx = s.reg q jx :=
  (State.reg_setReg_other _ _ _ _ h.2).trans (State.reg_setReg_other _ _ _ _ h.1)

/-- A one-bit field that is set reads back. -/
theorem bit_setBit (s : State) {f : Fld} (ix : Ix) (b : Bool) (hw : f.w = 1) (hlo : f.lo < 32) :
    (s.setBit f ix b).bit f ix = b := by
  simp only [State.bit, State.setBit, State.setFld, State.reg_setReg, bitOf, getLsbD_putBits _ _ _ _ hlo, hw]
  cases b <;> simp [b2n]

/-- The registers of a state with the same register map and fuses. -/
theorem reg_congr {s u : State} (h : u.regs = s.regs) (hf : u.fuses = s.fuses)
    (r : Reg) (ix : Ix) : u.reg r ix = s.reg r ix := by
  simp [State.reg, State.regInit, h, hf]

/-! Counts that saturate. -/

@[simp] theorem bumpBy_fields (s : State) (f : Fld) (ix : Ix) (n : Nat) :
    (s.bumpBy f ix n).tasks = s.tasks ∧ (s.bumpBy f ix n).dieMem = s.dieMem ∧ (s.bumpBy f ix n).ring = s.ring ∧
    (s.bumpBy f ix n).hostMem = s.hostMem ∧ (s.bumpBy f ix n).fbs = s.fbs ∧ (s.bumpBy f ix n).hoops = s.hoops ∧
    (s.bumpBy f ix n).fuses = s.fuses ∧ (s.bumpBy f ix n).pins = s.pins ∧ (s.bumpBy f ix n).variant = s.variant ∧ (s.bumpBy f ix n).dies = s.dies ∧
    (s.bumpBy f ix n).now = s.now ∧ (s.bumpBy f ix n).ques = s.ques := by
  simp [State.bumpBy]

end State

end Sys2Proof.Machine

/-! # Position after a counting event and after an index edge (R301, R326, R328, R329, R333) -/

namespace Sys2Proof.Machine

/-! ## What other units leave of the interfaces -/

namespace State

@[simp] theorem emit_fbs (s : State) (r : Rec) : (s.emit r).fbs = s.fbs := (State.emit_fields s r).2.2.2.2.2.2.2.2.2.2.2.2.1

@[simp] theorem fbRec_fbs (s : State) (n kind : Nat) (stamp : Time) (d p : Int) : (s.fbRec n kind stamp d p).fbs = s.fbs := by
  unfold State.fbRec
  dsimp only
  split <;> simp [State.emitUnit]

@[simp] theorem taskFault_units (s : State) (t code pc info : Nat) (g : Time) (keep : Bool) :
    (s.taskFault t code pc info g keep).fbs = s.fbs ∧ (s.taskFault t code pc info g keep).dieMem = s.dieMem ∧
    (s.taskFault t code pc info g keep).pins = s.pins ∧ (s.taskFault t code pc info g keep).hoops = s.hoops := by
  unfold State.taskFault
  split <;> simp

@[simp] theorem activate_units (s : State) (t : Nat) (a : Act) :
    (s.activate t a).fbs = s.fbs ∧ (s.activate t a).dieMem = s.dieMem ∧ (s.activate t a).pins = s.pins ∧
    (s.activate t a).hoops = s.hoops := by
  unfold State.activate
  repeat' split
  all_goals simp

@[simp] theorem pushStitch_fields (s : State) (p : Nat) (a : Stitch) :
    (s.pushStitch p a).fbs = s.fbs ∧ (s.pushStitch p a).tasks = s.tasks ∧ (s.pushStitch p a).dieMem = s.dieMem ∧
    (s.pushStitch p a).hoops = s.hoops ∧ (s.pushStitch p a).regs = s.regs ∧ (s.pushStitch p a).fuses = s.fuses := by
  simp [State.pushStitch]

@[simp] theorem pushEdge_fields (s : State) (p : Nat) (t : Time) (b : Bool) :
    (s.pushEdge p t b).fbs = s.fbs ∧ (s.pushEdge p t b).tasks = s.tasks ∧ (s.pushEdge p t b).dieMem = s.dieMem ∧
    (s.pushEdge p t b).hoops = s.hoops := by
  unfold State.pushEdge
  split
  · dsimp only
    split <;> simp [State.dropWins]
  · simp

@[simp] theorem hoopVirtual_fields (s : State) (n : Nat) (t tt : Time) (pos : Int) :
    (s.hoopVirtual n t tt pos).fbs = s.fbs ∧ (s.hoopVirtual n t tt pos).tasks = s.tasks ∧
    (s.hoopVirtual n t tt pos).dieMem = s.dieMem :=
  ⟨foldl_keep State.fbs (fun s i => by dsimp only; split <;> simp) _ _,
    foldl_keep State.tasks (fun s i => by dsimp only; split <;> simp) _ _,
    foldl_keep State.dieMem (fun s i => by dsimp only; split <;> simp) _ _⟩

@[simp] theorem cmpRegs_fields (s : State) (n : Nat) :
    (s.cmpRegs n).fbs = s.fbs ∧ (s.cmpRegs n).tasks = s.tasks ∧ (s.cmpRegs n).dieMem = s.dieMem := by
  unfold State.cmpRegs
  dsimp only
  split <;> simp

@[simp] theorem cmpMiss_fields (s : State) (n k : Nat) :
    (s.cmpMiss n k).fbs = s.fbs ∧ (s.cmpMiss n k).tasks = s.tasks ∧ (s.cmpMiss n k).dieMem = s.dieMem := by
  simp [State.cmpMiss]

/-! ## What leaves the course of an interface as it is -/

/-- The position, the events and the index edges of interface `n` are the same in `s` as in `u`, and so is every other interface. -/
def SameCourse (n : Nat) (s u : State) : Prop :=
  (s.fb n).pos = (u.fb n).pos ∧ (s.fb n).evs = (u.fb n).evs ∧ (s.fb n).idx = (u.fb n).idx ∧ ∀ m, m ≠ n → s.fb m = u.fb m

end State

section Course
variable {n : Nat} {s u v : State}

namespace State.SameCourse

theorem refl (n : Nat) (s : State) : s.SameCourse n s := ⟨rfl, rfl, rfl, fun _ _ => rfl⟩

theorem trans (h : s.SameCourse n u) (h' : u.SameCourse n v) : s.SameCourse n v := by
  obtain ⟨hp, he, hi, ho⟩ := h
  obtain ⟨hp', he', hi', ho'⟩ := h'
  exact ⟨hp.trans hp', he.trans he', hi.trans hi', fun m hm => (ho m hm).trans (ho' m hm)⟩

theorem of_fbs (h : s.fbs = u.fbs) : s.SameCourse n u := by
  have hfb (m) : s.fb m = u.fb m := by simp [State.fb, h]
  exact ⟨by rw [hfb], by rw [hfb], by rw [hfb], fun m _ => hfb m⟩

/-- With a change of other units after it. -/
theorem andThen (h : u.SameCourse n v) (hs : s.fbs = u.fbs) : s.SameCourse n v := (of_fbs hs).trans h

/-- A change of the interface that leaves these three. -/
theorem modFb (h : u.SameCourse n v) {f : FbSt → FbSt}
    (hf : ∀ x, (f x).pos = x.pos ∧ (f x).evs = x.evs ∧ (f x).idx = x.idx := by intro x; exact ⟨rfl, rfl, rfl⟩) : (u.modFb n f).SameCourse n v := by
  obtain ⟨hp, he, hi⟩ := hf (u.fb n)
  have hmod : (u.modFb n f).SameCourse n u :=
    ⟨by rw [State.modFb, State.fb_setFb, hp], by rw [State.modFb, State.fb_setFb, he], by rw [State.modFb, State.fb_setFb, hi],
      fun m hm => State.fb_setFb_ne _ _ hm⟩
  exact hmod.trans h

theorem cmpRegs (h : u.SameCourse n v) : (u.cmpRegs n).SameCourse n v := h.andThen (by simp)
theorem cmpMiss (h : u.SameCourse n v) (k : Nat) : (u.cmpMiss n k).SameCourse n v := h.andThen (by simp)
theorem bump (h : u.SameCourse n v) (f : Fld) (ix : Ix) : (u.bump f ix).SameCourse n v := h.andThen (by simp)
theorem pushStitch (h : u.SameCourse n v) (p : Nat) (a : Stitch) : (u.pushStitch p a).SameCourse n v :=
  h.andThen (by simp)

theorem pushEdge (h : u.SameCourse n v) (p : Nat) (t : Time) (b : Bool) : (u.pushEdge p t b).SameCourse n v :=
  h.andThen (by simp)
theorem ite {c : Prop} {dec : Decidable c} (h : s.SameCourse n v) (h' : u.SameCourse n v) :
    (if c then s else u).SameCourse n v := by
  split
  · exact h
  · exact h'

theorem edgeIf {c : Prop} {dec : Decidable c} (h : u.SameCourse n v) (p : Nat) (t : Time) (b : Bool) :
    (if c then u.pushEdge p t b else u).SameCourse n v := .ite (.pushEdge h p t b) h

end State.SameCourse

namespace State

theorem divStep_sameCourse (s : State) (n : Nat) (dir : Int) (t : Time) : (s.divStep n dir t).SameCourse n s :=
  .edgeIf (.edgeIf (.edgeIf (.modFb (.refl n s)) _ _ _) _ _ _) _ _ _

theorem divStep_fields (s : State) (n : Nat) (dir : Int) (t : Time) :
    (s.divStep n dir t).tasks = s.tasks ∧ (s.divStep n dir t).dieMem = s.dieMem := by
  unfold State.divStep
  dsimp only
  constructor <;> split_ifs <;> simp

theorem divide_sameCourse (s : State) (n : Nat) (step : Int) (t : Time) : (s.divide n step t).SameCourse n s := by
  have hmod (a) : (s.modFb n (fun x => { x with divAcc := a })).SameCourse n s := .modFb (.refl n s)
  unfold State.divide
  dsimp only
  split_ifs
  · exact (State.divStep_sameCourse _ _ _ _).trans (hmod _)
  · exact (State.divStep_sameCourse _ _ _ _).trans (hmod _)
  · exact hmod _
  · exact .refl n s

@[simp] theorem divide_fields (s : State) (n : Nat) (step : Int) (t : Time) :
    (s.divide n step t).tasks = s.tasks ∧ (s.divide n step t).dieMem = s.dieMem := by
  unfold State.divide
  dsimp only
  split_ifs <;> simp [State.divStep_fields]

theorem cmpAct_sameCourse (s : State) (n : Nat) (c : FbCmp) (hit : Time) (order : Nat) :
    (s.cmpAct n c hit order).SameCourse n s := by
  unfold State.cmpAct
  split
  · exact .of_fbs (by simp)
  · dsimp only
    split
    · exact .cmpMiss (.refl n s) _
    · exact .pushStitch (.modFb (.refl n s)) _ _

theorem cmpStep_sameCourse (s : State) (n : Nat) (t vis : Time) (p step : Int) : (s.cmpStep n t vis p step).SameCourse n s := by
  have hhit : ((s.modFb n (fun x => { x with hits := x.hits + 1 })).bump F.FB_CMP_COUNT_hits (fbIx n)).SameCourse n s :=
    .bump (.modFb (.refl n s)) _ _
  unfold State.cmpStep
  split
  · exact .refl n s
  · dsimp only
    refine .ite (.cmpMiss (.cmpRegs (.modFb (.refl n s))) _) (.ite (.refl n s) ((State.cmpAct_sameCourse _ _ _ _ _).trans ?_))
    exact .ite (.cmpRegs (.modFb hhit)) (.cmpMiss (.cmpRegs (.modFb hhit)) _)

/-- Without a compare nothing follows. -/
theorem cmpStep_none {s : State} {n : Nat} (h : (s.fb n).cmp = none) (t vis : Time) (p step : Int) :
    s.cmpStep n t vis p step = s := by
  simp [State.cmpStep, h]

@[simp] theorem pushEdge_fb (s : State) (p : Nat) (t : Time) (b : Bool) (m : Nat) : (s.pushEdge p t b).fb m = s.fb m := by
  simp [State.fb]

theorem divStep_cmp (s : State) (n : Nat) (dir : Int) (t : Time) : ((s.divStep n dir t).fb n).cmp = (s.fb n).cmp := by
  unfold State.divStep
  dsimp only
  split_ifs <;> simp [State.modFb]

theorem divide_cmp (s : State) (n : Nat) (step : Int) (t : Time) : ((s.divide n step t).fb n).cmp = (s.fb n).cmp := by
  unfold State.divide
  dsimp only
  split_ifs <;> simp [State.divStep_cmp, State.modFb]

end State

end Course

/-! ## A step of position -/

namespace State

/-- The state in which interface `n` has moved by `step`, with nothing else done. -/
def moved (s : State) (n : Nat) (t vis : Time) (step : Int) (counts : Bool) : State :=
  s.modFb n (fun x => { x with pos := wrap48 ((s.fb n).pos + step),
                               evs := ⟨t, vis, wrap48 ((s.fb n).pos + step), step, counts⟩ :: x.evs })

/-- What the hoops, the registers and the divider do after a counting event that left the position at `q`. -/
def followCount (s : State) (n : Nat) (t vis tt : Time) (q step : Int) : State :=
  let s := s.hoopVirtual n t tt q
  let s := s.setReg64 .FB_LAST_EVENT_LO .FB_LAST_EVENT_HI (fbIx n) t
  let s := s.setBit F.FB_STATUS_dir (fbIx n) (decide (step < 0))
  let s := s.fbSpeedBits n vis
  if s.fbMode n = 1 ∨ s.fbMode n = 2 then s.divide n step t else s

theorem fbStep_eq (s : State) (n : Nat) (t vis : Time) (step : Int) (counts : Bool) :
    s.fbStep n t vis step counts = (if counts then (s.moved n t vis step counts).followCount n t vis
        (if (s.moved n t vis step counts).fbMode n < 4 then t + picots ((s.moved n t vis step counts).fbDelay n) else vis)
        (wrap48 ((s.fb n).pos + step)) step
      else s.moved n t vis step counts).cmpStep n t vis (s.fb n).pos step := rfl

@[simp] theorem fbSpeedBits_fields (s : State) (n : Nat) (t : Time) :
    (s.fbSpeedBits n t).fbs = s.fbs ∧ (s.fbSpeedBits n t).tasks = s.tasks ∧ (s.fbSpeedBits n t).dieMem = s.dieMem := by
  simp [State.fbSpeedBits]

theorem followCount_sameCourse (s : State) (n : Nat) (t vis tt : Time) (q step : Int) :
    (s.followCount n t vis tt q step).SameCourse n s := by
  unfold State.followCount
  exact .ite (.trans (State.divide_sameCourse _ _ _ _) (.of_fbs (by simp))) (.of_fbs (by simp))

theorem followCount_fields (s : State) (n : Nat) (t vis tt : Time) (q step : Int) :
    (s.followCount n t vis tt q step).tasks = s.tasks ∧ (s.followCount n t vis tt q step).dieMem = s.dieMem := by
  unfold State.followCount
  dsimp only
  constructor <;> split <;> simp

theorem followCount_cmp (s : State) (n : Nat) (t vis tt : Time) (q step : Int) :
    ((s.followCount n t vis tt q step).fb n).cmp = (s.fb n).cmp := by
  unfold State.followCount
  dsimp only
  split
  · rw [State.divide_cmp]
    simp [State.fb]
  · simp [State.fb]

/-- What follows a step leaves the course of its interface. -/
theorem fbStep_sameCourse (s : State) (n : Nat) (t vis : Time) (step : Int) (counts : Bool) :
    (s.fbStep n t vis step counts).SameCourse n (s.moved n t vis step counts) := by
  rw [State.fbStep_eq]
  exact (State.cmpStep_sameCourse _ _ _ _ _ _).trans (.ite (State.followCount_sameCourse _ _ _ _ _ _ _) (.refl _ _))

/-- A counting event of an interface without a compare changes no task and no memory. -/
theorem fbStep_tasks {s : State} {n : Nat} (h : (s.fb n).cmp = none) (t vis : Time) (step : Int) :
    (s.fbStep n t vis step true).tasks = s.tasks ∧ (s.fbStep n t vis step true).dieMem = s.dieMem := by
  rw [State.fbStep_eq, if_pos rfl, State.cmpStep_none]
  · simp [State.followCount_fields, State.moved]
  · rw [State.followCount_cmp]
    simpa [State.moved, State.modFb] using h

/-- What a step does with its interface. -/
theorem fbStep_result (s : State) (n : Nat) (t vis : Time) (step : Int) (counts : Bool) :
    ((s.fbStep n t vis step counts).fb n).pos = wrap48 ((s.fb n).pos + step) ∧
    ((s.fbStep n t vis step counts).fb n).evs = ⟨t, vis, wrap48 ((s.fb n).pos + step), step, counts⟩ :: (s.fb n).evs ∧
    ((s.fbStep n t vis step counts).fb n).idx = (s.fb n).idx ∧
    ∀ m, m ≠ n → (s.fbStep n t vis step counts).fb m = s.fb m := by
  obtain ⟨hpos, hevs, hidx, hother⟩ := State.fbStep_sameCourse s n t vis step counts
  rw [hpos, hevs, hidx]
  refine ⟨?_, ?_, ?_, fun m hm => (hother m hm).trans ?_⟩ <;> simp [State.moved, State.modFb]
  exact State.fb_setFb_ne _ _ hm

end State

/-! ## FB_STATUS through a step -/

section Status
variable (s : State) (ix : Ix)

namespace State

@[simp] theorem modFb_status (n : Nat) (f : FbSt → FbSt) : (s.modFb n f).reg .FB_STATUS ix = s.reg .FB_STATUS ix :=
  State.reg_congr rfl rfl _ _

@[simp] theorem pushStitch_status (p : Nat) (a : Stitch) : (s.pushStitch p a).reg .FB_STATUS ix = s.reg .FB_STATUS ix :=
  State.reg_congr rfl rfl _ _

@[simp] theorem cmpMiss_status (n k : Nat) : (s.cmpMiss n k).reg .FB_STATUS ix = s.reg .FB_STATUS ix :=
  State.reg_bumpBy_ne _ _ _ _ (by decide)

@[simp] theorem cmpRegs_status (n : Nat) : (s.cmpRegs n).reg .FB_STATUS ix = s.reg .FB_STATUS ix := by
  unfold State.cmpRegs
  dsimp only
  split
  · rw [State.reg_setReg_other _ _ _ _ (by decide), State.reg_setReg_other _ _ _ _ (by decide),
      State.reg_setReg64_ne _ _ _ _ (by decide)]
  · exact State.reg_setFld_ne _ _ _ _ (by decide)

@[simp] theorem setTask_status (t : Nat) (k : Task) : (s.setTask t k).reg .FB_STATUS ix = s.reg .FB_STATUS ix :=
  State.reg_congr rfl rfl _ _

@[simp] theorem activate_status (t : Nat) (a : Act) : (s.activate t a).reg .FB_STATUS ix = s.reg .FB_STATUS ix := by
  unfold State.activate State.taskFault
  repeat' split
  all_goals simp (disch := decide) [State.reg_bump_ne]

@[simp] theorem cmpAct_status (n : Nat) (c : FbCmp) (hit : Time) (order : Nat) :
    (s.cmpAct n c hit order).reg .FB_STATUS ix = s.reg .FB_STATUS ix := by
  unfold State.cmpAct
  split
  · simp
  · dsimp only
    split <;> simp

@[simp] theorem cmpStep_status (n : Nat) (t vis : Time) (p step : Int) :
    (s.cmpStep n t vis p step).reg .FB_STATUS ix = s.reg .FB_STATUS ix := by
  have hhit (u : State) : (u.bump F.FB_CMP_COUNT_hits (fbIx n)).reg .FB_STATUS ix = u.reg .FB_STATUS ix :=
    State.reg_bump_ne _ _ _ (by decide)
  unfold State.cmpStep
  split
  · rfl
  · dsimp only
    repeat' split
    all_goals simp [hhit]

/-- A correction of the position leaves FB_STATUS. -/
@[simp] theorem fbStep_status (n : Nat) (t vis : Time) (step : Int) :
    (s.fbStep n t vis step false).reg .FB_STATUS ix = s.reg .FB_STATUS ix := by
  simp [State.fbStep]

@[simp] theorem emit_status (r : Rec) : (s.emit r).reg .FB_STATUS ix = s.reg .FB_STATUS ix := by
  unfold State.emit State.numberRec
  split
  · rfl
  · exact (State.reg_congr rfl rfl _ _).trans (State.reg_setReg_other _ _ _ _ (by decide))

@[simp] theorem fbRec_status (n kind : Nat) (stamp : Time) (d p : Int) :
    (s.fbRec n kind stamp d p).reg .FB_STATUS ix = s.reg .FB_STATUS ix := by
  unfold State.fbRec
  dsimp only
  split
  · exact (State.emit_status _ _ _).trans (State.reg_congr rfl rfl _ _)
  · rfl

end State

end Status

/-! ## An index edge (R328, R329) -/

/-- The deviation from the nearest expected value. -/
theorem idxDev_spec (pz v : Int) {cpr : Nat} (h : 0 < cpr) :
    (idxDev pz v cpr - (pz - v)) % cpr = 0 ∧ -(cpr : Int) < 2 * idxDev pz v cpr ∧ 2 * idxDev pz v cpr ≤ cpr := by
  have h0 : 0 ≤ (pz - v) % (cpr : Int) := Int.emod_nonneg _ (by omega)
  have h1 : (pz - v) % (cpr : Int) < cpr := Int.emod_lt_of_pos _ (by omega)
  have hd : (cpr : Int) ∣ (pz - v) % cpr - (pz - v) := by
    rw [Int.emod_def]
    exact ⟨-((pz - v) / cpr), by ring⟩
  unfold idxDev
  dsimp only
  split
  · exact ⟨Int.emod_eq_zero_of_dvd hd, by omega, by omega⟩
  · refine ⟨Int.emod_eq_zero_of_dvd ?_, by omega, by omega⟩
    have := Int.dvd_sub hd (Int.dvd_refl (cpr : Int))
    rwa [sub_right_comm] at this

namespace State

@[simp] theorem fbRec_fb (s : State) (n kind : Nat) (stamp : Time) (d p : Int) (m : Nat) :
    (s.fbRec n kind stamp d p).fb m = s.fb m := by simp [State.fb]

/-- The index edge enters the history. -/
def indexed (s : State) (n : Nat) (t : Time) (pz d : Int) (bad : Bool) : State :=
  (s.modFb n (fun x => { x with idx := ⟨t, pz, d, bad⟩ :: x.idx })).setBit F.FB_STATUS_idx_mismatch (fbIx n) bad

theorem indexed_fb (s : State) (n : Nat) (t : Time) (pz d : Int) (bad : Bool) :
    (s.indexed n t pz d bad).fb n = { s.fb n with idx := ⟨t, pz, d, bad⟩ :: (s.fb n).idx } := by
  simp [State.indexed, State.modFb]

theorem indexed_bit (s : State) (n : Nat) (t : Time) (pz d : Int) (bad : Bool) :
    (s.indexed n t pz d bad).bit F.FB_STATUS_idx_mismatch (fbIx n) = bad := State.bit_setBit _ _ _ rfl (by decide)

/-- A bit of FB_STATUS where the register is the same. -/
theorem bit_status {s u : State} {ix : Ix} (h : u.reg .FB_STATUS ix = s.reg .FB_STATUS ix) (f : Fld) (hf : f.reg = .FB_STATUS) :
    u.bit f ix = s.bit f ix := by
  simp [State.bit, hf, h]

/-- FB_IDX_POS shows where the index edge was. -/
def idxShown (s : State) (n : Nat) (pz : Int) : State :=
  s.setReg64 .FB_IDX_POS_LO .FB_IDX_POS_HI (fbIx n) ((count64 pz).extractLsb' 0 48 |>.zeroExtend 64)

/-- FB_IDX_DEV shows its deviation too. -/
def devShown (s : State) (n : Nat) (pz d : Int) : State :=
  (s.idxShown n pz).setReg .FB_IDX_DEV (fbIx n) (BitVec.ofInt 32 (sat32 d))

@[simp] theorem idxShown_fb (s : State) (n m : Nat) (pz : Int) : (s.idxShown n pz).fb m = s.fb m := by
  simp [State.idxShown, State.fb]

@[simp] theorem devShown_fb (s : State) (n m : Nat) (pz d : Int) : (s.devShown n pz d).fb m = s.fb m := by
  simp [State.devShown]

theorem idxShown_reg (s : State) (n : Nat) (pz : Int) {r : Reg} (hr : r ≠ .FB_IDX_POS_LO ∧ r ≠ .FB_IDX_POS_HI) (ix : Ix) :
    (s.idxShown n pz).reg r ix = s.reg r ix := State.reg_setReg64_ne _ _ _ _ hr

theorem devShown_reg (s : State) (n : Nat) (pz d : Int) {r : Reg} (hr : r ≠ .FB_IDX_POS_LO ∧ r ≠ .FB_IDX_POS_HI)
    (hd : r ≠ .FB_IDX_DEV) (ix : Ix) : (s.devShown n pz d).reg r ix = s.reg r ix :=
  (State.reg_setReg_other _ _ _ _ hd).trans (State.idxShown_reg _ _ _ hr _)

end State

section Index
variable {s : State} {n : Nat} {t : Time} {pz v d : Int}

namespace State

theorem fbIndex_ref (hpz : pz = (s.fb n).posAt t) (hv : v = s.reg48 .FB_IDX_VALUE_LO .FB_IDX_VALUE_HI (fbIx n))
    (href : s.bit F.FB_IDX_CFG_ref (fbIx n) = true) (hidx : (s.fb n).idx = []) : ∃ bad, s.fbIndex n t =
      ((((s.idxShown n pz).indexed n t pz 0 bad).setBit F.FB_STATUS_referenced (fbIx n) true).fbStep n t t (v - pz) false).fbRec
        n 2 t 0 pz := by
  have href' : (s.idxShown n pz).bit F.FB_IDX_CFG_ref (fbIx n) = true := by
    rw [State.bit, State.idxShown_reg _ _ _ (by decide)]
    exact href
  refine ⟨(s.idxShown n pz).bit F.FB_STATUS_idx_mismatch (fbIx n), ?_⟩
  rw [hpz] at href' ⊢
  rw [hv]
  exact if_pos (by simp [hidx]; exact href')

/-- The branch that compares with the expected value. -/
theorem fbIndex_dev (hpz : pz = (s.fb n).posAt t) (hv : v = s.reg48 .FB_IDX_VALUE_LO .FB_IDX_VALUE_HI (fbIx n))
    (hd : d = idxDev pz v (s.fld F.FB_CPR_cpr (fbIx n)))
    (h : s.bit F.FB_IDX_CFG_ref (fbIx n) = false ∨ (s.fb n).idx ≠ []) : s.fbIndex n t =
      if d = 0 then (s.devShown n pz d).indexed n t pz 0 false
      else if s.fld F.FB_IDX_CFG_idx_mode (fbIx n) = 2 ∧ d.natAbs ≤ s.fld F.FB_IDX_CFG_idx_tol (fbIx n) then
        ((((s.devShown n pz d).indexed n t pz d false).bump F.FB_IDX_COUNT_corrected (fbIx n)).fbStep n t t (-d) false).fbRec n 0 t d pz
      else (((s.devShown n pz d).indexed n t pz d true).bump F.FB_IDX_COUNT_mismatched (fbIx n)).fbRec n 1 t d pz := by
  have hfld (f : Fld) (hf : f.reg ≠ .FB_IDX_POS_LO ∧ f.reg ≠ .FB_IDX_POS_HI) : (s.idxShown n pz).fld f (fbIx n) = s.fld f (fbIx n) := by
    rw [State.fld, State.fld, State.idxShown_reg _ _ _ hf]
  have hfld' (f : Fld) (hf : f.reg ≠ .FB_IDX_POS_LO ∧ f.reg ≠ .FB_IDX_POS_HI) (hf' : f.reg ≠ .FB_IDX_DEV) :
      (s.devShown n pz d).fld f (fbIx n) = s.fld f (fbIx n) := by
    rw [State.fld, State.fld, State.devShown_reg _ _ _ _ hf hf']
  have h' : ((s.idxShown n pz).bit F.FB_IDX_CFG_ref (fbIx n) && (s.fb n).idx.isEmpty) = false := by
    rw [State.bit, State.idxShown_reg _ _ _ (by decide)]
    rcases h with h | h
    · rw [State.bit] at h
      rw [h, Bool.false_and]
    · simp [h]
  have hd' : d = idxDev pz v ((s.idxShown n pz).fld F.FB_CPR_cpr (fbIx n)) := by rw [hfld _ (by decide), hd]
  rw [← hfld' F.FB_IDX_CFG_idx_mode (by decide) (by decide), ← hfld' F.FB_IDX_CFG_idx_tol (by decide) (by decide)]
  rw [hpz] at h'
  refine (if_neg (Bool.eq_false_iff.1 h')).trans ?_
  rw [hd', hpz, hv]
  rfl

end State

end Index

/-- Settles O31: a step by `State.fbStep_result`, an index edge by the branch it takes. -/
theorem positionChanges : Obligations.PositionChanges := by
  refine ⟨?_, ?_⟩
  · rintro s t n at' vis step rfl
    obtain ⟨hpos, hevs, hidx, hother⟩ := State.fbStep_result s n at' vis step true
    exact ⟨hpos, hevs, hidx, hother, fun h => State.fbStep_tasks h _ _ _⟩
  · intro s n t pz v d cpr hpz hv hcpr hpos hd
    refine ⟨fun href hidx => ?_, fun h => ?_⟩
    · obtain ⟨bad, heq⟩ := State.fbIndex_ref hpz hv href hidx
      rw [heq]
      obtain ⟨hp, -, hi, -⟩ := State.fbStep_result (((s.idxShown n pz).indexed n t pz 0 bad).setBit F.FB_STATUS_referenced (fbIx n) true)
        n t t (v - pz) false
      refine ⟨?_, ?_, bad, ?_⟩
      · simpa [State.indexed_fb] using hp
      · rw [State.bit_status (State.fbRec_status _ _ _ _ _ _ _) _ rfl, State.bit_status (State.fbStep_status _ _ _ _ _ _) _ rfl]
        exact State.bit_setBit _ _ _ rfl (by decide)
      · simpa [State.indexed_fb, hidx] using hi
    · subst hcpr
      obtain ⟨hmod, hlow, hhigh⟩ := idxDev_spec pz v hpos
      rw [← hd] at hmod hlow hhigh
      rw [State.fbIndex_dev hpz hv hd h]
      refine ⟨hmod, hlow, hhigh, fun h0 hbad => ?_, fun h0 hmode htol => ?_, fun h0 => ?_⟩
      · have hneg : ¬(s.fld F.FB_IDX_CFG_idx_mode (fbIx n) = 2 ∧ d.natAbs ≤ s.fld F.FB_IDX_CFG_idx_tol (fbIx n)) := by omega
        rw [if_neg h0, if_neg hneg]
        refine ⟨by simp [State.indexed_fb], by simp [State.indexed_fb], by simp [State.indexed_fb], ?_⟩
        rw [State.bit_status (State.fbRec_status _ _ _ _ _ _ _) _ rfl, State.bit_status (State.reg_bump_ne _ _ _ (by decide)) _ rfl]
        exact State.indexed_bit _ _ _ _ _ _
      · obtain ⟨hp, -, hi, -⟩ := State.fbStep_result
          (((s.devShown n pz d).indexed n t pz d false).bump F.FB_IDX_COUNT_corrected (fbIx n)) n t t (-d) false
        rw [if_neg h0, if_pos ⟨hmode, htol⟩]
        exact ⟨by simpa [State.indexed_fb, sub_eq_add_neg] using hp, by simpa [State.indexed_fb] using hi⟩
      · rw [if_pos h0]
        exact ⟨by simp [State.indexed_fb], by simp [State.indexed_fb], State.indexed_bit _ _ _ _ _ _⟩

end Sys2Proof.Machine

/-! # Packets in the ring of a queue (R413, R414, R417) -/

namespace Sys2Proof.Machine

/-! ## Words of memory -/

/-- A word apart from one that is written reads as before. -/
theorem memWord_memPutWord_apart (m : List Host.Cell) {a b : Nat} (v : Word) (h : b + 4 ≤ a ∨ a + 4 ≤ b) :
    memWord (memPutWord m a v) b = memWord m b := by
  unfold memWord
  rw [memRead_memPutWord_outside _ _ _ _ (by omega), memRead_memPutWord_outside _ _ _ _ (by omega),
    memRead_memPutWord_outside _ _ _ _ (by omega), memRead_memPutWord_outside _ _ _ _ (by omega)]

/-! ## Words written around a ring of memory -/

/-- Memory with words written to consecutive places of the ring of `cap` words at `base`, from place `pos` on. -/
def memPutRing (base cap : Nat) (m : List Host.Cell) (pos : Nat) : List Word → List Host.Cell
  | [] => m
  | w :: l => memPutRing base cap (memPutWord m (base + 4 * (pos % cap)) w) (pos + 1) l

section Ring
variable {base cap : Nat} (m : List Host.Cell) (pos : Nat) (l : List Word)

/-- Nothing outside the ring changes. -/
theorem memRead_memPutRing_outside (hcap : 0 < cap) {a : Nat} (h : a < base ∨ base + 4 * cap ≤ a) :
    memRead (memPutRing base cap m pos l) a = memRead m a := by
  induction l generalizing m pos with
  | nil => rfl
  | cons w l ih =>
    have hmod := Nat.mod_lt pos hcap
    rw [memPutRing, ih, memRead_memPutWord_outside _ _ _ _ (by omega)]

/-- A word at a place that is not written reads as before. -/
theorem memWord_memPutRing_apart {p : Nat} (h : ∀ i < l.length, (pos + i) % cap ≠ p % cap) :
    memWord (memPutRing base cap m pos l) (base + 4 * (p % cap)) = memWord m (base + 4 * (p % cap)) := by
  induction l generalizing m pos with
  | nil => rfl
  | cons w l ih =>
    have h0 : pos % cap ≠ p % cap := h 0 (by simp)
    rw [memPutRing, ih _ _ fun i hi => ?_, memWord_memPutWord_apart _ _ (by omega)]
    rw [Nat.add_assoc, Nat.add_comm 1 i]
    exact h (i + 1) (by simpa using hi)

/-- Two places less than a ring apart are not the same. -/
theorem add_mod_ne {p i : Nat} (h0 : 0 < i) (h : i < cap) : (p + i) % cap ≠ p % cap := by
  intro he
  have hd : cap ∣ p + i - p := Nat.dvd_of_mod_eq_zero (Nat.sub_mod_eq_zero_of_mod_eq he)
  rw [Nat.add_sub_cancel_left] at hd
  exact absurd (Nat.le_of_dvd h0 hd) (by omega)

/-- The words that are written read back, where they have room. -/
theorem memWord_memPutRing_at (hlen : l.length ≤ cap) {i : Nat} {w : Word} (h : l[i]? = some w) :
    memWord (memPutRing base cap m pos l) (base + 4 * ((pos + i) % cap)) = w := by
  induction l generalizing m pos i with
  | nil => simp at h
  | cons v l ih =>
    rw [List.length_cons] at hlen
    cases i with
    | zero =>
      obtain rfl : v = w := by simpa using h
      rw [memPutRing, Nat.add_zero, memWord_memPutRing_apart _ _ _ fun i hi => ?_]
      · exact memWord_memPutWord _ _ _
      · rw [Nat.add_assoc]
        exact add_mod_ne (by omega) (by omega)
    | succ i =>
      rw [memPutRing, show pos + (i + 1) = pos + 1 + i by omega]
      exact ih _ _ (by omega) (by simpa using h)

end Ring

/-! ## Packets -/

section Packet
variable (s : State) (q pos : Nat) (l : List Word)

namespace State

@[simp] theorem ringWrite_ques : (s.ringWrite q pos l).ques = s.ques := by
  induction l generalizing s pos with
  | nil => rfl
  | cons w l ih => exact ih _ _

@[simp] theorem ringWrite_que (k : Nat) : (s.ringWrite q pos l).que k = s.que k := by simp [State.que]

theorem ringAddr_eq {u : State} {x : QueSt} (h : u.que q = x) (hcap : 0 < x.cap) :
    u.ringAddr q pos = dieAddr (q / 256) x.base + 4 * (pos % x.cap) := by
  subst h
  simp only [State.ringAddr, State.ringOff, dieAddr, Nat.max_eq_left hcap]
  rw [Nat.add_assoc]

theorem ringWrite_dieMem {x : QueSt} (h : s.que q = x) (hcap : 0 < x.cap) :
    (s.ringWrite q pos l).dieMem = memPutRing (dieAddr (q / 256) x.base) x.cap s.dieMem pos l := by
  induction l generalizing s pos with
  | nil => rfl
  | cons w l ih =>
    rw [memPutRing, ← State.ringAddr_eq q pos h hcap]
    exact ih _ _ h

end State

end Packet

namespace State

/-- A packet that fits its queue, in memory and in the queue. -/
theorem putPacket_result {s : State} {q : Nat} {x : QueSt} (hx : s.que q = x) (stamp : Time) (ws : List Word)
    (hcap : 0 < x.cap) :
    (s.putPacket q stamp ws).dieMem =
      memPutRing (dieAddr (q / 256) x.base) x.cap s.dieMem x.wp (BitVec.ofNat 32 ws.length :: ws) ∧
    (s.putPacket q stamp ws).que q =
      QueSt.twin { x with wp := x.wp + ws.length + 1, pkts := x.pkts ++ [⟨x.wp, ws.length, stamp, false⟩] } := by
  subst hx
  refine ⟨?_, ?_⟩
  · rw [← State.ringWrite_dieMem s q _ _ rfl hcap]
    rfl
  · simp [State.putPacket, State.modQue]

theorem ringWord_eq {u : State} {q : Nat} {x : QueSt} (h : u.que q = x) (hcap : 0 < x.cap) (pos : Nat) :
    u.ringWord q pos = memWord u.dieMem (dieAddr (q / 256) x.base + 4 * (pos % x.cap)) := by
  rw [State.ringWord, State.ringAddr_eq q pos h hcap]

/-! ## Publishing and releasing -/

/-- A request changes the request state of its queue, and no memory. -/
theorem request_result (s : State) (q : Nat) (flush : Bool) :
    (s.request q flush).dieMem = s.dieMem ∧ ∃ b, (s.request q flush).que q = { s.que q with req := b } := by
  unfold State.request
  dsimp only
  split_ifs
  · exact ⟨by simp, _, State.que_setQue _ _ _⟩
  · exact ⟨by simp, _, State.que_setQue _ _ _⟩
  · exact ⟨rfl, (s.que q).req, rfl⟩

@[simp] theorem activate_ques (s : State) (t : Nat) (a : Act) : (s.activate t a).ques = s.ques := by
  unfold State.activate State.taskFault
  repeat' split
  all_goals simp

@[simp] theorem activate_que (s : State) (t : Nat) (a : Act) (q : Nat) : (s.activate t a).que q = s.que q := by simp [State.que]

end State

namespace Pkt

/-- A packet with its visible bit set where it is the one published. -/
def shown (p y : Pkt) : Pkt := if y.start = p.start then { y with vis := true } else y

@[simp] theorem shown_fin (p y : Pkt) : (p.shown y).fin = y.fin := by
  unfold Pkt.shown
  split <;> rfl

end Pkt

namespace QueSt

/-- The points and packets of a queue once a packet is visible. -/
def shown (x : QueSt) (p : Pkt) : QueSt := { x with pkts := x.pkts.map p.shown, lastPut := some p.stamp }

/-- The points and packets of a queue released up to `upto` at `t`. -/
def released (x : QueSt) (upto : Nat) (t : Time) : QueSt :=
  let r := max x.rel (min upto x.wp)
  QueSt.twin { x with rel := r, rels := (t, r) :: x.rels, pkts := x.pkts.filter (fun p => r < p.fin) }

end QueSt

namespace State

theorem publish_result (s : State) (q : Nat) (p : Pkt) :
    (s.publish q p).dieMem = s.dieMem ∧ ∃ b, (s.publish q p).que q =
      { (s.que q).shown p with req := b } := by
  obtain ⟨hmem, b, hque⟩ := State.request_result ((s.modQue q (QueSt.shown · p)).bumpMod F.QUE_PKT_COUNT_published (queIx q)) q false
  simp only [State.bumpMod, State.setFld_fields, State.modQue_fields] at hmem
  simp only [State.bumpMod, State.setFld_reads, State.modQue, State.que_setQue] at hque
  unfold State.publish
  dsimp only
  repeat' split
  · exact ⟨(State.activate_units _ _ _).2.1.trans hmem, b, (State.activate_que _ _ _ _).trans hque⟩
  · exact ⟨hmem, b, hque⟩
  · exact ⟨hmem, b, hque⟩
  · exact ⟨hmem, b, hque⟩

theorem releaseTo_result (s : State) (q upto : Nat) (t : Time) :
    (s.releaseTo q upto t).dieMem = s.dieMem ∧ ∃ b, (s.releaseTo q upto t).que q = { (s.que q).released upto t with req := b } := by
  obtain ⟨hmem, b, hque⟩ := State.request_result (s.setQue q ((s.que q).released upto t)) q false
  rw [State.que_setQue] at hque
  exact ⟨hmem.trans (by simp), b, hque⟩

end State

/-- The end of the visible words is no lower than the end of a visible packet. -/
theorem foldl_visEnd_le (l : List Pkt) (a : Nat) :
    a ≤ l.foldl (fun a p => if p.vis then max a p.fin else a) a ∧
    ∀ p ∈ l, p.vis = true → p.fin ≤ l.foldl (fun a p => if p.vis then max a p.fin else a) a := by
  induction l generalizing a with
  | nil => simp
  | cons x l ih =>
    obtain ⟨hle, hin⟩ := ih (if x.vis then max a x.fin else a)
    refine ⟨le_trans (by split <;> simp) hle, fun p hp hv => ?_⟩
    rcases List.mem_cons.1 hp with rfl | hp
    · exact le_trans (by simp [hv]) hle
    · exact hin p hp hv

/-- Settles O41: packets by `memPutRing`, points by what the queue's operations leave. -/
theorem queueContents : Obligations.QueueContents := by
  refine ⟨?_, ?_⟩
  · rintro s t q x stamp ws rfl hfit rfl
    have hcap : 0 < (s.que q).cap := by omega
    obtain ⟨hmem, hque⟩ := State.putPacket_result (s := s) rfl stamp ws hcap
    have hword (pos) := State.ringWord_eq hque hcap pos
    simp only [hmem, QueSt.twin] at hword
    have hat {i w} := memWord_memPutRing_at (base := dieAddr (q / 256) (s.que q).base) s.dieMem (s.que q).wp
      (BitVec.ofNat 32 ws.length :: ws) (by simpa using hfit) (i := i) (w := w)
    refine ⟨?_, fun i w h => ?_, by rw [hque]; rfl, by rw [hque]; rfl, fun a h => ?_⟩
    · exact (hword _).trans (hat (i := 0) rfl)
    · rw [hword, show (s.que q).wp + 1 + i = (s.que q).wp + (i + 1) by omega]
      exact hat (by simpa using h)
    · rw [hmem]
      exact memRead_memPutRing_outside _ _ _ hcap (by simpa [dieAddr, Nat.add_assoc] using h)
  · rintro s q upto t p y rfl hrel
    refine ⟨fun hp => ?_, ?_⟩
    · obtain ⟨hmem, b, hque⟩ := State.publish_result s q p
      rw [hque]
      refine ⟨rfl, ?_, rfl, hmem⟩
      have hfin := (foldl_visEnd_le ((s.que q).pkts.map p.shown) (s.que q).rel).2 (p.shown p) (List.mem_map_of_mem hp)
        (by simp [Pkt.shown])
      rwa [Pkt.shown_fin] at hfin
    · obtain ⟨hmem, b, hque⟩ := State.releaseTo_result s q upto t
      rw [hque]
      refine ⟨le_max_left _ _, by simp [QueSt.released, QueSt.twin, hrel], fun hw hr => by simp [QueSt.released, QueSt.twin, hw, hr],
        fun k hk => ?_, hmem⟩
      simpa [QueSt.released, QueSt.twin] using hk

end Sys2Proof.Machine

/-! # What a DMA channel can reach (R427, R439) -/

namespace Sys2Proof.Machine

/-! ## Several parts of an access -/

@[simp] theorem DmaAcc.and_eq_ok (x y : DmaAcc) : x.and y = .ok ↔ x = .ok ∧ y = .ok := by cases x <;> cases y <;> decide

/-- An access that is permitted is so on each die that it touches. -/
theorem foldl_and_ok {α : Type} (f : α → DmaAcc) (l : List α) (x : DmaAcc) :
    l.foldl (fun r i => r.and (f i)) x = .ok ↔ x = .ok ∧ ∀ i ∈ l, f i = .ok := by
  induction l generalizing x with
  | nil => simp
  | cons a l ih => simp [ih, and_assoc]

/-! ## An access to one die -/

section Die
variable {s : State} {c d o n : Nat} {write : Bool}

namespace State

/-- What an access to a die that is permitted says of the die and its granules. -/
theorem dmaDieAccess_ok (h : s.dmaDieAccess c d o n write = .ok) :
    s.present d = true ∧ (s.die d).live = true ∧ (s.die d).fenced = false ∧ (2 ≤ c % 8 → d = c / 8) ∧
    (2 ≤ c % 8 ∨ write = true → s.rangeHeld d o n = false) := by
  unfold State.dmaDieAccess at h
  split_ifs at h with hpres hpriv hheld hfen hlive
  have hp : dmaPriv c = decide (c % 8 < 2) := rfl
  refine ⟨by simpa using hpres, hlive, by simpa using hfen, fun hc => ?_, fun hc => ?_⟩
  · simp [hp, hc.not_gt] at hpriv
    exact hpriv.1
  · by_cases h2 : c % 8 < 2
    · simp [hp, h2, hc.resolve_left h2.not_ge] at hheld
      exact hheld
    · simp [hp, h2] at hpriv
      exact hpriv.2

/-- A byte of a range that no task holds lies in a granule that none holds. -/
theorem granuleHeld_of_rangeHeld (h : s.rangeHeld d o n = false) {x : Nat} (hx : o ≤ x ∧ x < o + n) :
    s.granuleHeld d (x / 65536) = false := by
  have hlow : o / 65536 ≤ x / 65536 := Nat.div_le_div_right hx.1
  have hhigh : x / 65536 ≤ (o + n - 1) / 65536 := Nat.div_le_div_right (by omega)
  have hin := (List.any_eq_false.1 h) (x / 65536 - o / 65536) (List.mem_range.2 (by omega))
  simpa [Nat.add_sub_of_le hlow] using hin

end State

end Die

/-- Settles O43: of a permitted access, each die it touches permits its part. -/
theorem dmaReach : Obligations.DmaReach := by
  intro s c space a n write h
  refine ⟨?_, ?_⟩
  · rintro rfl hc
    have hp : dmaPriv c = false := decide_eq_false hc.not_gt
    simp only [State.dmaAccess, hp, if_true] at h
    split_ifs at h with hwin
    simpa using hwin
  · rintro rfl b hab hb
    simp only [State.dmaAccess, one_ne_zero, if_false, if_true, foldl_and_ok, true_and] at h
    have hlow : a / 0x400000 ≤ b / 0x400000 := Nat.div_le_div_right hab
    have hhigh : b / 0x400000 ≤ (a + n - 1) / 0x400000 := Nat.div_le_div_right (by omega)
    have hdie := h (b / 0x400000 - a / 0x400000) (List.mem_range.2 (by omega))
    rw [Nat.add_sub_of_le hlow] at hdie
    obtain ⟨hpres, hlive, hfen, hown, hheld⟩ := State.dmaDieAccess_ok hdie
    refine ⟨hpres, hlive, hfen, hown, fun hw => State.granuleHeld_of_rangeHeld (hheld hw) ?_⟩
    omega

end Sys2Proof.Machine

/-! # What a write of a register comes to (R14, R25) -/

namespace Sys2Proof.Machine

namespace State

/-- A register of the package block, of 32 bits. -/
theorem writeKey_pkg (s : State) (p : Port) {r : Reg} (ix : Ix) (v : Word)
    (hr : r.info.win = false ∧ r.info.half ≠ 1 ∧ r.info.half ≠ 2) : s.writeKey p (r, ix) v = s.writePkg p r ix v := by
  obtain ⟨hwin, h1, h2⟩ := hr
  simp [State.writeKey, State.lockBit, hwin, h1, h2]

/-- A register of a die window, of 32 bits, that no running task locks. -/
theorem writeKey_die {s : State} (p : Port) {r : Reg} {ix : Ix} (v : Word) (hlock : s.lockBit (r, ix) = none)
    (hr : r.info.win = true ∧ r.info.half ≠ 1 ∧ r.info.half ≠ 2) : s.writeKey p (r, ix) v = s.writeDieReg p r ix v := by
  obtain ⟨hwin, h1, h2⟩ := hr
  simp [State.writeKey, hlock, hwin, h1, h2]

/-- A register that a running task locks. -/
theorem writeKey_locked {s : State} (p : Port) {k : RKey} (v : Word) {f : Fld} {ix : Ix} (hlock : s.lockBit k = some (f, ix)) :
    s.writeKey p k v = s.setBit f ix true := by
  simp [State.writeKey, hlock]

/-- The high half of a 64-bit register: it takes the low half staged for it, or as it stands (R21, R22). -/
theorem writeKey_hi {s : State} (p : Port) {r : Reg} {ix : Ix} (v : Word) (hlock : s.lockBit (r, ix) = none)
    (hr : r.info.half = 2 ∧ r.info.rw ≠ 0) :
    s.writeKey p (r, ix) v = (s.lowHalf p (r.lo, ix)).2.write64 p r.lo ix (s.lowHalf p (r.lo, ix)).1 v := by
  obtain ⟨hhalf, hrw⟩ := hr
  simp only [State.writeKey, hlock, State.writeHi, hhalf, hrw, State.lowHalf]
  cases (s.port p).staged with
  | none => simp
  | some x =>
    by_cases hx : x.1 = regAddr (r.lo, ix) <;> simp [hx]

end State

end Sys2Proof.Machine

/-! # Gates, and what an idle link sends (R384 to R387) -/

namespace Sys2Proof.Machine

/-! ## Ports of the network in a state whose ground time moved on -/

namespace State

@[simp] theorem at_net (s : State) (t : Time) (p : Nat) : (s.at t).net p = s.net p := by simp [State.net]
@[simp] theorem at_bank (s : State) (t : Time) (p : Nat) : (s.at t).bank p = s.bank p := by simp [State.bank]

@[simp] theorem net_setNet (s : State) (p : Nat) (x : NetSt) : (s.setNet p x).net p = x := by simp [State.net, State.setNet]

end State

/-! ## The first cycle from an instant on (R385, R387) -/

theorem picotsI_natCast (n : Nat) : picotsI (n : Int) = picots n := by simp [picotsI, picots]

/-- How often a cycle is repeated to reach a distance: no less, and not once too often. -/
theorem ceil_mul_spec {d c : Int} (hc : 0 < c) (hd : 0 < d) :
    ∃ k : Nat, -(Int.fdiv (-d) c) = k ∧ d ≤ k * c ∧ (k - 1) * c < d := by
  have hfd : Int.fdiv (-d) c = (-d) / c := Int.fdiv_eq_ediv_of_nonneg _ hc.le
  have hlow : (-d) / c * c ≤ -d := Int.ediv_mul_le _ (by omega)
  have hhigh : -d < ((-d) / c + 1) * c := Int.lt_ediv_add_one_mul_self _ hc
  have hneg : (-d) / c ≤ 0 := Int.ediv_nonpos_of_nonpos_of_neg (by omega) hc
  refine ⟨(-((-d) / c)).toNat, ?_, ?_, ?_⟩
  · rw [hfd, Int.toNat_of_nonneg (by omega)]
  · rw [Int.toNat_of_nonneg (by omega)]
    linarith
  · rw [Int.toNat_of_nonneg (by omega)]
    linarith

theorem State.gateFrom_after {s : State} {p b : Nat} {x base : Time} {c : Nat} (hbase : base = s.gateBase p b)
    (hcyc : c = s.gateCycle p b) (hc : 0 < c) (h : 0 < dist x base) :
    ∃ k : Nat, s.gateFrom p b x = base + picots (k * c) ∧ dist x base ≤ (k : Int) * c ∧ ((k : Int) - 1) * c < dist x base := by
  obtain ⟨k, hk, hle, hlt⟩ := ceil_mul_spec (c := (c : Int)) (by omega) h
  refine ⟨k, ?_, hle, hlt⟩
  rw [State.gateFrom, ← hbase, ← hcyc, if_neg h.not_ge, hk, ← Nat.cast_mul, picotsI_natCast]

/-! ## The frame that an idle link sends (R384, R386) -/

theorem NetSt.head_queue {n : NetSt} {q : Nat} {f : TxFrame} (h : n.head q = some f) : f.queue = q := by
  simpa using List.find?_some h

/-- The head of the highest queue whose gate fits. -/
theorem State.nextTx_spec {s : State} {p : Nat} {f : TxFrame} (h : s.nextTx p = some f) :
    (s.net p).head f.queue = some f ∧ f.queue < 8 ∧ s.gateFits p f.queue f.wireTime = true ∧
    ∀ q k, f.queue < q → q < 8 → (s.net p).head q = some k → s.gateFits p k.queue k.wireTime = false := by
  rw [State.nextTx, List.find?_filterMap] at h
  obtain ⟨q, hq, hf⟩ := Option.bind_eq_some_iff.1 h
  obtain rfl := NetSt.head_queue hf
  obtain ⟨hfit, as, bs, hsplit, hnone⟩ := List.find?_eq_some_iff_append.1 hq
  have hsorted : ((List.range 8).reverse).Pairwise (fun x y => y < x) := by decide
  have hmem (x : Nat) : x ∈ as ++ f.queue :: bs ↔ x < 8 := by rw [← hsplit]; simp
  refine ⟨hf, (hmem _).1 (by simp), by simpa [hf] using hfit, fun q k hlt h8 hk => ?_⟩
  rw [hsplit] at hsorted
  have hin : q ∈ as := by
    rcases List.mem_append.1 ((hmem q).2 h8) with h | h
    · exact h
    · rcases List.mem_cons.1 h with rfl | h
      · omega
      · have := List.rel_of_pairwise_cons (List.pairwise_append.1 hsorted).2.1 h
        omega
  simpa [hk] using hnone q hin

/-! ## A write of NET_GATE_CTRL (R385, R387) -/

theorem State.Opens.gateCtrl {s : State} {port : Port} {p : Nat} (h : s.Opens port (.NET_GATE_CTRL, pkg1 p)) (w : Word) :
    s.hostWriteReg port (.NET_GATE_CTRL, pkg1 p) w = s.wrote (.NET_GATE_CTRL, pkg1 p) (netGateCtrlW s port p w) :=
  h.write_eq (State.writeKey_pkg _ _ _ _ (by decide))

theorem bitOf_or_four (v : Word) : bitOf (v ||| 4) 2 = true := by simp [bitOf]

section Swap
variable {s u : State} {port : Port} {p l0 l1 : Nat} {w : Word}

theorem netGateCtrlW_reject (hl0 : l0 = bitsOf w 8 9) (hl1 : l1 = bitsOf w 17 9)
    (h : l0 = 0 ∨ 256 < l0 ∨ l1 = 0 ∨ 256 < l1 ∨ (l0 ≠ s.gateLen p 0 ∧ s.bankShut p 0 = true) ∨
      (l1 ≠ s.gateLen p 1 ∧ s.bankShut p 1 = true)) :
    netGateCtrlW s port p w = s.setBit F.NET_STATUS_cfg_reject (pkg1 p) true := by
  subst hl0 hl1
  exact if_pos h

/-- A write that is in range, by its own effect. -/
theorem gateCtrl_inRange (hl0 : l0 = bitsOf w 8 9) (hl1 : l1 = bitsOf w 17 9) (h0 : 1 ≤ l0) (h0' : l0 ≤ 256) (h1 : 1 ≤ l1)
    (h1' : l1 ≤ 256) (hs0 : l0 = s.gateLen p 0 ∨ s.bankShut p 0 = false) (hs1 : l1 = s.gateLen p 1 ∨ s.bankShut p 1 = false) :
    ¬(l0 = 0 ∨ 256 < l0 ∨ l1 = 0 ∨ 256 < l1 ∨ (l0 ≠ s.gateLen p 0 ∧ s.bankShut p 0 = true) ∨
      (l1 ≠ s.gateLen p 1 ∧ s.bankShut p 1 = true)) := by
  rintro (h | h | h | h | ⟨h, h'⟩ | ⟨h, h'⟩)
  · omega
  · omega
  · omega
  · omega
  · simp [h, h'] at hs0
  · simp [h, h'] at hs1

/-- With the gate on the swap is armed for a cycle of the other bank after the active bank's. -/
theorem netGateCtrlW_arm (hok : ¬(bitsOf w 8 9 = 0 ∨ 256 < bitsOf w 8 9 ∨ bitsOf w 17 9 = 0 ∨ 256 < bitsOf w 17 9 ∨
      (bitsOf w 8 9 ≠ s.gateLen p 0 ∧ s.bankShut p 0 = true) ∨ (bitsOf w 17 9 ≠ s.gateLen p 1 ∧ s.bankShut p 1 = true)))
    (hu : u = s.plainWrite .NET_GATE_CTRL (pkg1 p) w) (hb : bitOf w 0 = true) (hb2 : bitOf w 2 = true) (hon : s.gateOn p = true)
    (hpend : u.bit F.NET_GATE_CTRL_pending (pkg1 p) = false) {c : Time} (hnext : (s.net p).next = some c) :
    netGateCtrlW s port p w = (u.setBit F.NET_GATE_CTRL_pending (pkg1 p) true).modNet p
      (fun n => { n with swapAt := some (u.gateFrom p (1 - u.bank p) c) }) := by
  have hnet : (s.plainWrite .NET_GATE_CTRL (pkg1 p) w).net p = s.net p := by simp
  rw [hu] at hpend
  unfold netGateCtrlW
  dsimp only
  rw [if_neg hok]
  simp [hb, hb2, hon, hpend, hnet, hnext, hu]

/-- With the gate off the swap takes effect at once. -/
theorem netGateCtrlW_now (hok : ¬(bitsOf w 8 9 = 0 ∨ 256 < bitsOf w 8 9 ∨ bitsOf w 17 9 = 0 ∨ 256 < bitsOf w 17 9 ∨
      (bitsOf w 8 9 ≠ s.gateLen p 0 ∧ s.bankShut p 0 = true) ∨ (bitsOf w 17 9 ≠ s.gateLen p 1 ∧ s.bankShut p 1 = true)))
    (hu : u = s.plainWrite .NET_GATE_CTRL (pkg1 p) w) (hb : bitOf w 0 = false) (hb2 : bitOf w 2 = true) :
    netGateCtrlW s port p w =
      (((u.modNet p (fun n => { n with cycle := none, next := none })).setFld F.NET_GATE_CTRL_active (pkg1 p) (1 - u.bank p)).setBit
        F.NET_GATE_CTRL_pending (pkg1 p) false).modNet p (fun n => { n with swapAt := none }) := by
  unfold netGateCtrlW
  dsimp only
  rw [if_neg hok]
  simp only [hb, hb2, hu, Bool.not_false, Bool.or_true, if_true, Bool.false_and, Bool.false_eq_true, if_false]
  rfl

end Swap

/-- Settles O38: each happening of a port by its own rule. -/
theorem gateAndTransmit : Obligations.GateAndTransmit := by
  refine ⟨?_, ?_, fun s p f h => State.nextTx_spec h⟩
  · intro s u port p q n g v w hn hp
    subst hn
    refine ⟨fun hon hact => ⟨fun c hc hx => ?_, fun c x hc hx hxc => ?_, fun c x fin hc hx hfin hlt => ?_⟩, fun c fin hfin => ?_,
      fun l0 l1 hop hw hl0 hl1 hu => ⟨fun hbad => ?_, fun h0 h0' h1 h1' hs0 hs1 => ⟨fun c hb hon hpend hnext => ?_, fun hb y hy => ?_⟩⟩,
      fun hup => ⟨fun f tx hwire hf htx => ?_, fun hwire hnone => ?_, fun f t hwire => ?_, fun f y hf hon hy => ⟨fun hfit => ?_, fun hfit => ?_⟩⟩⟩
    · refine congrArg Host.Outcome.next ?_
      cases hs : (s.net p).swapAt with
      | none => simp [gateCycleStart, hon, hp, hact, hc, hs]
      | some x => simp [gateCycleStart, hon, hp, hact, hc, hs, hx x hs]
    · refine congrArg Host.Outcome.next ?_
      simp [gateCycleStart, hon, hp, hact, hc, hx, hxc]
    · subst hx hfin
      refine congrArg Host.Outcome.next ?_
      simp [gateEntryEnd, hon, hp, hact, hc, hlt]
    · subst hfin
      rfl
    · refine congrArg Host.Outcome.next ?_
      rw [← hw, hop.gateCtrl, netGateCtrlW_reject hl0 hl1 hbad]
    · subst hl0 hl1
      refine congrArg Host.Outcome.next ?_
      rw [← hw, hop.gateCtrl, netGateCtrlW_arm (gateCtrl_inRange rfl rfl h0 h0' h1 h1' hs0 hs1) hu hb (hw ▸ bitOf_or_four v) hon hpend hnext]
    · subst hl0 hl1 hy
      refine congrArg Host.Outcome.next ?_
      rw [← hw, hop.gateCtrl, netGateCtrlW_now (gateCtrl_inRange rfl rfl h0 h0' h1 h1' hs0 hs1) hu hb (hw ▸ bitOf_or_four v)]
    · refine congrArg Host.Outcome.next ?_
      simp only [frameTxStart, hup, hwire, Option.isNone_none, Bool.and_self, if_true, hf, State.at_fld, State.modNet, State.at_net, htx]
      rfl
    · refine congrArg Host.Outcome.next ?_
      simp [frameTxStart, hup, hwire, hnone]
    · refine congrArg Host.Outcome.next ?_
      simp [frameTxEnd, hwire, hup, State.modNet]
    · subst hy
      refine congrArg Host.Outcome.next ?_
      simp [gateDrop, NetSt.head, hf, hon, hup, hfit]
    · subst hy
      refine congrArg Host.Outcome.next ?_
      simp [gateDrop, NetSt.head, hf, hon, hup, hfit, State.modNet]
  · intro s p b x base c hbase hcyc hc
    refine ⟨fun h => ?_, fun h => State.gateFrom_after hbase hcyc hc h⟩
    rw [State.gateFrom, ← hbase]
    exact if_pos h
end Sys2Proof.Machine

/-! # Axis samples received, read and posted (R85, R397 to R406) -/

namespace Sys2Proof.Machine

/-! ## Reading as of T (R405, R406) -/

section Places
variable {α : Type} {p : α → Bool} {l : List α}

theorem getElem?_zipIdx_swap (l : List α) (j : Nat) :
    (l.zipIdx.map (fun x => (x.2, x.1)))[j]? = l[j]?.map (fun y => (j, y)) := by
  simp [List.getElem?_zipIdx, Function.comp_def]

/-- Of the entries of a list with their places, the first with a property. -/
theorem filter_zipIdx_cons {i : Nat} {x : α} {r : List (Nat × α)}
    (h : (l.zipIdx.map (fun x => (x.2, x.1))).filter (fun x => p x.2) = (i, x) :: r) :
    l[i]? = some x ∧ p x = true ∧ ∀ j y, j < i → l[j]? = some y → p y = false := by
  obtain ⟨l1, l2, hsplit, hnot, hpx, -⟩ := List.filter_eq_cons_iff.1 h
  have hat (j : Nat) := getElem?_zipIdx_swap l j
  rw [hsplit] at hat
  obtain ⟨hi, hx⟩ : l1.length = i ∧ l[l1.length]? = some x := by
    have := hat l1.length
    rw [List.getElem?_append_right le_rfl, Nat.sub_self, List.getElem?_cons_zero] at this
    obtain ⟨y, hy, hyx⟩ := Option.map_eq_some_iff.1 this.symm
    obtain ⟨rfl, rfl⟩ := Prod.mk.inj hyx
    exact ⟨rfl, hy⟩
  refine ⟨hi ▸ hx, hpx, fun j y hj hy => ?_⟩
  have hjy := hat j
  rw [List.getElem?_append_left (hi ▸ hj), hy] at hjy
  simpa using hnot _ (List.mem_of_getElem? hjy)

theorem filter_zipIdx_nil (h : (l.zipIdx.map (fun x => (x.2, x.1))).filter (fun x => p x.2) = []) : ∀ y ∈ l, p y = false := by
  intro y hy
  obtain ⟨j, hj⟩ := List.mem_iff_getElem?.1 hy
  have hmem : (j, y) ∈ l.zipIdx.map (fun x => (x.2, x.1)) := List.mem_of_getElem? ((getElem?_zipIdx_swap l j).trans (by rw [hj]; rfl))
  simpa using List.filter_eq_nil_iff.1 h _ hmem

end Places

section Read
variable {s : State} {e : Nat} {T lim : Time}

namespace State

theorem axsRead_some (hlim : lim = T - picots (s.axsAllow e)) {i : Nat} {x : AxSample} (h : (s.axsRead e T).found = some (i, x)) :
    (s.axs e).hist[i]? = some x ∧ upTo x.t lim = true ∧ (∀ j y, j < i → (s.axs e).hist[j]? = some y → upTo y.t lim = false) ∧
      (s.axsRead e T).late = !before (lim - picots (s.axsPeriod e)) x.t := by
  subst hlim
  unfold State.axsRead at h ⊢
  dsimp only at h ⊢
  split at h
  · simp at h
  · next y r hl =>
    obtain rfl : y = (i, x) := by simpa using h
    obtain ⟨hat, hold, hfirst⟩ := filter_zipIdx_cons (p := fun a : AxSample => upTo a.t (T - picots (s.axsAllow e))) hl
    exact ⟨hat, hold, hfirst, rfl⟩

theorem axsRead_none (hlim : lim = T - picots (s.axsAllow e)) (h : (s.axsRead e T).found = none) :
    (s.axsRead e T).late = true ∧ ∀ y ∈ (s.axs e).hist, upTo y.t lim = false := by
  subst hlim
  unfold State.axsRead at h ⊢
  dsimp only at h ⊢
  split at h
  · next hl => exact ⟨rfl, filter_zipIdx_nil (p := fun a : AxSample => upTo a.t (T - picots (s.axsAllow e))) hl⟩
  · simp at h

/-- The stamps that a late read misses (R406). -/
theorem mem_axsMissed (hlim : lim = T - picots (s.axsAllow e)) (hp : 0 < s.axsPeriod e) (ts y : Time) :
    y ∈ s.axsMissed e ts T ↔ ∃ n, 1 ≤ n ∧ y = ts + picots (n * s.axsPeriod e) ∧ n * s.axsPeriod e ≤ (dist lim ts).toNat := by
  subst hlim
  simp only [State.axsMissed, List.mem_map, List.mem_range]
  constructor
  · rintro ⟨k, hk, rfl⟩
    exact ⟨k + 1, by omega, rfl, (Nat.le_div_iff_mul_le hp).1 hk⟩
  · rintro ⟨n, hn, rfl, hle⟩
    obtain ⟨k, rfl⟩ : ∃ k, n = k + 1 := ⟨n - 1, by omega⟩
    exact ⟨k, (Nat.le_div_iff_mul_le hp).2 hle, rfl⟩

end State

end Read


/-! ## Received samples (R404, R406) -/

section Received
variable {s : State} {e : Nat}

namespace State

@[simp] theorem emit_axss (s : State) (r : Rec) : (s.emit r).axss = s.axss := by
  unfold State.emit State.numberRec
  split <;> simp

@[simp] theorem ringWrite_axss (s : State) (q pos : Nat) (l : List Word) : (s.ringWrite q pos l).axss = s.axss := by
  induction l generalizing s pos with
  | nil => rfl
  | cons w r ih => simp [State.ringWrite, ih]

@[simp] theorem closeGap_axss (s : State) (d : Nat) (g : Time) : (s.closeGap d g).axss = s.axss := by
  unfold State.closeGap
  split <;> simp [State.detRec, State.emitUnit]

@[simp] theorem putPacket_axss (s : State) (q : Nat) (t : Time) (ws : List Word) : (s.putPacket q t ws).axss = s.axss := by
  simp [State.putPacket]

@[simp] theorem log_axss (s : State) (d kind flags unit : Nat) (t : Time) (ws : List Word) :
    (s.log d kind flags unit t ws).axss = s.axss := by
  unfold State.log
  dsimp only
  split_ifs <;> simp

theorem axs_congr {s u : State} (h : s.axss = u.axss) (e : Nat) : s.axs e = u.axs e := by
  rw [State.axs, h, State.axs]

theorem takeSample_eq {v : State} {p : Nat} {f : AxisFrame} {rx conv : Time}
    (hconv : conv = BitVec.ofNat 64 (f.stampNs * 64) - s.plantOffset)
    (hv : v = s.log p 0x06 (b2n (upTo rx (conv + picots (s.axsAllow e) - nsT 1000))) e conv
      [loHalf rx, hiHalf rx, f.seq, loHalf f.pos, hiHalf f.pos, loHalf f.vel, hiHalf f.vel,
        BitVec.ofNat 32 (b2n f.restart + 2 * b2n f.unqualified)]) :
    s.takeSample p e f rx = if upTo rx (conv + picots (s.axsAllow e) - nsT 1000) then
      ((((v.bump F.AXS_COUNT_count_lo (pkg2 e 0)).setAxs e
          { s.axs e with hist := histInsert ⟨conv, f.pos, f.vel⟩ (s.axs e).hist }).setReg64 .AXS_LAST_STAMP_LO .AXS_LAST_STAMP_HI (pkg1 e)
            conv).setBit F.AXS_STATUS_have_sample (pkg1 e) true).hoopSample 3 e conv (conv + picots (s.axsAllow e)) f.pos
      else v.bump F.AXS_COUNT_count_hi (pkg2 e 0) := by
  have hax : (v.bump F.AXS_COUNT_count_lo (pkg2 e 0)).axs e = s.axs e := by
    rw [hv]
    exact State.axs_congr (by simp) e
  rw [← hax, hv, hconv]
  rfl

/-- A missed stamp enters the subscription's list of them once, counted (R406). -/
def axsCounted (s : State) (e : Nat) (y : Time) : State :=
  if (s.axs e).late.contains y then s
  else (s.setAxs e { s.axs e with late := y :: (s.axs e).late }).bump F.AXS_COUNT_count_lo (pkg2 e 1)

@[simp] theorem axsCounted_tasks (s : State) (e : Nat) (y : Time) : (s.axsCounted e y).tasks = s.tasks := by
  unfold State.axsCounted
  split <;> simp

theorem axsLate_eq {t : Nat} {k : Task} (h : s.task? t = some k) (T y : Time) :
    s.axsLate t e T y = if k.lateSeen.contains (e, y) then s.axsCounted e y
      else (((s.axsCounted e y).setTask t { k with lateSeen := (e, y) :: k.lateSeen }).breach 2).detRec k.die (0x0A48 + k.die) 0x22 T
        (leBytes t 2 ++ leBytes e 2 ++ timeBytes y) := by
  have hk : (s.axsCounted e y).task? t = some k := by rw [State.task?, State.axsCounted_tasks]; exact h
  unfold State.axsLate
  dsimp only
  rw [← State.axsCounted, hk]

end State

end Received

/-! ## Posted samples (R398, R400) -/

section Posted
variable {s : State} {e run : Nat} {ts : Time} {pos vel : BitVec 64}

namespace State

@[simp] theorem hoopSample_fields (s : State) (src entry : Nat) (t tt : Time) (pos : BitVec 64) :
    (s.hoopSample src entry t tt pos).regs = s.regs ∧ (s.hoopSample src entry t tt pos).fuses = s.fuses ∧
    (s.hoopSample src entry t tt pos).axps = s.axps :=
  ⟨foldl_keep State.regs (fun s i => by dsimp only; split <;> simp) _ _,
    foldl_keep State.fuses (fun s i => by dsimp only; split <;> simp) _ _,
    foldl_keep State.axps (fun s i => by dsimp only; split <;> simp) _ _⟩

/-- The entry with a posted sample, which reaches the hoops that follow the entry. -/
def sampled (s : State) (e : Nat) (ts : Time) (pos vel : BitVec 64) : State :=
  (s.setAxp e { s.axp e with samples := ⟨ts, pos, vel⟩ :: (s.axp e).samples }).hoopSample 4 e ts ts pos

@[simp] theorem sampled_axp (s : State) (e : Nat) (ts : Time) (pos vel : BitVec 64) :
    (s.sampled e ts pos vel).axp e = { s.axp e with samples := ⟨ts, pos, vel⟩ :: (s.axp e).samples } := by
  simp [State.sampled, State.axp, State.setAxp]

@[simp] theorem sampled_reg (s : State) (e : Nat) (ts : Time) (pos vel : BitVec 64) (r : Reg) (ix : Ix) :
    (s.sampled e ts pos vel).reg r ix = s.reg r ix :=
  State.reg_congr (by simp [State.sampled]) (by simp [State.sampled]) r ix

/-- Sending an accepted sample: its sequence, the entry's last one, and the frame in each port's queue. -/
def sendSample (u : State) (e run : Nat) (ts : Time) (pos vel : BitVec 64) (first : Bool) (seq : Word) (stampNs : Nat) : State :=
  (((u.setReg .AXP_SEQ (pkg1 e) seq).setAxp e { u.axp e with last := some ts, run := run }).postFrame 0 e
    (.axis e seq first stampNs pos vel)).postFrame 1 e (.axis e seq first stampNs pos vel)

/-- The last accepted sample of an entry lies at least a period before `ts`. -/
def periodOver (s : State) (e : Nat) (ts : Time) : Bool :=
  match (s.axp e).last with
  | some t => upTo (t + nsT (s.fld F.AXP_PERIOD_period_ns (pkg1 e))) ts
  | none => true

theorem postSample_eq (hen : s.bit F.AXP_CFG_en (pkg1 e) = true) {first : Bool}
    (hfirst : first = ((s.axp e).last.isNone || (s.axp e).run != run)) :
    s.postSample e run ts pos vel =
      if s.fld F.AXP_CFG_ports (pkg1 e) = 0 then s.sampled e ts pos vel
      else if !(first || s.periodOver e ts) then (s.sampled e ts pos vel).bump F.AXP_COUNT_suppressed (pkg1 e)
      else (s.sampled e ts pos vel).sendSample e run ts pos vel first (if first then 0 else s.reg .AXP_SEQ (pkg1 e) + 1)
        ((ts + s.plantOffset).toNat / 64) := by
  have hoff (u : State) (v : Word) (x : AxpSt) (hu : ∀ r ix, u.reg r ix = s.reg r ix) :
      ((u.setReg .AXP_SEQ (pkg1 e) v).setAxp e x).plantOffset = s.plantOffset := by
    simp [State.plantOffset, State.reg64, State.reg_setReg_other _ _ _ _ (show Reg.PLANT_OFFSET_LO ≠ Reg.AXP_SEQ by decide),
      State.reg_setReg_other _ _ _ _ (show Reg.PLANT_OFFSET_HI ≠ Reg.AXP_SEQ by decide), hu]
  have hfld (f : Fld) (ix : Ix) : (s.sampled e ts pos vel).fld f ix = s.fld f ix := by simp [State.fld]
  have haxp (v : Word) : ((s.sampled e ts pos vel).setReg .AXP_SEQ (pkg1 e) v).axp e = (s.sampled e ts pos vel).axp e := by simp
  subst hfirst
  unfold State.postSample
  simp only [hen, Bool.not_true, Bool.false_eq_true, if_false, State.sendSample]
  rw [← State.sampled]
  simp only [hfld, State.sampled_reg, hoff _ _ _ (State.sampled_reg s e ts pos vel), haxp, State.sampled_axp]
  rfl

/-- The state at the stamp of an effect that is on its way no more. -/
def landed (s : State) (f : Eff) : State := { s with flight := s.flight.erase f }.at f.stamp

@[simp] theorem landed_reg (s : State) (f : Eff) (r : Reg) (ix : Ix) : (s.landed f).reg r ix = s.reg r ix :=
  State.reg_congr (by simp [State.landed]) (by simp [State.landed]) r ix

@[simp] theorem landed_fld (s : State) (f : Eff) (x : Fld) (ix : Ix) : (s.landed f).fld x ix = s.fld x ix := by
  simp [State.fld]

@[simp] theorem landed_axp (s : State) (f : Eff) (e : Nat) : (s.landed f).axp e = s.axp e := by
  simp [State.landed, State.axp]

end State

/-- What a posted sample does as it reaches its entry. -/
theorem axpSamplePost_eq {i : Nat} {f : Eff}
    (hf : (s.flight.filter (fun e => match e.kind with | .sample _ _ _ => true | _ => false))[i]? = some f)
    (hk : f.kind = .sample e pos vel) :
    axpSamplePost s i = (s.landed f).postSample e (f.task * 0x100000000 + f.run + 1) f.stamp
      pos vel := by
  have hf' : (s.flight.filter (fun e => match e.kind with | .sample _ _ _ => true | _ => false))[i]? = some f := hf
  unfold axpSamplePost
  split
  · next hn => exact absurd (hf'.symm.trans hn) (by simp)
  · next g hg =>
    obtain rfl : f = g := Option.some.inj (hf'.symm.trans hg)
    rw [hk]
    rfl

/-! Frames of an accepted sample (R400). -/

theorem State.postFrame_off {p : Nat} {b : TxBody} (h : (s.fld F.AXP_CFG_ports (pkg1 e)).testBit p = false) :
    s.postFrame p e b = s := by
  simp [State.postFrame, h]

section Frame
variable {p len : Nat} {b : TxBody} {tag : Option (Nat × Nat)} (hp : p < 2)
  (hport : (s.fld F.AXP_CFG_ports (pkg1 e)).testBit p = true) (hact : s.dieActs p = true) (hon : s.bit F.NET_CTRL_en (pkg1 p) = true)
  (htag : tag = (if s.bit F.AXP_CFG_tag (pkg1 e) then some (s.fld F.AXP_CFG_pcp (pkg1 e), s.fld F.NET_VLAN_vid (pkg1 p)) else none))
  (hlen : len = (if s.bit F.AXP_CFG_tag (pkg1 e) then 68 else 64))
include hp hport hact hon htag hlen

theorem State.postFrame_on : s.postFrame p e b =
    if (s.net p).frames.any (fun f => f.ofEntry e) then
      (s.setNet p { s.net p with frames := (s.net p).frames.map (fun f => if f.ofEntry e then
        ⟨s.fld F.AXP_CFG_queue (pkg1 e), len, tag, b, s.now⟩ else f) }).bump F.AXP_COUNT_replaced (pkg1 e)
    else s.setNet p { s.net p with frames := (s.net p).frames ++ [⟨s.fld F.AXP_CFG_queue (pkg1 e), len, tag, b, s.now⟩] } := by
  subst htag hlen
  have hl : (64 + if (s.cTag p (s.bit F.AXP_CFG_tag (pkg1 e)) (s.fld F.AXP_CFG_pcp (pkg1 e))).isSome then 4 else 0) =
      if s.bit F.AXP_CFG_tag (pkg1 e) then 68 else 64 := by
    cases h : s.bit F.AXP_CFG_tag (pkg1 e) <;> simp [State.cTag]
  simp only [State.postFrame, hport, decide_eq_true hp, hact, hon, Bool.and_self, if_true, State.queueFrame, State.modNet]
  rw [hl]
  rfl

end Frame

end Posted

/-- Settles O37: taking and reading a sample by what its history holds, posting one by the entry's last accepted one. -/
theorem axisSamples : Obligations.AxisSamples := by
  refine ⟨?_, ?_⟩
  · intro s v p e f rx conv T lim i x inTime hconv hlim hin hv
    have htake := State.takeSample_eq (s := s) (p := p) (e := e) hconv (hin ▸ hv)
    rw [← hin] at htake
    refine ⟨fun h => htake.trans (if_pos h), fun h => htake.trans (if_neg (by simp [h])), State.axsRead_some hlim,
      State.axsRead_none hlim, fun hP y => State.mem_axsMissed hlim hP x.t y, fun t k y u hk hu => ?_⟩
    obtain rfl : u = s.axsCounted e y := hu
    exact ⟨fun h => (State.axsLate_eq hk T y).trans (if_pos h), fun h => (State.axsLate_eq hk T y).trans (if_neg (by rw [h]; decide))⟩
  · intro s u i e en pos vel run stampNs old first hf hk hen hrun hold hu hfirst hns
    obtain rfl : u = (s.landed e).sampled en e.stamp pos vel := by
      rw [hu, hold, ← State.landed_axp s e en]
      rfl
    have hpost := State.postSample_eq (s := s.landed e) (e := en) (run := run) (ts := e.stamp) (pos := pos) (vel := vel)
      (by simpa [State.bit] using hen) (first := first) (by rw [hfirst, hold, State.landed_axp])
    have hoff : (s.landed e).plantOffset = s.plantOffset := by simp [State.plantOffset, State.reg64]
    simp only [State.landed_fld, State.landed_reg, hoff, ← hns] at hpost
    have hexec : exec (.axpSamplePost i) s = .next (axpSamplePost s i) := rfl
    rw [hexec, axpSamplePost_eq hf hk, ← hrun, hpost]
    simp only [Host.Outcome.next.injEq]
    refine ⟨fun h => if_pos h, fun t h h1 ht hearly => ?_, fun h hok seq b hseq hb => ?_, fun p q len b tag w hp hw hq htag hlen => ?_⟩
    · rw [if_neg h, if_pos (by simp [State.periodOver, h1, ← hold, ht, hearly])]
    · have hover : (first || (s.landed e).periodOver en e.stamp) = true := by
        rcases hok with hok | hok
        · simp [hok]
        · cases hl : old.last with
          | none => simp [State.periodOver, ← hold, hl]
          | some t => simp [State.periodOver, ← hold, hl, hok t hl]
      rw [if_neg h, if_neg (by simp [hover]), hb, hseq, State.sendSample, State.sampled_axp, State.landed_axp, ← hold]
    · subst hw hq
      refine ⟨fun h => State.postFrame_off h, fun h hact hon => ?_⟩
      rw [State.postFrame_on hp h hact hon htag hlen]
      refine ⟨fun hno => if_neg ?_, fun hsome => if_pos ?_⟩
      · simpa using hno
      · simpa using hsome

end Sys2Proof.Machine

/-! # Hoops: what the changes of other units leave, and what ends at a hoop that leaves its state (R351, R358, R365, R371, R372) -/

namespace Sys2Proof.Machine

/-! ## The hoops of a state -/

section Hoops
variable (s : State) (h g : Nat)

namespace State

theorem hoop_congr {s u : State} (hs : u.hoops = s.hoops) (g : Nat) : u.hoop g = s.hoop g := by rw [State.hoop, hs, State.hoop]

theorem hoop_setHoop_ne (x : HoopSt) (hg : g ≠ h) : (s.setHoop h x).hoop g = s.hoop g := by
  simp [State.hoop, State.setHoop, nmGet_nmPut_ne _ _ _ _ _ hg]

@[simp] theorem hoop_modHoop (f : HoopSt → HoopSt) : (s.modHoop h f).hoop h = f (s.hoop h) := State.hoop_setHoop ..

@[simp] theorem hoop_setBit (f : Fld) (ix : Ix) (b : Bool) : (s.setBit f ix b).hoop g = s.hoop g := rfl
@[simp] theorem hoop_setFld (f : Fld) (ix : Ix) (n : Nat) : (s.setFld f ix n).hoop g = s.hoop g := rfl
@[simp] theorem hoop_bump (f : Fld) (ix : Ix) : (s.bump f ix).hoop g = s.hoop g := rfl
@[simp] theorem hoop_noSynthetic : (s.noSynthetic h).hoop g = s.hoop g := rfl

end State

end Hoops

/-! ## Registers that records and the log leave -/

section Emit
variable (s : State) {r : Reg} (ix : Ix)

namespace State

theorem emit_reg (x : Rec) (h : r ≠ .DIE_ORIGIN_COUNT) : (s.emit x).reg r ix = s.reg r ix := by
  unfold State.emit State.numberRec
  split
  · rfl
  · exact (State.reg_congr rfl rfl _ _).trans (State.reg_setReg_other _ _ _ _ h)

theorem detRec_reg (d src ty : Nat) (t : Time) (l : List Byte) (h : r ≠ .DIE_ORIGIN_COUNT) :
    (s.detRec d src ty t l).reg r ix = s.reg r ix := (State.emit_reg _ _ _ h).trans (State.reg_congr rfl rfl _ _)

theorem closeGap_reg (d : Nat) (t : Time) (h : r ≠ .DIE_ORIGIN_COUNT) : (s.closeGap d t).reg r ix = s.reg r ix := by
  unfold State.closeGap
  split
  · rfl
  · exact (State.detRec_reg _ _ _ _ _ _ _ h).trans (State.reg_congr rfl rfl _ _)

@[simp] theorem ringWrite_regs (q pos : Nat) (l : List Word) :
    (s.ringWrite q pos l).regs = s.regs ∧ (s.ringWrite q pos l).fuses = s.fuses ∧ (s.ringWrite q pos l).hoops = s.hoops := by
  induction l generalizing s pos with
  | nil => simp [State.ringWrite]
  | cons w r ih => simp [State.ringWrite, ih]

@[simp] theorem putPacket_reg (q : Nat) (t : Time) (ws : List Word) : (s.putPacket q t ws).reg r ix = s.reg r ix :=
  State.reg_congr (by simp [State.putPacket]) (by simp [State.putPacket]) _ _

theorem log_reg (d kind flags unit : Nat) (t : Time) (ws : List Word) (h : r ≠ .DIE_ORIGIN_COUNT ∧ r ≠ .LOG_LOST_COUNT) :
    (s.log d kind flags unit t ws).reg r ix = s.reg r ix := by
  have hlost (v : Word) : (s.setReg .LOG_LOST_COUNT pkg v).reg r ix = s.reg r ix := State.reg_setReg_other _ _ _ _ h.2
  unfold State.log
  dsimp only
  split_ifs <;> simp [State.closeGap_reg _ _ _ _ h.1, hlost]

@[simp] theorem closeGap_hoops (d : Nat) (t : Time) : (s.closeGap d t).hoops = s.hoops := by
  unfold State.closeGap
  split <;> simp [State.detRec, State.emitUnit]

@[simp] theorem log_hoops (d kind flags unit : Nat) (t : Time) (ws : List Word) :
    (s.log d kind flags unit t ws).hoops = s.hoops := by
  unfold State.log
  dsimp only
  split_ifs <;> simp [State.putPacket]

@[simp] theorem log_hoop (d kind flags unit : Nat) (t : Time) (ws : List Word) (g : Nat) :
    (s.log d kind flags unit t ws).hoop g = s.hoop g := State.hoop_congr (by simp) g

end State

end Emit

/-! ## What leaves a hoop at its place -/

/-- Between `s` and `u` hoop `h` keeps its state, its points and its run of bad teeth; every other hoop and die memory are the
same. -/
def State.Stays (h : Nat) (s u : State) : Prop :=
  ((u.hoop h).st = (s.hoop h).st ∧ (u.hoop h).states = (s.hoop h).states ∧ (u.hoop h).pts = (s.hoop h).pts ∧
    (u.hoop h).bad = (s.hoop h).bad) ∧ u.dieMem = s.dieMem ∧ (∀ g, g ≠ h → u.hoop g = s.hoop g)

section Stays
variable {h : Nat} {s u v : State}

namespace State.Stays

theorem of_hoops (hh : u.hoops = s.hoops) (hm : u.dieMem = s.dieMem) : s.Stays h u := by
  have hoop (g) := State.hoop_congr hh g
  exact ⟨by rw [hoop]; exact ⟨rfl, rfl, rfl, rfl⟩, hm, fun g _ => hoop g⟩

theorem refl (h : Nat) (s : State) : s.Stays h s := .of_hoops rfl rfl

theorem trans (hsu : s.Stays h u) (huv : u.Stays h v) : s.Stays h v := by
  obtain ⟨⟨h1, h2, h3, h4⟩, hm, ho⟩ := hsu
  obtain ⟨⟨h1', h2', h3', h4'⟩, hm', ho'⟩ := huv
  exact ⟨⟨h1'.trans h1, h2'.trans h2, h3'.trans h3, h4'.trans h4⟩, hm'.trans hm, fun g hg => (ho' g hg).trans (ho g hg)⟩

end State.Stays

namespace State

/-- A change of the hoop that leaves these four. -/
theorem stays_modHoop {f : HoopSt → HoopSt}
    (hf : ∀ x, (f x).st = x.st ∧ (f x).states = x.states ∧ (f x).pts = x.pts ∧ (f x).bad = x.bad := by
      intro x; exact ⟨rfl, rfl, rfl, rfl⟩) : s.Stays h (s.modHoop h f) := by
  refine ⟨?_, by simp, fun g hg => State.hoop_setHoop_ne _ _ _ _ hg⟩
  rw [State.hoop_modHoop]
  exact hf _

theorem stays_setEv (k : Nat) (e : HoopEv) : s.Stays h (s.setEv h k e) := State.stays_modHoop

theorem stays_foldl {α : Type} {f : State → α → State} (l : List α) (hf : ∀ s x, State.Stays h s (f s x)) :
    s.Stays h (l.foldl f s) := by
  induction l generalizing s with
  | nil => exact .refl h s
  | cons x r ih => exact (hf s x).trans ih

@[simp] theorem dropStitches_fields (s : State) (p k : Nat) :
    (s.dropStitches p k).hoops = s.hoops ∧ (s.dropStitches p k).dieMem = s.dieMem := by
  simp [State.dropStitches]

@[simp] theorem evStitches_fields (s : State) (h k : Nat) :
    (s.evStitches h k).hoops = s.hoops ∧ (s.evStitches h k).dieMem = s.dieMem := by
  unfold State.evStitches
  dsimp only
  repeat' split
  all_goals simp

theorem stays_evStitches (k : Nat) : s.Stays h (s.evStitches h k) := .of_hoops (by simp) (by simp)

theorem stays_dropEv (k : Nat) : s.Stays h (s.dropEv h k) := by
  unfold State.dropEv
  split
  · exact .refl h s
  · next e _ =>
    refine State.Stays.trans (u := match e.desc.pin with | some p => s.dropStitches p k | none => s) ?_ State.stays_modHoop
    split
    · exact .of_hoops (by simp) (by simp)
    · exact .refl h s

theorem stays_endActive (t : Time) : s.Stays h (s.endActive h t) := by
  refine State.stays_foldl _ fun s v => ?_
  dsimp only
  repeat' split
  all_goals first
    | exact .refl h s
    | exact State.stays_setEv _ _
    | exact (State.stays_setEv _ _).trans (State.stays_evStitches _)

theorem stays_hoopRec (kind b : Nat) (w : BitVec 64) (t : Time) : s.Stays h (s.hoopRec h kind b w t) := by
  unfold State.hoopRec
  split
  · exact .of_hoops (by simp [State.hoopRecord, State.emitUnit]) (by simp [State.hoopRecord, State.emitUnit])
  · exact .refl h s

theorem stays_cancelSlots (kind : Nat) (l : List Nat) (t : Time) : s.Stays h (s.cancelSlots h kind l t) := by
  unfold State.cancelSlots
  split
  · exact .refl h s
  · exact ((State.stays_foldl l fun s k => State.stays_dropEv k).trans
      (.of_hoops (by simp) (by simp))).trans (State.stays_hoopRec ..)

/-! ## A hoop enters a state -/

/-- Between `s` and `u` hoop `h` has entered `st` at `e` as `Obligations.HoopTeeth` says. -/
def Entered (h st : Nat) (e : Time) (s u : State) : Prop :=
  (u.hoop h).st = st ∧ (u.hoop h).states = (e, st) :: (s.hoop h).states ∧ (u.hoop h).pts = (s.hoop h).pts ∧
  (u.hoop h).bad = 0 ∧ u.dieMem = s.dieMem ∧ (∀ g, g ≠ h → u.hoop g = s.hoop g)

end State

variable {st : Nat} {e : Time}

theorem State.Stays.entered (hsu : s.Stays h u) (huv : u.Entered h st e v) : s.Entered h st e v := by
  obtain ⟨⟨-, hstates, hpts, -⟩, hm, ho⟩ := hsu
  obtain ⟨h1, h2, h3, h4, h5, h6⟩ := huv
  exact ⟨h1, hstates ▸ h2, hpts ▸ h3, h4, h5.trans hm, fun g hg => (h6 g hg).trans (ho g hg)⟩

theorem State.Entered.then (hsu : s.Entered h st e u) (huv : u.Stays h v) : s.Entered h st e v := by
  obtain ⟨h1, h2, h3, h4, h5, h6⟩ := hsu
  obtain ⟨⟨h1', h2', h3', h4'⟩, hm, ho⟩ := huv
  exact ⟨h1'.trans h1, h2'.trans h2, h3'.trans h3, h4'.trans h4, hm.trans h5, fun g hg => (ho g hg).trans (h6 g hg)⟩

theorem State.entered_hoopEnter : s.Entered h st e (s.hoopEnter h st e) := by
  refine ⟨?_, ?_, ?_, ?_, by simp [State.hoopEnter], fun g hg => State.hoop_setHoop_ne _ _ _ _ hg⟩
  all_goals simp [State.hoopEnter]

/-- A state that is left in order, entered, and kept while the hoop's other marks change. -/
theorem State.Stays.enters {f : HoopSt → HoopSt} (hs : s.Stays h u)
    (hf : ∀ x, (f x).st = x.st ∧ (f x).states = x.states ∧ (f x).pts = x.pts ∧ (f x).bad = x.bad := by
      intro x; exact ⟨rfl, rfl, rfl, rfl⟩) : s.Entered h st e ((u.hoopEnter h st e).modHoop h f) :=
  (hs.entered State.entered_hoopEnter).then (State.stays_modHoop hf)

namespace State.Entered

theorem bump (hsu : s.Entered h st e u) (f : Fld) (ix : Ix) : s.Entered h st e (u.bump f ix) :=
  hsu.then (.of_hoops (by simp) (by simp))

theorem setFld (hsu : s.Entered h st e u) (f : Fld) (ix : Ix) (n : Nat) : s.Entered h st e (u.setFld f ix n) :=
  hsu.then (.of_hoops (by simp) (by simp))

end State.Entered

namespace State

theorem entered_hoopLoss (c : Nat) : s.Entered h 5 e (s.hoopLoss h c e) :=
  Entered.then (Entered.then (Entered.setFld (Entered.bump (Stays.enters (stays_endActive e)) _ _) _ _ _) (stays_hoopRec ..))
    (stays_cancelSlots ..)

theorem entered_hoopReverse (i : HoopIn) : s.Entered h 4 i.tt (s.hoopReverse h i) :=
  Entered.then (Entered.then (Stays.enters (Stays.trans (u := s.modHoop h (fun x => { x with lastReal := i.stamp })) stays_modHoop
    (stays_endActive i.tt))) (stays_hoopRec ..)) (stays_cancelSlots ..)

theorem stays_withdraw (k : Nat) : s.Stays h (match s.hoopEv h k with
    | some v => (s.setEv h k { v with start := none, stop := none }).evStitches h k
    | none => s) := by
  split
  · exact (State.stays_setEv _ _).trans (State.stays_evStitches _)
  · exact .refl h s

theorem entered_hoopStalls : s.Entered h 3 e (s.hoopStalls h e) :=
  Entered.then (Entered.bump (Stays.enters (Stays.trans (stays_endActive e) (stays_foldl _ fun s k => stays_withdraw (s := s) k)))
    _ _) (stays_hoopRec ..)

theorem entered_hoopFallback : s.Entered h 7 e (s.hoopFallback h e) := by
  refine Entered.then (Entered.then (Entered.then (Stays.enters (stays_endActive e)) (stays_hoopRec ..)) (stays_cancelSlots ..))
    (stays_foldl _ fun s p => ?_)
  repeat' split
  all_goals exact .of_hoops rfl rfl

end State

end Stays

end Sys2Proof.Machine

/-! # Teeth and samples at a hoop (R349 to R358, R363, R371, R372) -/

namespace Sys2Proof.Machine

section Tooth
variable {s u v : State} {h : Nat} {x : HoopSt} {i : HoopIn} {rest : List HoopIn}

/-! ## The next happening of a hoop -/

namespace State

/-- The hoop with its first tooth or sample taken out, at the instant of acceptance. -/
def accepted (s : State) (h : Nat) (i : HoopIn) (rest : List HoopIn) : State :=
  (s.at i.tt).modHoop h (fun x => { x with inbox := rest })

/-- A tooth is logged, and its direction shown. -/
def toothSeen (s : State) (h : Nat) (i : HoopIn) : State :=
  (s.log (h / 4) 0x04 0 h i.stamp [BitVec.ofNat 32 i.width]).setBit F.HOOP_STATUS_dir (hoopIx h) i.back

end State

theorem hoopTooth_waits (hacts : s.hoopActs h = true) (hin : (s.hoop h).inbox = i :: rest) (hw : s.hoopWaits h 1 i.tt = true) :
    hoopTooth s h = s := by
  simp [hoopTooth, hacts, hin, hw]

theorem hoopTooth_sample (hacts : s.hoopActs h = true) (hin : (s.hoop h).inbox = i :: rest) (hw : s.hoopWaits h 1 i.tt = false)
    {a : Int} (hp : i.pos = some a) : hoopTooth s h = (s.accepted h i rest).samplePoint h a i := by
  simp [hoopTooth, hacts, hin, hw, hp, State.accepted]

theorem hoopTooth_tooth (hacts : s.hoopActs h = true) (hin : (s.hoop h).inbox = i :: rest) (hw : s.hoopWaits h 1 i.tt = false)
    (hp : i.pos = none) (hu : u = (s.accepted h i rest).toothSeen h i) (hv : v = u.noSynthetic h) :
    ((u.hoop h).st = 2 → hoopTooth s h = u.syncTooth h i) ∧
    ((u.hoop h).st = 1 ∨ (u.hoop h).st = 5 → hoopTooth s h = v.searchTooth h i) ∧
    ((u.hoop h).st = 3 ∨ (u.hoop h).st = 4 → hoopTooth s h = v.countTooth h i) := by
  have heq : hoopTooth s h = match (u.hoop h).st with
      | 1 | 5 => v.searchTooth h i
      | 2 => u.syncTooth h i
      | 3 | 4 => v.countTooth h i
      | _ => u := by
    subst hv hu
    simp only [hoopTooth, hacts, Bool.not_true, Bool.false_eq_true, if_false, hin, List.isEmpty_cons, Bool.false_and, hw, hp]
    rfl
  refine ⟨fun hst => by simp [heq, hst], fun hst => ?_, fun hst => ?_⟩
  · rcases hst with hst | hst <;> simp [heq, hst]
  · rcases hst with hst | hst <;> simp [heq, hst]

end Tooth

/-! ## The slot of a tooth (R350, R372) -/

section Slot
variable {u v w : State} {h k k' : Nat} {rev rev' : Int} {x : HoopSt} {i : HoopIn}

namespace State

/-- The slot and revolution of the tooth after that in slot `k`. -/
theorem nextSlot_eq (hk : (k + 1 < v.hoopReal h ∧ k' = k + 1 ∧ rev' = rev) ∨ (v.hoopReal h ≤ k + 1 ∧ k' = 0 ∧ rev' = rev + 1)) :
    v.nextSlot h k rev = (k', rev') := by
  rcases hk with ⟨hlt, rfl, rfl⟩ | ⟨hle, rfl, rfl⟩
  · exact if_pos hlt
  · exact if_neg hle.not_gt

theorem prevSlot_succ (j : Nat) : w.prevSlot h (j + 1) rev = (j, rev) := rfl

theorem prevSlot_zero : w.prevSlot h 0 rev = (w.hoopReal h - 1, rev - 1) := rfl

@[simp] theorem placeTooth_fwd (s : State) (h k : Nat) (rev : Int) (i : HoopIn) :
    ((s.placeTooth h k rev i).hoop h).fwd = (s.hoop h).fwd := by
  simp [State.placeTooth, State.addPoint]

/-! ## In SYNC (R353, R357, R358, R372) -/

theorem syncTooth_good (hx : u.hoop h = x) (hv : v = u.noSynthetic h) {p : HoopPt} {pts : List HoopPt}
    (hslot : x.slot = some k) (hpts : x.pts = p :: pts) (hfwd : i.back = false)
    (hquiet : ∀ pn, u.hoopJudges h = some pn → pn ≤ 2 * dist i.stamp p.t) (hk : v.nextSlot h k x.rev = (k', rev')) :
    u.syncTooth h i = if k' = 0 ∧ v.slot0Ok h i.stamp = false then (v.modHoop h (fun y => { y with lastReal := i.stamp })).hoopLoss h 2 i.tt
      else ((v.modHoop h (fun y => { y with bad := 0 })).placeTooth h k' rev' i).refreshAll h := by
  have hnoise : (match u.hoopJudges h with | some pn => decide (2 * dist i.stamp p.t < pn) | none => false) = false := by
    split
    · next pn hpn => simpa using hquiet pn hpn
    · rfl
  subst hx hv
  unfold State.syncTooth
  simp only [hslot, hpts, hfwd, Bool.false_eq_true, if_false, hk]
  exact if_neg fun hc => Bool.false_ne_true (hnoise.symm.trans hc)

theorem syncTooth_noise (hx : u.hoop h = x) {p : HoopPt} {pts : List HoopPt} (hslot : x.slot = some k) (hpts : x.pts = p :: pts)
    (hfwd : i.back = false) {pn : Int} (hpn : u.hoopJudges h = some pn) (hsoon : 2 * dist i.stamp p.t < pn) :
    u.syncTooth h i = if x.bad = 0 then (u.bump F.HOOP_BAD_COUNT_noise (hoopIx h)).modHoop h (fun y => { y with bad := 1 })
      else (u.bump F.HOOP_BAD_COUNT_noise (hoopIx h)).hoopLoss h 1 i.tt := by
  subst hx
  unfold State.syncTooth
  simp only [hslot, hpts, hfwd, Bool.false_eq_true, if_false, hpn, hsoon, decide_true, if_true]
  rfl

theorem syncTooth_back (hx : u.hoop h = x) (hv : v = u.noSynthetic h) {p : HoopPt} {pts : List HoopPt} (hslot : x.slot = some k)
    (hpts : x.pts = p :: pts) (hback : i.back = true) (hk : (v.hoopReverse h i).prevSlot h k x.rev = (k', rev')) :
    u.syncTooth h i = (v.hoopReverse h i).placeTooth h k' rev' i := by
  subst hx hv
  unfold State.syncTooth
  simp only [hslot, hpts, hback, if_true, hk]

/-! ## In SEARCH and LOST (R352) -/

theorem searchTooth_back (hx : v.hoop h = x) (hback : i.back = true) :
    v.searchTooth h i = v.setHoop h { x with slot := none, found := 0, lastEdges := [], usable := 0, idxSeen := false } := by
  subst hx
  simp only [State.searchTooth, hback, if_true]

/-- The tooth is the reference of R352. -/
def isRef (v : State) (h : Nat) (x : HoopSt) (i : HoopIn) : Bool :=
  if v.bit F.HOOP_CTRL_ref (hoopIx h) then x.idxSeen
  else match x.lastEdges with
    | e1 :: e0 :: _ => v.gapTest h (dist i.stamp e1) (dist e1 e0)
    | _ => false

theorem searchTooth_eq (hx : v.hoop h = x) (hfwd : i.back = false)
    (hw : w = v.setHoop h { x with found := x.found + 1, lastEdges := i.stamp :: x.lastEdges.take 1 }) :
    (v.isRef h x i = true → v.searchTooth h i =
      (w.modHoop h (fun y => { y with usable := 0 })).placeTooth h 0 (if x.slot.isSome then x.rev else x.rev + 1) i) ∧
    (v.isRef h x i = false → x.slot = none → v.searchTooth h i =
      w.modHoop h (fun y => { y with idxSeen := false, lastReal := i.stamp })) ∧
    (v.isRef h x i = false → x.slot = some k → w.nextSlot h k x.rev = (k', rev') → v.searchTooth h i =
      if 3 ≤ x.found + 1 ∧ 1 ≤ k' then (w.placeTooth h k' rev' i).hoopSync h false else w.placeTooth h k' rev' i) := by
  subst hx hw
  unfold State.searchTooth
  simp only [hfwd, Bool.false_eq_true, if_false]
  refine ⟨fun hr => if_pos hr, fun hr hs => (if_neg (c := v.isRef h (v.hoop h) i = true) (by simp [hr])).trans ?_,
    fun hr hs hk => (if_neg (c := v.isRef h (v.hoop h) i = true) (by simp [hr])).trans ?_⟩
  · rw [hs]
  · simp only [hs] at hk ⊢
    simp only [hk]

/-! ## In STALL and REVERSE (R371, R372) -/

theorem countTooth_forward (hx : v.hoop h = x) (hslot : x.slot = some k) (hfwd : i.back = false)
    (hw : w = v.modHoop h (fun y => { y with fwd := x.fwd + 1 })) (hk : v.nextSlot h k x.rev = (k', rev')) :
    v.countTooth h i = if x.fwd = 2 then (w.placeTooth h k' rev' i).hoopSync h (x.st == 3) else w.placeTooth h k' rev' i := by
  subst hx hw
  unfold State.countTooth
  simp only [hslot, hfwd, Bool.false_eq_true, if_false, hk, State.placeTooth_fwd, State.hoop_modHoop, Nat.reduceEqDiff]
  rfl

theorem countTooth_back (hx : v.hoop h = x) (hslot : x.slot = some k) (hback : i.back = true)
    (hw : (x.st = 3 ∧ w = v.hoopReverse h i) ∨ (x.st = 4 ∧ w = v.modHoop h (fun y => { y with fwd := 0 })))
    (hk : w.prevSlot h k x.rev = (k', rev')) : v.countTooth h i = w.placeTooth h k' rev' i := by
  subst hx
  unfold State.countTooth
  rcases hw with ⟨hst, rfl⟩ | ⟨hst, rfl⟩ <;>
    simp [hslot, hback, hst, hk]

end State

end Slot

/-! ## A missing tooth (R356) -/

section Missing
variable {s u : State} {h k k' : Nat} {rev' : Int} {x : HoopSt} {e : Time}

namespace State

/-- Events in progress marked as SYNTHETIC one by one, and then another change of the hoop. -/
theorem modHoop_marked (l : List (Nat × HoopEv)) (f : HoopSt → HoopSt) (e : Time) (s : State) :
    (l.foldl (fun s v => if v.2.active e then s.setEv h v.1 { v.2 with sticky := true } else s) s).modHoop h f =
      s.setHoop h (f { s.hoop h with
        evs := l.foldl (fun m v => if v.2.active e then nmPut m v.1 { v.2 with sticky := true } else m) (s.hoop h).evs }) := by
  induction l generalizing s with
  | nil => rfl
  | cons v r ih =>
    rw [List.foldl_cons, List.foldl_cons, ih]
    split
    · simp [State.setEv, State.modHoop]
    · rfl

theorem bad_marked (l : List (Nat × HoopEv)) (e : Time) (s : State) :
    ((l.foldl (fun s v => if v.2.active e then s.setEv h v.1 { v.2 with sticky := true } else s) s).hoop h).bad = (s.hoop h).bad := by
  obtain ⟨⟨-, -, -, hbad⟩, -, -⟩ := State.stays_foldl (h := h) (s := s) l
    (f := fun s v => if v.2.active e then s.setEv h v.1 { v.2 with sticky := true } else s) fun s v => by
      dsimp only
      split
      · exact State.stays_setEv _ _
      · exact .refl h s
  exact hbad

/-- The detection instant of a missing tooth. -/
theorem missAt_wheel (hx : s.hoop h = x) {p : HoopPt} {pts : List HoopPt} {pn : Int} (hst : x.st = 2) (hsrc : s.hoopSrc h < 2)
    (hpts : x.pts = p :: pts) (hpn : s.hoopJudges h = some pn) (he : e = p.t + picotsI (3 * pn / 2))
    (hin : ∀ i ∈ x.inbox, before i.stamp e = false) : s.missAt h (s.hoopJudges h) = some e := by
  subst hx he
  simpa [State.missAt, hpts, hst, hsrc, hpn] using hin

/-- The state that shows a synthetic tooth, before its point. -/
def missShown (s : State) (h : Nat) (e : Time) : State :=
  ((s.at e).bump F.HOOP_BAD_COUNT_synthetic (hoopIx h)).setBit F.HOOP_STATUS_synthetic (hoopIx h) true

@[simp] theorem missShown_hoop (s : State) (h : Nat) (e : Time) (g : Nat) : (s.missShown h e).hoop g = s.hoop g := by
  simp [State.missShown]

@[simp] theorem setHoop_teeth (s : State) (h : Nat) (y : HoopSt) : (s.setHoop h y).hoopTeeth h = s.hoopTeeth h := by
  simp [State.hoopTeeth]

@[simp] theorem missShown_teeth (s : State) (h : Nat) (e : Time) : (s.missShown h e).hoopTeeth h = s.hoopTeeth h := by
  simp only [State.hoopTeeth, State.fld, State.missShown]
  rw [State.reg_setBit_ne _ _ _ _ (by decide), State.reg_bump_ne _ _ _ (by decide), State.at_reg]

end State

theorem hoopMissingTooth_eq (hacts : s.hoopActs h = true) (hx : s.hoop h = x) {p : HoopPt} {pts : List HoopPt} {pn : Int}
    (hst : x.st = 2) (hsrc : s.hoopSrc h < 2) (hpts : x.pts = p :: pts) (hpn : s.hoopJudges h = some pn) (hslot : x.slot = some k)
    (he : e = p.t + picotsI (3 * pn / 2)) (hin : ∀ i ∈ x.inbox, before i.stamp e = false)
    (hk : s.nextSlot h k x.rev = (k', rev'))
    (hu : u = ((s.missShown h e).setHoop h
      { x with evs := x.evs.foldl (fun l v => if v.2.active e then nmPut l v.1 { v.2 with sticky := true } else l) x.evs,
               slot := some k', rev := rev', idxSeen := false,
               idxStray := if k' = 0 then false else x.idxStray || x.idxSeen }).addPoint h
        (slotAngle (s.hoopTeeth h) rev' k') (p.t + picotsI pn) e true false k' 0) :
    hoopMissingTooth s h = if s.hoopWaits h 2 e then s
      else if x.bad = 0 then (u.refreshAll h).modHoop h (fun y => { y with bad := 1 }) else u.hoopLoss h 1 e := by
  have hmiss := State.missAt_wheel hx hst hsrc hpts hpn he hin
  rw [hpn] at hmiss
  subst hx
  unfold hoopMissingTooth
  simp only [hacts, Bool.not_true, Bool.false_eq_true, if_false, hpts, hmiss, hsrc, if_true, hpn, hslot, hk]
  refine if_congr Iff.rfl rfl ?_
  unfold State.synthetic
  dsimp only
  rw [← State.missShown, State.bad_marked, State.modHoop_marked]
  simp only [State.missShown_hoop, hu, State.setHoop_teeth, State.missShown_teeth]

end Missing

/-! ## Virtual teeth and samples (R363) -/

section Sample
variable {s u v : State} {h : Nat} {x : HoopSt} {i : HoopIn} {a : Int} {p : HoopPt} {pts : List HoopPt} {back : Bool}

namespace State

theorem samplePoint_same (hx : u.hoop h = x) (hpts : x.pts = p :: pts) : u.samplePoint h p.a i = u := by
  subst hx
  simp [State.samplePoint, hpts]

theorem samplePoint_none (hx : u.hoop h = x) (hst : x.st = 6 ∨ x.st = 7) : u.samplePoint h a i = u := by
  subst hx
  unfold State.samplePoint
  rcases hst with hst | hst <;> simp [hst]

/-- A virtual tooth or sample that moves, in a state that takes points. -/
theorem samplePoint_moves (hx : u.hoop h = x) (hpts : x.pts = p :: pts) (ha : a ≠ p.a) (hback : back = decide (a < p.a))
    (hst : x.st ≠ 6 ∧ x.st ≠ 7) (hv : v = (u.setBit F.HOOP_STATUS_dir (hoopIx h) back).noSynthetic h) :
    u.samplePoint h a i =
      let n := if back then 0 else x.fwd + 1
      let w := (v.addPoint h a i.stamp i.tt false back 0 0).modHoop h (fun y => { y with fwd := n })
      match x.st with
      | 1 | 5 => if n = 3 then w.hoopSync h false else w
      | 2 => if back then (v.hoopReverse h i).addPoint h a i.stamp i.tt false back 0 0
          else ((v.modHoop h (fun y => { y with bad := 0 })).addPoint h a i.stamp i.tt false back 0 0).refreshAll h
      | 3 => if back then (v.hoopReverse h i).addPoint h a i.stamp i.tt false back 0 0
          else if n = 3 then w.hoopSync h true else w
      | 4 => if n = 3 then w.hoopSync h false else w
      | _ => v := by
  obtain ⟨h6, h7⟩ := hst
  have hp : ¬ some p.a = some a := by simpa using ha.symm
  have hmoves : ¬((u.hoop h).st = 6 ∨ (u.hoop h).st = 7) := by
    subst hx
    exact not_or.2 ⟨h6, h7⟩
  have hseen : ((u.hoop h).st != 6 && (u.hoop h).st != 7) = true := by
    subst hx
    simp [h6, h7]
  subst hx hv
  unfold State.samplePoint
  simp only [hpts, List.head?_cons, Option.map_some, if_neg hp, ← hback, if_neg hmoves, Option.isSome_some, Bool.true_and, hseen]
  cases back <;> rfl

end State

end Sample

/-! ## The statement -/

section Seen
variable {s u v : State} {h : Nat} {i : HoopIn} {rest : List HoopIn}

namespace State

/-- The log and the status bits leave the configuration of a hoop. -/
theorem reg_toothSeen {r : Reg} (ix : Ix) (hv : v = ((s.accepted h i rest).toothSeen h i).noSynthetic h)
    (hr : r ≠ .HOOP_STATUS ∧ r ≠ .DIE_ORIGIN_COUNT ∧ r ≠ .LOG_LOST_COUNT) : v.reg r ix = s.reg r ix := by
  obtain ⟨h1, h2, h3⟩ := hr
  rw [hv, State.noSynthetic, State.reg_setBit_ne _ _ _ _ h1, State.toothSeen, State.reg_setBit_ne _ _ _ _ h1,
    State.log_reg _ _ _ _ _ _ _ _ ⟨h2, h3⟩]
  simp [State.accepted]

theorem isRef_toothSeen (hv : v = ((s.accepted h i rest).toothSeen h i).noSynthetic h) (x : HoopSt) :
    v.isRef h x i = s.isRef h x i := by
  have hbit : v.bit F.HOOP_CTRL_ref (hoopIx h) = s.bit F.HOOP_CTRL_ref (hoopIx h) := by
    rw [State.bit, State.reg_toothSeen _ hv (by decide), State.bit]
  have hgap : v.fld F.HOOP_WHEEL_gap (hoopIx h) = s.fld F.HOOP_WHEEL_gap (hoopIx h) := by
    rw [State.fld, State.reg_toothSeen _ hv (by decide), State.fld]
  simp only [State.isRef, State.gapTest, hbit, hgap]

end State

variable {x : HoopSt}

namespace State

theorem isRef_eq_true (hr : (s.bit F.HOOP_CTRL_ref (hoopIx h) = true ∧ x.idxSeen = true) ∨
    (s.bit F.HOOP_CTRL_ref (hoopIx h) = false ∧
      ∃ e1 e0 l, x.lastEdges = e1 :: e0 :: l ∧ s.gapTest h (dist i.stamp e1) (dist e1 e0) = true)) : s.isRef h x i = true := by
  rcases hr with ⟨hb, hs⟩ | ⟨hb, e1, e0, l, hl, hg⟩
  · simp [State.isRef, hb, hs]
  · simp [State.isRef, hb, hl, hg]

theorem isRef_eq_false (hr : (s.bit F.HOOP_CTRL_ref (hoopIx h) = true ∧ x.idxSeen = false) ∨
    (s.bit F.HOOP_CTRL_ref (hoopIx h) = false ∧
      ∀ e1 e0 l, x.lastEdges = e1 :: e0 :: l → s.gapTest h (dist i.stamp e1) (dist e1 e0) = false)) : s.isRef h x i = false := by
  unfold State.isRef
  rcases hr with ⟨hb, hs⟩ | ⟨hb, hg⟩
  · simp [hb, hs]
  · rw [hb]
    rw [if_neg (by decide)]
    split
    · next e1 e0 l hl => exact hg e1 e0 l hl
    · rfl

end State

end Seen

/-- Settles O34: the next tooth or sample by the state it meets, and what each entry into a state keeps. -/
theorem hoopTeeth : Obligations.HoopTeeth := by
  refine ⟨?_, ?_, ?_, ?_⟩
  · rintro s u v h x i rest hacts hin hpos hu hv hx
    have hexec : exec (.hoopTooth h) s = .next (hoopTooth s h) := rfl
    simp only [hexec, Host.Outcome.next.injEq]
    refine ⟨hoopTooth_waits hacts hin, fun hw => ?_⟩
    obtain ⟨hsync, hsearch, hcount⟩ := hoopTooth_tooth hacts hin hw hpos hu hv
    have hxv : v.hoop h = x := by rw [hv, hx]; rfl
    rw [← hx] at hsync hsearch hcount
    refine ⟨fun k p pts hst hslot hpts => ?_, fun hst hb => ?_, fun w hst hf hw' => ?_, fun k hst hslot => ?_⟩
    · rw [hsync hst]
      refine ⟨fun hf hq => ⟨fun hk => ?_, fun hk h0 => ?_, fun hk h0 => ?_⟩, fun pn hf hpn hsoon => ?_, fun hb => ⟨fun j hj => ?_, fun hj => ?_⟩⟩
      · rw [State.syncTooth_good hx.symm hv hslot hpts hf hq (State.nextSlot_eq (.inl ⟨hk, rfl, rfl⟩)), if_neg (by simp)]
      · rw [State.syncTooth_good hx.symm hv hslot hpts hf hq (State.nextSlot_eq (.inr ⟨hk, rfl, rfl⟩)), if_neg (by simp [h0])]
      · rw [State.syncTooth_good hx.symm hv hslot hpts hf hq (State.nextSlot_eq (.inr ⟨hk, rfl, rfl⟩)), if_pos ⟨rfl, h0⟩]
      · exact State.syncTooth_noise hx.symm hslot hpts hf hpn hsoon
      · exact State.syncTooth_back hx.symm hv (hj ▸ hslot) hpts hb (State.prevSlot_succ j)
      · exact State.syncTooth_back hx.symm hv (hj ▸ hslot) hpts hb State.prevSlot_zero
    · rw [hsearch hst]
      exact State.searchTooth_back hxv hb
    · rw [hsearch hst]
      have href := State.isRef_toothSeen (hu ▸ hv) x
      refine ⟨fun hr => ?_, fun hr => ?_⟩
      · exact (State.searchTooth_eq (k := 0) (k' := 0) (rev' := 0) hxv hf hw').1 (href.trans (State.isRef_eq_true hr))
      · have hno := href.trans (State.isRef_eq_false hr)
        refine ⟨fun hs => ?_, fun k hs hk => ?_, fun k hs hk => ?_⟩
        · exact (State.searchTooth_eq (k := 0) (k' := 0) (rev' := 0) hxv hf hw').2.1 hno hs
        · rw [(State.searchTooth_eq hxv hf hw').2.2 hno hs (State.nextSlot_eq (.inl ⟨hk, rfl, rfl⟩))]
          exact if_congr (by omega) rfl rfl
        · rw [(State.searchTooth_eq hxv hf hw').2.2 hno hs (State.nextSlot_eq (.inr ⟨hk, rfl, rfl⟩)), if_neg (by omega)]
    · rw [hcount hst]
      refine ⟨fun w hf hw' k' rev hk => ⟨fun h2 => ?_, fun h2 => ?_⟩, fun w hb hw' => ⟨fun j hj => ?_, fun hj => ?_⟩⟩
      · rw [State.countTooth_forward hxv hslot hf hw' (State.nextSlot_eq hk), if_pos h2]
      · rw [State.countTooth_forward hxv hslot hf hw' (State.nextSlot_eq hk), if_neg h2]
      · exact State.countTooth_back hxv (hj ▸ hslot) hb hw' (State.prevSlot_succ j)
      · exact State.countTooth_back hxv (hj ▸ hslot) hb hw' State.prevSlot_zero
  · rintro s u h x hx hacts
    refine ⟨fun e r hin => ?_, fun p pts pn k k' rev e hst hsrc hpts hpn hslot he hin hk hu => ?_, fun p pts e hst hpts he => ?_,
      fun e he hst => ?_⟩
    · refine congrArg Host.Outcome.next ?_
      subst hx
      simp [hoopIndexEdge, hacts, hin, State.modHoop]
    · have hmiss := hoopMissingTooth_eq hacts hx.symm hst hsrc hpts hpn hslot he hin (State.nextSlot_eq hk) hu
      refine ⟨fun hw => congrArg _ (hmiss.trans (if_pos hw)), fun hw hb => congrArg Host.Outcome.next ?_,
        fun hw hb => congrArg Host.Outcome.next ?_⟩
      · rw [hmiss, if_neg (by simp [hw]), if_pos hb]
      · rw [hmiss, if_neg (by simp [hw]), if_neg hb]
    · refine congrArg Host.Outcome.next ?_
      subst hx he
      simp [hoopStall, State.stallAt, hst, hpts, hacts]
    · refine congrArg Host.Outcome.next ?_
      subst hx
      simp [hoopCoastExpiry, he, hacts, hst]
  · rintro s u v h x i rest a p pts back hacts hin hpos hw hu hx hpts hback hv
    have hexec : exec (.hoopTooth h) s = .next (u.samplePoint h a i) :=
      congrArg Host.Outcome.next ((hoopTooth_sample hacts hin hw hpos).trans (by rw [hu]; rfl))
    simp only [hexec, Host.Outcome.next.injEq]
    have hmoves (ha : a ≠ p.a) (hst : x.st ≠ 6 ∧ x.st ≠ 7) := State.samplePoint_moves (i := i) hx.symm hpts ha hback hst hv
    refine ⟨fun ha => ha ▸ State.samplePoint_same hx.symm hpts, fun _ hst => State.samplePoint_none hx.symm hst,
      fun ha hst hb => ?_, fun ha hst hb => ?_, fun ha hst n w hn hw => ?_⟩
    · rw [hmoves ha (by omega), hst, hb]
      simp
    · rw [hmoves ha (by omega), hb]
      rcases hst with hst | hst <;> simp [hst]
    · rw [hmoves ha (by omega), hw, hn]
      rcases hst with hst | hst | hst | ⟨hst, hb⟩
      · simp [hst]
      · simp [hst]
      · simp [hst]
      · simp [hst, hb]
  · rintro s t h st e (⟨c, rfl, rfl⟩ | ⟨i, rfl, rfl, rfl⟩ | ⟨rfl, rfl⟩ | ⟨rfl, rfl⟩)
    · exact State.entered_hoopLoss c
    · exact State.entered_hoopReverse i
    · exact State.entered_hoopStalls
    · exact State.entered_hoopFallback

end Sys2Proof.Machine

/-! # Event queues (R467 to R473) -/

namespace Sys2Proof.Machine

/-! ## The bytes of a record (R467) -/

theorem leBytes_length (v n : Nat) : (leBytes v n).length = n := by
  induction n generalizing v with
  | zero => rfl
  | succ n ih => simp [leBytes, ih]

theorem leNat_leBytes (v n : Nat) : leNat (leBytes v n) = v % 256 ^ n := by
  induction n generalizing v with
  | zero => simp [leBytes, leNat, Nat.mod_one]
  | succ n ih => rw [leBytes, leNat, ih, Nat.pow_succ', Nat.mod_mul]; simp

theorem leNat_timeBytes (t : Time) : leNat (timeBytes t) = t.toNat := by
  rw [timeBytes, leNat_leBytes]
  exact Nat.mod_eq_of_lt t.isLt

theorem wordBytes_eq (w : Word) : wordBytes w = leBytes w.toNat 4 := by
  simp [wordBytes, leBytes, BitVec.extractLsb', Nat.shiftRight_eq_div_pow, Nat.div_div_eq_div_mul]

theorem wordBytes_length (w : Word) : (wordBytes w).length = 4 := rfl

theorem leNat_wordBytes (w : Word) : leNat (wordBytes w) = w.toNat := by
  rw [wordBytes_eq, leNat_leBytes]
  exact Nat.mod_eq_of_lt w.isLt

theorem timeBytes_length (t : Time) : (timeBytes t).length = 8 := leBytes_length _ _

theorem recBytes_length (r : Rec) (seq : Word) (phase : Bool) : (recBytes r seq phase).length = 32 := by
  simp [recBytes, timeBytes_length, leBytes_length, wordBytes, pay]

theorem recBytes_stamp (r : Rec) (seq : Word) (phase : Bool) : leNat ((recBytes r seq phase).take 8) = r.stamp.toNat := by
  rw [recBytes]
  simp only [List.append_assoc]
  rw [List.take_left' (timeBytes_length _), leNat_timeBytes]

theorem recBytes_seq (r : Rec) (seq : Word) (phase : Bool) : leNat (((recBytes r seq phase).drop 8).take 4) = seq.toNat := by
  rw [recBytes]
  simp only [List.append_assoc]
  rw [List.drop_left' (timeBytes_length _), List.take_left' (wordBytes_length seq), leNat_wordBytes]

theorem memReadList_memWriteList (m : List Host.Cell) (a : Nat) (l : List Byte) :
    memReadList (memWriteList m a l) a l.length = l := by
  have hlen (m : List Host.Cell) (a n : Nat) : (memReadList m a n).length = n := by
    induction n generalizing a with
    | zero => rfl
    | succ n ih => simp [memReadList, ih]
  have hget (m : List Host.Cell) (a n i : Nat) (h : i < n) : (memReadList m a n)[i]? = some (memRead m (a + i)) := by
    induction n generalizing a i with
    | zero => omega
    | succ n ih =>
      cases i with
      | zero => rfl
      | succ i => simp [memReadList, ih (a + 1) i (by omega), Nat.add_assoc, Nat.add_comm 1]
  refine List.ext_getElem? fun i => ?_
  by_cases h : i < l.length
  · rw [hget _ _ _ _ h, memRead_memWriteList_at m a i l h]
    simp [h]
  · rw [List.getElem?_eq_none (by rw [hlen]; omega), List.getElem?_eq_none (by omega)]

/-! ## A record at its queue (R467, R472) -/

section Put
variable {s u : State} {n : Nat} {r : Rec} {seq : Word}

namespace State

@[simp] theorem eq_setReg (s : State) (x : Reg) (ix : Ix) (v : Word) (n : Nat) : (s.setReg x ix v).eq n = s.eq n := rfl

theorem fld_setSeq (s : State) (f : Fld) (ix jx : Ix) (v : Word) (h : f.reg ≠ .EQ_NEXT_SEQ) :
    (s.setReg .EQ_NEXT_SEQ ix v).fld f jx = s.fld f jx := by
  rw [State.fld, State.reg_setReg_other _ _ _ _ h, State.fld]

theorem bit_setSeq (s : State) (f : Fld) (ix jx : Ix) (v : Word) (h : f.reg ≠ .EQ_NEXT_SEQ) :
    (s.setReg .EQ_NEXT_SEQ ix v).bit f jx = s.bit f jx := by
  rw [State.bit, State.reg_setReg_other _ _ _ _ h, State.bit]

@[simp] theorem eqCanWrite_setSeq (s : State) (ix : Ix) (v : Word) (n : Nat) :
    (s.setReg .EQ_NEXT_SEQ ix v).eqCanWrite n = s.eqCanWrite n := by
  simp only [State.eqCanWrite, State.eqFull, State.eqSize, State.fld_setSeq _ _ _ _ _ (by decide : F.EQ_STATUS_write_index.reg ≠ _),
    State.fld_setSeq _ _ _ _ _ (by decide : F.EQ_CFG_log_size.reg ≠ _), State.fld_setSeq _ _ _ _ _ (by decide : F.EQ_HEAD_head.reg ≠ _),
    State.bit_setSeq _ _ _ _ _ (by decide : F.EQ_CFG_en.reg ≠ _), State.bit_setSeq _ _ _ _ _ (by decide : F.EQ_CFG_space.reg ≠ _)]
  rfl

/-- A released record at its queue, in terms of the state before it. -/
theorem eqPut_eq (hn : n = r.eq) (hseq : seq = s.reg .EQ_NEXT_SEQ (pkg1 n)) (hu : u = s.setReg .EQ_NEXT_SEQ (pkg1 n) (seq + 1)) :
    s.eqPut r = if s.bit F.EQ_CFG_en (pkg1 n) = false then u.bump F.EQ_LOST_COUNT_lost (pkg1 n)
      else match (s.eq n).losing with
      | some run => (u.bump F.EQ_LOST_COUNT_lost (pkg1 n)).setEq n { s.eq n with losing := some (run.1, seq, r.stamp) }
      | none =>
        if (s.eq n).hold.isEmpty && s.eqCanWrite n then u.eqWrite n r seq
        else if (s.eq n).hold.length < 512 then u.setEq n { s.eq n with hold := (s.eq n).hold ++ [(r, seq)] }
        else (u.bump F.EQ_LOST_COUNT_lost (pkg1 n)).setEq n { s.eq n with losing := some (seq, seq, r.stamp) } := by
  subst hn hseq hu
  unfold State.eqPut State.eqTake
  simp only [State.bit_setSeq _ _ _ _ _ (by decide : F.EQ_CFG_en.reg ≠ _), State.eqCanWrite_setSeq, State.eq_setReg,
    Bool.not_eq_true']
  rfl

end State

end Put

/-! ## A record written to a ring in ring memory (R467, R468) -/

section Write
variable (s : State) (n : Nat)

namespace State

@[simp] theorem postPriv_mem (t k : Nat) :
    (s.postPriv t k).dieMem = s.dieMem ∧ (s.postPriv t k).ring = s.ring ∧ (s.postPriv t k).hostMem = s.hostMem := by
  simp [State.postPriv, State.setPriv]

@[simp] theorem wake_mem : s.wake.dieMem = s.dieMem ∧ s.wake.ring = s.ring ∧ s.wake.hostMem = s.hostMem := ⟨rfl, rfl, rfl⟩

/-- A record written to a ring changes that memory at its place. -/
theorem eqWrite_mem (r : Rec) (seq : Word) {u : State}
    (hu : u = s.spaceWrite (s.bit F.EQ_CFG_space (pkg1 n))
      ((s.reg64 .EQ_BASE_LO .EQ_BASE_HI (pkg1 n)).toNat + 32 * s.fld F.EQ_STATUS_write_index (pkg1 n))
      (recBytes r seq (s.bit F.EQ_STATUS_phase (pkg1 n)))) :
    (s.eqWrite n r seq).dieMem = u.dieMem ∧ (s.eqWrite n r seq).ring = u.ring ∧ (s.eqWrite n r seq).hostMem = u.hostMem := by
  unfold State.eqWrite
  dsimp only
  rw [← hu]
  split_ifs <;> simp

end State

end Write

/-! ## Writes of the queue registers (R468, R487) -/

section Registers
variable {s : State} {port : Port} {n : Nat} {v : Word}

theorem bitsOf_or_one (v : Word) {lo : Nat} (w : Nat) (h : 0 < lo) : bitsOf (v ||| 1) lo w = bitsOf v lo w := by
  rw [bitsOf, BitVec.extractLsb'_or, bitsOf]
  congr 1
  ext i hi
  have hone : (1#32).getLsbD (lo + i) = false := by simp [BitVec.getLsbD_one]; omega
  simp [hone]

theorem bitOf_or_one (v : Word) : bitOf (v ||| 1) 0 = true := by simp [bitOf]

theorem eqCfgWrite_start (h4 : 4 ≤ bitsOf v 2 5) (h16 : bitsOf v 2 5 ≤ 16) (h17 : bitsOf v 8 5 ≤ 17)
    (hoff : bitOf (s.reg .EQ_CFG (pkg1 n)) 0 = false) (hon : bitOf v 0 = true) :
    eqCfgWrite s port n v =
      ((((((s.plainWrite .EQ_CFG (pkg1 n) v).setFld F.EQ_STATUS_write_index (pkg1 n) 0).setBit F.EQ_STATUS_phase
        (pkg1 n) true).setFld F.EQ_HEAD_head (pkg1 n) 0).setReg .EQ_NEXT_SEQ (pkg1 n) 0).bumpBy F.EQ_LOST_COUNT_lost (pkg1 n)
        (s.eq n).hold.length).setEq n EqSt.reset := by
  simp only [eqCfgWrite, hoff, hon, Bool.false_and, Bool.or_false, Bool.not_false, Bool.and_self, if_true]
  rw [if_neg (by simp; omega)]
  rfl

theorem eqCfgWrite_reject (h : bitsOf v 2 5 < 4 ∨ 16 < bitsOf v 2 5 ∨ 17 < bitsOf v 8 5) :
    eqCfgWrite s port n v = s.setBit F.EQ_STATUS_write_reject (pkg1 n) true := by
  refine if_pos ?_
  simp only [Bool.or_eq_true, decide_eq_true_eq]
  exact .inl (or_assoc.2 h)

end Registers

/-- Settles O45: a record by what its queue holds, and a written one by its 32 bytes. -/
theorem eventQueues : Obligations.EventQueues := by
  refine ⟨?_, ?_⟩
  · intro s u port n d r seq v g x
    refine ⟨fun hn hseq hu => ?_, fun old new hu hx hlive hacts hold hnew => ?_, fun hop => ?_, fun hop => ?_⟩
    · have hput := State.eqPut_eq hn hseq hu
      refine ⟨fun hen => hput.trans (if_pos hen), fun hen => ?_⟩
      rw [if_neg (by simp [hen])] at hput
      refine ⟨fun a b t hl => ?_, fun hl => ⟨fun hh hc => ?_, fun hh hlen => ?_, fun hlen => ?_⟩⟩
      · rw [hput, hl]
      · rw [hput, hl]
        exact if_pos (by simp [hh, hc])
      · rw [hput, hl]
        dsimp only
        rw [if_neg ?_, if_pos hlen]
        rcases hh with hh | hh <;> simp [hh]
      · rw [hput, hl]
        dsimp only
        rw [if_neg ?_, if_neg hlen.not_gt]
        cases hh : (s.eq n).hold <;> simp_all
    · refine congrArg Host.Outcome.next ?_
      subst hu hx hold hnew
      exact (if_pos (by rw [hlive, hacts]; rfl)).trans rfl
    · refine ⟨fun h4 h16 h17 hoff => congrArg Host.Outcome.next ?_, fun hbad => congrArg Host.Outcome.next ?_⟩
      · refine (hop.write_eq (State.writeKey_pkg _ _ _ _ (by decide))).trans (congrArg _ ?_)
        exact eqCfgWrite_start (port := port) (by rwa [bitsOf_or_one _ _ (by decide)]) (by rwa [bitsOf_or_one _ _ (by decide)])
          (by rwa [bitsOf_or_one _ _ (by decide)]) hoff (bitOf_or_one v)
      · refine (hop.write_eq (State.writeKey_pkg _ _ _ _ (by decide))).trans (congrArg _ ?_)
        exact eqCfgWrite_reject (port := port) (by simpa only [bitsOf_or_one _ _ (by decide : 0 < 2), bitsOf_or_one _ _ (by decide : 0 < 8)] using hbad)
    · refine ⟨fun hin => congrArg Host.Outcome.next ?_, fun hout => congrArg Host.Outcome.next ?_⟩
      · exact (hop.write_eq (State.writeKey_pkg _ _ _ _ (by decide))).trans (congrArg _ (if_neg hin.not_ge))
      · exact (hop.write_eq (State.writeKey_pkg _ _ _ _ (by decide))).trans (congrArg _ (if_pos hout))
  · intro s t n a w r seq ht hsp hw ha
    obtain ⟨hdie, hring, hhost⟩ := s.eqWrite_mem n r seq rfl
    rw [← ht, hsp] at hdie hring hhost
    have hlen := recBytes_length r seq (s.bit F.EQ_STATUS_phase (pkg1 n))
    have hbytes : memReadList t.ring a 32 = recBytes r seq (s.bit F.EQ_STATUS_phase (pkg1 n)) := by
      have hwritten := memReadList_memWriteList s.ring a (recBytes r seq (s.bit F.EQ_STATUS_phase (pkg1 n)))
      rw [hlen] at hwritten
      rw [hring, State.spaceWrite, if_pos rfl, ← hw, ← ha]
      exact hwritten
    refine ⟨hbytes, fun b hb => ?_, hdie, hhost, by rw [hbytes, recBytes_stamp], by rw [hbytes, recBytes_seq]⟩
    rw [hring]
    exact memRead_memWriteList_outside _ _ _ _ (by rw [hlen, ← hw, ← ha]; exact hb)

end Sys2Proof.Machine

/-! # Reads through a port, and the event router (R18, R475 to R481, R488) -/

namespace Sys2Proof.Machine

/-! ## A read that answers (R18, R54, R522) -/

theorem AtReg.lt {a : Nat} {k : RKey} (h : AtReg a k) : a < 0x10000000 := by
  obtain ⟨-, hreg, -⟩ := h
  by_contra hge
  simp only [regAt] at hreg
  rw [if_neg (by omega), if_neg (by omega)] at hreg
  cases hreg

section Reads
variable {s : State} {p : Port} {a : Nat} {k : RKey}

theorem AtReg.notBar2 (h : AtReg a k) : inBar2 p a = false := by
  have := h.lt
  simp [inBar2]
  omega

namespace State.Reads

theorem meets (h : s.Reads p a k) : s.meetsNone p a = false := by
  obtain ⟨-, -, hup⟩ := h
  by_cases ha : 0x08000000 ≤ a
  · simp [State.meetsNone, hup ha]
  · simp [State.meetsNone, ha]

/-- A 32-bit read that answers is a read of its register. -/
theorem hostRead (h : s.Reads p a k) : s.hostRead p a = s.readKey p k := by
  have hmeets := h.meets
  obtain ⟨hat, hreach, -⟩ := h
  have hbar := hat.notBar2 (p := p)
  have hlt := hat.lt
  obtain ⟨h4, hreg, hring, hwin⟩ := hat
  have hring' : (decide (0x01800000 ≤ a) && decide (a < 0x01880000)) = false := by simpa using hring
  simp only [State.hostRead, hbar, hmeets, hreach, h4, Bool.false_eq_true, if_false, Bool.not_true, bne_self_eq_false, Bool.or_false,
    Bool.false_or, decide_eq_true_eq, if_neg hlt.not_ge, hring']
  by_cases ha : a < 0x08000000
  · rw [regAt, if_pos ha] at hreg
    rw [if_neg (by omega), hreg]
  · rw [regAt, if_neg ha, if_pos hlt] at hreg
    rw [if_pos (by omega), State.readWindow, if_neg (by omega), hreg]

end State.Reads

theorem loHalf_zeroExtend (v : Word) : loHalf (v.zeroExtend 64) = v := by
  ext i hi
  simp [loHalf, show i < 64 by omega, BitVec.getLsbD_eq_getElem hi]

theorem hiHalf_zeroExtend (v : Word) : hiHalf (v.zeroExtend 64) = 0 := by
  ext i hi
  simp [hiHalf, BitVec.getLsbD_setWidth]

/-- What the port holds after a 32-bit read that answers. -/
theorem State.Reads.readAt (h : s.Reads p a k) {v : Word} {u : State} (hv : s.readKey p k = (v, u)) : s.readAt p a = u.gave p v := by
  simp only [State.readAt, State.readN, State.hostReadN, if_true, h.hostRead, hv, State.gave]
  congr 1
  funext y
  rw [loHalf_zeroExtend, hiHalf_zeroExtend]

end Reads

/-! ## The winner of a target (R477) -/

theorem candBeats_trans {a b c : Cand} (hab : candBeats a b = true) (hbc : candBeats b c = true) : candBeats a c = true := by
  obtain ⟨pa, ka, na⟩ := a
  obtain ⟨pb, kb, nb⟩ := b
  obtain ⟨pc, kc, nc⟩ := c
  grind [candBeats]

theorem not_candBeats_trans {a b c : Cand} (hab : candBeats a b = false) (hbc : candBeats b c = false) : candBeats a c = false := by
  obtain ⟨pa, ka, na⟩ := a
  obtain ⟨pb, kb, nb⟩ := b
  obtain ⟨pc, kc, nc⟩ := c
  grind [candBeats]

theorem candBeats_self (a : Cand) : candBeats a a = false := by simp [candBeats]

/-- The better of the best candidate so far and one more (R477). -/
def betterCand (best : Option Cand) (c : Cand) : Option Cand :=
  match best with
  | none => some c
  | some b => if candBeats c b then some c else some b

theorem State.winner_eq (s : State) (t : Nat) : s.winner t = (s.privCands t ++ s.sharedCands t).foldl betterCand none := rfl

theorem foldl_betterCand (l : List Cand) (b : Cand) :
    ∃ c, l.foldl betterCand (some b) = some c ∧ c ∈ b :: l ∧ ∀ a ∈ b :: l, candBeats a c = false := by
  induction l generalizing b with
  | nil => exact ⟨b, rfl, by simp, by simp [candBeats_self]⟩
  | cons d l ih =>
    rw [List.foldl_cons, betterCand]
    cases hd : candBeats d b with
    | true =>
      obtain ⟨c, hc, hmem, hbest⟩ := ih d
      refine ⟨c, hc, List.mem_cons_of_mem _ hmem, List.forall_mem_cons.2 ⟨?_, hbest⟩⟩
      have hdc := hbest d List.mem_cons_self
      by_contra hbc
      exact absurd (candBeats_trans hd (by simpa using hbc)) (by simp [hdc])
    | false =>
      obtain ⟨c, hc, hmem, hbest⟩ := ih b
      obtain ⟨hbc, hl⟩ := List.forall_mem_cons.1 hbest
      refine ⟨c, hc, ?_, List.forall_mem_cons.2 ⟨hbc, List.forall_mem_cons.2 ⟨not_candBeats_trans hd hbc, hl⟩⟩⟩
      rcases List.mem_cons.1 hmem with rfl | hmem
      · exact List.mem_cons_self
      · exact List.mem_cons_of_mem _ (List.mem_cons_of_mem _ hmem)

namespace State

theorem winner_spec {s : State} {t : Nat} {l : List Cand} (hl : l = s.privCands t ++ s.sharedCands t) :
    (s.winner t = none ↔ l = []) ∧ (∀ c, s.winner t = some c → c ∈ l ∧ ∀ b ∈ l, candBeats b c = false) := by
  rw [State.winner_eq, ← hl]
  cases l with
  | nil => simp
  | cons d r =>
    obtain ⟨c, hc, hmem, hbest⟩ := foldl_betterCand r d
    have hfold : (d :: r).foldl betterCand none = some c := hc
    rw [hfold]
    refine ⟨by simp, fun x hx => ?_⟩
    obtain rfl := Option.some.inj hx
    exact ⟨hmem, hbest⟩

/-! ## Claims and completions (R479, R488) -/

@[simp] theorem startHoldoff_coreIrq (s : State) (g : Nat) : (s.startHoldoff g).coreIrq = s.coreIrq := by
  unfold State.startHoldoff
  dsimp only
  split <;> simp

@[simp] theorem take_coreIrq (s : State) (t : Nat) (c : Cand) : (s.take t c).coreIrq = s.coreIrq := by
  unfold State.take
  dsimp only
  split_ifs <;> simp [State.setPriv]

end State

section Claim
variable {s : State} {port : Port} {t : Nat}

theorem State.coreClaims_eq {u : State} (h : u.coreIrq = s.coreIrq) :
    u.coreClaims port t = if port = .mgmt0 ∨ port = .mgmt1 then { u with coreIrq := s.coreIrq.filter (fun x => x != t) } else u := by
  rw [State.coreClaims, h]

/-- A read of RTR_CLAIM through a port that reaches it. -/
theorem rtrClaim_result (ht : t < 18) (hr : s.Reads port (regAddr (.RTR_CLAIM, pkg1 t)) (.RTR_CLAIM, pkg1 t)) :
    exec (.rtrClaim port t) s = .next ((rtrClaimRead s port t).2.gave port (rtrClaimRead s port t).1) := by
  refine congrArg Host.Outcome.next ?_
  exact (if_pos ht).trans (hr.readAt rfl)

theorem targetGate_open (f : State → State) (h : t < 16 ∨ trustedPort port = true) : targetGate s port t f = f s := by
  refine if_neg ?_
  rcases h with h | h
  · simp [h.not_ge]
  · simp [h]

theorem targetGate_shut (f : State → State) (h : 16 ≤ t) (hp : trustedPort port = false) :
    targetGate s port t f = s.setBit F.RTR_STATUS_write_reject (pkg1 t) true := if_pos (by simp [h, hp])

/-- What the target takes of a write of RTR_COMPLETE that names source `n`. -/
def State.completed (s : State) (t n : Nat) : State :=
  if n < 64 then
    if n ≠ 0 ∧ s.privBit .RTR_PRIV_ACT_LO .RTR_PRIV_ACT_HI t n = true then s.setPriv .RTR_PRIV_ACT_LO .RTR_PRIV_ACT_HI t n false
    else s.setBit F.RTR_STATUS_complete_err (pkg1 t) true
  else if s.bit F.RTR_SRC_active (pkg1 (n - 64)) && nmGet? s.claims n == some t then
    { s.setBit F.RTR_SRC_active (pkg1 (n - 64)) false with claims := nmDel s.claims n }
  else s.setBit F.RTR_STATUS_complete_err (pkg1 t) true

theorem rtrComplete_result {v : Word} {n : Nat} (hop : s.Opens port (.RTR_COMPLETE, pkg1 t)) (hn : n = bitsOf v 0 12) :
    exec (.rtrComplete port t v) s =
      .next (s.wrote (.RTR_COMPLETE, pkg1 t) (targetGate s port t fun s => s.completed t n)) := by
  subst hn
  exact congrArg Host.Outcome.next (hop.write_eq (State.writeKey_pkg _ _ _ _ (by decide)))

theorem rtrDoorbell_result {v : Word} (hop : s.Opens port (.RTR_DOORBELL, pkg)) :
    exec (.rtrDoorbell port v) s = .next (s.wrote (.RTR_DOORBELL, pkg) (rtrDoorbellWrite s port v)) :=
  congrArg Host.Outcome.next (hop.write_eq (State.writeKey_pkg _ _ _ _ (by decide)))

/-- A doorbell that R476 takes, and one it does not. -/
theorem rtrDoorbellWrite_eq {v : Word} {n tgt : Nat} {ok : Bool} (hn : n = bitsOf v 0 12) (htgt : tgt = bitsOf v 16 5)
    (hok : ok = decide (bitsOf v 12 4 = 0 ∧ bitsOf v 21 11 = 0 ∧ (ownSource n = true → port = .mgmt0 ∨ port = .mgmt1) ∧
      (n < 64 → tgt ≤ (if trustedPort port then 17 else 15)) ∧ (64 ≤ n → tgt = 0))) :
    rtrDoorbellWrite s port v = if ok = false then s.bump F.RTR_DB_REJECT_count pkg
      else if n < 64 then (if n = 0 ∨ 33 < n then s else (s.postPriv tgt n).wake) else (s.postShared n).wake := by
  subst hn htgt
  refine if_congr ?_ rfl rfl
  have hmgmt : (port == .mgmt0 || port == .mgmt1) = decide (port = .mgmt0 ∨ port = .mgmt1) := by cases port <;> decide
  have htrust : (if trustedPort port = true then decide (17 < bitsOf v 16 5) else decide (15 < bitsOf v 16 5)) =
      decide ((if trustedPort port then 17 else 15) < bitsOf v 16 5) := by split <;> rfl
  rw [hok, hmgmt, htrust]
  by_cases h64 : bitsOf v 0 12 < 64
  · simp [h64, h64.not_ge, imp_iff_not_or]
    grind
  · simp [h64, not_lt.1 h64, imp_iff_not_or]
    grind

end Claim

/-- Settles O46. -/
theorem routerCommands : Obligations.RouterCommands := by
  refine ⟨?_, fun s t l hl => State.winner_spec hl⟩
  intro s port t n tgt v x ws
  refine ⟨fun ht => ⟨fun c harm hg hw => congrArg Host.Outcome.next ?_, fun h => congrArg Host.Outcome.next (if_neg ?_)⟩, fun ht hr => ?_, fun hop hn => ?_,
    fun ok hop hn htgt hok => ?_, fun hg => congrArg Host.Outcome.next ?_, fun ht => ⟨fun hf => congrArg Host.Outcome.next ?_, fun hf => congrArg Host.Outcome.next ?_⟩⟩
  · exact if_pos (by simp [ht, harm, hg, hw])
  · rcases h with h | h | h <;> simp [h]
  · have hclaim := rtrClaim_result ht hr
    refine ⟨fun c hw hp => ?_, fun c hw hp => ?_, fun hw hp => ?_, fun hw hp => ?_⟩
    · rw [hclaim, rtrClaimRead, hw]
      simp only [if_neg hp, State.coreClaims_eq (State.take_coreIrq s t c)]
    · rw [hclaim, rtrClaimRead, hw]
      simp only [if_pos hp]
    · rw [hclaim, rtrClaimRead, hw]
      simp only [if_neg hp]
      rfl
    · rw [hclaim, rtrClaimRead, hw]
      simp only [if_pos hp]
  · rw [rtrComplete_result hop hn]
    refine ⟨fun hgate => ?_, fun h16 hp => ?_⟩
    · rw [targetGate_open _ hgate]
      refine ⟨fun h1 h64 hact => ?_, fun h64 hact hcl => ?_, fun hno => ?_⟩
      · rw [State.completed, if_pos h64, if_pos ⟨by omega, hact⟩]
      · rw [State.completed, if_neg h64.not_gt, if_pos (by simp [hact, hcl])]
      · rcases hno with h0 | ⟨h64, hact⟩ | ⟨h64, hno⟩
        · rw [State.completed, if_pos (by omega), if_neg (by simp [h0])]
        · rw [State.completed, if_pos h64, if_neg (by simp [hact])]
        · rw [State.completed, if_neg h64.not_gt, if_neg ?_]
          rcases hno with hno | hno <;> simp [hno]
    · rw [targetGate_shut _ h16 hp]
  · rw [rtrDoorbell_result hop, rtrDoorbellWrite_eq hn htgt hok]
    refine ⟨fun h h64 => ?_, fun h h1 h33 => ?_, fun h => if_pos h ▸ rfl⟩
    · rw [if_neg (by simp [h]), if_neg h64.not_gt]
    · rw [if_neg (by simp [h]), if_pos (by omega), if_neg (by omega)]
  · simp [groupExpiry, hg]
  · exact if_pos (by simp [ht, hf])
  · exact if_neg (by simp [hf])

end Sys2Proof.Machine

/-! # Ground time, slew, the log and the servo (R67 to R69, R101, R103, R390, R391) -/

namespace Sys2Proof.Machine

/-! ## The tick (R67) -/

theorem slewInstant_mod (t : Time) : (slewInstant t).toNat % 65536 = 0 := by
  rw [slewInstant, BitVec.toNat_ofNat, Nat.mod_mod_of_dvd _ (by decide : 65536 ∣ 2 ^ 64), Nat.mul_mod_left]

namespace State

/-- What `n` ticks add: whole picots, with the part below a picot kept in range. -/
theorem ticks_spec (s : State) (h0 : 0 ≤ s.slewFrac) (h1 : s.slewFrac < 1000000000) (n : Nat) :
    ∃ x : Int, (Nat.repeat State.tick n s).now = s.now + BitVec.ofInt 64 x ∧
      x * 1000000000 + (Nat.repeat State.tick n s).slewFrac = n * (64 * (1000000000 + s.slew)) + s.slewFrac ∧
      0 ≤ (Nat.repeat State.tick n s).slewFrac ∧ (Nat.repeat State.tick n s).slewFrac < 1000000000 ∧
      (Nat.repeat State.tick n s).slew = s.slew := by
  induction n with
  | zero => exact ⟨0, by simp [Nat.repeat], by simp [Nat.repeat], h0, h1, rfl⟩
  | succ n ih =>
    obtain ⟨x, hnow, hsum, hlo, hhi, hslew⟩ := ih
    rw [Nat.repeat]
    generalize Nat.repeat State.tick n s = u at *
    have hdiv := Int.mul_ediv_add_emod (64 * (1000000000 + u.slew) + u.slewFrac) 1000000000
    refine ⟨x + (64 * (1000000000 + u.slew) + u.slewFrac) / 1000000000, ?_, ?_, Int.emod_nonneg _ (by decide),
      Int.emod_lt_of_pos _ (by decide), hslew⟩
    · simp only [State.tick, hnow, BitVec.ofInt_add, BitVec.add_assoc]
    · simp only [State.tick]
      rw [hslew] at hdiv ⊢
      push_cast
      linarith

theorem ticks_second {s t : State} (h0 : 0 ≤ s.slewFrac) (h1 : s.slewFrac < 1000000000) {n : Nat} (hn : n = 1000000000)
    (ht : t = Nat.repeat State.tick n s) : t.slewFrac = s.slewFrac ∧ t.slew = s.slew ∧
      t.now = s.now + BitVec.ofInt 64 (64 * (1000000000 + s.slew)) := by
  obtain ⟨x, hnow, hsum, hlo, hhi, hslew⟩ := s.ticks_spec h0 h1 n
  rw [← ht] at hnow hsum hlo hhi hslew
  obtain rfl : x = 64 * (1000000000 + s.slew) := by
    subst hn
    push_cast at hsum
    omega
  refine ⟨?_, hslew, hnow⟩
  subst hn
  push_cast at hsum
  omega

end State

/-! ## The servo (R390) -/

/-- The integrator within its limit. -/
theorem abs_clamp_mul_le {m ki : Int} (sum : Int) (hm : 0 ≤ m) (hk : 0 ≤ ki) :
    |(if ki = 0 then sum else max (-(m * 1024 / ki)) (min sum (m * 1024 / ki))) * ki| ≤ m * 1024 := by
  split
  · next h => simp [h]; omega
  · next h =>
    have hpos : 0 < ki := by omega
    have hlim : 0 ≤ m * 1024 / ki := Int.ediv_nonneg (by omega) hk
    have hle : m * 1024 / ki * ki ≤ m * 1024 := Int.ediv_mul_le _ h
    generalize m * 1024 / ki = l at hlim hle ⊢
    have habs : |max (-l) (min sum l)| ≤ l := abs_le.2 ⟨le_max_left _ _, max_le (by omega) (min_le_right _ _)⟩
    calc |max (-l) (min sum l) * ki| = |max (-l) (min sum l)| * ki := by rw [abs_mul, abs_of_pos hpos]
      _ ≤ l * ki := by gcongr
      _ ≤ m * 1024 := hle

theorem joinHalves_halves (x : BitVec 64) : joinHalves (hiHalf x) (loHalf x) = x := by
  exact (BitVec.extractLsb'_append_extractLsb'_eq_extractLsb' rfl).trans BitVec.extractLsb'_eq_self

theorem State.reg64_setReg64 (s : State) {lo hi : Reg} (ix : Ix) (v : BitVec 64) (h : lo ≠ hi) :
    (s.setReg64 lo hi ix v).reg64 lo hi ix = v := by
  rw [State.reg64, State.setReg64, State.reg_setReg, State.reg_setReg_other _ _ _ _ h, State.reg_setReg, joinHalves_halves]

section Steer
variable (s : State) (o : Int)

namespace State

/-- The integrator after an offset that is not stepped. -/
def nextSum (s : State) (o : Int) : Int :=
  if (s.fld F.NET_SERVO_GAIN_ki pkg : Int) = 0 then s.ptp.sum + o
  else max (-((s.fld F.NET_SERVO_max_ppb pkg : Int) * 1024 / s.fld F.NET_SERVO_GAIN_ki pkg))
    (min (s.ptp.sum + o) ((s.fld F.NET_SERVO_max_ppb pkg : Int) * 1024 / s.fld F.NET_SERVO_GAIN_ki pkg))

/-- The slew that the servo asks for. -/
def nextSlew (s : State) (o : Int) : Int :=
  max (-(s.fld F.NET_SERVO_max_ppb pkg : Int))
    (min (Int.tdiv (-(o * s.fld F.NET_SERVO_GAIN_kp pkg + s.nextSum o * s.fld F.NET_SERVO_GAIN_ki pkg)) 1024)
      (s.fld F.NET_SERVO_max_ppb pkg))

theorem nextSlew_le : -(s.fld F.NET_SERVO_max_ppb pkg : Int) ≤ s.nextSlew o ∧ s.nextSlew o ≤ s.fld F.NET_SERVO_max_ppb pkg :=
  ⟨le_max_left _ _, max_le (by omega) (min_le_right _ _)⟩

/-- A step of plant time. -/
def stepped (s : State) (o : Int) : State :=
  { s.setReg64 .PLANT_OFFSET_LO .PLANT_OFFSET_HI pkg (s.plantOffset - BitVec.ofInt 64 (o * 64)) with ptp := { s.ptp with sum := 0 } }

/-- An offset that the slew takes up. -/
def slewed (s : State) (o : Int) : State :=
  { s with ptp := { s.ptp with sum := s.nextSum o } }.acceptSlew (s.nextSlew o)

theorem steer_stepped (hrun : s.anyRunning = false) (ho : (s.fld F.NET_SERVO_step_us pkg * 1000 : Int) < |o|) :
    s.steer o = s.stepped o := if_pos (by simp [hrun, ho])

theorem steer_slewed (h : s.anyRunning = true ∨ |o| ≤ (s.fld F.NET_SERVO_step_us pkg * 1000 : Int)) :
    s.steer o = s.slewed o := by
  refine if_neg ?_
  rcases h with h | h
  · simp [h]
  · simp [not_lt.2 h]

theorem plantOffset_stepped : (s.stepped o).plantOffset = s.plantOffset - BitVec.ofInt 64 (o * 64) :=
  (State.reg64_setReg64 s pkg _ (by decide))

theorem plantOffset_slewed : (s.slewed o).plantOffset = s.plantOffset := by
  have hreg {r : Reg} (hr : r ≠ .GT_SLEW) : (s.slewed o).reg r pkg = s.reg r pkg :=
    (State.reg_congr (s := { s with ptp := { s.ptp with sum := s.nextSum o } }.setFld F.GT_SLEW_slew_ppb pkg
      (BitVec.ofInt 20 (s.nextSlew o)).toNat) rfl rfl _ _).trans (State.reg_setFld_ne _ _ _ _ hr)
  rw [State.plantOffset, State.reg64, hreg (by decide), hreg (by decide), State.plantOffset, State.reg64]

end State

end Steer

/-! ## Writes of the time and log registers -/

section Writes
variable {s : State} {port : Port} {v : Word}

theorem gtSlewW_accept (hs : s.bit F.TIME_CTRL_servo_en pkg = false) (h0 : -500000 ≤ slewInt v) (h1 : slewInt v ≤ 500000) :
    gtSlewW s port v = s.acceptSlew (slewInt v) := if_neg (by simp [hs, not_lt.2 h0, not_lt.2 h1])

theorem gtSlewW_reject (h : s.bit F.TIME_CTRL_servo_en pkg = true ∨ slewInt v < -500000 ∨ 500000 < slewInt v) :
    gtSlewW s port v = s.setBit F.TIME_STATUS_slew_reject pkg true := if_pos (by simpa using h)

namespace State

/-- Taking the staged low half leaves the registers and the tasks. -/
theorem lowHalf_fields {k : RKey} {lo : Word} {u : State} (h : s.lowHalf port k = (lo, u)) :
    u.regs = s.regs ∧ u.fuses = s.fuses ∧ u.tasks = s.tasks := by
  have hu : u = (s.lowHalf port k).2 := by rw [h]
  rw [hu, State.lowHalf]
  split
  · split <;> exact ⟨rfl, rfl, rfl⟩
  · exact ⟨rfl, rfl, rfl⟩

theorem bit_congr {u : State} (h : u.regs = s.regs) (hf : u.fuses = s.fuses) (f : Fld) (ix : Ix) : u.bit f ix = s.bit f ix := by
  rw [State.bit, State.reg_congr h hf, State.bit]

theorem first_lowHalf {k : RKey} {lo : Word} {u : State} (h : s.lowHalf port k = (lo, u)) (f : Fld) :
    u.bit f pkg = s.bit f pkg := by
  obtain ⟨hregs, hfuses, -⟩ := State.lowHalf_fields h
  exact State.bit_congr hregs hfuses f pkg

end State

namespace State.Opens

/-- A write of GT_SET_HI (R68). -/
theorem gtSet {lo hi : Word} {u : State} (hop : s.Opens port (.GT_SET_HI, pkg))
    (hlo : s.lowHalf port (.GT_SET_LO, pkg) = (lo, u)) :
    exec (.gtSet port hi) s = .next (s.wrote (.GT_SET_HI, pkg)
      (if u.bit F.TIME_STATUS_first_step_done pkg then gtSetW u port lo hi else (gtSetW u port lo hi).rebaseReports)) := by
  refine congrArg Host.Outcome.next (hop.write_eq ?_)
  rw [State.writeKey_hi _ _ rfl (by decide), show Reg.lo .GT_SET_HI = .GT_SET_LO from rfl, hlo]
  rfl

/-- A write of PLANT_OFFSET_HI (R69). -/
theorem plantOffset {lo hi : Word} {u : State} (hop : s.Opens port (.PLANT_OFFSET_HI, pkg))
    (hlo : s.lowHalf port (.PLANT_OFFSET_LO, pkg) = (lo, u)) :
    exec (.plantOffsetWrite port hi) s = .next (s.wrote (.PLANT_OFFSET_HI, pkg) (plantOffsetW u port lo hi)) := by
  refine congrArg Host.Outcome.next (hop.write_eq ?_)
  rw [State.writeKey_hi _ _ rfl (by decide), show Reg.lo .PLANT_OFFSET_HI = .PLANT_OFFSET_LO from rfl, hlo]
  rfl

theorem logCtrl (hop : s.Opens port (.LOG_CTRL, pkg)) :
    exec (.logCtrlWrite port v) s = .next (s.wrote (.LOG_CTRL, pkg) (logCtrlW s port v)) :=
  congrArg Host.Outcome.next (hop.write_eq (State.writeKey_pkg _ _ _ _ (by decide)))

end State.Opens

theorem step_nil (h : s.pending = []) : step s = .next (idle s) := by rw [step, h]

end Writes

/-- Settles O50: each write by what its register takes, ticks by their sum in units of 10^-9 picot, the servo by its two cases. -/
theorem timeAndLog : Obligations.TimeAndLog := by
  refine ⟨?_, ?_, ?_⟩
  · rintro s s' port v hi g d rfl
    refine ⟨fun hop => ⟨fun hs h0 h1 => ?_, fun h => ?_⟩, fun x => ⟨rfl, slewInstant_mod _⟩, fun t x hp => ?_, fun hp => ?_,
      fun lo u hop hlo => ⟨fun hd => ?_, fun hd => ?_⟩, fun lo u hop hlo => ⟨fun hr => ?_, fun hr hs => ?_⟩, fun hop => ?_,
      fun hop => ⟨fun he => ?_, fun hne hr => ?_, fun hne hr => ?_⟩, fun t first n hl => ⟨fun hdue => ?_, fun hdue => ?_⟩, fun hl => ?_,
      fun hp => ⟨fun hc hb => ?_, fun h => ?_⟩⟩
    · refine congrArg Host.Outcome.next (hop.write_eq ((State.writeKey_pkg _ _ _ _ (by decide)).trans ?_))
      exact gtSlewW_accept (port := port) (by simpa using hs) h0 h1
    · refine congrArg Host.Outcome.next (hop.write_eq ((State.writeKey_pkg _ _ _ _ (by decide)).trans ?_))
      exact gtSlewW_reject (port := port) (by simpa using h)
    · refine congrArg Host.Outcome.next ?_
      simp only [slewApply, hp]
    · refine congrArg Host.Outcome.next ?_
      simp only [slewApply, hp]
    · rw [hop.gtSet hlo, State.first_lowHalf hlo, if_pos hd, gtSetW, State.first_lowHalf hlo, if_pos hd]
    · rw [hop.gtSet hlo, State.first_lowHalf hlo, if_neg (by simp [hd]), gtSetW, State.first_lowHalf hlo, if_neg (by simp [hd])]
    · obtain ⟨-, -, htasks⟩ := State.lowHalf_fields hlo
      rw [hop.plantOffset hlo, plantOffsetW, State.anyRunning, htasks, ← State.anyRunning, State.first_lowHalf hlo,
        if_pos (by simpa using hr)]
    · obtain ⟨-, -, htasks⟩ := State.lowHalf_fields hlo
      rw [hop.plantOffset hlo, plantOffsetW, State.anyRunning, htasks, ← State.anyRunning, State.first_lowHalf hlo,
        if_neg (by simp [hr, hs])]
    · exact congrArg Host.Outcome.next (hop.write_eq (State.writeKey_pkg _ _ _ _ (by decide)))
    · rw [hop.logCtrl, logCtrlW, if_pos he]
    · rw [hop.logCtrl, logCtrlW, if_neg hne, if_pos hr]
    · rw [hop.logCtrl, logCtrlW, if_neg hne, if_neg (by simp [hr])]
      rfl
    · refine congrArg Host.Outcome.next ((if_pos (by simp [State.gapOver, hl, hdue])).trans ?_)
      simp only [State.closeGap, State.modDie, State.at_die, hl]
    · exact congrArg Host.Outcome.next (if_neg (by simp [State.gapOver, hl, hdue]))
    · exact congrArg Host.Outcome.next (if_neg (by simp [State.gapOver, hl]))
    · exact (step_nil hp).trans (congrArg _ (if_pos (by simp [hc, hb])))
    · refine (step_nil hp).trans (congrArg _ (if_neg ?_))
      rcases h with h | h <;> simp [h]
  · intro s t h0 h1 ht
    obtain ⟨hfrac, hslew, hnow⟩ := State.ticks_second h0 h1 rfl ht
    refine ⟨fun hs hf => ?_, hfrac, hslew, hnow⟩
    simp [State.tick, hs, hf]
  · rintro s t o m rfl rfl
    refine ⟨fun hrun ho => ?_, fun h => ?_, fun x y hxy hnone => ?_, ?_⟩
    · rw [s.steer_stepped o hrun ho]
      exact ⟨s.plantOffset_stepped o, rfl, rfl⟩
    · rw [s.steer_slewed o h]
      refine ⟨s.plantOffset_slewed o, fun hk => ?_, abs_clamp_mul_le _ (by omega) (by omega)⟩
      exact if_pos (by simp [hk])
    · by_cases h : s.anyRunning = true ∨ |o| ≤ (s.fld F.NET_SERVO_step_us pkg * 1000 : Int)
      · rw [s.steer_slewed o h] at hxy
        obtain ⟨-, rfl⟩ := Prod.mk.inj (Option.some.inj hxy)
        exact s.nextSlew_le o
      · obtain ⟨hrun, ho⟩ := not_or.1 h
        rw [s.steer_stepped o (by simpa using hrun) (not_le.1 ho)] at hxy
        exact absurd (hnone.symm.trans hxy) (by simp)
    · by_cases h : s.anyRunning = true ∨ |o| ≤ (s.fld F.NET_SERVO_step_us pkg * 1000 : Int)
      · rw [s.steer_slewed o h]
        exact ⟨rfl, rfl, rfl⟩
      · obtain ⟨hrun, ho⟩ := not_or.1 h
        rw [s.steer_stepped o (by simpa using hrun) (not_le.1 ho)]
        exact ⟨rfl, rfl, rfl⟩

end Sys2Proof.Machine

/-! # Resets (R516, R518 to R522, R541) -/

namespace Sys2Proof.Machine

/-! ## Fields of a register -/

theorem bitsOf_testBit (x : Word) (lo w i : Nat) : (bitsOf x lo w).testBit i = (decide (i < w) && x.getLsbD (lo + i)) := by
  rw [bitsOf, BitVec.testBit_toNat, BitVec.getLsbD_extractLsb']

/-- A field that is set reads back, in its width. -/
theorem bitsOf_putBits (x : Word) {lo w : Nat} (v : Nat) (h : lo + w ≤ 32) : bitsOf (putBits x lo w v) lo w = v % 2 ^ w := by
  apply Nat.eq_of_testBit_eq
  intro i
  rw [bitsOf_testBit, Nat.testBit_mod_two_pow]
  by_cases hi : i < w
  · rw [getLsbD_putBits _ _ _ _ (by omega), if_pos (by omega), Nat.add_sub_cancel_left]
  · simp [hi]

namespace State

theorem fld_setFld (s : State) {f : Fld} (ix : Ix) (v : Nat) (h : f.lo + f.w ≤ 32) :
    (s.setFld f ix v).fld f ix = v % 2 ^ f.w := by
  rw [State.fld, State.setFld, State.reg_setReg, bitsOf_putBits _ _ h]

/-- A bit outside a field, of the same copy of the register or of another. -/
theorem bit_setFld_apart (s : State) {f g : Fld} (ix jx : Ix) (v : Nat) (hg : g.lo < 32)
    (h : (g.reg, jx) ≠ (f.reg, ix) ∨ g.lo < f.lo ∨ f.lo + f.w ≤ g.lo) : (s.setFld f ix v).bit g jx = s.bit g jx := by
  by_cases hk : (g.reg, jx) = (f.reg, ix)
  · obtain ⟨hr, rfl⟩ := Prod.mk.inj hk
    rw [State.bit, State.setFld, hr, State.reg_setReg, bitOf, getLsbD_putBits _ _ _ _ hg, if_neg (by
      have := h.resolve_left (by simp [hk])
      omega), State.bit, bitOf, hr]
  · rw [State.bit, State.setFld, State.reg_setReg_ne _ _ _ _ _ _ hk, State.bit]

end State

/-! ## The queues in host memory at a reset of the link (R520) -/

section Disable
variable {en space : Fld}

/-- A queue whose ring lies in host memory is disabled. -/
def State.disableHost (en space : Fld) (s : State) (q : Nat) : State :=
  if s.bit space (pkg1 q) then s else s.setBit en (pkg1 q) false

theorem pkg1_inj {n q : Nat} : pkg1 n = pkg1 q ↔ n = q := by simp [pkg1]

namespace State

theorem disableHost_bits (hen : en.lo < 32 ∧ en.w = 1) (hsp : space.lo < 32 ∧ space.lo ≠ en.lo)
    (s : State) (q n : Nat) :
    (s.disableHost en space q).bit space (pkg1 n) = s.bit space (pkg1 n) ∧
    (s.disableHost en space q).bit en (pkg1 n) = (s.bit en (pkg1 n) && (n != q || s.bit space (pkg1 n))) := by
  obtain ⟨hlo, hw⟩ := hen
  obtain ⟨hlo', hne⟩ := hsp
  unfold State.disableHost
  cases hs : s.bit space (pkg1 q) with
  | true =>
    refine ⟨rfl, ?_⟩
    by_cases hq : n = q <;> simp [hq, hs]
  | false =>
    refine ⟨State.bit_setFld_apart _ _ _ _ hlo' (by omega), ?_⟩
    by_cases hq : n = q
    · subst hq
      simp [State.bit_setBit _ _ _ hw hlo, hs]
    · simp only [Bool.false_eq_true, if_false, State.setBit]
      rw [State.bit_setFld_apart _ _ _ _ hlo (.inl (by simp [pkg1_inj, hq]))]
      simp [hq]

theorem foldl_disableHost (hen : en.lo < 32 ∧ en.w = 1) (hsp : space.lo < 32 ∧ space.lo ≠ en.lo)
    (l : List Nat) (s : State) (n : Nat) :
    (l.foldl (State.disableHost en space) s).bit en (pkg1 n) = (s.bit en (pkg1 n) && (!l.contains n || s.bit space (pkg1 n))) := by
  induction l generalizing s with
  | nil => simp
  | cons q l ih =>
    obtain ⟨hspace, hena⟩ := State.disableHost_bits hen hsp s q n
    rw [List.foldl_cons, ih, hspace, hena]
    by_cases hq : n = q
    · cases s.bit en (pkg1 n) <;> cases s.bit space (pkg1 n) <;> simp [hq]
    · have hne : (n != q) = true := by simp [hq]
      simp [hne, hq]

theorem foldl_disableHost_reg (l : List Nat) (s : State) {r : Reg} (ix : Ix) (hr : r ≠ en.reg) :
    (l.foldl (State.disableHost en space) s).reg r ix = s.reg r ix :=
  foldl_keep (fun s : State => s.reg r ix) (fun s q => by
    unfold State.disableHost
    split
    · rfl
    · exact State.reg_setBit_ne _ _ _ _ hr) _ _

theorem foldl_disableHost_fields (l : List Nat) (s : State) :
    (l.foldl (State.disableHost en space) s).tasks = s.tasks ∧ (l.foldl (State.disableHost en space) s).dieMem = s.dieMem ∧
    (l.foldl (State.disableHost en space) s).now = s.now ∧ (l.foldl (State.disableHost en space) s).pcie = s.pcie := by
  have hkeep {α : Type} {g : State → α} (hg : ∀ s q, g (State.setBit s en (pkg1 q) false) = g s) :
      g (l.foldl (State.disableHost en space) s) = g s :=
    foldl_keep g (fun s q => by
      unfold State.disableHost
      split
      · rfl
      · exact hg s q) _ _
  exact ⟨hkeep (g := State.tasks) (by simp), hkeep (g := State.dieMem) (by simp), hkeep (g := State.now) (by simp), hkeep (g := State.pcie) (by simp)⟩

end State

end Disable

namespace State

/-- The state whose link is in reset, before its queues are disabled. -/
def linkCut (s : State) : State := { s with pcie := { Pcie.reset with sent := s.pcie.sent, waiting := s.pcie.waiting } }

theorem linkReset_eq (s : State) : s.linkReset =
    ((List.range 16).foldl (State.disableHost F.EQ_CFG_en F.EQ_CFG_space)
      ((List.range 16).foldl (State.disableHost F.CQ_CFG_en F.CQ_CFG_space) s.linkCut)).setFld F.RST_STATUS_last_cause pkg 5 := rfl

theorem linkReset_fields (s : State) : s.linkReset.pcie.bme = false ∧ s.linkReset.tasks = s.tasks ∧
    s.linkReset.dieMem = s.dieMem ∧ s.linkReset.now = s.now ∧ s.linkReset.fld F.RST_STATUS_last_cause pkg = 5 := by
  rw [State.linkReset_eq]
  refine ⟨?_, ?_, ?_, ?_, State.fld_setFld _ _ _ (by decide)⟩ <;> simp [State.foldl_disableHost_fields, State.linkCut, Pcie.reset]

theorem linkReset_queues (s : State) {n : Nat} (hn : n < 16) :
    s.linkReset.bit F.CQ_CFG_en (pkg1 n) = (s.bit F.CQ_CFG_en (pkg1 n) && s.bit F.CQ_CFG_space (pkg1 n)) ∧
    s.linkReset.bit F.EQ_CFG_en (pkg1 n) = (s.bit F.EQ_CFG_en (pkg1 n) && s.bit F.EQ_CFG_space (pkg1 n)) := by
  have hdown (f : Fld) (ix : Ix) : s.linkCut.bit f ix = s.bit f ix := State.bit_congr rfl rfl f ix
  have hcq {f : Fld} (hf : f.reg ≠ .CQ_CFG) (ix : Ix) :
      ((List.range 16).foldl (State.disableHost F.CQ_CFG_en F.CQ_CFG_space) s.linkCut).bit f ix = s.bit f ix := by
    rw [State.bit, State.foldl_disableHost_reg _ _ _ hf, ← State.bit, hdown]
  have hin : (List.range 16).contains n = true := by simpa using hn
  rw [State.linkReset_eq]
  refine ⟨?_, ?_⟩
  · rw [State.bit_setFld_apart _ _ _ _ (by decide) (.inl (by simp [F.CQ_CFG_en, F.RST_STATUS_last_cause])), State.bit,
      State.foldl_disableHost_reg _ _ _ (by decide), ← State.bit, State.foldl_disableHost (by decide) (by decide), hdown, hdown, hin]
    rfl
  · rw [State.bit_setFld_apart _ _ _ _ (by decide) (.inl (by simp [F.EQ_CFG_en, F.RST_STATUS_last_cause])),
      State.foldl_disableHost (by decide) (by decide), hcq (by decide), hcq (by decide), hin]
    rfl

end State

/-! ## The package reset (R519) -/

theorem nmGet_map {α : Type} (f : α → α) (m : List (Nat × α)) (k : Nat) (d : α) :
    nmGet (m.map (fun e => (e.1, f e.2))) k (f d) = f (nmGet m k d) := by
  induction m with
  | nil => rfl
  | cons e m ih =>
    simp only [nmGet, List.map_cons, amGet] at ih ⊢
    split
    · rfl
    · exact ih

/-- A pin after a package reset. -/
def PinSt.afterReset (x : PinSt) : PinSt := { PinSt.reset with filt := Filt.init x.filt.raw }

namespace State

theorem packageReset_pin (s : State) (cause : Nat) (b : Bool) (p : Nat) :
    (s.packageReset cause b).pin p = (s.pin p).afterReset :=
  nmGet_map PinSt.afterReset s.pins p PinSt.reset

/-- The state of a package reset, before its cause is noted. -/
def cleared (s : State) (holds : Bool) : State :=
  { State.reset with
    pending := s.pending, variant := s.variant, fuses := s.fuses, straps := s.straps, dieMem := s.dieMem, ring := s.ring,
    hostMem := s.hostMem, freeCount := s.freeCount,
    pins := s.pins.map (fun (e : Nat × PinSt) => (e.1, e.2.afterReset)),
    trips := s.trips.map (fun (e : Nat × TripSt) => (e.1, { TripSt.reset with filt := Filt.init e.2.filt.raw })),
    fbs := s.fbs.map (fun (e : Nat × FbSt) => (e.1, { FbSt.reset with
      a := LineSt.init e.2.a.filt.raw, b := LineSt.init e.2.b.filt.raw, z := LineSt.init e.2.z.filt.raw })),
    boot := { Boot.reset with perst := s.boot.perst, rails := s.boot.rails, causeOn := holds } }

theorem packageReset_eq (s : State) (cause : Nat) (holds : Bool) :
    s.packageReset cause holds = (s.cleared holds).setFld F.RST_STATUS_last_cause pkg cause := rfl

theorem cleared_reg (s : State) (holds : Bool) : (s.cleared holds).reg .RST_STATUS pkg = 0x10 ∧ (s.cleared holds).reg .FLT_STATUS pkg = 0 := ⟨rfl, rfl⟩

theorem packageReset_ready (s : State) (cause : Nat) (holds : Bool) : (s.packageReset cause holds).ready = false := by
  rw [State.packageReset_eq, State.ready, State.bit_setFld_apart _ _ _ _ (by decide) (by decide), State.bit]
  exact (congrArg (bitOf · _) (State.cleared_reg s holds).1).trans (by decide)

theorem packageReset_pkgFault (s : State) (cause : Nat) (holds : Bool) : (s.packageReset cause holds).pkgFault = false := by
  rw [State.packageReset_eq, State.pkgFault, State.bit_setFld_apart _ _ _ _ (by decide) (by decide), State.bit]
  exact (congrArg (bitOf · _) (State.cleared_reg s holds).2).trans (by decide)

theorem packageReset_cause (s : State) {cause : Nat} (holds : Bool) (h : cause < 8) :
    (s.packageReset cause holds).fld F.RST_STATUS_last_cause pkg = cause := by
  rw [State.packageReset_eq, State.fld_setFld _ _ _ (by decide)]
  exact Nat.mod_eq_of_lt (Nat.lt_of_lt_of_le h (by decide))

theorem packageReset_die (s : State) (cause : Nat) (holds : Bool) (d : Nat) :
    ((s.packageReset cause holds).die d).live = false ∧ ((s.packageReset cause holds).die d).fenced = false ∧
    ((s.packageReset cause holds).die d).core = false := ⟨rfl, rfl, rfl⟩

/-! ## The obligation -/

theorem wrote_rstCtrl (s t : State) : s.wrote (.RST_CTRL, pkg) t = t := by
  have hreg : digestReg (.RST_CTRL, pkg) = false := by decide
  simp [State.wrote, hreg]

end State

theorem rstCtrlReset_result {s : State} {port : Port} (hop : s.Opens port (.RST_CTRL, pkg)) (v : Word) :
    exec (.rstCtrlReset port v) s = .next (rstCtrlWrite s port v) :=
  congrArg Host.Outcome.next (hop.write_eq ((State.writeKey_pkg _ _ _ _ (by decide)).trans (State.wrote_rstCtrl s _)))

/-- Settles O55: each command by its guard; a package reset leaves the reset state with what R519 keeps, and a reset of the
link disables the sixteen queues of each kind one after the other. -/
theorem resets : Obligations.Resets := by
  refine ⟨fun s port v rail n => ⟨rfl, fun hr => ?_, fun hs => ?_, fun hs => ?_, fun hop => ⟨fun h0 hkey => ?_, fun hbad => ?_⟩,
    ?_, rfl, s.linkReset_fields, s.linkReset_queues, fun hin hon hc => ?_, fun hin hon => ?_, fun hoff => ?_⟩,
    fun s t cause b hc ht => ?_⟩
  · exact congrArg Host.Outcome.next (if_pos hr)
  · exact congrArg Host.Outcome.next (if_neg (by simp [hs]))
  · exact congrArg Host.Outcome.next (if_pos hs)
  · rw [rstCtrlReset_result hop]
    exact congrArg Host.Outcome.next (if_pos (by simp [h0, hkey]))
  · rw [rstCtrlReset_result hop]
    exact congrArg Host.Outcome.next (if_neg (by
      rcases hbad with h0 | hkey
      · simp [h0]
      · simp [hkey]))
  · have hcause (a b : Bool) : (if (a && b) = true then false else a) = (a && !b) := by cases a <;> cases b <;> rfl
    refine congrArg Host.Outcome.next ?_
    simp only [hcause]
    rfl
  · exact congrArg Host.Outcome.next (if_pos (by simp [hin, hon, hc]))
  · exact congrArg Host.Outcome.next (if_pos (by simp [hin, hon]))
  · exact congrArg Host.Outcome.next (if_neg (by
      rcases hoff with hin | hon
      · simp [hin]
      · simp [hon]))
  · subst ht
    refine ⟨rfl, rfl, rfl, rfl, rfl, rfl, rfl, rfl, s.packageReset_ready cause b, s.packageReset_pkgFault cause b,
      s.packageReset_cause b hc, rfl, rfl, rfl, rfl, rfl, rfl, rfl, rfl, rfl, rfl, rfl, s.packageReset_die cause b, fun p => ?_⟩
    rw [State.packageReset_pin]
    exact ⟨rfl, rfl, rfl, rfl⟩

end Sys2Proof.Machine

/-! # Activations, and the host commands that make them (R71 to R75, R208, R209, R463) -/

namespace Sys2Proof.Machine

@[simp] theorem State.setTask_setTask (s : State) (t : Nat) (x y : Task) : (s.setTask t x).setTask t y = s.setTask t y := by
  simp [State.setTask]

/-! ## What `activate` does with an activation (R75, R217, R491) -/

namespace Task

theorem takes_running {k : Task} {x : Time} (hrun : k.state = .running) (hx : upTo k.startStamp x = true) :
    k.takes x = true := by
  simp [Task.takes, hrun, hx]

theorem takes_faulted {k : Task} {x : Time} (h : k.takes x = true) : k.state ≠ .faulted := by
  intro hf
  simp [Task.takes, hf] at h

end Task

section Activate
variable {s : State} {t : Nat} {k : Task} {a : Act} {src : Source}

namespace State

theorem activate_none (ht : s.task? t = none) : s.activate t a = s.bump F.FLT_ACT_DROP_dropped pkg := by
  simp [State.activate, ht]

theorem activate_faulted (ht : s.task? t = some k) (hf : k.state = .faulted) :
    s.activate t a = s.bump F.FLT_ACT_DROP_dropped pkg := by
  simp [State.activate, ht, hf]

theorem activate_undeclared (ht : s.task? t = some k) (htk : k.takes a.t = true) (hsrc : k.source? a.src a.slot = none) :
    s.activate t a = s := by
  simp [State.activate, ht, htk, hsrc, Task.takes_faulted htk]

theorem activate_enters (ht : s.task? t = some k) (htk : k.takes a.t = true) (hsrc : k.source? a.src a.slot = some src)
    (hroom : k.pendingOf a.src a.slot < src.maxPending) : s.activate t a = s.setTask t { k with pend := actInsert a k.pend } := by
  simp [State.activate, ht, htk, hsrc, Task.takes_faulted htk, hroom]

theorem activate_beyond (ht : s.task? t = some k) (htk : k.takes a.t = true) (hsrc : k.source? a.src a.slot = some src)
    (hfull : src.maxPending ≤ k.pendingOf a.src a.slot) :
    s.activate t a = if dropsEarly a.src then s.setTask t { k with dropped := k.dropped + 1 }
      else s.taskFault t 0x0B k.c.pc 0 a.t false := by
  simp [State.activate, ht, htk, hsrc, Task.takes_faulted htk, hfull]

end State

end Activate

theorem dropsEarly_iff (c : Nat) : dropsEarly c = true ↔ c = 4 ∨ c = 5 ∨ c = 6 := by
  simp [dropsEarly, or_assoc]

/-! ## A message in the pricking of its destination (R185, R202) -/

section Message
variable {s : State} {m : Msg} {k : Task} {slot : Nat}

namespace State

theorem takeMsg_to (hk : s.task? m.dst = some k) (hslot : k.slotOf 9 m.port = some slot) :
    s.takeMsg m = s.activate m.dst ⟨m.stamp, 2, slot, 0, false, m.rank, m.seq, m.idx, m.payload⟩ := by
  simp [State.takeMsg, hk, Task.inPort, hslot]

theorem takeMsg_undeclared (hk : s.task? m.dst = some k) (hslot : k.slotOf 9 m.port = none) : s.takeMsg m = s := by
  simp [State.takeMsg, hk, Task.inPort, hslot]

theorem takeMsg_gone (hk : s.task? m.dst = none) : s.takeMsg m = s.bump F.FLT_ACT_DROP_dropped pkg := by
  simp [State.takeMsg, hk]

theorem task?_erase {i t : Nat} {o : Option Task} (hk : s.task? t = o) :
    ({ s with msgs := s.msgs.eraseIdx i } : State).task? t = o := hk

end State

theorem messageDeliver_arrives {i : Nat} (hm : s.msgs[i]? = some m) (harr : s.mayArrive m.die (s.msgTo m) m.ord = true) :
    messageDeliver s i = ({ s with msgs := s.msgs.eraseIdx i } : State).takeMsg m := by
  simp [messageDeliver, hm, harr]

end Message

/-- Settles O18: a timer and a message reach `State.activate`, whose outcomes are the third part. -/
theorem activations : Obligations.Activations := by
  refine ⟨fun s t k x ht htimer hacts hrun hstop hx src hsrc hroom => ?_, fun s i m hm => ⟨fun hwait => ?_, ?_, ?_, ?_⟩,
    fun s t k a ht => ⟨State.activate_faulted ht, fun src htk hsrc => ⟨State.activate_enters ht htk hsrc, fun hfull hearly => ?_,
      fun hfull h4 h5 h6 => ?_⟩, fun _ htk hsrc => State.activate_undeclared ht htk hsrc⟩⟩
  · have hfire : timerFire s t = ((s.at x).setTask t { k with timer := none }).activate t ⟨x, 7, 0, 0, false, 0, 0, 0, []⟩ := by
      simp [timerFire, ht, htimer, hacts, Task.restarting, hstop]
    refine congrArg Host.Outcome.next (hfire.trans ?_)
    have htk : ({ k with timer := none } : Task).takes x = true := Task.takes_running hrun hx
    rw [State.activate_enters (a := ⟨x, 7, 0, 0, false, 0, 0, 0, []⟩) (State.task_setTask _ _ _) htk hsrc hroom, State.setTask_setTask]
  · exact congrArg Host.Outcome.next (by simp [messageDeliver, hm, hwait])
  · intro k slot src harr hk hslot hrun hstop hx hsrc hroom
    refine congrArg Host.Outcome.next ((messageDeliver_arrives hm harr).trans ((State.takeMsg_to (State.task?_erase hk) hslot).trans ?_))
    exact State.activate_enters (State.task?_erase hk) (Task.takes_running hrun hx) hsrc hroom
  · intro k harr hk hslot
    exact congrArg Host.Outcome.next ((messageDeliver_arrives hm harr).trans (State.takeMsg_undeclared (State.task?_erase hk) hslot))
  · intro harr hk
    exact congrArg Host.Outcome.next ((messageDeliver_arrives hm harr).trans (State.takeMsg_gone (State.task?_erase hk)))
  · rw [State.activate_beyond ht htk hsrc hfull, if_pos ((dropsEarly_iff _).2 hearly)]
  · rw [State.activate_beyond ht htk hsrc hfull, if_neg (by simp [dropsEarly_iff, h4, h5, h6])]

/-! ## TASK, START and STOP -/

namespace State

/-- A host activation that a running task has room for (R463): ACT_FAULT where it comes too soon, else OK. -/
theorem hostTask_enters {s : State} {t : Nat} {k : Task} {a : Act} {src : Source} (ht : s.task? t = some k)
    (hrun : k.state = .running) (hx : upTo k.startStamp a.t = true) (hsrc : k.source? a.src a.slot = some src)
    (hroom : k.pendingOf a.src a.slot < src.maxPending) :
    s.hostTask t a = (if k.hostSoon a.t then 0x85 else 0, s.setTask t { k with pend := actInsert a k.pend }) := by
  have htk := Task.takes_running hrun hx
  cases hs : k.hostSoon a.t <;>
    simp [State.hostTask, ht, htk, State.activate_enters ht htk hsrc hroom, hrun, hs]

/-- A task that holds a context and drains no older run starts at once (R209). -/
theorem startTask_loaded {s : State} {t : Nat} {k : Task} {a : Act} (ht : s.task? t = some k) (hl : k.state = .loaded)
    (hheld : k.held = true) (hq : s.unboundQueue k = false) :
    s.startTask t a = (0, (s.beginRun t { k with state := .running, startStamp := a.t, pend := [] }).activate t a) := by
  simp [State.startTask, ht, hl, hheld, hq, State.startRun]

end State

/-- Settles O19: each command by what its task's state answers. -/
theorem hostCommands : Obligations.HostCommands := by
  refine ⟨fun s q c => ⟨fun hc => ?_, fun hc ht => ?_, fun k hc ht htk => ?_, fun k src hc ht hrun hstop hx hsrc hroom => ?_⟩,
    fun s q c k ht => ⟨fun hc hrun => ?_, fun hc hl hheld hq => ?_, fun hc hrun hstop => ?_, fun hc hrun => ?_⟩⟩
  · exact congrArg Host.Outcome.next (by simp [hc, State.cqEnd])
  · exact congrArg Host.Outcome.next (by simp [hc, State.cqEnd, State.hostTask, ht])
  · exact congrArg Host.Outcome.next (by simp [hc, State.cqEnd, State.hostTask, ht, hostAct, htk])
  · have hin := State.hostTask_enters (a := hostAct q c) ht hrun hx hsrc hroom
    exact congrArg Host.Outcome.next (by simp only [hc, hin]; rfl)
  · exact congrArg Host.Outcome.next (by simp [State.placerCmd_runs hc, State.startTask, ht, hrun])
  · refine congrArg Host.Outcome.next ((State.placerCmd_runs hc _).trans ?_)
    rw [State.startTask_loaded ht hl hheld hq]
    rfl
  · refine congrArg Host.Outcome.next ?_
    simp [hc, State.namedTask, ht, Task.restarting, hstop, State.placerCmd_runs hc, State.stopTask, hrun, Task.deadline]
  · refine congrArg Host.Outcome.next ?_
    simp [hc, State.namedTask, ht, Task.restarting, hrun, State.placerCmd_runs hc, State.stopTask]

end Sys2Proof.Machine

/-! # Fallbacks, migration and rotation (R209, R220 to R226, R490, R491) -/

namespace Sys2Proof.Machine

/-! ## Fallbacks -/

section Fall
variable {s : State} {t : Nat} {k : Task} {x : Time} {run : Nat}

/-- The fallback that a STOP left takes the outputs with it and is owed no more. -/
theorem taskFall_stop (ht : s.task? t = some k) (hf : k.falls = [⟨x, run, none⟩]) : taskFall s t false =
    ((s.at x).outputsFall t run k.res x).modTask t (fun k => { k with falls := k.falls.erase ⟨x, run, none⟩ }) := by
  simp [taskFall, ht, hf]

/-- The one that a fault left is recorded too. -/
theorem taskFall_fault {f : Nat × Nat × Time} (ht : s.task? t = some k) (hf : k.falls = [⟨x, run, some f⟩]) : taskFall s t true =
    (((s.at x).outputsFall t run k.res x).modTask t (fun k => { k with falls := k.falls.erase ⟨x, run, some f⟩ })).taskFaultRec t
      k.die f x := by
  simp [taskFall, ht, hf]

end Fall

/-! ## Migration -/

section Migration
variable {s : State} {t : Nat} {k : Task} {g : Time}

/-- A move for the rotation of the die (R222, R225). -/
theorem migrationStart_rotation (ht : s.task? t = some k) (hfree : s.placerFree = true) (hrot : s.rotPhase k.die = 2)
    (hnext : s.rotNext k.die = some t) (hmay : s.mayMove k (ns 250) g = true) :
    migrationStart s t g = (s.at g).setTask t
      { k with mig := some ⟨k.die, (s.die k.die).rotFrom, k.ctx, k.codeBase, k.dataBase, k.tables, none⟩ } := by
  simp [migrationStart, ht, hfree, hrot, hnext, hmay]

/-- A move for a SET_AFFINITY (R220). -/
theorem migrationStart_affinity {q : Nat} {c : CqCmd} {p : Spot} (ht : s.task? t = some k) (hfree : s.placerFree = true)
    (hrot : s.rotPhase k.die ≠ 2) (haff : s.affinityOf t = some (q, c)) (hp : s.place t k (c.param 4).toNat false = .inl p)
    (hmay : s.mayMove k (k.moveBound p.die) g = true) :
    migrationStart s t g = (s.at g).setTask t
      { k with mig := some ⟨p.die, p.slot, p.ctx, p.codeBase, p.dataBase, p.tables, some (q, (c.param 4).toNat)⟩ } := by
  simp [migrationStart, ht, hfree, hrot, haff, hp, hmay]

end Migration

/-- Settles O22: each command by its guard. -/
theorem fallbacksAndMoves : Obligations.FallbacksAndMoves := by
  refine ⟨fun s t k x run ht => ⟨fun hf => ?_, fun f hf => ?_⟩, fun s t d q k g m c =>
    ⟨fun ht hfree hrot hnext hmay => ?_, fun ht hfree hrot haff p hp hmay => ?_, fun ht hm hcmd => ?_,
      fun ht hm mask u hcmd hu hq => ?_, fun hq w hw hst htime hmig => ?_, fun hlive hacts hfree htime hrot hsp hh => ?_,
      fun hrot hacts => ?_, fun hrot hmig htime => ?_⟩⟩
  · exact congrArg Host.Outcome.next (taskFall_stop ht hf)
  · exact congrArg Host.Outcome.next (taskFall_fault ht hf)
  · exact congrArg Host.Outcome.next (migrationStart_rotation ht hfree hrot hnext hmay)
  · exact congrArg Host.Outcome.next (migrationStart_affinity ht hfree hrot haff hp hmay)
  · exact congrArg Host.Outcome.next (by simp [migrationEnd, ht, hm, hcmd])
  · subst hu
    exact congrArg Host.Outcome.next (by simp [migrationEnd, ht, hm, hcmd, hq, State.cqEnd])
  · exact congrArg Host.Outcome.next (by simp [hq, hw, hst, htime, hmig, State.cqEnd])
  · exact congrArg Host.Outcome.next (by simp [rotationStart, hlive, hacts, hfree, htime, hrot, hsp, hh])
  · exact congrArg Host.Outcome.next (if_pos ⟨hrot, hacts⟩)
  · have hmoving : s.tasks.any (fun e => match e.2.mig with | some m => m.die == d && m.cmd.isNone | none => false) = false := by
      rw [List.any_eq_false]
      intro e he
      cases hy : e.2.mig with
      | none => simp
      | some y => simpa using hmig e he y hy
    exact congrArg Host.Outcome.next (if_pos ⟨hrot, hmoving, htime⟩)

end Sys2Proof.Machine

/-! # Input edges, captures and pin faults (R243 to R258) -/

namespace Sys2Proof.Machine

namespace State

theorem pin_congr {s u : State} (h : u.pins = s.pins) (p : Nat) : u.pin p = s.pin p := by rw [State.pin, State.pin, h]

theorem pin_setPin_ne (s : State) {p q : Nat} (x : PinSt) (h : q ≠ p) : (s.setPin p x).pin q = s.pin q := by
  simp [State.pin, State.setPin, nmGet_nmPut_ne _ _ _ _ _ h]

end State

/-! ## What an accepted edge leaves unchanged -/

section Units
variable (s : State)

namespace State

/-- Entering an accepted edge in a hoop or an interface changes no pin and no register. -/
@[simp] theorem fbPush_pins (n : Nat) (t : Time) (line : Nat) (b : Bool) :
    (s.fbPush n t line b).pins = s.pins ∧ (s.fbPush n t line b).regs = s.regs ∧ (s.fbPush n t line b).fuses = s.fuses := by
  simp [State.fbPush]

@[simp] theorem hoopEdge_pins (h : Nat) (t : Time) (b : Bool) (delay : Nat) :
    (s.hoopEdge h t b delay).pins = s.pins ∧ (s.hoopEdge h t b delay).regs = s.regs ∧ (s.hoopEdge h t b delay).fuses = s.fuses := by
  unfold State.hoopEdge
  dsimp only
  repeat' split
  all_goals simp

@[simp] theorem hoopIndex_pins (h : Nat) (t : Time) (b : Bool) (delay : Nat) :
    (s.hoopIndex h t b delay).pins = s.pins ∧ (s.hoopIndex h t b delay).regs = s.regs ∧ (s.hoopIndex h t b delay).fuses = s.fuses := by
  unfold State.hoopIndex
  split <;> simp

@[simp] theorem pinToUnits_pins (p : Nat) (t : Time) (b : Bool) :
    (s.pinToUnits p t b).pins = s.pins ∧ (s.pinToUnits p t b).regs = s.regs ∧ (s.pinToUnits p t b).fuses = s.fuses := by
  have hkeep {α : Type} {g : State → α} (hfb : ∀ u n t l b, g (State.fbPush u n t l b) = g u)
      (he : ∀ u h t b d, g (State.hoopEdge u h t b d) = g u) (hi : ∀ u h t b d, g (State.hoopIndex u h t b d) = g u) :
      g (s.pinToUnits p t b) = g s := by
    unfold State.pinToUnits
    dsimp only
    refine (foldl_keep g (fun u i => ?_) _ _).trans (foldl_keep g (fun u i => ?_) _ _)
    all_goals
      repeat' split
      all_goals simp only [hfb, he, hi]
  exact ⟨hkeep (by simp) (by simp) (by simp), hkeep (by simp) (by simp) (by simp), hkeep (by simp) (by simp) (by simp)⟩

@[simp] theorem closeGap_units (d : Nat) (g : Time) :
    (s.closeGap d g).tasks = s.tasks ∧ (s.closeGap d g).pins = s.pins ∧ (s.closeGap d g).cars = s.cars ∧
    (s.closeGap d g).trips = s.trips ∧ (s.closeGap d g).fbs = s.fbs ∧ (s.closeGap d g).flight = s.flight ∧
    (s.closeGap d g).msgs = s.msgs := by
  unfold State.closeGap
  split <;> simp [State.detRec, State.emitUnit]

@[simp] theorem ringWrite_units (q pos : Nat) (l : List Word) :
    (s.ringWrite q pos l).tasks = s.tasks ∧ (s.ringWrite q pos l).pins = s.pins ∧ (s.ringWrite q pos l).cars = s.cars ∧
    (s.ringWrite q pos l).trips = s.trips ∧ (s.ringWrite q pos l).fbs = s.fbs ∧ (s.ringWrite q pos l).flight = s.flight ∧
    (s.ringWrite q pos l).msgs = s.msgs := by
  induction l generalizing s pos with
  | nil => simp [State.ringWrite]
  | cons w r ih => simp [State.ringWrite, ih]

/-- The log touches the queue of its die, the lost count and the records, no task and no unit that commands an output. -/
@[simp] theorem log_units (d kind flags unit : Nat) (t : Time) (ws : List Word) :
    (s.log d kind flags unit t ws).tasks = s.tasks ∧ (s.log d kind flags unit t ws).pins = s.pins ∧
    (s.log d kind flags unit t ws).cars = s.cars ∧ (s.log d kind flags unit t ws).trips = s.trips ∧
    (s.log d kind flags unit t ws).fbs = s.fbs ∧ (s.log d kind flags unit t ws).flight = s.flight ∧
    (s.log d kind flags unit t ws).msgs = s.msgs := by
  unfold State.log
  dsimp only
  split_ifs <;> simp [State.putPacket]

@[simp] theorem bumpMod_pins (f : Fld) (ix : Ix) : (s.bumpMod f ix).pins = s.pins := by simp [State.bumpMod]

end State

end Units

/-! ## The acceptance of a level (R245) -/

namespace State

/-- A pin that has accepted the level at its ball, with its history if capture takes it. -/
def acceptedPin (s : State) (p : Nat) : PinSt :=
  let x := s.pin p
  let y := { x with filt := x.filt.accept }
  if s.bit F.PIN_CTRL_cap_en (pinIx p) && s.capTakes p x.filt.raw then { y with caps := (x.filt.since, x.filt.raw) :: x.caps } else y

theorem capTakes_congr {s u : State} {p : Nat} (hr : u.regs = s.regs) (hf : u.fuses = s.fuses) (b : Bool) :
    u.capTakes p b = s.capTakes p b := by
  simp only [State.capTakes, State.fld, State.reg_congr hr hf]

theorem pinAccept_pins (s : State) (p : Nat) : (s.pinAccept p).pins = (s.setPin p (s.acceptedPin p)).pins := by
  have hen (x : PinSt) (t : Time) (b : Bool) :
      ((s.setPin p x).pinToUnits p t b).bit F.PIN_CTRL_cap_en (pinIx p) = s.bit F.PIN_CTRL_cap_en (pinIx p) :=
    State.bit_congr (by simp) (by simp) _ _
  have htk (x : PinSt) (t : Time) (b c : Bool) : ((s.setPin p x).pinToUnits p t b).capTakes p c = s.capTakes p c :=
    State.capTakes_congr (by simp) (by simp) c
  have hpin (x : PinSt) (t : Time) (b : Bool) : ((s.setPin p x).pinToUnits p t b).pin p = x :=
    (State.pin_congr (State.pinToUnits_pins _ p t b).1 p).trans (State.pin_setPin _ _ _)
  unfold State.pinAccept State.acceptedPin
  simp only [hen, htk, State.modPin, hpin]
  cases hc : s.bit F.PIN_CTRL_cap_en (pinIx p) && s.capTakes p (s.pin p).filt.raw with
  | false => simp
  | true =>
    simp only [if_true]
    repeat' split
    all_goals simp [State.setPin]

theorem pinAccept_pin (s : State) (p : Nat) : (s.pinAccept p).pin p = s.acceptedPin p :=
  (State.pin_congr (s.pinAccept_pins p) p).trans (State.pin_setPin _ _ _)

theorem pinAccept_pin_ne (s : State) {p q : Nat} (h : q ≠ p) : (s.pinAccept p).pin q = s.pin q :=
  (State.pin_congr (s.pinAccept_pins p) q).trans (State.pin_setPin_ne _ _ h)

theorem acceptedPin_filt (s : State) (p : Nat) : (s.acceptedPin p).filt = (s.pin p).filt.accept := by
  unfold State.acceptedPin
  dsimp only
  split <;> rfl

@[simp] theorem at_pinDelay (s : State) (g : Time) (p : Nat) : (s.at g).pinDelay p = s.pinDelay p := by simp [State.pinDelay]

end State

namespace Filt

theorem edge_ne {f : Filt} {level : Bool} (t : Time) (h : level ≠ f.raw) : f.edge t level = ⟨level, t, f.out⟩ := by
  simp [Filt.edge, h]

theorem waits_iff (f : Filt) : f.waits = true ↔ f.raw ≠ f.out := by simp [Filt.waits]

end Filt

/-- Settles O23: an edge by the state of the pin's filter, an acceptance by `State.pinAccept_pins`, a difference by its cause. -/
theorem pinEvents : Obligations.PinEvents := by
  refine ⟨fun s p x stamp level hx => ?_, fun s p g e hacts => ⟨fun hf => ?_, fun hr => ?_, fun hr => ?_, fun t ht hfree => ?_⟩⟩
  · subst hx
    refine ⟨fun hl => ?_, fun hrun hidle hl => ?_, fun hrun hw hl hd hst => ?_, fun hrun hw hl hd hn => ?_, fun hrun hw => ?_⟩
    · exact congrArg Host.Outcome.next (if_pos hl)
    · have hne : level ≠ (s.pin p).filt.raw := by simp [hl]
      have hidle' : (s.pin p).filt.waits = false := by simp [Filt.waits, hidle]
      exact congrArg Host.Outcome.next (by simp [pinInputEdge, hne, hrun, hidle', Filt.edge_ne])
    · have hne : level ≠ (s.pin p).filt.raw := fun h => hw (h.symm.trans hl)
      have hst' : (s.pin p).filt.stable (ns (s.pinDelay p)) stamp = false := by
        rw [Filt.stable, ns, hst, Bool.and_false]
      exact congrArg Host.Outcome.next (by
        simp [pinInputEdge, hne, hrun, (Filt.waits_iff _).2 hw, hd, hst', Filt.edge_ne])
    · have hne : level ≠ (s.pin p).filt.raw := fun h => hw (h.symm.trans hl)
      have hn' : before stamp ((s.pin p).filt.since + picots 128) = true := hn
      exact congrArg Host.Outcome.next (by
        simp [pinInputEdge, hne, hrun, (Filt.waits_iff _).2 hw, hd, hn', Filt.edge_ne])
    · refine ⟨_, congrArg Host.Outcome.next (if_pos (by simp [hrun, (Filt.waits_iff _).2 hw])), ?_, fun hcap => ?_,
        fun hcap htk => ?_, fun q hq => ?_⟩
      · rw [State.pinAccept_pin, State.acceptedPin_filt]
        simp [Filt.accept]
      · rw [State.pinAccept_pin]
        simp [State.acceptedPin, hcap]
      · rw [State.pinAccept_pin]
        simp [State.acceptedPin, hcap, State.capTakes_congr (State.at_regs s _) (State.at_fuses s _), htk]
      · rw [State.pinAccept_pin_ne _ hq, State.at_pin]
  · exact congrArg Host.Outcome.next (if_pos (by simp [hacts, hf]))
  · exact congrArg Host.Outcome.next (if_pos (by simp [hacts, State.pinDriven, hr]))
  · exact congrArg Host.Outcome.next (if_pos (by simp [hacts, State.pinDriven, hr]))
  · subst ht
    simp [State.failPin, State.modPin, hfree]

end Sys2Proof.Machine

/-! # Stitches take effect, and effects reach their units (R233 to R240, R413, R414) -/

namespace Sys2Proof.Machine

/-! ## Stitches -/

namespace State

theorem pinLevel_congr {s u : State} {p : Nat} (hr : u.regs = s.regs) (hf : u.fuses = s.fuses)
    (ho : (u.pin p).owner = (s.pin p).owner) (hl : (u.pin p).lvl = (s.pin p).lvl) (hst : (u.pin p).started = (s.pin p).started) :
    u.pinLevel p = s.pinLevel p := by
  simp only [State.pinLevel, State.pinFallback, State.fld, State.bit, State.reg_congr hr hf, ho, hl, hst]
  rfl

theorem runLevel_congr {s u : State} (h : u.tasks = s.tasks) (x : PinSt) (a : Stitch) : u.runLevel x a = s.runLevel x a := by
  have ht : u.task? a.task = s.task? a.task := by rw [State.task?, State.task?, h]
  simp only [State.runLevel, ht]

/-- A pin that has taken the first edge of its queue (R232, R235). -/
def tookEdge (s : State) (p : Nat) (a : Stitch) (rest : List Stitch) : PinSt :=
  { s.pin p with
    queue := rest, lvl := a.level, started := true, lastLvl := s.runLevel (s.pin p) a,
    edge := if a.level = s.pinLevel p then (s.pin p).edge else some (a.stamp, s.pinLevel p) }

theorem takeEdge_result (s : State) (p : Nat) (a : Stitch) (rest : List Stitch) :
    (s.modPin p (fun x => { x with queue := rest })).takeEdge p a =
      (let y := s.setPin p (s.tookEdge p a rest)
       if (s.pin p).failed ∧ a.cls ≠ 2 then y.bump F.PIN_DROP_COUNT_count (pinIx p) else y) := by
  have hlvl : (s.modPin p (fun x => { x with queue := rest })).pinLevel p = s.pinLevel p :=
    State.pinLevel_congr (by simp) (by simp) (by simp [State.modPin]) (by simp [State.modPin]) (by simp [State.modPin])
  unfold State.takeEdge
  dsimp only
  rw [hlvl]
  simp only [State.modPin, State.setPin_setPin, State.pin_setPin]
  rfl

end State

/-- The first stitch of a pin takes effect, unless it begins a pulse that the next one takes back within 2 ns. -/
theorem stitchApply_takes {s : State} {p : Nat} {a : Stitch} {rest : List Stitch} (hq : (s.pin p).queue = a :: rest)
    (hrun : s.dieRuns (p / 64) = true)
    (hno : ∀ b rest', rest = b :: rest' → a.level = s.pinLevel p ∨ b.level ≠ s.pinLevel p ∨ before b.stamp (a.stamp + 128#64) = false) :
    stitchApply s p = ((s.at a.stamp).modPin p (fun x => { x with queue := rest })).takeEdge p a := by
  have hat : (s.at a.stamp).pinLevel p = s.pinLevel p := State.pinLevel_congr (by simp) (by simp) (by simp) (by simp) (by simp)
  cases rest with
  | nil => simp [stitchApply, hq, hrun]
  | cons b rest' =>
    have hkeep : (a.level != s.pinLevel p && before b.stamp (a.stamp + picots 128) && b.level == s.pinLevel p) = false := by
      rcases hno b rest' rfl with h | h | h
      · simp [h]
      · simp [h]
      · rw [show a.stamp + picots 128 = a.stamp + 128#64 from rfl, h, Bool.and_false, Bool.false_and]
    simp only [stitchApply, hq, hrun, hat, hkeep]
    rfl

/-- A pulse shorter than 2 ns is merged (R236). -/
theorem stitchApply_merges {s : State} {p : Nat} {a b : Stitch} {rest : List Stitch} (hq : (s.pin p).queue = a :: b :: rest)
    (hrun : s.dieRuns (p / 64) = true) (ha : a.level ≠ s.pinLevel p) (hb : b.level = s.pinLevel p)
    (hshort : before b.stamp (a.stamp + 128#64) = true) :
    stitchApply s p = (((s.at a.stamp).setPin p { s.pin p with queue := rest, lastLvl := s.runLevel (s.pin p) b }).dropWins p
      [a.stamp, b.stamp]).bump F.PIN_MERGE_COUNT_count (pinIx p) := by
  have hat : (s.at a.stamp).pinLevel p = s.pinLevel p := State.pinLevel_congr (by simp) (by simp) (by simp) (by simp) (by simp)
  have hmerge : (a.level != s.pinLevel p && before b.stamp (a.stamp + picots 128) && b.level == s.pinLevel p) = true := by
    rw [show a.stamp + picots 128 = a.stamp + 128#64 from rfl, hshort]
    simp [ha, hb]
  simp only [stitchApply, hq, hrun, hat, hmerge, State.modPin, State.at_pin, State.runLevel_congr (State.at_tasks s a.stamp)]
  rfl

/-! ## Effects on their way (R40, R79) -/

section Arrival
variable {s u : State} {i : Nat} {e : Eff}

/-- What may arrive is on its way no more, and takes its place at its unit. -/
theorem effectArrival_delivers (hi : s.flight[i]? = some e) (hu : u = { s with flight := s.flight.eraseIdx i })
    (hacts : s.dieActs e.kind.die = true) (harr : s.mayArrive e.die e.kind.die e.ord = true) (hs : e.kind.isSample = false)
    (hb : s.packetBefore e = false) : exec (.effectArrival i) s = .next (u.deliver e) := by
  subst hu
  have hin : (e.kind.isSample || !s.mayArrive e.die e.kind.die e.ord || s.packetBefore e) = false := by simp [harr, hs, hb]
  refine congrArg Host.Outcome.next ?_
  simp only [effectArrival, hi, hin]
  exact if_pos hacts

theorem effectArrival_waits (hi : s.flight[i]? = some e)
    (hw : s.mayArrive e.die e.kind.die e.ord = false ∨ s.packetBefore e = true) : exec (.effectArrival i) s = .next s := by
  refine congrArg Host.Outcome.next ?_
  rcases hw with h | h <;> simp [effectArrival, hi, h]

theorem State.packetBefore_other (h : ∀ q ws, e.kind ≠ .packet q ws) : s.packetBefore e = false := by
  unfold State.packetBefore
  split
  · exact absurd ‹_› (h _ _)
  · rfl

end Arrival

/-- Settles O24: a stitch by its next one, an effect by `State.deliver` on the state it has left. -/
theorem stitchesAndEffects : Obligations.StitchesAndEffects := by
  refine ⟨fun s p x a rest hx hrun => ⟨fun y hq hno hy => ?_, fun b rest' hq hr ha hb hshort => ?_, fun hfind => ?_⟩,
    fun s u i e hi hu hacts => ⟨fun hw => effectArrival_waits hi (.inl hw), fun harr => ?_⟩⟩
  · subst hx
    have happly := (stitchApply_takes hq hrun hno).trans ((s.at a.stamp).takeEdge_result p a rest)
    have hpin : (s.at a.stamp).tookEdge p a rest = s.tookEdge p a rest := by
      have hat : (s.at a.stamp).pinLevel p = s.pinLevel p := State.pinLevel_congr (by simp) (by simp) (by simp) (by simp) (by simp)
      simp only [State.tookEdge, hat, State.at_pin, State.runLevel_congr (State.at_tasks s a.stamp)]
    have hy' : y = (s.at a.stamp).setPin p (s.tookEdge p a rest) := hy
    rw [hpin, ← hy', State.at_pin] at happly
    refine ⟨fun hok => congrArg Host.Outcome.next (happly.trans (if_neg ?_)), fun hf hc =>
      congrArg Host.Outcome.next (happly.trans (if_pos ⟨hf, hc⟩))⟩
    rintro ⟨hf, hc⟩
    rcases hok with h | h
    · simp [h] at hf
    · exact hc h
  · subst hx hr
    exact congrArg Host.Outcome.next (stitchApply_merges hq hrun ha hb hshort)
  · subst hx
    refine congrArg Host.Outcome.next ?_
    simp only [stitchLock, hfind, hrun, if_true, State.modPin, State.at_pin]
    rfl
  · have hother (hs : e.kind.isSample = false) (hk : ∀ q ws, e.kind ≠ .packet q ws) :=
      effectArrival_delivers hi hu hacts harr hs (State.packetBefore_other hk)
    refine ⟨fun p l r o hk ho => ?_, fun c n f d v hk => ?_, fun j hk => ?_, fun n p sp pin slot hk => ?_, fun h k d q hk => ?_,
      fun q upTo gen hk => ?_, fun q ws hk hb => effectArrival_waits hi (.inr hb), fun q ws hk hb => ?_⟩
    · rw [hother (by simp [hk, EffKind.isSample]) (by simp [hk])]
      have ho' : (u.pin p).owner = .task e.task := by rw [hu]; exact ho
      simp [State.deliver, hk, ho']
    · rcases hk with hk | hk <;>
        (rw [hother (by simp [hk, EffKind.isSample]) (by simp [hk])]; simp only [State.deliver, hk]; rw [hu]; rfl)
    · rw [hother (by simp [hk, EffKind.isSample]) (by simp [hk])]
      simp only [State.deliver, hk]
      rw [hu]
      rfl
    · rcases hk with hk | hk <;>
        (rw [hother (by simp [hk, EffKind.isSample]) (by simp [hk])]; simp only [State.deliver, hk]; rw [hu]; rfl)
    · rcases hk with hk | hk <;>
        (rw [hother (by simp [hk, EffKind.isSample]) (by simp [hk])]; simp only [State.deliver, hk]; rw [hu]; rfl)
    · rw [hother (by simp [hk, EffKind.isSample]) (by simp [hk])]
      simp only [State.deliver, hk]
      rw [hu]
      rfl
    · rw [effectArrival_delivers hi hu hacts harr (by simp [hk, EffKind.isSample]) hb]
      simp [State.deliver, hk]

end Sys2Proof.Machine

/-! # Writes of the pin and the pair registers (R247, R261 to R265, R273, R284) -/

namespace Sys2Proof.Machine

/-- A write of a register of a die window, of 32 bits, that no running task locks, through a port that reaches it. -/
theorem State.Opens.dieWrite {s : State} {port : Port} {r : Reg} {ix : Ix} (hop : s.Opens port (r, ix)) (v : Word)
    (hlock : s.lockBit (r, ix) = none) (hr : r.info.win = true ∧ r.info.half ≠ 1 ∧ r.info.half ≠ 2) :
    s.hostWriteReg port (r, ix) v = s.wrote (r, ix) (s.writeDieReg port r ix v) :=
  hop.write_eq (State.writeKey_die port v hlock hr)

/-! ## Pins -/

section Pin
variable (s : State) (port : Port) (p : Nat) (v : Word)

theorem pinIx_number : 64 * (pinIx p).d + (pinIx p).i = p := Nat.div_add_mod p 64

theorem State.writeDieReg_pin :
    s.writeDieReg port .PIN_CTRL (pinIx p) v = pinCtrlWrite s port p v ∧
    s.writeDieReg port .PIN_CAP_SEL (pinIx p) v = pinCapSelWrite s port p v ∧
    s.writeDieReg port .PIN_CMD (pinIx p) v = pinCmdWrite s port p v := by
  have hp := pinIx_number p
  refine ⟨?_, ?_, ?_⟩
  · exact congrArg (pinCtrlWrite s port · v) hp
  · exact congrArg (pinCapSelWrite s port · v) hp
  · exact congrArg (pinCmdWrite s port · v) hp

variable {s port p v}

theorem pinCtrlWrite_rejected (h : s.ownerRuns (s.pin p).owner = true ∨ bitsOf v 0 2 = 3 ∨ bitsOf v 2 2 = 3) :
    pinCtrlWrite s port p v = s.setBit F.PIN_STATUS_write_reject (pinIx p) true :=
  if_pos (by rcases h with h | h | h <;> simp [h])

/-- A write of PIN_CTRL that is taken: enabling capture clears the history (R247). -/
theorem pinCtrlWrite_taken (ho : s.ownerRuns (s.pin p).owner = false) (h0 : bitsOf v 0 2 ≠ 3) (h2 : bitsOf v 2 2 ≠ 3) :
    pinCtrlWrite s port p v = (s.plainWrite .PIN_CTRL (pinIx p) v).setPin p
      (if !s.bit F.PIN_CTRL_cap_en (pinIx p) && bitOf v 4 then
        { s.pin p with lvl := s.pinLevel p, caps := [], capInit := (s.pin p).filt.out } else { s.pin p with lvl := s.pinLevel p }) := by
  have hplain : (s.plainWrite .PIN_CTRL (pinIx p) v).pin p = s.pin p := State.pin_congr rfl p
  unfold pinCtrlWrite
  rw [if_neg (by simp [ho, h0, h2])]
  simp only [State.modPin, hplain, State.pin_setPin, State.setPin_setPin]
  split <;> rfl

/-- A fault clear (R255, R512). -/
theorem pinCmdWrite_clear : pinCmdWrite s port p 1 =
    if (s.pin p).failed && !s.ownerRuns (s.pin p).owner && !s.tripCheckHolds p then
      (s.setPin p { s.pin p with failed := false, started := false }).retrip (p / 64) s.now
    else s.setBit F.PIN_STATUS_cmd_reject (pinIx p) true := by
  have hbit : (!bitOf 1 0) = false := by decide
  unfold pinCmdWrite
  rw [hbit]
  rfl

end Pin

/-! ## Pairs -/

/-- A pair that is set and then changed; beyond the last pair neither does anything. -/
theorem State.setPair_change (s : State) (c n : Nat) (x : PairSt) (f : PairSt → PairSt) :
    (s.setPair c n x).setPair c n (f ((s.setPair c n x).pair c n)) = s.setPair c n (f x) := by
  by_cases hn : n < (s.car c).pairs.length
  · have hx : (s.setPair c n x).pair c n = x := by simp [State.setPair, State.modCar, State.pair, hn]
    rw [hx]
    simp [State.setPair, State.modCar]
  · have hset (y : PairSt) : (s.car c).pairs.set n y = (s.car c).pairs := List.set_eq_of_length_le (Nat.le_of_not_lt hn)
    simp [State.setPair, State.modCar, hset]

section Pair
variable {s : State} {port : Port} {c n : Nat} {v : Word}

theorem carIx_number (c : Nat) : 16 * (carIx c).d + (carIx c).i = c := Nat.div_add_mod c 16

namespace State

theorem lockBit_pair (h : s.unitRuns 3 c = false) : s.lockBit (.PAIR_CFG, pairIx c n) = none := by
  have hc : 16 * (pairIx c n).d + (pairIx c n).i = c := Nat.div_add_mod c 16
  have hlock : s.lockBit (.PAIR_CFG, pairIx c n) = (if s.unitRuns 3 (16 * (pairIx c n).d + (pairIx c n).i) then
    some (F.CAR_STATUS_write_reject, carIx (16 * (pairIx c n).d + (pairIx c n).i)) else none) := rfl
  rw [hlock, hc, h]
  rfl

theorem writeDieReg_pair : s.writeDieReg port .PAIR_CFG (pairIx c n) v = pairCfgWrite s port c n v :=
  congrArg (pairCfgWrite s port · n v) (Nat.div_add_mod c 16)

end State

theorem State.Opens.pairCfg (hop : s.Opens port (.PAIR_CFG, pairIx c n)) (hrun : s.unitRuns 3 c = false) :
    exec (.pairCfgWrite port c n v) s = .next (s.wrote (.PAIR_CFG, pairIx c n) (pairCfgWrite s port c n v)) :=
  congrArg Host.Outcome.next ((hop.dieWrite v (State.lockBit_pair hrun) (by decide)).trans (by rw [State.writeDieReg_pair]))

namespace State

theorem bit_plainWrite_en : (s.plainWrite .PAIR_CFG (pairIx c n) v).bit F.PAIR_CFG_en (pairIx c n) = bitOf v 0 := by
  have hmask : Reg.PAIR_CFG.info.rw.testBit 0 = true ∧ Reg.PAIR_CFG.info.w1c.testBit 0 = false ∧ Reg.PAIR_CFG.info.w1s.testBit 0 = false := by
    decide
  obtain ⟨hrw, hw1c, hw1s⟩ := hmask
  have hreg : (s.plainWrite .PAIR_CFG (pairIx c n) v).reg .PAIR_CFG (pairIx c n) = writeMask .PAIR_CFG (s.reg .PAIR_CFG (pairIx c n)) v :=
    State.reg_setReg _ _ _ _
  rw [State.bit, show F.PAIR_CFG_en.reg = .PAIR_CFG from rfl, hreg, bitOf, getLsbD_writeMask _ _ _ (by decide), bitOf]
  simp [show F.PAIR_CFG_en.lo = 0 from rfl, hrw, hw1c, hw1s]

/-- A pair that the write leaves disabled is held by nothing. -/
theorem pairHeld_disabled (hv : bitOf v 0 = false) : (s.plainWrite .PAIR_CFG (pairIx c n) v).pairHeld c n = false := by
  rw [State.pairHeld, State.pairEn, State.bit_plainWrite_en, hv, Bool.false_and]

end State

variable {hi lo : Nat}

namespace State

theorem pinFreeFor_task {p t : Nat} {low : Bool} (h : (s.pin p).owner = .task t) : s.pinFreeFor p (.car c n low) = false := by
  simp [State.pinFreeFor, h]

/-- What R264, R265 and R273 forbid a write of PAIR_CFG. -/
def pairBad (s : State) (c n hi lo : Nat) (en : Bool) : Bool :=
  (en && ((!s.pinFreeFor hi (.car c n false) && !s.pinFreeFor hi (.car c n true)) ||
    (!s.pinFreeFor lo (.car c n true) && !s.pinFreeFor lo (.car c n false)))) || hi == lo ||
  (en && decide (0 < n) && !s.pairEn c (n - 1)) || (!en && decide (n < 3) && s.pairEn c (n + 1)) ||
  (en && !decide (s.pairDt c n + s.pairMp c n ≤ s.carHp c))

/-- A pair whose write is taken: out of its trip state where nothing holds it any more, with its register written. -/
def pairWritten (s : State) (c n : Nat) (v : Word) : State :=
  (if s.pairEn c n && (s.pair c n).tripped && !(s.plainWrite .PAIR_CFG (pairIx c n) v).pairHeld c n then s.pairUntrip c n s.now
    else s).plainWrite .PAIR_CFG (pairIx c n) v

end State

theorem pairCfgWrite_eq (hhi : hi = 64 * (c / 16) + bitsOf v 8 6) (hlo : lo = 64 * (c / 16) + bitsOf v 16 6) :
    pairCfgWrite s port c n v =
      if s.pairBad c n hi lo (bitOf v 0) then s.setBit F.CAR_STATUS_cfg_reject (carIx c) true
      else if bitOf v 0 then
        let u := (s.pairWritten c n v).freePairPins c n [hi, lo]
        let u := if s.pairEn c n then u else u.setPair c n { u.pair c n with hi := SwSt.reset, lo := SwSt.reset, ref := false, fallback := true }
        let u := u.setPair c n { u.pair c n with tripped := false }
        let u := (u.takePairPin c n false hi).takePairPin c n true lo
        u.retrip (c / 16) u.now
      else
        let u := (s.pairWritten c n v).freePairPins c n []
        u.setPair c n { PairSt.reset with off := (u.pair c n).off } := by
  subst hhi hlo
  rfl

/-- A write of PAIR_CFG that R264, R265 or R273 forbids. -/
theorem pairCfgWrite_rejected (hhi : hi = 64 * (c / 16) + bitsOf v 8 6) (hlo : lo = 64 * (c / 16) + bitsOf v 16 6)
    (hbad : hi = lo ∨ (bitOf v 0 = true ∧ 0 < n ∧ s.pairEn c (n - 1) = false) ∨
      (bitOf v 0 = false ∧ n < 3 ∧ s.pairEn c (n + 1) = true) ∨ (bitOf v 0 = true ∧ s.carHp c < s.pairDt c n + s.pairMp c n) ∨
      (bitOf v 0 = true ∧ ∃ t, (s.pin hi).owner = .task t ∨ (s.pin lo).owner = .task t)) :
    pairCfgWrite s port c n v = s.setBit F.CAR_STATUS_cfg_reject (carIx c) true := by
  rw [pairCfgWrite_eq hhi hlo, if_pos]
  unfold State.pairBad
  rcases hbad with h | ⟨hv, hn, hp⟩ | ⟨hv, hn, hp⟩ | ⟨hv, hh⟩ | ⟨hv, t, h | h⟩
  · simp [h]
  · simp [hv, hn, hp]
  · simp [hv, hn, hp]
  · simp [hv, hh]
  · simp [hv, State.pinFreeFor_task h]
  · simp [hv, State.pinFreeFor_task h]

/-- A write of PAIR_CFG that enables a pair (R264). -/
theorem pairCfgWrite_enables {u : State} (hhi : hi = 64 * (c / 16) + bitsOf v 8 6) (hlo : lo = 64 * (c / 16) + bitsOf v 16 6)
    (hv : bitOf v 0 = true) (hne : hi ≠ lo) (hfhi : (s.pin hi).owner = .free) (hflo : (s.pin lo).owner = .free)
    (hwas : s.pairEn c n = false) (hgap : 0 < n → s.pairEn c (n - 1) = true) (hfit : s.pairDt c n + s.pairMp c n ≤ s.carHp c)
    (hu : u = (s.plainWrite .PAIR_CFG (pairIx c n) v).freePairPins c n [hi, lo]) :
    pairCfgWrite s port c n v =
      (let w := ((u.setPair c n { u.pair c n with
          hi := SwSt.reset, lo := SwSt.reset, ref := false, fallback := true, tripped := false }).takePairPin c n false hi).takePairPin
            c n true lo
       w.retrip (c / 16) w.now) := by
  have hok : s.pairBad c n hi lo true = false := by
    simp [State.pairBad, hne, State.pinFreeFor, hfhi, hflo, hfit]
    exact hgap
  have hw : s.pairWritten c n v = s.plainWrite .PAIR_CFG (pairIx c n) v := by simp [State.pairWritten, hwas]
  rw [pairCfgWrite_eq hhi hlo, hv, hok, hwas, hw, ← hu]
  simp only [Bool.false_eq_true, if_false, if_true, State.setPair_change u c n _ (fun x => { x with tripped := false })]

/-- A write of PAIR_CFG that disables a pair, taken out of its trip state first (R284). -/
theorem pairCfgWrite_disables {u : State} (hhi : hi = 64 * (c / 16) + bitsOf v 8 6) (hlo : lo = 64 * (c / 16) + bitsOf v 16 6)
    (hv : bitOf v 0 = false) (hne : hi ≠ lo) (hgap : n < 3 → s.pairEn c (n + 1) = false)
    (hu : u = (if s.pairEn c n && (s.pair c n).tripped then s.pairUntrip c n s.now else s)) :
    pairCfgWrite s port c n v =
      (let w := (u.plainWrite .PAIR_CFG (pairIx c n) v).freePairPins c n []
       w.setPair c n { PairSt.reset with off := (w.pair c n).off }) := by
  have hok : s.pairBad c n hi lo false = false := by
    simp [State.pairBad, hne]
    exact hgap
  have hw : s.pairWritten c n v = u.plainWrite .PAIR_CFG (pairIx c n) v := by
    simp only [State.pairWritten, State.pairHeld_disabled hv, Bool.not_false, Bool.and_true, hu]
  rw [pairCfgWrite_eq hhi hlo, hv, hok, hw]
  rfl

end Pair

/-- Settles O26: each write through `State.Opens.dieWrite`, by what the unit's own write answers. -/
theorem pinAndPairWrites : Obligations.PinAndPairWrites := by
  refine ⟨fun s port p v x hx => ?_, fun s port c n v hi lo hop hrun hhi hlo =>
    ⟨fun hbad => ?_, fun u hv hne hfhi hflo hwas hgap hfit hu => ?_, fun u hv hne hgap hwas hu => ?_, fun u hv hne hgap hwas htrip hu => ?_⟩⟩
  · subst hx
    obtain ⟨hctrl, hsel, hcmd⟩ := State.writeDieReg_pin s port p v
    have hclear := (State.writeDieReg_pin s port p 1).2.2
    refine ⟨fun hop ho h0 h2 hcap => ?_, fun hop ho h0 h2 hcap h4 => ?_, fun hop hbad => ?_, fun hop e he => ?_, fun hop he => ?_,
      fun hop hf ho ht => ?_, fun hop hbad => ?_⟩
    · refine congrArg Host.Outcome.next ((hop.dieWrite v rfl (by decide)).trans ?_)
      rw [hctrl, pinCtrlWrite_taken ho h0 h2, if_neg (by rcases hcap with h | h <;> simp [h])]
    · refine congrArg Host.Outcome.next ((hop.dieWrite v rfl (by decide)).trans ?_)
      rw [hctrl, pinCtrlWrite_taken ho h0 h2, if_pos (by simp [hcap, h4])]
    · refine congrArg Host.Outcome.next ((hop.dieWrite v rfl (by decide)).trans ?_)
      rw [hctrl, pinCtrlWrite_rejected hbad]
    · refine congrArg Host.Outcome.next ((hop.dieWrite v rfl (by decide)).trans ?_)
      have he' : ((s.plainWrite .PIN_CAP_SEL (pinIx p) v).pin p).caps[bitsOf v 0 5]? = some e := he
      rw [hsel]
      simp only [pinCapSelWrite, he']
    · refine congrArg Host.Outcome.next ((hop.dieWrite v rfl (by decide)).trans ?_)
      have he' : ((s.plainWrite .PIN_CAP_SEL (pinIx p) v).pin p).caps[bitsOf v 0 5]? = none := he
      rw [hsel]
      simp only [pinCapSelWrite, he']
    · refine congrArg Host.Outcome.next ((hop.dieWrite 1 rfl (by decide)).trans ?_)
      rw [hclear, pinCmdWrite_clear, if_pos (by simp [hf, ho, ht])]
    · refine congrArg Host.Outcome.next ((hop.dieWrite 1 rfl (by decide)).trans ?_)
      rw [hclear, pinCmdWrite_clear, if_neg (by rcases hbad with h | h | h <;> simp [h])]
  · rw [hop.pairCfg hrun, pairCfgWrite_rejected hhi hlo hbad]
  · subst hu
    rw [hop.pairCfg hrun, pairCfgWrite_enables hhi hlo hv hne hfhi hflo hwas hgap hfit rfl]
  · subst hu
    rw [hop.pairCfg hrun, pairCfgWrite_disables hhi hlo hv hne hgap rfl, hwas]
    rfl
  · subst hu
    rw [hop.pairCfg hrun, pairCfgWrite_disables hhi hlo hv hne hgap rfl, hwas, htrip]
    rfl

end Sys2Proof.Machine

/-! # What switching a pair leaves unchanged (R275 to R277) -/

namespace Sys2Proof.Machine

namespace State

/-- What switching pairs of carrier `c` leaves unchanged: the carrier's run, the other carriers, the time, and all registers but
the counts of stretched and of merged pulses. -/
structure KeepsRun (c : Nat) (s u : State) : Prop where
  run : { u.car c with pairs := [] } = { s.car c with pairs := [] }
  len : (u.car c).pairs.length = (s.car c).pairs.length
  other : ∀ d, d ≠ c → u.car d = s.car d
  reg : ∀ r ix, r ≠ .PAIR_STRETCH_COUNT ∧ r ≠ .PIN_MERGE_COUNT → u.reg r ix = s.reg r ix
  now : u.now = s.now

/-- Switching pair `n` alone. -/
structure KeepsPairs (c n : Nat) (s u : State) : Prop extends State.KeepsRun c s u where
  pair : ∀ m, m ≠ n → u.pair c m = s.pair c m

/-- Switching pair `n` while its reference stays. -/
structure KeepsRef (c n : Nat) (s u : State) : Prop extends State.KeepsPairs c n s u where
  ref : (u.pair c n).ref = (s.pair c n).ref

end State

section Keeps
variable {c n : Nat} {s u w : State}

namespace State.KeepsRun

theorem refl (s : State) : s.KeepsRun c s := ⟨rfl, rfl, fun _ _ => rfl, fun _ _ _ => rfl, rfl⟩

theorem trans (h : s.KeepsRun c u) (g : u.KeepsRun c w) : s.KeepsRun c w :=
  ⟨g.run.trans h.run, g.len.trans h.len, fun d hd => (g.other d hd).trans (h.other d hd),
    fun r ix hr => (g.reg r ix hr).trans (h.reg r ix hr), g.now.trans h.now⟩

end State.KeepsRun

namespace State.KeepsPairs

theorem refl (s : State) : s.KeepsPairs c n s := ⟨.refl s, fun _ _ => rfl⟩

theorem trans (h : s.KeepsPairs c n u) (g : u.KeepsPairs c n w) : s.KeepsPairs c n w :=
  ⟨h.toKeepsRun.trans g.toKeepsRun, fun m hm => (g.pair m hm).trans (h.pair m hm)⟩

end State.KeepsPairs

namespace State.KeepsRef

theorem refl (s : State) : s.KeepsRef c n s := ⟨.refl s, rfl⟩

theorem trans (h : s.KeepsRef c n u) (g : u.KeepsRef c n w) : s.KeepsRef c n w :=
  ⟨h.toKeepsPairs.trans g.toKeepsPairs, g.ref.trans h.ref⟩

/-- The carriers, the registers and the time as they were. -/
theorem of_cars (hc : u.cars = s.cars)
    (hr : ∀ r ix, r ≠ .PAIR_STRETCH_COUNT ∧ r ≠ .PIN_MERGE_COUNT → u.reg r ix = s.reg r ix) (hn : u.now = s.now) : s.KeepsRef c n u := by
  have hcar (d : Nat) : u.car d = s.car d := by rw [State.car, State.car, hc]
  have hpair (m : Nat) : u.pair c m = s.pair c m := by rw [State.pair, State.pair, hcar]
  exact ⟨⟨⟨by rw [hcar], by rw [hcar], fun d _ => hcar d, hr, hn⟩, fun m _ => hpair m⟩, by rw [hpair]⟩

end State.KeepsRef

namespace State

theorem car_setCar_ne (s : State) {d : Nat} (x : CarSt) (h : d ≠ c) : (s.setCar c x).car d = s.car d := by
  simp [State.car, State.setCar, nmGet_nmPut_ne _ _ _ _ _ h]

/-- Setting pair `n`, whatever it becomes. -/
theorem keepsPairs_setPair (s : State) (x : PairSt) : s.KeepsPairs c n (s.setPair c n x) := by
  refine ⟨⟨by simp [State.setPair, State.modCar], by simp [State.setPair, State.modCar], fun d hd => State.car_setCar_ne _ _ hd,
    fun r ix _ => State.reg_congr rfl rfl r ix, rfl⟩, fun m hm => ?_⟩
  simp [State.pair, State.setPair, State.modCar, List.getElem?_set_ne (Ne.symm hm)]

/-- Pair `n` with another value of the same reference. -/
theorem keepsRef_setPair {x : PairSt} (hx : x.ref = (s.pair c n).ref) : s.KeepsRef c n (s.setPair c n x) := by
  refine ⟨s.keepsPairs_setPair x, ?_⟩
  by_cases hn : s.hasPair c n
  · rw [State.pair_setPair hn, hx]
  · have hset : (s.car c).pairs.set n x = (s.car c).pairs := List.set_eq_of_length_le (Nat.le_of_not_lt hn)
    simp [State.pair, State.setPair, State.modCar, hset]

end State

theorem PairSt.ref_setSw (x : PairSt) (low : Bool) (w : SwSt) : (x.setSw low w).ref = x.ref := by cases low <;> rfl

namespace State

theorem keepsRef_modSw (low : Bool) (f : SwSt → SwSt) : s.KeepsRef c n (s.modSw c n low f) :=
  State.keepsRef_setPair (PairSt.ref_setSw _ _ _)

theorem keepsRef_bump {f : Fld} (ix : Ix) (hf : f.reg = .PAIR_STRETCH_COUNT ∨ f.reg = .PIN_MERGE_COUNT) :
    s.KeepsRef c n (s.bump f ix) :=
  .of_cars (by simp) (fun r jx hr => State.reg_bump_ne _ _ _ (by rintro rfl; rcases hf with h | h <;> simp_all)) (by simp)

theorem keepsRef_pushEdge (p : Nat) (t : Time) (b : Bool) : s.KeepsRef c n (s.pushEdge p t b) := by
  refine .of_cars (State.pushEdge_cars _ _ _ _) (fun r ix hr => ?_) ?_
  · unfold State.pushEdge
    split
    · refine (State.reg_bump_ne _ _ _ hr.2).trans (State.reg_congr ?_ ?_ _ _)
      all_goals split <;> simp [State.dropWins]
    · exact State.reg_congr (by simp) (by simp) _ _
  · unfold State.pushEdge
    split
    · dsimp only
      split <;> simp [State.dropWins]
    · simp [State.pushStitch]

theorem keepsRef_openWindows (m : Nat) (low on : Bool) (t : Time) : s.KeepsRef c n (s.openWindows c m low on t) := by
  have hkeep {α : Type} {g : State → α} (hg : ∀ u j f, g (State.modTrip u j f) = g u) : g (s.openWindows c m low on t) = g s := by
    unfold State.openWindows
    dsimp only
    split
    · rfl
    · exact foldl_keep g (fun u j => by
        split
        · exact hg _ _ _
        · rfl) _ _
  exact .of_cars (by simp) (fun r ix _ => State.reg_congr (hkeep (g := State.regs) (by simp)) (hkeep (g := State.fuses) (by simp)) r ix)
    (hkeep (g := State.now) (by simp))

theorem keepsRef_swOff (low : Bool) (t : Time) : s.KeepsRef c n (s.swOff c n low t) := by
  unfold State.swOff
  split
  · exact ((State.keepsRef_modSw _ _).trans (State.keepsRef_modSw _ _)).trans (State.keepsRef_pushEdge _ _ _)
  · exact .refl s

theorem keepsRef_swUncall (low : Bool) : s.KeepsRef c n (s.swUncall c n low) := State.keepsRef_modSw _ _

theorem keepsRef_bothOff (t : Time) (window : Bool) : s.KeepsRef c n (s.bothOff c n t window) := by
  have hwin (u : State) (low b : Bool) : u.KeepsRef c n (if b then u.openWindows c n low false t else u) := by
    cases b
    · exact .refl u
    · exact State.keepsRef_openWindows _ _ _ _
  unfold State.bothOff
  exact (((((State.keepsRef_swUncall _).trans (State.keepsRef_swUncall _)).trans (hwin _ _ _)).trans (hwin _ _ _)).trans
    (State.keepsRef_swOff _ _)).trans (State.keepsRef_swOff _ _)

theorem keepsRef_swCall (low : Bool) (t : Time) : s.KeepsRef c n (s.swCall c n low t) := by
  unfold State.swCall
  exact State.keepsRef_modSw _ _

theorem keepsRef_swRelease (low : Bool) (t : Time) : s.KeepsRef c n (s.swRelease c n low t) := by
  unfold State.swRelease
  dsimp only
  refine (State.keepsRef_swUncall low).trans ?_
  split
  · exact .refl _
  · split
    · refine State.KeepsRef.trans ?_ (State.keepsRef_modSw _ _)
      split
      · exact .refl _
      · exact State.keepsRef_bump _ (.inl rfl)
    · exact (State.keepsRef_openWindows _ _ _ _).trans (State.keepsRef_swOff _ _)

theorem keepsPairs_setRef (on : Bool) (t : Time) : s.KeepsPairs c n (s.setRef c n on t) := by
  unfold State.setRef
  dsimp only
  split
  · exact .refl s
  · refine (s.keepsPairs_setPair { s.pair c n with ref := on }).trans ?_
    split
    · exact ((State.keepsRef_swRelease _ _).trans (State.keepsRef_swCall _ _)).toKeepsPairs
    · exact .refl _

/-- The reference that is set is the pair's. -/
theorem ref_setRef (hn : s.hasPair c n) (on : Bool) (t : Time) : ((s.setRef c n on t).pair c n).ref = on := by
  unfold State.setRef
  dsimp only
  split
  · assumption
  · have hset : ((s.setPair c n { s.pair c n with ref := on }).pair c n).ref = on := by rw [State.pair_setPair hn]
    split
    · exact ((State.keepsRef_swRelease _ _).trans (State.keepsRef_swCall _ _)).ref.trans hset
    · exact hset

theorem keepsPairs_pairUntrip (t : Time) : s.KeepsPairs c n (s.pairUntrip c n t) :=
  (State.keepsRef_bothOff _ _).toKeepsPairs.trans (State.keepsPairs_setPair _ _)

end State

/-- A run over pairs or effects, each step of which keeps the run. -/
theorem State.KeepsRun.foldl {α : Type} {f : State → α → State} (hf : ∀ (u : State) a, u.KeepsRun c (f u a)) (l : List α) (s : State) :
    s.KeepsRun c (l.foldl f s) := by
  induction l generalizing s with
  | nil => exact .refl s
  | cons a l ih => exact (hf s a).trans (ih _)

end Keeps

end Sys2Proof.Machine

/-! # Carriers start, pass boundaries, take writes, and switch their pairs (R267 to R277) -/

namespace Sys2Proof.Machine

/-! ## Effects that apply at a boundary -/

section Apply
variable {s : State} {c : Nat}

namespace State

theorem applyCompare_fields (e : Eff) : (s.applyCompare c e).cars = s.cars ∧ (s.applyCompare c e).now = s.now := by
  unfold State.applyCompare
  split <;> simp

theorem applyCompare_reg {r : Reg} (e : Eff) (ix : Ix) (hr : r ≠ .PAIR_COMPARE ∧ r ≠ .PAIR_DITHER) :
    (s.applyCompare c e).reg r ix = s.reg r ix := by
  unfold State.applyCompare
  split
  · exact (State.reg_setFld_ne _ _ _ _ hr.2).trans (State.reg_setReg_other _ _ _ _ hr.1)
  · rfl

/-- A write of the compare of pair `n`. -/
theorem applyCompare_sets {e : Eff} {a n d : Nat} {v : Word} (he : e.kind = .pwmw a n 0 d v) :
    (s.applyCompare c e).reg .PAIR_COMPARE (pairIx c n) = v := by
  simp only [State.applyCompare, he]
  exact (State.reg_setFld_ne _ _ _ _ (by decide)).trans (State.reg_setReg _ _ _ _)

/-- What writes no compare of pair `n`. -/
theorem applyCompare_other {e : Eff} {n : Nat} (he : ∀ a d v, e.kind ≠ .pwmw a n 0 d v) :
    (s.applyCompare c e).reg .PAIR_COMPARE (pairIx c n) = s.reg .PAIR_COMPARE (pairIx c n) := by
  unfold State.applyCompare
  split
  case h_1 a m d v hk =>
    have hne : m ≠ n := by
      rintro rfl
      exact he _ _ _ hk
    refine (State.reg_setFld_ne _ _ _ _ (by decide)).trans (State.reg_setReg_ne _ _ _ _ _ _ ?_)
    simp [pairIx, Ne.symm hne]
  case h_2 => rfl

/-- The last write of the compare of pair `n` stands. -/
theorem foldl_applyCompare_last {pre post : List Eff} {e : Eff} {a n d : Nat} {v : Word} (he : e.kind = .pwmw a n 0 d v)
    (hpost : ∀ y ∈ post, ∀ a' d' v', y.kind ≠ .pwmw a' n 0 d' v') :
    ((pre ++ e :: post).foldl (fun s e => s.applyCompare c e) s).reg .PAIR_COMPARE (pairIx c n) = v := by
  rw [List.foldl_append, List.foldl_cons]
  generalize pre.foldl (fun s e => s.applyCompare c e) s = u
  have hu : (u.applyCompare c e).reg .PAIR_COMPARE (pairIx c n) = v := State.applyCompare_sets he
  generalize u.applyCompare c e = w at hu
  induction post generalizing w with
  | nil => exact hu
  | cons y l ih =>
    exact ih (fun z hz => hpost z (List.mem_cons_of_mem _ hz)) _
      ((State.applyCompare_other (hpost y List.mem_cons_self)).trans hu)

/-- HALF_PERIOD and PHASE, and what counts a rejected one, are all that applying a period touches. -/
theorem applyPeriod_keeps {α : Type} {g : State → α} (hp ph : Option Nat) (hrej : ∀ u, g (State.carReject u c) = g u)
    (hhp : ∀ u v, g (State.setFld u F.CAR_HALF_PERIOD_half_period (carIx c) v) = g u)
    (hph : ∀ u v, g (State.setFld u F.CAR_PHASE_phase (carIx c) v) = g u) : g (s.applyPeriod c hp ph).1 = g s := by
  unfold State.applyPeriod
  simp only [hhp, hph]
  repeat' split
  all_goals simp_all

theorem applyPeriod_fields (hp ph : Option Nat) :
    (s.applyPeriod c hp ph).1.cars = s.cars ∧ (s.applyPeriod c hp ph).1.now = s.now :=
  ⟨State.applyPeriod_keeps hp ph (by simp [State.carReject]) (by simp) (by simp),
    State.applyPeriod_keeps hp ph (by simp [State.carReject]) (by simp) (by simp)⟩

theorem applyPeriod_reg {r : Reg} (hp ph : Option Nat) (ix : Ix) (hr : r ≠ .CAR_REJECT_COUNT ∧ r ≠ .CAR_HALF_PERIOD ∧ r ≠ .CAR_PHASE) :
    (s.applyPeriod c hp ph).1.reg r ix = s.reg r ix :=
  State.applyPeriod_keeps (g := fun u : State => u.reg r ix) hp ph (fun _ => State.reg_bump_ne _ _ _ hr.1)
    (fun _ _ => State.reg_setFld_ne _ _ _ _ hr.2.1) (fun _ _ => State.reg_setFld_ne _ _ _ _ hr.2.2)

theorem keepsRun_applyPairCmd (e : Eff) (t : Time) : s.KeepsRun c (s.applyPairCmd c e t) := by
  unfold State.applyPairCmd
  split
  · refine State.KeepsRun.trans ?_ (State.keepsPairs_setPair _ _).toKeepsRun
    split
    · exact .refl s
    · exact (State.keepsRef_bothOff _ _).toKeepsRun
  · exact (State.keepsPairs_setPair _ _).toKeepsRun
  · exact .refl s

end State

end Apply

/-! ## The boundary (R268, R272) -/

section Boundary
variable {s : State} {c : Nat}

namespace State

/-- The state at a boundary at `t`, the effects that are due there taken from those that wait, with the compares and the period
written. -/
def rewritten (s : State) (c : Nat) (t : Time) (due : List Eff) : State × Nat :=
  let u := (s.at t).modCar c (fun x => { x with fx := x.fx.filter (fun e => !(upTo e.stamp t && !e.isCmd 0)) })
  (due.foldl (fun s e => s.applyCompare c e) u).applyPeriod c (lastField due 1) (lastField due 2)

/-- With the pair commands applied too, and the instant noted. -/
def atBoundary (s : State) (c : Nat) (t : Time) (due : List Eff) : State :=
  (due.foldl (fun s e => s.applyPairCmd c e t) (s.rewritten c t due).1).setReg64 .CAR_LAST_BOUNDARY_LO .CAR_LAST_BOUNDARY_HI (carIx c) t

/-- The pairs of a carrier that stops at a boundary. -/
def stopPairs (s : State) (c : Nat) (t : Time) : State :=
  (List.range 4).foldl (fun s n =>
    let s := if (s.pair c n).tripped then (if s.pairHeld c n then s else s.pairUntrip c n t) else s.bothOff c n t true
    s.setPair c n { s.pair c n with ref := false }) s

end State

theorem carrierBoundary_eq {t : Time} {due : List Eff} (hacts : s.carActs c = true) (hmode : (s.car c).mode ≠ .stopped)
    (ht : t = s.nextBoundary c) (hdue : due = (s.car c).fx.filter (fun e => upTo e.stamp t && !e.isCmd 0)) :
    carrierBoundary s c =
      if due.any (fun e => e.isCmd 1) then
        ((s.atBoundary c t due).stopPairs c t).modCar c (fun x => { x with mode := .stopped, bnd := t, hold := 0, mid := false })
      else
        ((s.atBoundary c t due).modCar c (fun x => { x with
          mode := .running, bnd := t, hold := (s.rewritten c t due).2, mid := false,
          idx := if (s.car c).mode == .armed then 0 else (x.idx + 1) % 16 })).boundaryPairs c t
            (((s.at t).modCar c (fun x => { x with fx := x.fx.filter (fun e => !(upTo e.stamp t && !e.isCmd 0)) })).normals c due) := by
  subst ht hdue
  have hgo : (!s.carActs c || (s.car c).mode == .stopped) = false := by simp [hacts, hmode]
  unfold carrierBoundary
  simp only [hgo]
  rfl

namespace State

theorem rewritten_keeps (t : Time) (due : List Eff) :
    (s.rewritten c t due).1.cars = ((s.at t).setCar c
      { s.car c with fx := (s.car c).fx.filter (fun e => !(upTo e.stamp t && !e.isCmd 0)) }).cars ∧
    (s.rewritten c t due).1.now = (s.at t).now := by
  have hfold {α : Type} {g : State → α} (hg : ∀ u e, g (State.applyCompare u c e) = g u) (u : State) :
      g (due.foldl (fun s e => s.applyCompare c e) u) = g u := foldl_keep g hg _ _
  refine ⟨(State.applyPeriod_fields _ _).1.trans ((hfold (g := State.cars) (fun u e => (State.applyCompare_fields e).1) _).trans ?_),
    (State.applyPeriod_fields _ _).2.trans ((hfold (g := State.now) (fun u e => (State.applyCompare_fields e).2) _).trans ?_)⟩
  · simp [State.modCar]
  · simp

theorem atBoundary_car (t : Time) (due : List Eff) :
    { (s.atBoundary c t due).car c with pairs := [] } =
      { s.car c with pairs := [], fx := (s.car c).fx.filter (fun e => !(upTo e.stamp t && !e.isCmd 0)) } ∧
    (∀ d, d ≠ c → (s.atBoundary c t due).car d = s.car d) := by
  have hcars : ∀ d, (s.rewritten c t due).1.car d = ((s.at t).setCar c
      { s.car c with fx := (s.car c).fx.filter (fun e => !(upTo e.stamp t && !e.isCmd 0)) }).car d := fun d => by
    rw [State.car, (State.rewritten_keeps t due).1, ← State.car]
  have hkeep := State.KeepsRun.foldl (fun u e => State.keepsRun_applyPairCmd (s := u) (c := c) e t) due (s.rewritten c t due).1
  refine ⟨?_, fun d hd => ?_⟩
  · refine Eq.trans hkeep.run ?_
    rw [hcars, State.car_setCar]
  · refine (hkeep.other d hd).trans ?_
    rw [hcars, State.car_setCar_ne _ _ hd, State.at_car]

/-- The last compare written to pair `n` stands after the boundary. -/
theorem atBoundary_compare {t : Time} {pre post : List Eff} {e : Eff} {a n d : Nat} {v : Word} (he : e.kind = .pwmw a n 0 d v)
    (hpost : ∀ y ∈ post, ∀ a' d' v', y.kind ≠ .pwmw a' n 0 d' v') :
    (s.atBoundary c t (pre ++ e :: post)).reg .PAIR_COMPARE (pairIx c n) = v := by
  have hkeep := State.KeepsRun.foldl (fun u e => State.keepsRun_applyPairCmd (s := u) (c := c) e t) (pre ++ e :: post)
    (s.rewritten c t (pre ++ e :: post)).1
  refine (State.reg_setReg64_ne _ _ _ _ (by decide)).trans ((hkeep.reg _ _ (by decide)).trans ?_)
  exact (State.applyPeriod_reg _ _ _ (by decide)).trans (State.foldl_applyCompare_last he hpost)

theorem keepsRun_stopPairs (t : Time) : s.KeepsRun c (s.stopPairs c t) := by
  refine State.KeepsRun.foldl (fun u n => State.KeepsRun.trans ?_ (State.keepsPairs_setPair _ _).toKeepsRun) _ _
  split
  · split
    · exact .refl u
    · exact (State.keepsPairs_pairUntrip _).toKeepsRun
  · exact (State.keepsRef_bothOff _ _).toKeepsRun

theorem keepsRun_boundaryPairs (t : Time) (was : List Bool) : s.KeepsRun c (s.boundaryPairs c t was) := by
  refine State.KeepsRun.foldl (fun u n => ?_) _ _
  split
  · have huntrip : u.KeepsRun c (if (u.pair c n).tripped && !u.pairHeld c n then u.pairUntrip c n t else u) := by
      split
      · exact (State.keepsPairs_pairUntrip _).toKeepsRun
      · exact .refl u
    refine huntrip.trans ?_
    generalize (if (u.pair c n).tripped && !u.pairHeld c n then u.pairUntrip c n t else u) = w
    dsimp only
    split
    · exact (State.keepsPairs_setRef _ _).toKeepsRun
    · refine (State.keepsPairs_setPair (n := n) w { w.pair c n with ref := w.effCompare c n (w.car c).idx == w.carHp c }).toKeepsRun.trans ?_
      split
      · exact (State.keepsRef_swCall _ _).toKeepsRun
      · exact .refl _
  · exact .refl u

/-- A state whose carrier `c` is `y` but for its pairs, and whose other carriers and registers are those of `s`, but for the counts
of stretched and of merged pulses. -/
structure Ran (c : Nat) (s : State) (y : CarSt) (u : State) : Prop where
  run : { u.car c with pairs := [] } = { y with pairs := [] }
  other : ∀ d, d ≠ c → u.car d = s.car d
  reg : ∀ r ix, r ≠ .PAIR_STRETCH_COUNT ∧ r ≠ .PIN_MERGE_COUNT → u.reg r ix = s.reg r ix

end State

theorem State.KeepsRun.ran {u : State} (h : s.KeepsRun c u) : s.Ran c (s.car c) u := ⟨h.run, h.other, h.reg⟩

namespace State.Ran

theorem modCar {y : CarSt} {u : State} (h : s.Ran c y u) (f : CarSt → CarSt)
    (hf : ∀ x : CarSt, { f x with pairs := [] } = { f { x with pairs := [] } with pairs := [] }) : s.Ran c (f y) (u.modCar c f) := by
  refine ⟨?_, fun d hd => (State.car_setCar_ne _ _ hd).trans (h.other d hd), fun r ix hr => (State.reg_congr rfl rfl r ix).trans (h.reg r ix hr)⟩
  rw [State.modCar, State.car_setCar, hf, h.run, ← hf]

theorem keeps {y : CarSt} {u w : State} (h : s.Ran c y u) (g : u.KeepsRun c w) : s.Ran c y w :=
  ⟨g.run.trans h.run, fun d hd => (g.other d hd).trans (h.other d hd), fun r ix hr => (g.reg r ix hr).trans (h.reg r ix hr)⟩

end State.Ran

/-- A boundary stops the carrier, or starts its next period (R268, R271, R272). -/
theorem carrierBoundary_ran {t : Time} {due : List Eff} (hacts : s.carActs c = true) (hmode : (s.car c).mode ≠ .stopped)
    (ht : t = s.nextBoundary c) (hdue : due = (s.car c).fx.filter (fun e => upTo e.stamp t && !e.isCmd 0)) :
    (s.atBoundary c t due).Ran c
      (if due.any (fun e => e.isCmd 1) then { (s.atBoundary c t due).car c with mode := .stopped, bnd := t, hold := 0, mid := false }
       else { (s.atBoundary c t due).car c with
          mode := .running, bnd := t, hold := (s.rewritten c t due).2, mid := false,
          idx := if (s.car c).mode == .armed then 0 else (((s.atBoundary c t due).car c).idx + 1) % 16 })
      (carrierBoundary s c) := by
  rw [carrierBoundary_eq hacts hmode ht hdue]
  have hself : (s.atBoundary c t due).Ran c ((s.atBoundary c t due).car c) (s.atBoundary c t due) := (State.KeepsRun.refl _).ran
  split
  · exact (hself.keeps (State.keepsRun_stopPairs t)).modCar
      (fun x => { x with mode := .stopped, bnd := t, hold := 0, mid := false }) (fun _ => rfl)
  · exact (hself.modCar (fun x => { x with
      mode := .running, bnd := t, hold := (s.rewritten c t due).2, mid := false,
      idx := if (s.car c).mode == .armed then 0 else (x.idx + 1) % 16 }) (fun _ => rfl)).keeps (State.keepsRun_boundaryPairs _ _)

end Boundary

/-! ## The mid-period point (R269, R271) -/

section Mid
variable {s u : State} {c n : Nat}

namespace State.KeepsRun

theorem fld (h : s.KeepsRun c u) {f : Fld} (ix : Ix) (hf : f.reg ≠ .PAIR_STRETCH_COUNT ∧ f.reg ≠ .PIN_MERGE_COUNT) :
    u.fld f ix = s.fld f ix := congrArg (bitsOf · f.lo f.w) (h.reg _ _ hf)

theorem effCompare (h : s.KeepsRun c u) (n i : Nat) : u.effCompare c n i = s.effCompare c n i := by
  have hd : u.fld F.PAIR_DITHER_dither (pairIx c n) = s.fld F.PAIR_DITHER_dither (pairIx c n) := h.fld _ (by decide)
  have hhp : u.carHp c = s.carHp c := congrArg (· * 64) (h.fld _ (by decide))
  simp only [State.effCompare, hd, hhp, h.reg .PAIR_COMPARE _ (by decide)]

theorem pairEn (h : s.KeepsRun c u) (n : Nat) : u.pairEn c n = s.pairEn c n := by
  simp only [State.pairEn, State.bit, h.reg F.PAIR_CFG_en.reg _ (by decide)]

theorem idx (h : s.KeepsRun c u) : (u.car c).idx = (s.car c).idx := (CarSt.mk.inj h.run).2.2.2.1

theorem hasPair (h : s.KeepsRun c u) : u.hasPair c n ↔ s.hasPair c n := by
  rw [State.hasPair, State.hasPair, h.len]

end State.KeepsRun

namespace State

/-- The reference of an enabled pair at the mid-period point. -/
def midPair (c : Nat) (t : Time) (s : State) (n : Nat) : State :=
  if s.pairEn c n then s.setRef c n (decide (0 < s.effCompare c n (s.car c).idx)) t else s

theorem keepsPairs_midPair (t : Time) : s.KeepsPairs c n (s.midPair c t n) := by
  unfold State.midPair
  split
  · exact State.keepsPairs_setRef _ _
  · exact .refl s

/-- Pairs that are not in the list stay. -/
theorem pair_foldl_midPair {l : List Nat} (t : Time) (hn : n ∉ l) : (l.foldl (State.midPair c t) s).pair c n = s.pair c n := by
  induction l generalizing s with
  | nil => rfl
  | cons m l ih =>
    obtain ⟨hm, hl⟩ := List.ne_and_not_mem_of_not_mem_cons hn
    rw [List.foldl_cons, ih hl, (State.keepsPairs_midPair t).pair n hm]

/-- After the mid-period point the reference is on exactly where the compare is above 0. -/
theorem ref_foldl_midPair {l : List Nat} (t : Time) (hl : l.Nodup) (hn : n ∈ l) (hp : s.hasPair c n) (hen : s.pairEn c n = true) :
    ((l.foldl (State.midPair c t) s).pair c n).ref = decide (0 < s.effCompare c n (s.car c).idx) := by
  induction l generalizing s with
  | nil => cases hn
  | cons m l ih =>
    obtain ⟨hm, hl⟩ := List.nodup_cons.1 hl
    have hkeep : s.KeepsRun c (s.midPair c t m) := (State.keepsPairs_midPair t).toKeepsRun
    rw [List.foldl_cons]
    rcases List.mem_cons.1 hn with rfl | hin
    · rw [State.pair_foldl_midPair t hm, State.midPair, if_pos hen, State.ref_setRef hp]
    · rw [ih hl hin (hkeep.hasPair.2 hp) ((hkeep.pairEn n).trans hen), hkeep.effCompare, hkeep.idx]

/-- The state at the mid-period point before the references are set. -/
def atMid (s : State) (c : Nat) (t : Time) : State :=
  let due := if s.bit F.CAR_CTRL_upd_mode (carIx c) then (s.car c).fx.filter (fun e => upTo e.stamp t && e.isCompare) else []
  due.foldl (fun s e => s.applyCompare c e) ((s.at t).setCar c { s.car c with mid := true, fx := (s.car c).fx.filter (fun e => !due.contains e) })

end State

theorem carrierMidpoint_eq {t : Time} (hacts : s.carActs c = true) (hrun : (s.car c).mode = .running) (hmid : (s.car c).mid = false)
    (ht : t = s.midPoint c) : carrierMidpoint s c = (List.range 4).foldl (State.midPair c t) (s.atMid c t) := by
  subst ht
  have hgo : (!s.carActs c || !(s.car c).mode == .running || (s.car c).mid) = false := by simp [hacts, hrun, hmid]
  unfold carrierMidpoint
  simp only [hgo, State.at_bit, State.modCar, State.at_car]
  rfl

theorem State.atMid_fields (t : Time) :
    (s.atMid c t).cars = ((s.at t).setCar c { s.car c with
      mid := true,
      fx := (s.car c).fx.filter (fun e => !(if s.bit F.CAR_CTRL_upd_mode (carIx c) then
        (s.car c).fx.filter (fun e => upTo e.stamp t && e.isCompare) else []).contains e) }).cars ∧
    (s.atMid c t).now = (s.at t).now := by
  have hfold {α : Type} {g : State → α} (hg : ∀ u e, g (State.applyCompare u c e) = g u) (l : List Eff) (u : State) :
      g (l.foldl (fun s e => s.applyCompare c e) u) = g u := foldl_keep g hg _ _
  exact ⟨hfold (g := State.cars) (fun u e => (State.applyCompare_fields e).1) _ _,
    hfold (g := State.now) (fun u e => (State.applyCompare_fields e).2) _ _⟩

end Mid

/-! ## Effects and edges of a carrier that does not count (R269, R271, R274 to R276) -/

section Stopped
variable {s u : State} {c : Nat} {e : Eff} {rest : List Eff}

/-- A write or a pair command to a stopped carrier, but for what is special to HALF_PERIOD and PHASE. -/
theorem pwmStoppedWriteApply_eq (hacts : s.carActs c = true) (hmode : (s.car c).mode = .stopped) (hfx : (s.car c).fx = e :: rest)
    (hcmd : e.isCmd 0 = false) (hu : u = (s.at e.stamp).setCar c { s.car c with fx := rest }) :
    pwmStoppedWriteApply s c =
      (let w := (u.applyCompare c e).applyPairCmd c e e.stamp
       match e.kind with
       | .pwmw _ _ 1 _ v =>
         if w.hpFits c (v.toNat * 64) && decide (w.fld F.CAR_PHASE_phase (carIx c) < 2 * v.toNat * 64) then
           w.setFld F.CAR_HALF_PERIOD_half_period (carIx c) v.toNat
         else w.carReject c
       | .pwmw _ _ 2 _ v => if v.toNat < 2 * w.carHp c then w.setFld F.CAR_PHASE_phase (carIx c) v.toNat else w.carReject c
       | _ => w) := by
  subst hu
  have hgo : (!s.carActs c || !(s.car c).mode == .stopped || e.isCmd 0) = false := by simp [hacts, hmode, hcmd]
  simp only [pwmStoppedWriteApply, hfx, hgo, State.modCar, State.at_car]
  rfl

namespace State

theorem hpFits_setCar (x : CarSt) (t : Time) (hp : Nat) : ((s.at t).setCar c x).hpFits c hp = s.hpFits c hp := by
  have hen (n : Nat) : ((s.at t).setCar c x).pairEn c n = s.pairEn c n := by simp [State.pairEn]
  have hdt (n : Nat) : ((s.at t).setCar c x).pairDt c n = s.pairDt c n := by simp [State.pairDt]
  have hmp (n : Nat) : ((s.at t).setCar c x).pairMp c n = s.pairMp c n := by simp [State.pairMp]
  simp only [State.hpFits, hen, hdt, hmp]

theorem carHp_setCar (x : CarSt) (t : Time) : ((s.at t).setCar c x).carHp c = s.carHp c := by simp [State.carHp]

end State

end Stopped

section Edges
variable {s : State} {c n : Nat}

namespace State

@[simp] theorem at_effCompare (t : Time) (i : Nat) : (s.at t).effCompare c n i = s.effCompare c n i := by
  simp [State.effCompare, State.carHp]

@[simp] theorem at_refEdges (t : Time) : (s.at t).refEdges c n = s.refEdges c n := by
  have hhp : (s.at t).carHp c = s.carHp c := by simp [State.carHp]
  simp only [State.refEdges, State.at_car, State.at_effCompare, hhp]

@[simp] theorem at_turnedAway (low : Bool) (t x : Time) : (s.at t).turnedAway c n low x = s.turnedAway c n low x := by
  simp [State.turnedAway]

@[simp] theorem at_expectedOff (low : Bool) (t x : Time) : (s.at t).expectedOff c n low x = s.expectedOff c n low x := by
  simp [State.expectedOff]

@[simp] theorem at_pairMp (t : Time) : (s.at t).pairMp c n = s.pairMp c n := by simp [State.pairMp]

end State

/-- The switch whose dead time ends. -/
theorem deadTimeExpiry_pulse {t : Time} {low : Bool} (hacts : s.carActs c = true)
    (hdue : (s.pair c n).hi.due = some t ∧ low = false ∨ (s.pair c n).hi.due = none ∧ (s.pair c n).lo.due = some t ∧ low = true) :
    deadTimeExpiry s c n = s.pulse c n low t := by
  have hgo : (!s.dieActs (c / 16) || (s.dbg.halt.isSome && !(s.pair c n).tripped)) = false := by
    simp only [State.carActs, Bool.and_eq_true, Option.isNone_iff_eq_none] at hacts
    simp [hacts]
  rcases hdue with ⟨hhi, rfl⟩ | ⟨hhi, hlo, rfl⟩
  · simp only [deadTimeExpiry, hgo, hhi]
    rfl
  · simp only [deadTimeExpiry, hgo, hhi, hlo]
    rfl

end Edges

/-! ## The obligation -/

/-- A carrier's run, read off a state that agrees with it but for the pairs. -/
theorem CarSt.eq_but_pairs {x y : CarSt} (h : ({ x with pairs := [] } : CarSt) = { y with pairs := [] }) :
    x.mode = y.mode ∧ x.bnd = y.bnd ∧ x.hold = y.hold ∧ x.idx = y.idx ∧ x.mid = y.mid ∧ x.fx = y.fx := by
  obtain ⟨hmode, hbnd, hhold, hidx, hmid, -, hfx⟩ := CarSt.mk.inj h
  exact ⟨hmode, hbnd, hhold, hidx, hmid, hfx⟩

section Part
variable {s : State} {c : Nat} {x : CarSt} {t : Time}

/-- The second part of O27 at a boundary. -/
theorem carrierBoundary_spec {due : List Eff} (hx : x = s.car c) (hacts : s.carActs c = true) (hmode : x.mode ≠ .stopped)
    (ht : t = s.nextBoundary c) (hdue : due = x.fx.filter (fun e => upTo e.stamp t && !e.isCmd 0)) :
    ∃ s', exec (.carrierBoundary c) s = .next s' ∧ (s'.car c).bnd = t ∧ (s'.car c).mid = false ∧
      (s'.car c).fx = x.fx.filter (fun e => !(upTo e.stamp t && !e.isCmd 0)) ∧
      s'.reg64 .CAR_LAST_BOUNDARY_LO .CAR_LAST_BOUNDARY_HI (carIx c) = t ∧ (∀ d, d ≠ c → s'.car d = s.car d) ∧
      ((∀ e ∈ due, e.isCmd 1 = false) → (s'.car c).mode = .running ∧
        (s'.car c).idx = (if x.mode = .armed then 0 else (x.idx + 1) % 16)) ∧
      ((∃ e ∈ due, e.isCmd 1 = true) → (s'.car c).mode = .stopped ∧ (s'.car c).hold = 0) ∧
      (∀ pre e post a n d v, due = pre ++ e :: post → e.kind = .pwmw a n 0 d v → n < 4 →
        (∀ y ∈ post, ∀ a' d' v', y.kind ≠ .pwmw a' n 0 d' v') → s'.reg .PAIR_COMPARE (pairIx c n) = v) := by
  subst hx
  obtain ⟨hbase, hothers⟩ := State.atBoundary_car (s := s) (c := c) t due
  obtain ⟨-, -, -, hidx, -, hfx⟩ := CarSt.eq_but_pairs (x := (s.atBoundary c t due).car c)
    (y := { s.car c with fx := (s.car c).fx.filter (fun e => !(upTo e.stamp t && !e.isCmd 0)) }) hbase
  obtain ⟨hrun, hother, hreg⟩ := carrierBoundary_ran hacts hmode ht hdue
  obtain ⟨hmode', hbnd', hhold', hidx', hmid', hfx'⟩ := CarSt.eq_but_pairs hrun
  refine ⟨carrierBoundary s c, rfl, ?_, ?_, ?_, ?_, fun d hd => (hother d hd).trans (hothers d hd), fun hno => ?_, fun hstop => ?_,
    fun pre e post a n d v hsplit he _ hpost => ?_⟩
  · rw [hbnd']
    split <;> rfl
  · rw [hmid']
    split <;> rfl
  · rw [hfx']
    split <;> exact hfx
  · rw [State.reg64, hreg _ _ (by decide), hreg _ _ (by decide), ← State.reg64]
    exact State.reg64_setReg64 _ _ _ (by decide)
  · have hany : due.any (fun e => e.isCmd 1) = false := by simpa using hno
    rw [hmode', hidx', hany]
    refine ⟨rfl, ?_⟩
    simp [hidx]
  · have hany : due.any (fun e => e.isCmd 1) = true := by simpa using hstop
    rw [hmode', hhold', hany]
    exact ⟨rfl, rfl⟩
  · rw [hreg _ _ (by decide), hsplit]
    exact State.atBoundary_compare he hpost

/-- The second part of O27 at a mid-period point. -/
theorem carrierMidpoint_spec (hx : x = s.car c) (hacts : s.carActs c = true) (hrun : x.mode = .running) (hmid : x.mid = false)
    (ht : t = x.bnd + picots x.hold + picots (s.carHp c)) :
    ∃ s', exec (.carrierMidpoint c) s = .next s' ∧ s'.now = (s.at t).now ∧ (s'.car c).mid = true ∧ (s'.car c).mode = .running ∧
      (s'.car c).bnd = x.bnd ∧ (s'.car c).idx = x.idx ∧ (∀ d, d ≠ c → s'.car d = s.car d) ∧
      (s.bit F.CAR_CTRL_upd_mode (carIx c) = false → (s'.car c).fx = x.fx) ∧
      (s.bit F.CAR_CTRL_upd_mode (carIx c) = true →
        (s'.car c).fx = x.fx.filter (fun e => !(x.fx.filter (fun e => upTo e.stamp t && e.isCompare)).contains e)) ∧
      (∀ n, n < 4 → n < x.pairs.length → s.pairEn c n = true → (s'.pair c n).ref = decide (0 < s'.effCompare c n x.idx)) := by
  subst hx
  obtain ⟨hcars, hnow⟩ := State.atMid_fields (s := s) (c := c) t
  have hcar (d : Nat) := congrArg (fun m => nmGet m d CarSt.reset) hcars
  have hself : (s.atMid c t).car c = _ := (hcar c).trans (State.car_setCar _ _ _)
  have hkeep : (s.atMid c t).KeepsRun c ((List.range 4).foldl (State.midPair c t) (s.atMid c t)) :=
    State.KeepsRun.foldl (fun u n => (State.keepsPairs_midPair t).toKeepsRun) _ _
  obtain ⟨hmode', hbnd', -, hidx', hmid', hfx'⟩ := CarSt.eq_but_pairs hkeep.run
  rw [hself] at hmode' hbnd' hidx' hmid' hfx'
  refine ⟨_, congrArg Host.Outcome.next (carrierMidpoint_eq hacts hrun hmid ht), hkeep.now.trans hnow, hmid', hmode'.trans hrun, hbnd',
    hidx', fun d hd => (hkeep.other d hd).trans ?_, fun hupd => ?_, fun hupd => ?_, fun n hn hp hen => ?_⟩
  · exact (hcar d).trans ((State.car_setCar_ne _ _ hd).trans (State.at_car _ _ _))
  · rw [hfx', hupd]
    simp
  · rw [hfx', hupd]
    rfl
  · have hp' : (s.atMid c t).hasPair c n := by rw [State.hasPair, hself]; exact hp
    have hen' : (s.atMid c t).pairEn c n = true := by
      have hreg : (s.atMid c t).reg .PAIR_CFG (pairIx c n) = s.reg .PAIR_CFG (pairIx c n) :=
        (foldl_keep (fun u : State => u.reg .PAIR_CFG (pairIx c n)) (fun u e => State.applyCompare_reg e _ (by decide)) _ _).trans (by simp)
      simpa only [State.pairEn, State.bit, show F.PAIR_CFG_en.reg = .PAIR_CFG from rfl, hreg] using hen
    rw [State.ref_foldl_midPair t List.nodup_range (List.mem_range.2 hn) hp' hen', hkeep.effCompare, hself]

end Part

/-- Settles O27: a start and the edges by their guards, a boundary and a mid-period point by what keeps the carrier's run. -/
theorem carrierEvents : Obligations.CarrierEvents := by
  refine ⟨fun s c x e hx hacts => ⟨fun hfind hmode => ?_, fun hfind hmode => ?_, fun hrun => ?_⟩,
    fun s c x t due hx hacts => ⟨carrierBoundary_spec hx hacts, carrierMidpoint_spec hx hacts⟩,
    fun s u c x e rest a n d v hx hacts hmode hfx hu => ?_, fun s c n x t low hx hacts hen => ?_⟩
  · subst hx
    exact congrArg Host.Outcome.next (by simp [carrierStartApply, hfind, hacts, State.modCar, hmode])
  · subst hx
    exact congrArg Host.Outcome.next (by simp [carrierStartApply, hfind, hacts, State.modCar, hmode, State.carReject])
  · subst hx
    exact congrArg Host.Outcome.next (by simp [phaseHoldEnd, hacts, hrun, CarSt.start])
  · subst hx
    have happly (hcmd : e.isCmd 0 = false) := pwmStoppedWriteApply_eq hacts hmode hfx hcmd hu
    have hfits (hp : Nat) : u.hpFits c hp = s.hpFits c hp := by rw [hu, State.hpFits_setCar]
    have hhp : u.carHp c = s.carHp c := by rw [hu, State.carHp_setCar]
    have hph : u.fld F.CAR_PHASE_phase (carIx c) = s.fld F.CAR_PHASE_phase (carIx c) := by rw [hu]; simp
    have hpair : u.pair c n = s.pair c n := by rw [hu]; simp [State.pair]
    have hstopped : (u.car c).mode = .stopped := by rw [hu]; simpa using hmode
    have hwrite (f : Nat) (hk : e.kind = .pwmw a n f d v) : e.isCmd 0 = false := by simp [Eff.isCmd, hk]
    refine ⟨fun hk => ?_, fun hk hfit hphase => ?_, fun hk hbad => ?_, fun hk hv => ?_, fun hk hv => ?_, fun hk => ?_, fun hk => ?_⟩
    · refine congrArg Host.Outcome.next ((happly (hwrite _ hk)).trans ?_)
      simp [State.applyCompare, State.applyPairCmd, hk]
    · refine congrArg Host.Outcome.next ((happly (hwrite _ hk)).trans ?_)
      simp [State.applyCompare, State.applyPairCmd, hk, hfits, hph, hfit, hphase]
    · refine congrArg Host.Outcome.next ((happly (hwrite _ hk)).trans ?_)
      rcases hbad with h | h <;> simp [State.applyCompare, State.applyPairCmd, hk, hfits, hph, h, State.carReject]
    · refine congrArg Host.Outcome.next ((happly (hwrite _ hk)).trans ?_)
      simp [State.applyCompare, State.applyPairCmd, hk, hhp, hv]
    · refine congrArg Host.Outcome.next ((happly (hwrite _ hk)).trans ?_)
      simp [State.applyCompare, State.applyPairCmd, hk, hhp, hv.not_gt, State.carReject]
    · refine congrArg Host.Outcome.next ((happly (by simp [Eff.isCmd, hk])).trans ?_)
      simp [State.applyCompare, State.applyPairCmd, hk, hstopped, hpair]
    · refine congrArg Host.Outcome.next ((happly (by simp [Eff.isCmd, hk])).trans ?_)
      simp [State.applyCompare, State.applyPairCmd, hk, hpair]
  · subst hx
    refine ⟨fun hrun href hmid h0 hlt ht => ?_, fun hrun href hmid hlt ht => ?_, fun hdue => ?_, fun hhold => ?_, fun hhi hlo => ?_⟩
    · subst ht
      exact congrArg Host.Outcome.next (by simp [referenceEdge, hacts, hrun, hen, href, hmid, h0, hlt])
    · subst ht
      exact congrArg Host.Outcome.next (by simp [referenceEdge, hacts, hrun, hen, href, hmid, hlt])
    · have hpulse := deadTimeExpiry_pulse hacts hdue
      refine ⟨fun htr => ?_, fun htr haway => ?_, fun htr haway hlong => ?_, fun e htr haway hoff hshort hpol => ?_⟩
      · exact congrArg Host.Outcome.next (hpulse.trans (by simp [State.pulse, htr]))
      · exact congrArg Host.Outcome.next (hpulse.trans (by simp [State.pulse, htr, haway]))
      · refine congrArg Host.Outcome.next (hpulse.trans ?_)
        cases hoff : s.expectedOff c n low t with
        | none => simp [State.pulse, htr, haway, hoff]
        | some e => simp [State.pulse, htr, haway, hoff, (hlong e hoff).not_gt]
      · exact congrArg Host.Outcome.next (hpulse.trans (by simp [State.pulse, htr, haway, hoff, hshort, hpol]))
    · exact congrArg Host.Outcome.next (by simp [minPulseExpiry, hacts, hhold])
    · exact congrArg Host.Outcome.next (by simp [minPulseExpiry, hacts, hhi, hlo])

end Sys2Proof.Machine

/-! # Trips fire, wait in windows, and unlatch (R278 to R285, R512, R566) -/

namespace Sys2Proof.Machine

section Trip
variable {s : State} {j : Nat}

namespace State

theorem log_trip (d kind flags unit : Nat) (t : Time) (ws : List Word) (k : Nat) :
    (s.log d kind flags unit t ws).trip k = s.trip k := by simp [State.trip]

@[simp] theorem at_tripDelay (t : Time) : (s.at t).tripDelay j = s.tripDelay j := by simp [State.tripDelay]

@[simp] theorem at_tripActive (t : Time) : (s.at t).tripActive j = s.tripActive j := by simp [State.tripActive]

/-! ## What a trip's filter hands on -/

/-- A transition that the filter accepts at `t`, in the history and the log, before it is judged. -/
def transited (s : State) (j : Nat) (t : Time) : State :=
  ((s.at t).setTrip j { s.trip j with
    filt := ⟨(s.trip j).filt.raw, (s.trip j).filt.since, (s.trip j).filt.raw⟩,
    hist := ((s.trip j).filt.since, (s.trip j).filt.raw) :: (s.trip j).hist, owed := none }).log
      (j / 8) 0x05 0 j (s.trip j).filt.since [if (s.trip j).filt.raw then 1 else 0]

theorem transited_trip (t : Time) : (s.transited j t).trip j = { s.trip j with
    filt := ⟨(s.trip j).filt.raw, (s.trip j).filt.since, (s.trip j).filt.raw⟩,
    hist := ((s.trip j).filt.since, (s.trip j).filt.raw) :: (s.trip j).hist, owed := none } :=
  (State.log_trip _ _ _ _ _ _ _).trans (State.trip_setTrip _ _ _)

theorem transited_bit (t : Time) (f : Fld) (ix : Ix) (h : f.reg ≠ .DIE_ORIGIN_COUNT ∧ f.reg ≠ .LOG_LOST_COUNT) :
    (s.transited j t).bit f ix = s.bit f ix := by
  rw [State.bit, State.transited, State.log_reg _ _ _ _ _ _ _ _ h]
  simp [State.bit]

theorem transited_active (t : Time) : (s.transited j t).tripActive j = s.tripActive j := State.transited_bit t _ _ (by decide)

theorem transited_blankOpen (t g : Time) : (s.transited j t).blankOpen j g = s.blankOpen j g := by
  rw [State.blankOpen, State.transited_bit t _ _ (by decide), State.transited_trip]
  rfl

end State

/-- The acceptance of the level that waits, where nothing is owed. -/
theorem tripFilterAccept_accepts {t : Time} (hacts : s.dieActs (j / 8) = true) (howed : (s.trip j).owed = none)
    (hw : (s.trip j).filt.raw ≠ (s.trip j).filt.out) (ht : t = (s.trip j).filt.since + nsT (s.tripDelay j)) :
    tripFilterAccept s j = if (s.trip j).filt.raw = s.tripActive j then (s.transited j t).tripTurns j t else (s.transited j t).tripOff j := by
  have hbyte : (BitVec.ofNat 32 (b2n (s.trip j).filt.raw) : Word) = if (s.trip j).filt.raw then 1 else 0 := by
    cases (s.trip j).filt.raw <;> rfl
  have hstate : (((s.at t).setTrip j { s.trip j with filt := (s.trip j).filt.accept }).modTrip j (fun x => { x with
      hist := ((s.trip j).filt.since, (s.trip j).filt.raw) :: x.hist, owed := none })).log (j / 8) 0x05 0 j (s.trip j).filt.since
        [BitVec.ofNat 32 (b2n (s.trip j).filt.raw)] = s.transited j t := by
    rw [hbyte]
    simp [State.transited, State.modTrip, Filt.accept]
  have hdelay (y : TripSt) : ((s.at t).setTrip j y).tripDelay j = s.tripDelay j := by simp [State.tripDelay]
  have haccept : tripFilterAccept s j = (s.at t).tripAccept j := by
    have hw' : (s.trip j).filt.waits = true := (Filt.waits_iff _).2 hw
    simp [tripFilterAccept, hacts, howed, hw', ht]
  rw [haccept]
  unfold State.tripAccept State.tripTransition
  simp only [State.at_trip, hdelay, hstate, State.transited_active, ← ht]

namespace State

theorem tripTurns_latched {t : Time} (h : (s.trip j).latched = true) : s.tripTurns j t = s := by
  simp [State.tripTurns, h]

theorem tripTurns_waits {t : Time} (h : (s.trip j).latched = false) (hb : s.blankOpen j t = true) :
    s.tripTurns j t = s.modTrip j (fun x => { x with waits := some t }) := by
  simp [State.tripTurns, h, hb]

theorem tripTurns_fires {t : Time} (h : (s.trip j).latched = false) (hb : s.blankOpen j t = false) :
    s.tripTurns j t = s.tripFire j t false := by
  simp [State.tripTurns, h, hb]

/-! ## Clears and writes -/

theorem tripClear_latched {level : Bool} {t : Time} (h : (s.trip j).latched = true) :
    s.tripClear j level t = if level = s.tripActive j then
      (s.setBit F.TRIP_STATUS_clear_refused (tripIx j) true).bump F.TRIP_REFUSE_COUNT_count (tripIx j) else s.setLatch j t false := by
  simp [State.tripClear, h]

end State

/-- A clear that waited is judged against the level as of its stamp (R283). -/
theorem tripClearApply_eq {e : Eff} {rest : List Eff} (hacts : s.dieActs (j / 8) = true) (hfx : (s.trip j).fx = e :: rest) :
    tripClearApply s j =
      ((s.at e.stamp).setTrip j { s.trip j with fx := rest }).tripClear j ((s.trip j).levelAt e.stamp) e.stamp := by
  simp [tripClearApply, hfx, hacts, State.modTrip]
  rfl

variable {port : Port} {v : Word}

theorem State.lockBit_trip (h : s.unitRuns 2 j = false) :
    s.lockBit (.TRIP_CMD, tripIx j) = none ∧ s.lockBit (.TRIP_CTRL, tripIx j) = none := by
  have hj : 8 * (tripIx j).d + (tripIx j).i = j := Nat.div_add_mod j 8
  have hcmd : s.lockBit (.TRIP_CMD, tripIx j) = (if s.unitRuns 2 (8 * (tripIx j).d + (tripIx j).i) then
    some (F.TRIP_STATUS_write_reject, tripIx (8 * (tripIx j).d + (tripIx j).i)) else none) := rfl
  have hctrl : s.lockBit (.TRIP_CTRL, tripIx j) = (if s.unitRuns 2 (8 * (tripIx j).d + (tripIx j).i) then
    some (F.TRIP_STATUS_write_reject, tripIx (8 * (tripIx j).d + (tripIx j).i)) else none) := rfl
  rw [hcmd, hctrl, hj, h]
  exact ⟨rfl, rfl⟩

namespace State.Opens

theorem tripCmd (hop : s.Opens port (.TRIP_CMD, tripIx j)) (hrun : s.unitRuns 2 j = false) :
    exec (.tripCmdClear port j) s = .next (s.wrote (.TRIP_CMD, tripIx j) (s.tripClear j (s.trip j).filt.out s.now)) := by
  have hwrite : s.writeDieReg port .TRIP_CMD (tripIx j) 1 = tripCmdWrite s port j 1 :=
    congrArg (tripCmdWrite s port · 1) (Nat.div_add_mod j 8)
  refine congrArg Host.Outcome.next ((hop.dieWrite 1 (State.lockBit_trip hrun).1 (by decide)).trans ?_)
  rw [hwrite]
  exact congrArg (s.wrote _) (if_pos (by decide))

theorem tripCtrl (hop : s.Opens port (.TRIP_CTRL, tripIx j)) (hrun : s.unitRuns 2 j = false) :
    s.hostWriteReg port (.TRIP_CTRL, tripIx j) v = s.wrote (.TRIP_CTRL, tripIx j) (tripCtrlWrite s port j v) := by
  have hwrite : s.writeDieReg port .TRIP_CTRL (tripIx j) v = tripCtrlWrite s port j v :=
    congrArg (tripCtrlWrite s port · v) (Nat.div_add_mod j 8)
  rw [hop.dieWrite v (State.lockBit_trip hrun).2 (by decide), hwrite]

end State.Opens

variable {w : State}

/-- A write of TRIP_CTRL, by what the input is before and after it. -/
theorem tripCtrlWrite_eq (hw : w = s.plainWrite .TRIP_CTRL (tripIx j) v) :
    tripCtrlWrite s port j v =
      if (s.trip j).filt.out ≠ s.tripActive j ∧ (s.trip j).filt.out = w.tripActive j then
        (w.setTrip j ((s.trip j).activeNow w.now)).log (j / 8) 0x05 0 j w.now [if (s.trip j).filt.out then 1 else 0]
      else if (s.trip j).filt.out = s.tripActive j ∧ (s.trip j).filt.out ≠ w.tripActive j then w.tripOff j
      else if (s.trip j).filt.out = w.tripActive j ∧ (s.trip j).waits ≠ none ∧ w.bit F.TRIP_CTRL_unblankable (tripIx j) = true then
        w.tripFire j w.now true
      else w := by
  have hbyte : (BitVec.ofNat 32 (b2n (s.trip j).filt.out) : Word) = if (s.trip j).filt.out then 1 else 0 := by
    cases (s.trip j).filt.out <;> rfl
  have htrip : w.trip j = s.trip j := by rw [hw]; rfl
  unfold tripCtrlWrite
  simp only [← hw, State.tripIsActive, State.modTrip, htrip, TripSt.activeNow, hbyte, Option.ne_none_iff_isSome]
  congr 1
  · simp
  · congr 1
    · simp
    · simp [and_assoc]

/-! ## The check of a trip (R512) -/

theorem tripCheck_fails {g : Time} {fo co : Bool} {f : Nat} (hacts : s.dieActs (j / 8) = true)
    (hf : f = s.fld F.DIE_TRIPCHK_failed (dieIx (j / 8))) (hbad : (fo && co) = false) (hnew : f.testBit (j % 8) = false)
    (hw : w = (s.at g).setFld F.DIE_TRIPCHK_failed (dieIx (j / 8)) (f + 2 ^ (j % 8))) :
    tripCheck s j fo co g = (((w.routedPins j).foldl (fun s p => s.failPin p) w).bump F.FLT_UNIT_COUNT_other pkg).faultRec (j / 8)
      (0x0A38 + j / 8) 0x3D g (leBytes j 2 ++ [if fo then 1 else 0]) := by
  subst hf hw
  unfold tripCheck
  simp only [hacts, hbad, State.at_fld, hnew]
  rfl

end Trip

/-- Settles O29: the filter by `tripFilterAccept_accepts`, the clears by `State.tripClear_latched`, a write by `tripCtrlWrite_eq`. -/
theorem tripEvents : Obligations.TripEvents := by
  intro s port j x stamp g t d level v u hx hacts hd hu
  subst hx hd
  have hu' : u = s.transited j t := hu
  clear hu
  subst hu'
  refine ⟨fun howed hl hst => ?_, fun howed hw ht => ?_, fun howed hw hlat hopen => ?_, fun hend hwait hlat => ?_, fun hend hwait => ?_,
    fun e rest hfx hlat hlev => ?_, fun e rest hfx hlat hlev => ?_, fun hop hrun hlat hlev => ?_, fun hop hrun hlat hlev => ?_,
    fun w y hop hrun hw hy => ?_, fun w f hf hw => ?_, fun w f fo co hf hbad hnew hw => ?_⟩
  · have hne : level ≠ (s.trip j).filt.raw := by simp [hl]
    have hst' : (s.trip j).filt.stable (ns (s.tripDelay j)) stamp = false := hst
    exact congrArg Host.Outcome.next (by
      simp [tripInputEdge, hne, hacts, State.tripUpTo, hst', howed, State.modTrip, Filt.edge_ne])
  · have haccept := tripFilterAccept_accepts hacts howed hw ht
    have hlatched : ((s.transited j t).trip j).latched = (s.trip j).latched := by rw [State.transited_trip]
    have hwaits : ((s.transited j t).trip j).waits = (s.trip j).waits := by rw [State.transited_trip]
    have hopen := State.transited_blankOpen (s := s) (j := j) t t
    refine ⟨fun hact hn => ?_, fun hact hn => ?_, fun hact hlat => ?_, fun hact hlat hb => ?_, fun hact hlat hb => ?_⟩
    · refine congrArg Host.Outcome.next (haccept.trans ((if_neg hact).trans ?_))
      simp [State.tripOff, hwaits, hn]
    · refine congrArg Host.Outcome.next (haccept.trans ((if_neg hact).trans ?_))
      simp [State.tripOff, hwaits, Option.ne_none_iff_isSome.1 hn]
    · exact congrArg Host.Outcome.next (haccept.trans ((if_pos hact).trans (State.tripTurns_latched (hlatched.trans hlat))))
    · exact congrArg Host.Outcome.next (haccept.trans ((if_pos hact).trans
        (State.tripTurns_fires (hlatched.trans hlat) (hopen.trans hb))))
    · exact congrArg Host.Outcome.next (haccept.trans ((if_pos hact).trans
        (State.tripTurns_waits (hlatched.trans hlat) (hopen.trans hb))))
  · have hw' : (s.trip j).filt.waits = false := by simp [Filt.waits, hw]
    have hturn : tripFilterAccept s j =
        ((s.at (t + nsT (s.tripDelay j))).setTrip j { s.trip j with owed := none }).tripTurns j (t + nsT (s.tripDelay j)) := by
      simp [tripFilterAccept, hacts, howed, hw', State.tripOwed, State.modTrip]
    refine congrArg Host.Outcome.next (hturn.trans (State.tripTurns_fires (by simpa using hlat) ?_))
    have hopen' : ((s.at (t + nsT (s.tripDelay j))).setTrip j { s.trip j with owed := none }).blankOpen j (t + nsT (s.tripDelay j)) =
        s.blankOpen j (t + nsT (s.tripDelay j)) := by
      simp [State.blankOpen]
      rfl
    exact hopen'.trans hopen
  · exact congrArg Host.Outcome.next (by
      simp [blankWindowEnd, hend, hacts, State.modTrip, Option.ne_none_iff_isSome.1 hwait, hlat])
  · exact congrArg Host.Outcome.next (by simp [blankWindowEnd, hend, hacts, State.modTrip, hwait])
  · refine congrArg Host.Outcome.next ((tripClearApply_eq hacts hfx).trans ((State.tripClear_latched (by simpa using hlat)).trans (if_pos ?_)))
    rw [hlev]
    simp [State.tripActive]
  · refine congrArg Host.Outcome.next ((tripClearApply_eq hacts hfx).trans ((State.tripClear_latched (by simpa using hlat)).trans (if_neg ?_)))
    simpa [State.tripActive] using hlev
  · rw [hop.tripCmd hrun, State.tripClear_latched hlat, if_neg hlev]
  · rw [hop.tripCmd hrun, State.tripClear_latched hlat, if_pos hlev]
  · subst hy
    have hwrite : exec (.tripCtrlWrite port j v g) s = .next ((s.at g).wrote (.TRIP_CTRL, tripIx j) (tripCtrlWrite (s.at g) port j v)) :=
      congrArg Host.Outcome.next (hop.tripCtrl (by simpa using hrun))
    have htrip := tripCtrlWrite_eq (port := port) hw
    simp only [State.at_trip, State.at_tripActive] at htrip
    rw [hwrite, htrip]
    refine ⟨fun ⟨heq, hno⟩ => ?_, fun ⟨heq, hwait, hout, hun⟩ => ?_, fun ⟨hne, hout⟩ => ?_⟩
    · rw [heq, if_neg (fun h => h.1 h.2), if_neg (fun h => h.2 h.1), if_neg]
      rintro ⟨hout, hwait, hun⟩
      rcases hno with h | h | h
      · exact hwait h
      · exact h (hout.trans heq.symm)
      · simp [h] at hun
    · rw [heq, if_neg (fun h => h.1 h.2), if_neg (fun h => h.2 h.1), if_pos ⟨hout.trans heq, hwait, hun⟩]
    · rw [if_pos ⟨fun h => hne (hout.symm.trans h), hout⟩]
      rfl
  · subst hf hw
    refine congrArg Host.Outcome.next ?_
    simp only [tripCheck, hacts, State.at_fld]
    rfl
  · exact congrArg Host.Outcome.next (tripCheck_fails hacts hf hbad hnew hw)

end Sys2Proof.Machine

/-! # Index and probe edges, standstill and serial frames (R313 to R320, R324, R327, R335 to R337) -/

namespace Sys2Proof.Machine

/-! ## Nothing else waits at the interface (R302) -/

section Quiet
variable {s : State} {n : Nat}

namespace State

/-- Sources at which no level waits have nothing to accept. -/
theorem acceptOldest_quiet {srcs : List FbSrc} (ls : List Nat) (h : ∀ c ∈ srcs, (s.srcFilt c).waits = false) :
    s.acceptOldest n srcs ls = s := by
  have hnone : srcs.filter (fun c => (s.srcFilt c).waits) = [] := by simpa using h
  simp [State.acceptOldest, hnone]

/-- With no counting source waiting, and no counting input either, no counting event is formed. -/
theorem countsTo_quiet (t : Time) (h : ∀ c ∈ s.countSrcs n, (s.srcFilt c).waits = false)
    (hin : (s.fb n).nextIn countLines = none) (k : Nat) : s.countsTo n t k = s := by
  cases k with
  | zero => rfl
  | succ k =>
    have hold := State.acceptOldest_quiet (n := n) countLines (fun c hc => h c (List.mem_filter.1 hc).1 :
      ∀ c ∈ (s.countSrcs n).filter (fun c => upTo (s.srcFilt c).since t), (s.srcFilt c).waits = false)
    simp [State.countsTo, hold, hin]

end State

theorem FbSt.nextIn_single {x : FbSt} {e : FbIn} (h : x.inbox = [e]) (ls : List Nat) :
    x.nextIn ls = if ls.contains e.line then some e else none := by
  cases hc : ls.contains e.line <;> simp_all [FbSt.nextIn]

end Quiet

/-! ## Index and probe edges -/

section Edge
variable {s : State} {n : Nat} {e : FbIn}

/-- Whether the direction of the latest counting event lets an index edge count (R327). -/
def State.idxDirOk (s : State) (n : Nat) (t : Time) : Bool :=
  match s.fld F.FB_IDX_CFG_idx_dir (fbIx n), (s.fb n).dirAt t with
  | 0, _ => true
  | 1, some fwd => fwd
  | 2, some fwd => !fwd
  | _, _ => false

theorem fbIndexEdge_alone (hacts : s.dieActs (n / 8) = true)
    (hq : ∀ c ∈ FbSrc.ball n 2 :: s.countSrcs n, (s.srcFilt c).waits = false) (hin : (s.fb n).inbox = [e])
    (hmode : s.fbMode n = 1 ∨ s.fbMode n = 2) (hline : e.line = 2) :
    fbIndexEdge s n = if e.level ≠ s.bit F.FB_IDX_CFG_z_edge (fbIx n) ∧ s.idxDirOk n e.stamp = true then
      (s.setFb n { s.fb n with inbox := [] }).fbIndex n e.stamp else s.setFb n { s.fb n with inbox := [] } := by
  obtain ⟨hz, hc⟩ := List.forall_mem_cons.1 hq
  have hgo : (!s.dieActs (n / 8) || (s.fbMode n != 1 && s.fbMode n != 2)) = false := by
    rcases hmode with h | h <;> simp [hacts, h]
  have hacc := State.acceptOldest_quiet (n := n) (srcs := [.ball n 2]) [2] (by simpa using hz)
  have hnext : (s.fb n).nextIn [2] = some e := by simp [FbSt.nextIn_single hin, hline]
  have hcnt := State.countsTo_quiet e.stamp hc (by simp [FbSt.nextIn_single hin, hline, countLines]) ((s.fb n).inbox.length + 2)
  have herase : (s.fb n).inbox.erase e = [] := by simp [hin]
  have hfb : (s.modFb n (fun x => { x with inbox := x.inbox.erase e })) = s.setFb n { s.fb n with inbox := [] } := by
    rw [State.modFb, herase]
  have hdir : (s.setFb n { s.fb n with inbox := [] }).idxDirOk n e.stamp = s.idxDirOk n e.stamp := by
    simp [State.idxDirOk, FbSt.dirAt]
  have hlev : (e.level != s.bit F.FB_IDX_CFG_z_edge (fbIx n) && s.idxDirOk n e.stamp) = true ↔
      (e.level ≠ s.bit F.FB_IDX_CFG_z_edge (fbIx n) ∧ s.idxDirOk n e.stamp = true) := by simp
  have hindex : fbIndexEdge s n = (let u := s.setFb n { s.fb n with inbox := [] }
      if e.level != u.bit F.FB_IDX_CFG_z_edge (fbIx n) && u.idxDirOk n e.stamp then u.fbIndex n e.stamp else u) := by
    unfold fbIndexEdge State.indexNext
    simp only [hgo, hacc, hnext, hcnt, hfb]
    rfl
  rw [hindex]
  simp only [hdir, State.setFb_reads]
  exact if_congr hlev rfl rfl

/-- A probe edge that is alone, by what the probe takes (R336, R337). -/
theorem fbProbeEdge_alone (hacts : s.dieActs (n / 8) = true)
    (hq : ∀ c ∈ FbSrc.ball n 2 :: s.countSrcs n, (s.srcFilt c).waits = false) (hin : (s.fb n).inbox = [e]) (hline : e.line = 5) :
    fbProbeEdge s n =
      (let u := s.setFb n { s.fb n with inbox := [] }
       let one := s.bit F.FB_PROBE_CTRL_one_shot (fbIx n)
       if (s.fld F.FB_PROBE_CTRL_edge (fbIx n) == 2 ||
            (if e.level then s.fld F.FB_PROBE_CTRL_edge (fbIx n) == 0 else s.fld F.FB_PROBE_CTRL_edge (fbIx n) == 1)) &&
          (!one || match (s.fb n).arm with | some a => before a e.stamp | none => false) then
        ((((s.setFb n { s.fb n with
          inbox := [], probes := (e.stamp, (s.fb n).posAt e.stamp) :: (s.fb n).probes,
          arm := if one then none else (s.fb n).arm }).setReg64
            .FB_PROBE_POS_LO .FB_PROBE_POS_HI (fbIx n) (count64 ((s.fb n).posAt e.stamp))).setReg64
              .FB_PROBE_STAMP_LO .FB_PROBE_STAMP_HI (fbIx n) e.stamp).setBit F.FB_PROBE_STATUS_latched (fbIx n) true)
       else u) := by
  obtain ⟨hz, hc⟩ := List.forall_mem_cons.1 hq
  have hnext : (s.fb n).nextIn [5] = some e := by simp [FbSt.nextIn_single hin, hline]
  have hnone : (s.fb n).nextIn [2] = none := by simp [FbSt.nextIn_single hin, hline]
  have hcnt := State.countsTo_quiet e.stamp hc (by simp [FbSt.nextIn_single hin, hline, countLines])
  have hacc := State.acceptOldest_quiet (n := n) (srcs := [FbSrc.ball n 2].filter (fun c =>
    (s.fbMode n == 1 || s.fbMode n == 2) && upTo (s.srcFilt c).since e.stamp)) [2] (fun c hc => by
      have := (List.mem_filter.1 hc).1
      simp only [List.mem_singleton] at this
      rw [this, hz])
  have hidx : s.indexTo n e.stamp ((s.fb n).inbox.length + 1) = s := by
    rw [State.indexTo]
    simp only [hacc, hnone]
    exact hcnt _
  have herase : (s.fb n).inbox.erase e = [] := by simp [hin]
  have hpos : ({ s.fb n with inbox := [] } : FbSt).posAt e.stamp = (s.fb n).posAt e.stamp := rfl
  unfold fbProbeEdge
  simp only [hacts, hnext, Bool.not_true, Bool.false_eq_true, if_false, Option.isSome_some, if_true, hidx, herase, State.setFb_reads, State.modFb, State.fb_setFb, State.setFb_setFb, hpos] <;>
    rfl

end Edge

theorem State.Opens.probeCmd {s : State} {port : Port} {n : Nat} (hop : s.Opens port (.FB_PROBE_CMD, fbIx n)) :
    s.hostWriteReg port (.FB_PROBE_CMD, fbIx n) 1 = s.wrote (.FB_PROBE_CMD, fbIx n)
      ((s.setFb n { s.fb n with arm := some (s.now + picots 20480) }).log (n / 8) 0x0A 0 n (s.now + picots 20480) []) := by
  have hwrite : s.writeDieReg port .FB_PROBE_CMD (fbIx n) 1 = fbProbeCmdWrite s port n 1 :=
    congrArg (fbProbeCmdWrite s port · 1) (Nat.div_add_mod n 8)
  rw [hop.dieWrite 1 rfl (by decide), hwrite]
  exact congrArg (s.wrote _) (if_pos (by decide))

/-! ## Serial frames (R313 to R320) -/

/-- What the registers and the history show of a frame, for an interface of the mode and the clock period that `s` gives it. -/
def State.frameShown (s w : State) (n : Nat) (b : BitVec 64) (t vis : Time) (measured : Bool) (ld line : Nat) (bad late : Bool) : State :=
  let w := (w.setReg64 .FB_SER_RAW_LO .FB_SER_RAW_HI (fbIx n) b).log (n / 8) 0x03
    ((if bad then 1 else 0) + (if late then 2 else 0)) n t [loHalf b, hiHalf b]
  let w := if s.fbMode n = 5 then
      (if measured then w.setReg .FB_SER_LD_MEAS (fbIx n) (BitVec.ofNat 32 (min (ld / 64) 0xFFFF)) else w).setBit
        F.FB_STATUS_ld_warn (fbIx n) (measured && decide (s.serPeriod n < 4 * ((ld : Int) - line).natAbs))
    else w
  w.modFb n (fun y => { y with frames := ⟨t, vis, !bad && !late⟩ :: y.frames })

theorem frameFlags_eq (bad late : Bool) : b2n bad + 2 * b2n late = (if bad then 1 else 0) + (if late then 2 else 0) := by
  cases bad <;> cases late <;> rfl

/-- A frame of bits `b` that has come in: good, or failed (R319, R320). -/
def State.frameJudged (s w : State) (n : Nat) (b : BitVec 64) (t vis : Time) (measured : Bool) (ld line : Nat) (bad late : Bool) : State :=
  if !bad && !late then (s.frameShown w n b t vis measured ld line bad late).frameGood n b.toNat t vis
  else (s.frameShown w n b t vis measured ld line bad late).frameBad n late t

section Frame
variable {s u : State} {n : Nat} {start t vis : Time} {rest : List Time} {line : Nat}

namespace State

theorem fld_setReg64_log (s : State) (d kind flags unit : Nat) (t : Time) (ws : List Word) {lo hi : Reg} (ix jx : Ix) (v : BitVec 64)
    {f : Fld} (h : (f.reg ≠ lo ∧ f.reg ≠ hi) ∧ f.reg ≠ .DIE_ORIGIN_COUNT ∧ f.reg ≠ .LOG_LOST_COUNT) :
    ((s.setReg64 lo hi ix v).log d kind flags unit t ws).fld f jx = s.fld f jx := by
  rw [State.fld, State.log_reg _ _ _ _ _ _ _ _ h.2, State.reg_setReg64_ne _ _ _ _ h.1, ← State.fld]

theorem frameCrcOk_setReg64 (w : State) (b : BitVec 64) (k : Nat) (hw : w.regs = s.regs ∧ w.fuses = s.fuses) :
    (w.setReg64 .FB_SER_RAW_LO .FB_SER_RAW_HI (fbIx n) b).frameCrcOk n k = s.frameCrcOk n k := by
  have hfld (f : Fld) (h : f.reg ≠ .FB_SER_RAW_LO ∧ f.reg ≠ .FB_SER_RAW_HI) :
      (w.setReg64 .FB_SER_RAW_LO .FB_SER_RAW_HI (fbIx n) b).fld f (fbIx n) = s.fld f (fbIx n) := by
    rw [State.fld, State.reg_setReg64_ne _ _ _ _ h, State.reg_congr hw.1 hw.2, ← State.fld]
  simp only [State.frameCrcOk, hfld F.FB_SER_CRC_crc_width (by decide), hfld F.FB_SER_FRAME_nbits (by decide),
    hfld F.FB_SER_CRC_poly (by decide), hfld F.FB_SER_CRC_INIT_crc_init (by decide), hfld F.FB_SER_CRC_INIT_crc_xorout (by decide)]

/-- What becomes of a frame whose missing bits are those of `f` (R314 to R320). -/
def frameSeen (s : State) (n : Nat) (start t vis : Time) (measured : Bool) (ld line : Nat) (noStart late : Bool) (f : BitVec 64) : State :=
  let b : BitVec 64 := BitVec.ofNat 64 (s.frameBits n start vis f)
  let s := s.setReg64 .FB_SER_RAW_LO .FB_SER_RAW_HI (fbIx n) b
  let bad := noStart || !s.frameCrcOk n b.toNat
  let s := s.log (n / 8) 0x03 (b2n bad + 2 * b2n late) n t [loHalf b, hiHalf b]
  let s := if s.fbMode n = 5 then
      (if measured then s.setReg .FB_SER_LD_MEAS (fbIx n) (BitVec.ofNat 32 (min (ld / 64) 0xFFFF)) else s).setBit
        F.FB_STATUS_ld_warn (fbIx n) (measured && decide
          ((if measured then s.setReg .FB_SER_LD_MEAS (fbIx n) (BitVec.ofNat 32 (min (ld / 64) 0xFFFF)) else s).serPeriod n <
            4 * ((ld : Int) - line).natAbs))
    else s
  let s := s.modFb n (fun x => { x with frames := ⟨t, vis, !bad && !late⟩ :: x.frames })
  if !bad && !late then s.frameGood n b.toNat t vis else s.frameBad n late t

end State

/-- The oldest frame under way becomes visible: with its own bits, or where a sample is missing with those of a free value. -/
theorem serialFrameVisible_eq {crossed measured late : Bool} {asked came : Time} {ld : Nat}
    (hacts : s.dieActs (n / 8) = true) (hq : (s.fb n).serQ = start :: rest) (hld : ld = (came - asked).toNat)
    (hline : line = ns (s.fld F.FB_SER_TIMING_line_delay_ns (fbIx n))) (ht : t = start + picots (line / 2))
    (hvis : vis = t + picots (s.frameTime n)) (hu : u = (s.at vis).setFb n { s.fb n with serQ := rest })
    (hlate : late = (crossed || (u.sampleAt n start vis (u.lastSample n start vis)).isNone)) :
    serialFrameVisible s n crossed measured asked came =
      (let p := if (u.firstBit n start vis).isNone || late then u.fresh64 else (0, u)
       p.2.frameSeen n start t vis measured ld line (u.firstBit n start vis).isNone late p.1) := by
  subst hld hline ht hvis hu hlate
  have hgo : (!s.dieActs (n / 8)) = false := by simp [hacts]
  unfold serialFrameVisible
  simp only [hq, hgo, State.modFb, State.at_fb]
  rfl

/-- A frame as `s` judges it: neither storing its bits nor logging it changes the interface's configuration. -/
theorem State.frameSeen_eq {measured noStart late : Bool} {ld : Nat} {w : State} {f : BitVec 64} (hw : w.regs = s.regs ∧ w.fuses = s.fuses) :
    w.frameSeen n start t vis measured ld line noStart late f =
      (let b : BitVec 64 := BitVec.ofNat 64 (w.frameBits n start vis f)
       s.frameJudged w n b t vis measured ld line (noStart || !s.frameCrcOk n b.toNat) late) := by
  have hfld {f : Fld} (h : f.reg = .FB_CTRL ∨ f.reg = .FB_SER_CLK) (d kind flags unit : Nat) (g : Time) (ws : List Word) (b : BitVec 64) :
      ((w.setReg64 .FB_SER_RAW_LO .FB_SER_RAW_HI (fbIx n) b).log d kind flags unit g ws).fld f (fbIx n) = s.fld f (fbIx n) := by
    rw [State.fld_setReg64_log _ _ _ _ _ _ _ _ _ _ (by rcases h with h | h <;> simp [h]), State.fld, State.reg_congr hw.1 hw.2, ← State.fld]
  have hmode (d kind flags unit : Nat) (g : Time) (ws : List Word) (b : BitVec 64) :
      ((w.setReg64 .FB_SER_RAW_LO .FB_SER_RAW_HI (fbIx n) b).log d kind flags unit g ws).fbMode n = s.fbMode n := hfld (.inl rfl) ..
  have hper (d kind flags unit : Nat) (g : Time) (ws : List Word) (b : BitVec 64) (v : Word) :
      (if measured then ((w.setReg64 .FB_SER_RAW_LO .FB_SER_RAW_HI (fbIx n) b).log d kind flags unit g ws).setReg .FB_SER_LD_MEAS (fbIx n) v
        else (w.setReg64 .FB_SER_RAW_LO .FB_SER_RAW_HI (fbIx n) b).log d kind flags unit g ws).serPeriod n = s.serPeriod n := by
    have hclk := hfld (f := F.FB_SER_CLK_period_qns) (.inr rfl) d kind flags unit g ws b
    cases measured
    · exact congrArg (· * 16) hclk
    · refine congrArg (· * 16) (Eq.trans ?_ hclk)
      exact congrArg (bitsOf · _ _) (State.reg_setReg_other _ _ _ _ (by decide))
  unfold State.frameSeen State.frameJudged State.frameShown
  simp only [State.frameCrcOk_setReg64 w _ _ hw, frameFlags_eq, hmode, hper]

end Frame

/-- Settles O32: an edge that is alone forms its event at once; a frame is judged by `State.frameSeen_eq`. -/
theorem feedbackEvents : Obligations.FeedbackEvents := by
  refine ⟨fun s port n g x y e hx hy hacts => ⟨fun hq hin => ⟨fun hmode hline ok hok => ?_, fun taken one hline hone htk => ⟨fun p hp htaken harm => ?_, fun hno => ?_⟩⟩,
    fun a hop hrun ha => ?_, fun v hv => ?_⟩, fun s n x per hx hacts hser hper => ⟨fun l t hl ht => ?_, ?_⟩⟩
  · subst hx hy hok
    exact congrArg Host.Outcome.next (fbIndexEdge_alone hacts hq hin hmode hline)
  · subst hx hy hp hone htk
    refine congrArg Host.Outcome.next ((fbProbeEdge_alone hacts hq hin hline).trans (if_pos ?_))
    rw [htaken]
    rcases harm with h | ⟨a, ha, hb⟩
    · simp [h]
    · simp [ha, hb]
  · subst hx hy hone htk
    refine congrArg Host.Outcome.next ((fbProbeEdge_alone hacts hq hin hline).trans (if_neg ?_))
    rcases hno with h | ⟨h1, h2⟩
    · simp [h]
    · cases ha : (s.fb n).arm with
      | none => simp [h1]
      | some a => simp [h1, h2 a ha]
  · subst hx ha
    refine congrArg Host.Outcome.next ((State.Opens.probeCmd hop).trans ?_)
    rw [State.at_fb]
  · subst hx
    exact congrArg Host.Outcome.next (by simp [fbStandstill, hv, hacts])
  · subst hx ht hper
    exact congrArg Host.Outcome.next (by simp [serialFrameStart, hacts, hser, State.nextFrame, hl, State.modFb])
  · intro start t vis rest crossed measured late asked came ld line u f hq hld hline ht hvis hu hlate hf
    subst hx
    have hframe := serialFrameVisible_eq (measured := measured) hacts hq hld hline ht hvis hu hlate
    have hregs : u.regs = s.regs ∧ u.fuses = s.fuses := by rw [hu]; simp
    have hshown (b : BitVec 64) (w : State) (bad : Bool) : f b w bad = s.frameShown w n b t vis measured ld line bad late := hf b w bad
    refine ⟨fun hstart hl b hb => ?_, fun hbad => ?_⟩
    · have hnone : (u.firstBit n start vis).isNone = false := by
        rw [Option.isNone_eq_false_iff]
        exact hstart
      simp only [hnone, hl, Bool.or_false, Bool.false_eq_true, if_false, State.frameSeen_eq hregs, Bool.false_or, ← hb] at hframe
      refine ⟨fun hcrc => congrArg Host.Outcome.next (hframe.trans ?_), fun hcrc => congrArg Host.Outcome.next (hframe.trans ?_)⟩
      · rw [hcrc, hshown, hl]
        rfl
      · rw [hcrc, hshown, hl]
        rfl
    · have hor : ((u.firstBit n start vis).isNone || late) = true := by
        rcases hbad with h | h <;> simp [h]
      have hfresh : (u.fresh64).2 = { u with freeCount := u.freeCount + 2 } := rfl
      have hfregs : ({ u with freeCount := u.freeCount + 2 } : State).regs = s.regs ∧ ({ u with freeCount := u.freeCount + 2 } : State).fuses = s.fuses := hregs
      simp only [hor, if_true, hfresh, State.frameSeen_eq hfregs] at hframe
      obtain ⟨b, bad, hjudged, hbad'⟩ : ∃ b bad, serialFrameVisible s n crossed measured asked came =
          s.frameJudged { u with freeCount := u.freeCount + 2 } n b t vis measured ld line bad late ∧ (!bad && !late) = false :=
        ⟨_, _, hframe, by rcases hbad with h | h <;> simp [h]⟩
      refine ⟨b, bad, congrArg Host.Outcome.next (hjudged.trans ?_)⟩
      rw [hshown]
      exact if_neg (by simp [hbad'])

end Sys2Proof.Machine

/-! # Arming and disarming a compare, and writes of FB_CTRL (R309, R331, R332, R345, R347) -/

namespace Sys2Proof.Machine

section Arm
variable {s : State} {n : Nat} {e : Eff} {rest : List Eff}

/-- The values of the spacing that a position lying `ahead` of the compare value has passed (R332). -/
theorem cmpPassed_eq {pos sp p ahead : Int} {passed : Nat} (ha : ahead = wrap48 (p - pos))
    (h : (0 < sp ∧ 0 ≤ ahead ∧ passed = (ahead / sp).toNat + 1) ∨ (sp < 0 ∧ ahead ≤ 0 ∧ passed = ((-ahead) / (-sp)).toNat + 1) ∨
      ((sp = 0 ∨ (0 < sp ∧ ahead < 0) ∨ (sp < 0 ∧ 0 < ahead)) ∧ passed = 0)) : cmpPassed pos sp p = passed := by
  unfold cmpPassed
  rw [← ha]
  rcases h with ⟨h1, h2, rfl⟩ | ⟨h1, h2, rfl⟩ | ⟨h, rfl⟩
  · exact if_pos ⟨h1, h2⟩
  · exact (if_neg fun h => absurd h.1 (by omega)).trans (if_pos ⟨h1, h2⟩)
  · exact (if_neg (by omega)).trans (if_neg (by omega))

theorem fbCompareArmApply_applies {m pos sp pin slot passed} (hp : cmpPassed pos sp ((s.fb n).posAt e.stamp) = passed) (hacts : s.dieActs (n / 8) = true) (hfx : (s.fb n).fx = e :: rest)
    (hk : e.kind = .fbArm m pos sp pin slot) :
    fbCompareArmApply s n =
      ((((s.at e.stamp).setFb n { s.fb n with
        fx := rest
        notes := match (s.fb n).cmp with
          | some c => if c.task = e.task then (s.fb n).notes else .ended c.task c.armAt e.stamp :: (s.fb n).notes
          | none => (s.fb n).notes
        cmp := some ⟨e.stamp, wrap48 (pos + sp * passed), sp, pin, e.task, e.run, slot⟩ }).cmpRegs n).cmpMiss n passed) := by
  have hpos : ({ s.fb n with fx := rest } : FbSt).posAt e.stamp = (s.fb n).posAt e.stamp := rfl
  subst hp
  unfold fbCompareArmApply
  simp only [hfx, hk, hacts, Bool.not_true, Bool.false_eq_true, if_false, State.modFb, State.at_fb, State.fb_setFb, State.setFb_setFb, hpos] <;>
    rfl

theorem fbCompareDisarmApply_applies {m} {c : FbCmp} (hacts : s.dieActs (n / 8) = true) (hfx : (s.fb n).fx = e :: rest)
    (hk : e.kind = .fbDisarm m) (hc : (s.fb n).cmp = some c) :
    fbCompareDisarmApply s n = if c.task = e.task then ((s.at e.stamp).setFb n { s.fb n with fx := rest, cmp := none }).cmpRegs n
      else (s.at e.stamp).setFb n { s.fb n with fx := rest } := by
  unfold fbCompareDisarmApply
  simp only [hfx, hk, hacts, Bool.not_true, Bool.false_eq_true, if_false, State.modFb, State.at_fb, State.fb_setFb, hc, State.cmpDisarm,
    State.setFb_setFb]

end Arm

/-! ## FB_CTRL -/

section Ctrl
variable {s : State} {port : Port} {n : Nat} {v : Word}

theorem fbIx_number (n : Nat) : 8 * (fbIx n).d + (fbIx n).i = n := Nat.div_add_mod n 8

namespace State

theorem lockBit_fbCtrl :
    s.lockBit (.FB_CTRL, fbIx n) = if s.unitRuns 4 n then some (F.FB_STATUS_write_reject, fbIx n) else none := by
  have hn := fbIx_number n
  have hlock : s.lockBit (.FB_CTRL, fbIx n) = (if s.unitRuns 4 (8 * (fbIx n).d + (fbIx n).i) then
    some (F.FB_STATUS_write_reject, fbIx (8 * (fbIx n).d + (fbIx n).i)) else none) := rfl
  rw [hlock, hn]

theorem writeDieReg_fbCtrl : s.writeDieReg port .FB_CTRL (fbIx n) v = s.fbCfgWrite .FB_CTRL n v :=
  congrArg (s.fbCfgWrite .FB_CTRL · v) (Nat.div_add_mod n 8)

/-- An enabled hoop of the die takes its tooth wheel from interface `n` (R347). -/
def wheelOf (w : State) (n : Nat) : Bool :=
  (List.range 4).any (fun i => w.bit F.HOOP_CTRL_en (hoopIx (4 * (n / 8) + i)) &&
    w.fld F.HOOP_CTRL_src (hoopIx (4 * (n / 8) + i)) == 1 && w.fld F.HOOP_SRC_index (hoopIx (4 * (n / 8) + i)) % 8 == n % 8)

/-- A write of FB_CTRL, on the state `w` whose due levels are accepted. -/
theorem fbCfgWrite_ctrl {w u : State} (hw : w = if v.toNat % 8 ≠ s.fbMode n then s.acceptDue n else s)
    (hu : u = w.plainWrite .FB_CTRL (fbIx n) v) :
    s.fbCfgWrite .FB_CTRL n v =
      if w.isDonor n || (u.fbMode n != 0 && w.wheelOf n) || !((List.range 8).map (fun k => 8 * (n / 8) + k)).all (fun m => u.fbCfgOk m) then
        w.setBit F.FB_STATUS_cfg_reject (fbIx n) true
      else if (u.fbTakePins w n).fbMode n != w.fbMode n then ((u.fbTakePins w n).fbReset n w.now).fbSourceFails n w.now
      else u.fbTakePins w n := by
  have hdue : (if Reg.FB_CTRL = .FB_CTRL ∧ v.toNat % 8 ≠ s.fbMode n then s.acceptDue n else s) = w := by simp [hw]
  unfold State.fbCfgWrite
  rw [hdue, hu]
  rfl

end State

end Ctrl

/-- Settles O33: the arm and the disarm at their stamp, and the three outcomes of a write of FB_CTRL. -/
theorem compareAndModeWrites : Obligations.CompareAndModeWrites := by
  refine ⟨fun s n x e rest hx hacts hfx => ⟨fun pos sp pin slot ahead passed notes hk ha hp hn => ?_, fun c m hk hc => ?_⟩,
    fun s s' w u port n v g wheel hs hop hw hu hwheel => ⟨fun hrun => ?_, fun hrun hbad => ?_, fun hrun hdonor hnw hok => ?_⟩⟩
  · subst hx hn
    exact congrArg Host.Outcome.next (fbCompareArmApply_applies (cmpPassed_eq ha hp) hacts hfx hk)
  · subst hx
    have happ := fbCompareDisarmApply_applies hacts hfx hk hc
    exact ⟨fun ht => congrArg Host.Outcome.next (happ.trans (if_pos ht)), fun ht => congrArg Host.Outcome.next (happ.trans (if_neg ht))⟩
  all_goals
    subst hs
    have hlock := State.lockBit_fbCtrl (s := s.at g) (n := n)
    rw [State.at_unitRuns, hrun] at hlock
  · exact congrArg Host.Outcome.next (hop.write_eq (State.writeKey_locked _ _ hlock))
  all_goals
    refine congrArg Host.Outcome.next ((hop.dieWrite v hlock (by decide)).trans (congrArg _ ?_))
    rw [State.writeDieReg_fbCtrl, State.fbCfgWrite_ctrl hw hu]
  · refine if_pos ?_
    rcases hbad with h | h | ⟨m, hm, h⟩
    · rw [h, Bool.true_or, Bool.true_or]
    · rw [State.wheelOf, ← hwheel, h, Bool.or_true, Bool.true_or]
    · have hall : ((List.range 8).map (fun k => 8 * (n / 8) + k)).all (fun m => u.fbCfgOk m) = false := by
        rw [List.all_eq_false]
        exact ⟨_, List.mem_map_of_mem (List.mem_range.2 hm), by simp [h]⟩
      rw [hall, Bool.not_false, Bool.or_true]
  · have hall : ((List.range 8).map (fun k => 8 * (n / 8) + k)).all (fun m => u.fbCfgOk m) = true := by
      simpa [List.all_eq_true] using hok
    rw [State.wheelOf, ← hwheel, hdonor, hnw, hall]
    simp only [Bool.or_false, Bool.not_true, Bool.false_eq_true, if_false, bne_iff_ne, ne_eq, ite_not]

end Sys2Proof.Machine

/-! # Angle events and the configuration of a hoop (R182, R183, R242, R346, R347, R363 to R369, R373 to R379) -/

namespace Sys2Proof.Machine

section Apply
variable {s u w : State} {h g slot src : Nat} {e : Eff} {rest : List Eff} {desc : HoopDesc}

namespace State

/-- The event of a slot is in progress at `t`. -/
def evBusy (s : State) (h slot : Nat) (t : Time) : Bool :=
  match s.hoopEv h slot with | some v => v.active t | none => false

/-- The entries of a pin's queue that the slot's own event holds. -/
def evHolds (s : State) (h slot p : Nat) : Nat :=
  match s.hoopEv h slot with | some v => b2n (v.desc.pin == some p) | none => 0

/-- The queue of the pin that an event would switch is full without the slot's own entry (R242). -/
def evFull (s : State) (h slot : Nat) (desc : HoopDesc) : Bool :=
  match desc.pin with
  | some p => decide (32 ≤ s.pinDepth p - s.evHolds h slot p)
  | none => false

/-- The count that a refusal for a full queue leaves at the pin. -/
def evCounted (s : State) (desc : HoopDesc) : State :=
  match desc.pin with
  | some p => s.bump F.PIN_REFUSE_COUNT_count (pinIx p)
  | none => s

/-- The targets and stamps of an event that has just taken its slot, in SYNC and COAST. -/
def evFixed (s : State) (h slot : Nat) (t : Time) : State :=
  if (s.hoop h).st = 2 ∨ (s.hoop h).st = 6 then
    match s.accAt h t with
    | some acc => (s.evTargets h slot acc).evStamps h slot t (match (s.hoop h).pts with | p :: _ => p.synth | [] => false)
    | none => s
  else s

theorem hoopEv_taken (hu : u = (s.at e.stamp).modHoop h (fun x => { x with fx := rest })) : u.hoopEv h slot = s.hoopEv h slot := by
  simp [hu, State.hoopEv]

end State

/-- An HEVT effect that nothing comes before. -/
theorem hevtApply_eq (hacts : s.dieActs (h / 4) = true) (hfx : (s.hoop h).fx = e :: rest) (hk : e.kind = .hevt g slot desc src)
    (hu : u = (s.at e.stamp).modHoop h (fun x => { x with fx := rest })) (hgo : s.hoopWaits h 4 e.stamp = false) :
    hevtApply s h =
      if u.evBusy h slot e.stamp then u.hoopRefuse h slot 0 e.stamp
      else if u.evFull h slot desc then (u.evCounted desc).hoopRefuse h slot 1 e.stamp
      else ((u.dropEv h slot).setEv h slot
          { task := e.task, run := e.run, srcSlot := src, desc := desc, tgt := none, start := none, stop := none, fired := false,
            startSynth := false, endSynth := false, sticky := false, limited := false, forced := false, clamped := false,
            byHcan := false }).evFixed h slot e.stamp := by
  subst hu
  unfold hevtApply
  simp only [hfx, hk, hacts, hgo, Bool.not_true, Bool.or_false, Bool.false_eq_true, if_false]
  rfl

/-- An HCAN effect that nothing comes before. -/
theorem hcanApply_eq {o : Option Nat} (hacts : s.dieActs (h / 4) = true) (hfx : (s.hoop h).fx = e :: rest) (hk : e.kind = .hcan g o)
    (hu : u = (s.at e.stamp).modHoop h (fun x => { x with fx := rest })) (hgo : s.hoopWaits h 4 e.stamp = false) :
    (o = none → hcanApply s h = (s.hoop h).evs.foldl (fun s v => if v.2.task = e.task then s.cancelEv h v.1 e.stamp else s) u) ∧
    (∀ k, o = some k → hcanApply s h = u.cancelEv h k e.stamp) := by
  have hevs : ((s.at e.stamp).modHoop h (fun x => { x with fx := rest })).hoop h = { s.hoop h with fx := rest } := by
    rw [State.hoop_modHoop, State.at_hoop]
  subst hu
  unfold hcanApply
  simp only [hfx, hk, hacts, hgo, hevs, Bool.not_true, Bool.or_false, Bool.false_eq_true, if_false]
  constructor
  · intro ho
    subst ho
    rfl
  · intro k ho
    subst ho
    rfl

variable {v : HoopEv}

namespace State

theorem cancelEv_none (hv : s.hoopEv h slot = none) (t : Time) : s.cancelEv h slot t = s := by simp [State.cancelEv, hv]

theorem cancelEv_pending (hv : s.hoopEv h slot = some v) {t : Time} (ha : v.active t = false) : s.cancelEv h slot t = s.dropEv h slot := by
  simp [State.cancelEv, hv, ha]

theorem cancelEv_locked (hv : s.hoopEv h slot = some v) {t a b : Time} (hs : v.start = some a) (hb : v.stop = some b)
    (ha : v.active t = true) (hl : lockedAt b t = true) : s.cancelEv h slot t = s := by
  simp [State.cancelEv, hv, ha, hs, hb, hl]

theorem cancelEv_ends (hv : s.hoopEv h slot = some v) {t a : Time} (hs : v.start = some a) (ha : v.active t = true)
    (hl : ∀ b, v.stop = some b → lockedAt b t = false) :
    s.cancelEv h slot t =
      (s.setEv h slot { v with stop := some (later t (a + picots 64)), limited := false, byHcan := true }).evStitches h slot := by
  cases hb : v.stop with
  | none => simp [State.cancelEv, hv, ha, hs, hb]
  | some b => simp [State.cancelEv, hv, ha, hs, hb, hl b hb]

/-- The targets of an event lie ahead of the hoop's angle: at least one turn unit, at most a turn (R367). -/
theorem evTargets_spec (hv : s.hoopEv h slot = some v) (acc : Int) : ∃ d w : Nat,
    0 < d ∧ d ≤ 2 ^ 32 ∧ BitVec.ofNat 32 d = v.desc.start - s.hoopAngle h acc ∧
    w < 2 ^ 32 ∧ BitVec.ofNat 32 w = v.desc.stop - v.desc.start ∧
    s.evTargets h slot acc = s.setEv h slot { v with tgt := some (acc + d, acc + d + w) } := by
  have hset (d : Nat) (hd : (if (v.desc.start - s.hoopAngle h acc).toNat = 0 then 2 ^ 32 else ((v.desc.start - s.hoopAngle h acc).toNat : Int)) = d) :
      s.evTargets h slot acc = s.setEv h slot { v with tgt := some (acc + d, acc + d + (v.desc.stop - v.desc.start).toNat) } := by
    rw [← hd]
    simp only [State.evTargets, hv]
  have hback (b : Word) : BitVec.ofNat 32 b.toNat = b := by simp
  have hlt := (v.desc.start - s.hoopAngle h acc).isLt
  by_cases hz : (v.desc.start - s.hoopAngle h acc).toNat = 0
  · refine ⟨2 ^ 32, _, by decide, le_refl _, ?_, (v.desc.stop - v.desc.start).isLt, hback _, hset _ (by simp [hz])⟩
    rw [BitVec.eq_of_toNat_eq (x := v.desc.start - s.hoopAngle h acc) (y := 0) hz]
    decide
  · exact ⟨_, _, Nat.pos_of_ne_zero hz, hlt.le, hback _, (v.desc.stop - v.desc.start).isLt, hback _,
      hset _ (if_neg hz)⟩

end State

end Apply

/-! ## Event starts and ends -/

section Ends
variable {s u w z : State} {h slot : Nat} {v : HoopEv} {a b : Time}

theorem hoopEventStart_eq (hacts : s.dieActs (h / 4) = true) (hv : s.hoopEv h slot = some v) (ha : v.start = some a) :
    hoopEventStart s h slot = if v.fired || s.hoopWaits h 5 a then s
      else ((s.at a).setEv h slot { v with fired := true }).evActivate h slot v a false := by
  unfold hoopEventStart
  simp only [hv, ha, hacts, Bool.not_true, Bool.false_or]

namespace State

theorem evActivate_pin (hp : v.desc.pin.isSome = true) (t : Time) (fin : Bool) : s.evActivate h slot v t fin = s := by
  obtain ⟨p, hp⟩ := Option.isSome_iff_exists.1 hp
  simp [State.evActivate, hp]

theorem evActivate_none (hp : v.desc.pin = none) (t : Time) (fin : Bool) :
    s.evActivate h slot v t fin = s.activate v.task ⟨t, 6, v.srcSlot, slot, fin, h, slot, b2n fin, []⟩ := by
  simp [State.evActivate, hp]

end State

/-- An event whose end nothing comes before: its slot goes free, its activation and its record follow (R366, R376). -/
theorem hoopEventEnd_eq (hacts : s.dieActs (h / 4) = true) (hv : s.hoopEv h slot = some v) (ha : v.start = some a) (hb : v.stop = some b)
    (hgo : s.hoopWaits h 5 b = false)
    (hu : u = (if v.limited then ((s.at b).modHoop h (fun x => { x with evs := nmDel x.evs slot })).bump F.HOOP_LIMIT_COUNT_time_limit
      (hoopIx h) else (s.at b).modHoop h (fun x => { x with evs := nmDel x.evs slot })))
    (hw : w = u.evActivate h slot v b true)
    (hz : z = (if w.bit F.HOOP_CTRL_evt_rec (hoopIx h) && !v.byHcan then
      w.hoopRecord h 0x34 b ([BitVec.ofNat 8 slot, BitVec.ofNat 8 v.flags] ++ timeBytes a) else w)) :
    hoopEventEnd s h slot = if (z.hoop h).st = 7 then
      (match v.desc.pin with | some p => z.pinToFallback p v.task v.run | none => z) else z := by
  subst hu hw hz
  unfold hoopEventEnd
  simp only [hv, ha, hb, hacts, hgo, Bool.not_true, Bool.or_false, Bool.false_eq_true, if_false] <;>
    rfl

theorem hoopEventEnd_waits (hv : s.hoopEv h slot = some v) (ha : v.start = some a) (hb : v.stop = some b) (hw : s.hoopWaits h 5 b = true) :
    hoopEventEnd s h slot = s := by
  simp [hoopEventEnd, hv, ha, hb, hw]

end Ends

/-! ## HOOP_CTRL and HOOP_EVT_SEL -/

section Ctrl
variable {s u : State} {port : Port} {h : Nat} {v : Word}

theorem hoopIx_number (h : Nat) : 4 * (hoopIx h).d + (hoopIx h).i = h := Nat.div_add_mod h 4

namespace State

theorem lockBit_hoopCtrl :
    s.lockBit (.HOOP_CTRL, hoopIx h) = if s.unitRuns 5 h then some (F.HOOP_STATUS_write_reject, hoopIx h) else none := by
  have hn := hoopIx_number h
  have hlock : s.lockBit (.HOOP_CTRL, hoopIx h) = (if s.unitRuns 5 (4 * (hoopIx h).d + (hoopIx h).i) then
    some (F.HOOP_STATUS_write_reject, hoopIx (4 * (hoopIx h).d + (hoopIx h).i)) else none) := rfl
  rw [hlock, hn]

theorem writeDieReg_hoop :
    s.writeDieReg port .HOOP_CTRL (hoopIx h) v = s.hoopCfgWrite .HOOP_CTRL h v ∧
    s.writeDieReg port .HOOP_EVT_SEL (hoopIx h) v = hoopEvtSelWrite s port h v := by
  have hh := hoopIx_number h
  exact ⟨congrArg (s.hoopCfgWrite .HOOP_CTRL · v) hh, congrArg (hoopEvtSelWrite s port · v) hh⟩

theorem bit_plainWrite_hoopEn : (s.plainWrite .HOOP_CTRL (hoopIx h) v).bit F.HOOP_CTRL_en (hoopIx h) = bitOf v 0 := by
  have hmask : Reg.HOOP_CTRL.info.rw.testBit 0 = true ∧ Reg.HOOP_CTRL.info.w1c.testBit 0 = false ∧ Reg.HOOP_CTRL.info.w1s.testBit 0 = false := by
    decide
  obtain ⟨hrw, hw1c, hw1s⟩ := hmask
  have hreg : (s.plainWrite .HOOP_CTRL (hoopIx h) v).reg .HOOP_CTRL (hoopIx h) = writeMask .HOOP_CTRL (s.reg .HOOP_CTRL (hoopIx h)) v :=
    State.reg_setReg _ _ _ _
  rw [State.bit, show F.HOOP_CTRL_en.reg = .HOOP_CTRL from rfl, hreg, bitOf, getLsbD_writeMask _ _ _ (by decide), bitOf]
  simp [show F.HOOP_CTRL_en.lo = 0 from rfl, hrw, hw1c, hw1s]

/-- The source, the reference, direction and edge of HOOP_CTRL that a write would change while the hoop is enabled (R379). -/
def hoopFixed (s : State) (h : Nat) (v : Word) : Bool :=
  s.bit F.HOOP_CTRL_en (hoopIx h) && (bitsOf (s.reg .HOOP_CTRL (hoopIx h)) 1 4 != bitsOf v 1 4 ||
    bitsOf (s.reg .HOOP_CTRL (hoopIx h)) 6 2 != bitsOf v 6 2)

theorem hoopFixed_iff : s.hoopFixed h v = true ↔ s.bit F.HOOP_CTRL_en (hoopIx h) = true ∧
    (bitsOf (s.reg .HOOP_CTRL (hoopIx h)) 1 4 ≠ bitsOf v 1 4 ∨ bitsOf (s.reg .HOOP_CTRL (hoopIx h)) 6 2 ≠ bitsOf v 6 2) := by
  simp [State.hoopFixed]

/-- A write of HOOP_CTRL that no running task locks (R347, R379). -/
theorem hoopCfgWrite_ctrl (hu : u = s.plainWrite .HOOP_CTRL (hoopIx h) v) :
    s.hoopCfgWrite .HOOP_CTRL h v =
      if s.hoopFixed h v || !u.hoopRanges h || !u.hoopSourceOk h then s.setBit F.HOOP_STATUS_cfg_reject (hoopIx h) true
      else if bitOf v 0 then (if s.bit F.HOOP_CTRL_en (hoopIx h) then u else u.hoopStart h s.now) else u.hoopStop h s.now := by
  have hen : u.bit F.HOOP_CTRL_en (hoopIx h) = bitOf v 0 := by rw [hu, State.bit_plainWrite_hoopEn]
  have hcode : s.hoopCfgWrite .HOOP_CTRL h v =
      if (s.hoopFixed h v || !u.hoopRanges h || false || !u.hoopSourceOk h) = true then s.setBit F.HOOP_STATUS_cfg_reject (hoopIx h) true
      else if (u.bit F.HOOP_CTRL_en (hoopIx h) && !s.bit F.HOOP_CTRL_en (hoopIx h)) = true then u.hoopStart h s.now
      else if (true && !u.bit F.HOOP_CTRL_en (hoopIx h)) = true then u.hoopStop h s.now else u := by
    rw [hu]
    rfl
  rw [hcode, hen, Bool.or_false]
  cases bitOf v 0 <;> cases s.bit F.HOOP_CTRL_en (hoopIx h) <;> rfl

theorem hoopSourceOk_off (hen : s.bit F.HOOP_CTRL_en (hoopIx h) = false) : s.hoopSourceOk h = true := by
  simp [State.hoopSourceOk, hen]

end State

/-- A write of HOOP_CTRL through a port that reaches it. -/
theorem State.Opens.hoopCtrl {g : Time} (hop : (s.at g).Opens port (.HOOP_CTRL, hoopIx h)) (hu : u = (s.at g).plainWrite .HOOP_CTRL (hoopIx h) v) :
    (s.unitRuns 5 h = true → (s.at g).hostWriteReg port (.HOOP_CTRL, hoopIx h) v =
      (s.at g).wrote (.HOOP_CTRL, hoopIx h) ((s.at g).setBit F.HOOP_STATUS_write_reject (hoopIx h) true)) ∧
    (s.unitRuns 5 h = false → (s.at g).hostWriteReg port (.HOOP_CTRL, hoopIx h) v = (s.at g).wrote (.HOOP_CTRL, hoopIx h)
      (if s.hoopFixed h v || !u.hoopRanges h || !u.hoopSourceOk h then (s.at g).setBit F.HOOP_STATUS_cfg_reject (hoopIx h) true
        else if bitOf v 0 then (if s.bit F.HOOP_CTRL_en (hoopIx h) then u else u.hoopStart h (s.at g).now) else u.hoopStop h (s.at g).now)) := by
  have hlock := State.lockBit_hoopCtrl (s := s.at g) (h := h)
  rw [State.at_unitRuns] at hlock
  have hfix : (s.at g).hoopFixed h v = s.hoopFixed h v := by simp [State.hoopFixed]
  refine ⟨fun hrun => ?_, fun hrun => ?_⟩
  all_goals rw [hrun] at hlock
  · exact hop.write_eq (State.writeKey_locked _ _ hlock)
  · rw [hop.dieWrite _ hlock (by decide), State.writeDieReg_hoop.1, State.hoopCfgWrite_ctrl hu, hfix, State.at_bit]

theorem hoopEvtSelWrite_none (hv : s.hoopEv h (bitsOf v 0 6) = none) :
    hoopEvtSelWrite s port h v = (((s.plainWrite .HOOP_EVT_SEL (hoopIx h) v).setReg .HOOP_EVT_INFO (hoopIx h) 0).setReg64
      .HOOP_EVT_START_LO .HOOP_EVT_START_HI (hoopIx h) 0).setReg64 .HOOP_EVT_END_LO .HOOP_EVT_END_HI (hoopIx h) 0 := by
  have hv' : (s.plainWrite .HOOP_EVT_SEL (hoopIx h) v).hoopEv h (bitsOf v 0 6) = none := hv
  simp only [hoopEvtSelWrite, hv']

theorem hoopEvtSelWrite_some {e : HoopEv} (he : s.hoopEv h (bitsOf v 0 6) = some e) :
    hoopEvtSelWrite s port h v = (((s.plainWrite .HOOP_EVT_SEL (hoopIx h) v).setReg .HOOP_EVT_INFO (hoopIx h)
      (BitVec.ofNat 32 ((if e.active s.now then 2 else 1) + 4 * b2n e.desc.pin.isNone + 8 * b2n e.desc.hold +
        16 * b2n e.desc.level + 32 * b2n (e.startSynth || e.endSynth || e.sticky) + 64 * b2n e.start.isNone +
        65536 * (e.task % 4096)))).setReg64 .HOOP_EVT_START_LO .HOOP_EVT_START_HI (hoopIx h)
          (e.start.getD 0)).setReg64 .HOOP_EVT_END_LO .HOOP_EVT_END_HI (hoopIx h) (e.stop.getD 0) := by
  have he' : (s.plainWrite .HOOP_EVT_SEL (hoopIx h) v).hoopEv h (bitsOf v 0 6) = some e := he
  have hnow : (s.plainWrite .HOOP_EVT_SEL (hoopIx h) v).now = s.now := rfl
  simp only [hoopEvtSelWrite, he', hnow]

end Ctrl

/-- Settles O35: effects, starts and ends by the equation of each, a write of HOOP_CTRL by `State.hoopCfgWrite_ctrl`. -/
theorem hoopEvents : Obligations.HoopEvents := by
  refine ⟨fun s u w h g slot src e rest desc hacts hfx hk hu hw => ⟨fun hwait => ?_, fun hgo => ?_⟩,
    fun s h slot acc v hv => State.evTargets_spec hv acc,
    fun s u h g o e rest hacts hfx hk hu => ⟨fun hwait => ?_, fun hgo => ?_⟩,
    fun s h slot v a hacts hv ha => ⟨fun hwait => ?_, fun hf hgo => ⟨fun hp => ?_, fun hp => ?_⟩, fun b u w hb hu hw => ⟨fun hwait => ?_, fun hgo z hz => ?_⟩⟩,
    fun s s' u port h v g hs => ⟨fun hop hu => ?_, fun hop hu => ?_, fun hop => ?_⟩⟩
  · exact congrArg Host.Outcome.next (by simp [hevtApply, hfx, hk, hwait])
  · have happ := hevtApply_eq hacts hfx hk hu hgo
    have hev := State.hoopEv_taken (slot := slot) hu
    refine ⟨fun v hv hact => congrArg Host.Outcome.next (happ.trans (if_pos (by simp [State.evBusy, hev, hv, hact]))), fun hno => ?_⟩
    have hbusy : u.evBusy h slot e.stamp = false := by
      cases hv : s.hoopEv h slot with
      | none => simp [State.evBusy, hev, hv]
      | some v => simp [State.evBusy, hev, hv, hno v hv]
    rw [hbusy, if_neg (by decide)] at happ
    refine ⟨fun p hp hfull => ?_, fun hroom => ?_⟩
    · have hcount : u.evCounted desc = u.bump F.PIN_REFUSE_COUNT_count (pinIx p) := by simp [State.evCounted, hp]
      have hful : u.evFull h slot desc = true := by
        simp only [State.evFull, hp]
        exact decide_eq_true hfull
      exact congrArg Host.Outcome.next (happ.trans ((if_pos hful).trans (by rw [hcount])))
    · have hful : u.evFull h slot desc = false := by
        cases hp : desc.pin with
        | none => simp [State.evFull, hp]
        | some p =>
          simp only [State.evFull, hp]
          exact decide_eq_false (Nat.not_le.2 (hroom p hp))
      rw [hful, if_neg (by decide), ← hw] at happ
      refine ⟨fun h2 h6 => congrArg Host.Outcome.next (happ.trans (if_neg (by simp [h2, h6]))), fun acc p pts hst hacc hpts =>
        congrArg Host.Outcome.next (happ.trans ((if_pos hst).trans ?_))⟩
      simp only [hacc, hpts]
  · exact congrArg Host.Outcome.next (by simp [hcanApply, hfx, hk, hwait])
  · obtain ⟨hall, hone⟩ := hcanApply_eq hacts hfx hk hu hgo
    have hev (k : Nat) := State.hoopEv_taken (slot := k) hu
    refine ⟨fun ho => congrArg Host.Outcome.next (hall ho), fun k ho => ⟨fun hv => ?_, fun v hv => ⟨fun hact => ?_, fun a ha hact => ⟨fun b hb hl => ?_, fun hl => ?_⟩⟩⟩⟩
    all_goals refine congrArg Host.Outcome.next ((hone k ho).trans ?_)
    · exact State.cancelEv_none ((hev k).trans hv) _
    · exact State.cancelEv_pending ((hev k).trans hv) hact
    · exact State.cancelEv_locked ((hev k).trans hv) ha hb hact hl
    · exact State.cancelEv_ends ((hev k).trans hv) ha hact hl
  · exact congrArg Host.Outcome.next ((hoopEventStart_eq hacts hv ha).trans (if_pos (by simp [hwait])))
  · refine congrArg Host.Outcome.next ((hoopEventStart_eq hacts hv ha).trans ((if_neg (by simp [hf, hgo])).trans ?_))
    exact State.evActivate_none hp _ _
  · refine congrArg Host.Outcome.next ((hoopEventStart_eq hacts hv ha).trans ((if_neg (by simp [hf, hgo])).trans ?_))
    exact State.evActivate_pin hp _ _
  · exact congrArg Host.Outcome.next (hoopEventEnd_waits hv ha hb hwait)
  · have hw' : w = u.evActivate h slot v b true := by
      rw [hw]
      cases hp : v.desc.pin with
      | none => exact (if_pos rfl).trans (State.evActivate_none hp _ _).symm
      | some p => exact (if_neg (by simp)).trans (State.evActivate_pin (by simp [hp]) _ _).symm
    have hz' : z = (if w.bit F.HOOP_CTRL_evt_rec (hoopIx h) && !v.byHcan then
        w.hoopRecord h 0x34 b ([BitVec.ofNat 8 slot, BitVec.ofNat 8 v.flags] ++ timeBytes a) else w) := by
      rw [hz]
      exact if_congr (by simp) rfl rfl
    refine congrArg Host.Outcome.next ((hoopEventEnd_eq hacts hv ha hb hgo hu hw' hz').trans ?_)
    cases hp : v.desc.pin with
    | none => exact ite_self _
    | some p => rfl
  · subst hs
    obtain ⟨hlocked, hfree⟩ := State.Opens.hoopCtrl hop hu
    have hbit : bitOf (v ||| 1) 0 = true := by simp [bitOf]
    rw [hbit] at hfree
    refine ⟨fun hrun => congrArg Host.Outcome.next (hlocked hrun), fun hrun hen hr hso => ?_, fun hrun hbad => ?_⟩
    all_goals refine congrArg Host.Outcome.next ((hfree hrun).trans (congrArg _ ?_))
    · have hfix : s.hoopFixed h (v ||| 1) = false := by simp [State.hoopFixed, hen]
      exact (if_neg (by rw [hfix, hr, hso]; decide)).trans ((if_pos rfl).trans (if_neg (by rw [hen]; decide)))
    · refine if_pos ?_
      rcases hbad with hb | hb | hb
      · simp [hb]
      · simp [hb]
      · rw [State.hoopFixed_iff.2 hb, Bool.true_or, Bool.true_or]
  · subst hs
    obtain ⟨hlocked, hfree⟩ := State.Opens.hoopCtrl hop hu
    have hbit : bitOf (v &&& ~~~1) 0 = false := by simp [bitOf]
    have hoff : u.hoopSourceOk h = true := State.hoopSourceOk_off (by rw [hu, State.bit_plainWrite_hoopEn, hbit])
    rw [hbit] at hfree
    refine ⟨fun hrun => congrArg Host.Outcome.next (hlocked hrun), fun hrun hr hkeep => ?_, fun hrun hbad => ?_⟩
    all_goals refine congrArg Host.Outcome.next ((hfree hrun).trans (congrArg _ ?_))
    · have hfix : s.hoopFixed h (v &&& ~~~1) = false := by
        rcases hkeep with hen | ⟨h1, h6⟩
        · simp [State.hoopFixed, hen]
        · simp [State.hoopFixed, h1, h6]
      exact (if_neg (by rw [hfix, hr, hoff]; decide)).trans (if_neg (by decide))
    · refine if_pos ?_
      rcases hbad with hb | hb
      · simp [hb]
      · rw [State.hoopFixed_iff.2 hb, Bool.true_or, Bool.true_or]
  · have hwrite (x : State) (hx : hoopEvtSelWrite s port h v = x) :
        exec (.hoopEvtSelWrite port h v) s = .next (s.wrote (.HOOP_EVT_SEL, hoopIx h) x) :=
      congrArg Host.Outcome.next ((hop.dieWrite v rfl (by decide)).trans (congrArg _ (State.writeDieReg_hoop.2.trans hx)))
    exact ⟨fun hv => hwrite _ (hoopEvtSelWrite_none hv), fun e he => hwrite _ (hoopEvtSelWrite_some he)⟩

end Sys2Proof.Machine

/-! # Links and received frames (R380, R381, R383, R403) -/

namespace Sys2Proof.Machine

section Receive
variable {s u : State} {p : Nat} {h : RxHdr} {f : AxisFrame} {raw rx g : Time}

theorem netLinkChange_eq (hp : p < 2) (hacts : s.dieActs p = true) (hen : s.bit F.NET_CTRL_en (pkg1 p) = true) (up : Bool) :
    netLinkChange s p up g =
      (let w := ((s.at g).setBit F.NET_STATUS_link_up (pkg1 p) up).setBit F.NET_STATUS_an_done (pkg1 p) (up && s.bit F.NET_CTRL_an_en (pkg1 p))
       if up then w.setBit F.CLK_STATUS_sgmii_refclk_ok pkg true else w.modNet p (fun x => { x with wire := none })) := by
  have han : ((s.at g).setBit F.NET_STATUS_link_up (pkg1 p) up).bit F.NET_CTRL_an_en (pkg1 p) = s.bit F.NET_CTRL_an_en (pkg1 p) := by
    rw [State.bit, State.reg_setBit_ne _ _ _ _ (by decide), ← State.bit, State.at_bit]
  simp only [netLinkChange, hp, hacts, hen, han, decide_true, Bool.and_self, if_true]

/-- A frame at a port that is up: its FCS and length, then the receive filter (R381). -/
theorem axisFrameRx_eq (hup : s.portUp p = true) (hu : u = s.at raw) (hrx : rx = raw - picots (s.fld F.NET_LAT_rx_lat (pkg1 p))) :
    axisFrameRx s p h f raw =
      if h.fcsOk = false ∨ h.len < 64 ∨ 1522 < h.len then u.bump F.NET_RX_COUNT_fcs_err (pkg1 p)
      else if s.rxWanted p h = true then
        (if h.ethertype = s.fld F.LS_CTRL_ethertype pkg then u.axisFrame p f rx else u)
      else u.bump F.NET_RX_COUNT_dropped (pkg1 p) := by
  subst hu hrx
  have hwant : (s.at raw).rxWanted p h = s.rxWanted p h := by simp [State.rxWanted, State.mac, State.groupMac]
  unfold axisFrameRx State.receiveFrame
  simp only [hup, hwant, State.at_fld, if_true]
  exact if_congr (by simp [or_assoc]) rfl rfl

namespace State

/-- The sequence of a frame that restarts, of the first one of an entry, or of one that goes on, is taken (R403, checks 7 and 8). -/
def seqTaken (s : State) (e : Nat) (f : AxisFrame) : State :=
  if f.restart = true ∧ f.seq = 0 then
    ((s.setReg .AXS_LAST_SEQ (pkg1 e) f.seq).setAxs e { s.axs e with first := false }).setBit F.AXS_STATUS_restarted (pkg1 e) true
  else (s.setReg .AXS_LAST_SEQ (pkg1 e) f.seq).setAxs e { s.axs e with first := false }

/-- The checks of R403 on a frame whose node and axis an entry matches. -/
theorem axisFrame_matched {e : Nat} {d : Int} (hdom : f.domain = s.fld F.LS_CTRL_domain pkg) (hnode : f.node ≠ s.fld F.LS_NODE_node_id pkg)
    (he : s.axsMatch p f.node f.axis = some e) (hd : d = (f.seq - s.reg .AXS_LAST_SEQ (pkg1 e)).toInt) :
    s.axisFrame p f rx =
      if f.version ≠ 1 then s.bump F.AXS_COUNT_count_lo (pkg2 e 2)
      else if f.digest ≠ s.reg .LS_LINE_DIGEST pkg then s.bump F.AXS_COUNT_count_hi (pkg2 e 2)
      else if f.unqualified = true then s.bump F.AXS_COUNT_count_lo (pkg2 e 3)
      else if (f.restart = true ∧ f.seq = 0) ∨ (s.axs e).first = true ∨ 0 < d then (s.seqTaken e f).takeSample p e f rx
      else if d = 0 then s.bump F.AXS_COUNT_count_hi (pkg2 e 1)
      else s.bump F.AXS_COUNT_count_hi (pkg2 e 3) := by
  have hzero : (f.seq - s.reg .AXS_LAST_SEQ (pkg1 e) == 0) = decide (d = 0) := by
    rw [hd, Bool.beq_eq_decide_eq]
    exact decide_eq_decide.2 ⟨fun h => by rw [h]; decide, fun h => BitVec.eq_of_toInt_eq (by rw [h]; decide)⟩
  have hneg : (f.seq - s.reg .AXS_LAST_SEQ (pkg1 e)).msb = decide (d < 0) := by rw [hd, BitVec.msb_eq_toInt]
  have hfresh : (f.restart && f.seq == 0) = decide (f.restart = true ∧ f.seq = 0) := by
    rw [Bool.beq_eq_decide_eq, Bool.decide_and, Bool.decide_eq_true]
  have htaken : (if decide (f.restart = true ∧ f.seq = 0) = true then
      ((s.setReg .AXS_LAST_SEQ (pkg1 e) f.seq).setAxs e { s.axs e with first := false }).setBit F.AXS_STATUS_restarted (pkg1 e) true
      else (s.setReg .AXS_LAST_SEQ (pkg1 e) f.seq).setAxs e { s.axs e with first := false }) = s.seqTaken e f :=
    if_congr (decide_eq_true_iff) rfl rfl
  have haxs : (s.setReg .AXS_LAST_SEQ (pkg1 e) f.seq).axs e = s.axs e := rfl
  unfold State.axisFrame
  simp only [hdom, hnode, he, hzero, hneg, hfresh, haxs, htaken, ne_eq, not_true_eq_false, if_false]
  refine if_congr Iff.rfl rfl (if_congr Iff.rfl rfl (if_congr Iff.rfl rfl ?_))
  rw [if_congr (or_congr_left (decide_eq_true_iff (p := f.restart = true ∧ f.seq = 0)).symm) rfl rfl]
  generalize decide (f.restart = true ∧ f.seq = 0) = fresh
  cases fresh
  · cases hfirst : (s.axs e).first
    · rcases lt_trichotomy d 0 with hlt | heq | hgt
      · simp [hlt, hlt.ne, hlt.not_gt]
      · simp [heq]
      · simp [hgt, hgt.ne', hgt.not_gt]
    · simp
  · simp

end State

end Receive

/-- Settles O36: `netLinkChange_eq` for the links, `axisFrameRx_eq` and `State.axisFrame_matched` for the checks of a frame in their order. -/
theorem networkReceive : Obligations.NetworkReceive := by
  intro s u p h f raw rx g hu hrx
  refine ⟨fun hp hacts hen => ⟨?_, ?_⟩, fun hup => ?_⟩
  · exact congrArg Host.Outcome.next (netLinkChange_eq hp hacts hen true)
  · exact congrArg Host.Outcome.next (netLinkChange_eq hp hacts hen false)
  have hrx := axisFrameRx_eq (h := h) (f := f) hup hu hrx
  refine ⟨fun hbad => congrArg Host.Outcome.next (hrx.trans (if_pos hbad)), fun hfcs hmin hmax hw => ?_, fun hfcs hmin hmax hw het => ?_⟩
  all_goals rw [if_neg (by simp [hfcs, hmin, hmax])] at hrx
  · exact congrArg Host.Outcome.next (hrx.trans (if_neg (by simp [hw])))
  rw [if_pos hw, if_pos het] at hrx
  have hfld (x : Fld) (ix : Ix) : u.fld x ix = s.fld x ix := by rw [hu, State.at_fld]
  have hreg (r : Reg) (ix : Ix) : u.reg r ix = s.reg r ix := by rw [hu, State.at_reg]
  have haxs (e : Nat) : u.axs e = s.axs e := by simp [hu, State.axs]
  have hmatch : u.axsMatch p f.node f.axis = s.axsMatch p f.node f.axis := by rw [hu, State.at_axsMatch]
  refine ⟨fun hdom => ?_, fun hdom hnode => ?_, fun hdom hnode => ⟨fun hnone => ?_, fun e he => ?_⟩⟩
  · exact congrArg Host.Outcome.next (hrx.trans (if_pos (by rwa [hfld])))
  · exact congrArg Host.Outcome.next (hrx.trans ((if_neg (by simp [hfld, hdom])).trans (if_pos (by rwa [hfld]))))
  · refine congrArg Host.Outcome.next (hrx.trans ((if_neg (by simp [hfld, hdom])).trans ((if_neg (by rwa [hfld])).trans ?_)))
    rw [hmatch, hnone]
  · rw [State.axisFrame_matched (by rwa [hfld]) (by rwa [hfld]) (hmatch.trans he) rfl, hreg, hreg, haxs] at hrx
    refine ⟨fun hver => ?_, fun hver hdig => ?_, fun hver hdig huq => ?_, fun hver hdig huq d hd => ?_⟩
    · exact congrArg Host.Outcome.next (hrx.trans (if_pos hver))
    · exact congrArg Host.Outcome.next (hrx.trans ((if_neg (not_not.2 hver)).trans (if_pos hdig)))
    · exact congrArg Host.Outcome.next (hrx.trans ((if_neg (not_not.2 hver)).trans ((if_neg (not_not.2 hdig)).trans (if_pos huq))))
    rw [if_neg (not_not.2 hver), if_neg (not_not.2 hdig), if_neg (by simp [huq]), ← hd] at hrx
    refine ⟨fun htake => congrArg Host.Outcome.next (hrx.trans ((if_pos htake).trans (by rw [State.seqTaken, haxs]))),
      fun hnf hfirst => ⟨fun h0 => ?_, fun hlt => ?_⟩⟩
    · exact congrArg Host.Outcome.next (hrx.trans ((if_neg (not_or.2 ⟨hnf, by simp [hfirst, h0]⟩)).trans (if_pos h0)))
    · exact congrArg Host.Outcome.next (hrx.trans ((if_neg (not_or.2 ⟨hnf, by simp [hfirst, hlt.not_gt]⟩)).trans (if_neg hlt.ne)))

end Sys2Proof.Machine

/-! # PTP messages, intervals and timeouts (R381, R388 to R391, R409) -/

namespace Sys2Proof.Machine

section Rx
variable {s u : State} {p : Nat} {h : RxHdr} {raw rx g : Time}

namespace State

/-- A frame that passes R381 at a port that is up, whether or not it is one of the PTP messages it handles. -/
theorem ptpRx_eq (hup : s.portUp p = true) (hfcs : h.fcsOk = true) (hmin : 64 ≤ h.len) (hmax : h.len ≤ 1522) (hw : s.rxWanted p h = true)
    (hu : u = s.at raw) (hrx : rx = raw - picots (s.fld F.NET_LAT_rx_lat (pkg1 p))) (f : State → Time → State) :
    s.ptpRx p h raw f =
      if h.ethertype = 0x88F7 ∧ s.ptpUses p = true ∧ h.domain = s.fld F.NET_PTP_CTRL_ptp_domain pkg then f u rx else u := by
  subst hu hrx
  have hwant : (s.at raw).rxWanted p h = s.rxWanted p h := by simp [State.rxWanted, State.mac, State.groupMac]
  have hok : (!h.fcsOk || decide (h.len < 64) || decide (1522 < h.len)) = false := by simp [hfcs, hmin, hmax]
  unfold State.ptpRx State.receiveFrame
  simp only [hup, hok, hwant, hw, State.at_fld, State.at_ptpUses, if_true, Bool.false_eq_true, if_false]

theorem at_sinceMaster (t : Time) (x : Int) : (s.at g).sinceMaster t x = s.sinceMaster t x := by
  simp [State.sinceMaster, State.plantOffset]

end State

end Rx

section Timeouts
variable {s : State} {p : Nat} {g : Time} {m : PtpTx}

theorem execPtpTxInterval_due (huse : s.ptpUses p = true) (hacts : s.dieActs p = true) (hdue : s.txDue p m g = true) :
    exec (.ptpTxInterval p m g) s = .next
      (let w := (s.at g).modPtp p (fun x => { x with txAt := nmPut x.txAt (ptpTxCode m) g })
       match m with
       | .announce => if s.portState p = 6 then w.ptpNew p 64 false .announce else w
       | .sync => if s.portState p = 6 then w.ptpNew p 44 false .sync else w
       | .delayReq => if s.portState p = 9 ∧ s.peerDelay = false then w.ptpNew p 44 false .delayReq else w
       | .pdelayReq => if s.peerDelay then w.ptpNew p 54 true .pdelayReq else w) := by
  have hgo : (s.ptpUses p && s.dieActs p && s.txDue p m g) = true := by simp [huse, hacts, hdue]
  have hps : ((s.at g).modPtp p (fun x => { x with txAt := nmPut x.txAt (ptpTxCode m) g })).portState p = s.portState p :=
    State.at_portState s g p
  have hpd : ((s.at g).modPtp p (fun x => { x with txAt := nmPut x.txAt (ptpTxCode m) g })).peerDelay = s.peerDelay := State.at_peerDelay s g
  refine congrArg Host.Outcome.next ((if_pos hgo).trans ?_)
  cases m
  · exact if_congr (by rw [hps]) rfl rfl
  · exact if_congr (by rw [hps]) rfl rfl
  · exact if_congr (by rw [hps, hpd]) rfl rfl
  · exact if_congr (by rw [hpd]) rfl rfl

/-- Since when a port waits for a Sync: the later of the last one and its becoming SLAVE (R391, cause 2). -/
def syncSince (x : PtpPort) : Option Time :=
  match x.lastSync, x.slaveSince with
  | some a, some b => some (later a b)
  | some a, none => some a
  | none, b => b

theorem execPtpSyncTimeout_eq {c : Nat} {t : Time} (hc : s.ptpList.find? (fun p => s.portState p == 9) = some c)
    (ht : syncSince (s.ptpPort c) = some t) :
    exec (.ptpSyncTimeout g) s = .next (if upTo (t + picots (3 * s.syncInterval)) g then
      { s.at g with ptp := { s.ptp with lost := true } }.unqualIf 2 else s) := by
  refine congrArg Host.Outcome.next ?_
  rw [hc]
  change (match syncSince (s.ptpPort c) with
    | some t => if upTo (t + picots (3 * s.syncInterval)) g then { s.at g with ptp := { s.ptp with lost := true } }.unqualIf 2 else s
    | none => s) = _
  rw [ht]

/-- A write of NET_PTP_CTRL or NET_PTP_INTERVALS is taken exactly when its fields are in range (R389, R409). -/
theorem netPtpW_eq {port : Port} {i ok : Bool} {v : Word}
    (hok : ok = (if i then decide (-7 ≤ logInt (bitsOf v 0 4) ∧ logInt (bitsOf v 0 4) ≤ 1 ∧ -3 ≤ logInt (bitsOf v 4 4) ∧
        logInt (bitsOf v 4 4) ≤ 4 ∧ -7 ≤ logInt (bitsOf v 8 4) ∧ logInt (bitsOf v 8 4) ≤ 4 ∧ 2 ≤ bitsOf v 12 4 ∧ bitsOf v 12 4 ≤ 10)
      else decide (bitsOf v 1 2 ≠ 3 ∧ ¬(bitsOf v 1 2 = 2 ∧ bitsOf v 3 2 = 3)))) :
    netPtpW s port i v = if ok then (s.plainWrite (if i then .NET_PTP_INTERVALS else .NET_PTP_CTRL) pkg v).ptpRestart
      else s.setBit F.NET_PTP_STATUS_cfg_reject pkg true := by
  have hbad : (if i = true then !decide (-7 ≤ logInt (bitsOf v 0 4) ∧ logInt (bitsOf v 0 4) ≤ 1 ∧ -3 ≤ logInt (bitsOf v 4 4) ∧
        logInt (bitsOf v 4 4) ≤ 4 ∧ -7 ≤ logInt (bitsOf v 8 4) ∧ logInt (bitsOf v 8 4) ≤ 4 ∧ 2 ≤ bitsOf v 12 4 ∧ bitsOf v 12 4 ≤ 10)
      else bitsOf v 1 2 == 3 || (bitsOf v 1 2 == 2 && bitsOf v 3 2 == 3)) = !ok := by
    subst hok
    cases i
    · rw [Bool.eq_iff_iff]
      simp only [Bool.false_eq_true, if_false, Bool.or_eq_true, Bool.and_eq_true, beq_iff_eq, Bool.not_eq_true', decide_eq_false_iff_not]
      tauto
    · rfl
  refine (if_congr (by rw [hbad]) rfl rfl).trans ?_
  cases ok <;> rfl

end Timeouts

/-- Settles O39: received messages by `State.ptpRx_eq`, the intervals and timeouts by their equations, the writes by `netPtpW_eq`. -/
theorem ptpMessages : Obligations.PtpMessages := by
  intro s u port p seq h raw rx g a b y hu hrx hy
  refine ⟨fun hup hfcs hmin hmax hw het huse hdom => ?_, fun hup hfcs hmin hmax hw hnot two m c i hi => ?_, fun huse hacts w hw => ?_,
    fun c t hc ht => ?_, fun huse => ?_, fun v i r hr hop ok hok => ?_⟩
  · have hrun (f : State → Time → State) : s.ptpRx p h raw f = f u rx :=
      (State.ptpRx_eq hup hfcs hmin hmax hw hu hrx f).trans (if_pos ⟨het, huse, hdom⟩)
    have hps : u.portState p = s.portState p := by rw [hu, State.at_portState]
    have hpd : u.peerDelay = s.peerDelay := by rw [hu, State.at_peerDelay]
    have hport : u.ptpPort p = y := by simp [hu, hy, State.ptpPort]
    have hprof (f : Fld) (ix : Ix) : u.fld f ix = s.fld f ix := by rw [hu, State.at_fld]
    have hms (t : Time) (x : Int) : u.sinceMaster t x = s.sinceMaster t x := by rw [hu, State.at_sinceMaster]
    refine ⟨fun h9 => ⟨?_, ?_⟩, fun r c h9 hs => ?_, fun h6 hpeer => ?_, fun t3 ms hreq hm hpeer => ?_, fun hpeer => ?_,
      fun t1 hreq hpeer => ⟨?_, ?_⟩, fun t1 t2 t4 c hreq hresp hpeer => ?_, fun m => ?_, fun c h2 => ?_⟩
    all_goals refine congrArg Host.Outcome.next ((hrun _).trans ?_)
    · simp [hps, h9]
    · simp [hps, h9]
    · simp [hport, hs, hps, h9]
    · simp [hps, hpd, h6, hpeer]
    · simp [hport, hreq, hm, hpd, hpeer, hms]
    · simp [hpd, hpeer]
    · simp [hport, hreq, hpd, hpeer]
    · simp [hport, hreq, hpd, hpeer]
    · simp [hport, hreq, hresp, hpd, hpeer]
    · rfl
    · exact if_pos ((hprof _ _).trans h2)
  · have hrun (f : State → Time → State) : s.ptpRx p h raw f = u :=
      (State.ptpRx_eq hup hfcs hmin hmax hw hu hrx f).trans (if_neg fun ⟨h1, h2, h3⟩ => by
        rcases hnot with h' | h' | h'
        · exact h' h1
        · simp [h'] at h2
        · exact h' h3)
    simp only [List.mem_cons, List.not_mem_nil, or_false] at hi
    rcases hi with rfl | rfl | rfl | rfl | rfl | rfl | rfl | rfl | rfl
    all_goals exact congrArg Host.Outcome.next (hrun _)
  · refine ⟨fun h6 hdue => ?_, fun h6 hdue => ?_, fun h9 hpeer hdue => ?_, fun hpeer hdue => ?_⟩
    all_goals refine (execPtpTxInterval_due huse hacts hdue).trans (congrArg Host.Outcome.next ?_)
    · rw [hw]
      exact if_pos h6
    · rw [hw]
      exact if_pos h6
    · rw [hw]
      exact if_pos ⟨h9, hpeer⟩
    · rw [hw]
      exact if_pos hpeer
  · have htime : syncSince (s.ptpPort c) = some t := by
      rcases ht with ⟨h1, h2⟩ | ⟨h1, h2⟩ | ⟨l, m, h1, h2, rfl⟩ <;> simp [syncSince, h1, h2]
    have hout := execPtpSyncTimeout_eq (g := g) hc htime
    exact ⟨fun hdue => hout.trans (congrArg Host.Outcome.next (if_pos hdue)),
      fun hdue => hout.trans (congrArg Host.Outcome.next (if_neg (by simp [hdue])))⟩
  · refine ⟨fun hann => ?_, fun m t hann hdue => ?_⟩
    all_goals
      rw [hy] at hann
      refine congrArg Host.Outcome.next ((if_pos huse).trans ?_)
    · simp [hann]
    · simp [hann, hdue]
  · subst hr
    have hwrite : (s.at g).writePkg port (if i = true then .NET_PTP_INTERVALS else .NET_PTP_CTRL) pkg v = netPtpW (s.at g) port i v := by
      cases i <;> rfl
    have hkey : (s.at g).hostWriteReg port (if i = true then .NET_PTP_INTERVALS else .NET_PTP_CTRL, pkg) v =
        (s.at g).wrote (if i = true then .NET_PTP_INTERVALS else .NET_PTP_CTRL, pkg) (netPtpW (s.at g) port i v) := by
      refine hop.write_eq ((State.writeKey_pkg _ _ _ _ ?_).trans hwrite)
      cases i <;> decide
    have hbad := netPtpW_eq (s := s.at g) (port := port) hok
    refine ⟨fun h => congrArg Host.Outcome.next (hkey.trans ?_), fun h => congrArg Host.Outcome.next (hkey.trans ?_)⟩
    · exact congrArg _ (hbad.trans (if_pos h))
    · exact congrArg _ (hbad.trans (if_neg (by rw [h]; decide)))

end Sys2Proof.Machine

/-! # Publishing, releasing, flushing and resetting queues (R414 to R424, R440) -/

namespace Sys2Proof.Machine

/-! ## What publishing and releasing leave to a reset -/

/-- Between `s` and `u` queue `q` keeps its generation and its capacity, and its fault count; every other queue and die memory are the same. -/
def State.KeepsRing (q : Nat) (s u : State) : Prop :=
  ((u.que q).gen = (s.que q).gen ∧ (u.que q).cap = (s.que q).cap) ∧ u.dieMem = s.dieMem ∧ (∀ r, r ≠ q → u.que r = s.que r) ∧
    ∀ ix, u.reg .QUE_IDLE_COUNT ix = s.reg .QUE_IDLE_COUNT ix

section Keeps
variable {q : Nat} {s u v : State} {g : Time}

namespace State.KeepsRing

theorem of_ques (hq : u.ques = s.ques) (hm : u.dieMem = s.dieMem)
    (hr : ∀ ix, u.reg .QUE_IDLE_COUNT ix = s.reg .QUE_IDLE_COUNT ix) : s.KeepsRing q u := by
  have hque (r : Nat) : u.que r = s.que r := by rw [State.que, hq, State.que]
  exact ⟨by rw [hque]; exact ⟨rfl, rfl⟩, hm, fun r _ => hque r, hr⟩

theorem refl (q : Nat) (s : State) : s.KeepsRing q s := .of_ques rfl rfl fun _ => rfl

theorem trans (hsu : s.KeepsRing q u) (huv : u.KeepsRing q v) : s.KeepsRing q v := by
  obtain ⟨⟨hg, hc⟩, hm, ho, hr⟩ := hsu
  obtain ⟨⟨hg', hc'⟩, hm', ho', hr'⟩ := huv
  exact ⟨⟨hg'.trans hg, hc'.trans hc⟩, hm'.trans hm, fun r h => (ho' r h).trans (ho r h), fun ix => (hr' ix).trans (hr ix)⟩

end State.KeepsRing

namespace State

theorem que_setQue_ne (s : State) (x : QueSt) {r : Nat} (h : r ≠ q) : (s.setQue q x).que r = s.que r := by
  simp [State.que, State.setQue, nmGet_nmPut_ne _ _ _ _ _ h]

theorem keepsRing_setQue (s : State) (x : QueSt) (h : x.gen = (s.que q).gen ∧ x.cap = (s.que q).cap) : s.KeepsRing q (s.setQue q x) :=
  ⟨by rw [State.que_setQue]; exact h, by simp, fun _ hr => State.que_setQue_ne _ _ hr, fun _ => State.reg_congr rfl rfl _ _⟩

theorem keepsRing_modQue (s : State) {f : QueSt → QueSt} (h : ∀ x, (f x).gen = x.gen ∧ (f x).cap = x.cap) :
    s.KeepsRing q (s.modQue q f) := State.keepsRing_setQue _ _ (h _)

theorem keepsRing_request (s : State) (q : Nat) (flush : Bool) : s.KeepsRing q (s.request q flush) := by
  unfold State.request
  dsimp only
  split_ifs
  · exact State.keepsRing_setQue _ _ ⟨rfl, rfl⟩
  · exact State.keepsRing_setQue _ _ ⟨rfl, rfl⟩
  · exact .refl q s

theorem keepsRing_activate (s : State) (t : Nat) (a : Act) : s.KeepsRing q (s.activate t a) := by
  refine .of_ques (by simp) (State.activate_units _ _ _).2.1 fun ix => ?_
  unfold State.activate State.taskFault
  repeat' split
  all_goals first
    | exact State.reg_congr rfl rfl _ _
    | exact State.reg_bump_ne _ _ _ (by decide)

theorem keepsRing_publish (s : State) (q : Nat) (p : Pkt) : s.KeepsRing q (s.publish q p) := by
  have hshown : s.KeepsRing q (s.modQue q (QueSt.shown · p)) := State.keepsRing_modQue s fun _ => ⟨rfl, rfl⟩
  have hbump : (s.modQue q (QueSt.shown · p)).KeepsRing q ((s.modQue q (QueSt.shown · p)).bumpMod F.QUE_PKT_COUNT_published (queIx q)) :=
    .of_ques rfl rfl fun ix => State.reg_setFld_ne _ _ _ _ (by decide)
  have hcount := (hshown.trans hbump).trans (State.keepsRing_request _ q false)
  unfold State.publish
  dsimp only
  repeat' split
  · exact hcount.trans (State.keepsRing_activate _ _ _)
  · exact hcount
  · exact hcount.trans (.of_ques rfl rfl fun _ => State.reg_congr rfl rfl _ _)
  · exact hcount

theorem keepsRing_releaseTo (s : State) (q upto : Nat) (t : Time) : s.KeepsRing q (s.releaseTo q upto t) :=
  (State.keepsRing_setQue s ((s.que q).released upto t) ⟨rfl, rfl⟩).trans (State.keepsRing_request _ _ _)

theorem keepsRing_at (s : State) (t : Time) : s.KeepsRing q (s.at t) := .of_ques (by simp) (by simp) (by simp)

theorem keepsRing_applyRel (s : State) (q : Nat) (e : Eff) : s.KeepsRing q (s.applyRel q e) := by
  have htaken : s.KeepsRing q ((s.at e.stamp).modQue q (fun x => { x with relFx := x.relFx.erase e })) :=
    (State.keepsRing_at _ _).trans (State.keepsRing_modQue _ fun _ => ⟨rfl, rfl⟩)
  unfold State.applyRel
  dsimp only
  repeat' split
  · exact htaken.trans (State.keepsRing_releaseTo _ _ _ _)
  · exact htaken
  · exact htaken

theorem keepsRing_queEvents (q : Nat) (g : Time) (k : Nat) (s : State) : s.KeepsRing q (s.queEvents q g k) := by
  induction k generalizing s with
  | zero => exact .refl q s
  | succ k ih =>
    have hpub (p : Pkt) := (State.keepsRing_at (q := q) s p.stamp).trans (State.keepsRing_publish (s.at p.stamp) q p)
    rw [State.queEvents]
    split
    · split
      · exact (State.keepsRing_applyRel s q _).trans (ih _)
      · exact (hpub _).trans (ih _)
    · exact (State.keepsRing_applyRel s q _).trans (ih _)
    · exact (hpub _).trans (ih _)
    · exact .refl q s

theorem keepsRing_keepNotices (s : State) (q : Nat) : s.KeepsRing q (s.keepNotices q) := by
  unfold State.keepNotices
  dsimp only
  repeat' split
  · exact foldl_inv (P := fun u => s.KeepsRing q u) (fun u _ h => h.trans (State.keepsRing_activate _ _ _)) _ (.refl q s)
  · exact .refl q s
  · exact .refl q s

end State

/-! ## The reset of a queue -/

/-- A queue at the start of its ring, of the next generation (R423). -/
def QueSt.restarted (x : QueSt) (g : Time) : QueSt :=
  QueSt.twin { x with
    wp := 0, rel := 0, pkts := [], rels := [], gen := (x.gen + 1) % 65536, gens := (g, (x.gen + 1) % 65536) :: x.gens, reserved := 0,
    dmaOpen := false, req := false }

namespace State

/-- A queue restarted: what is on its way to it goes, and the read point of its task consumer restarts. -/
def queRestarted (s : State) (q : Nat) (g : Time) : State :=
  let u := s.setQue q ((s.que q).restarted g)
  let u := { u with flight := u.flight.filter (fun e => match e.kind with | .packet k _ => k != q | _ => true) }
  if (s.que q).consKind = 0 then u.modTask (s.que q).consTask (fun k => k.restartRp q) else u

theorem queRestarted_keeps (s : State) (q : Nat) (g : Time) :
    (s.setQue q ((s.que q).restarted g)).KeepsRing q (s.queRestarted q g) ∧ (s.queRestarted q g).que q = (s.que q).restarted g := by
  have hfields : (s.queRestarted q g).ques = (s.setQue q ((s.que q).restarted g)).ques ∧ (s.queRestarted q g).dieMem = s.dieMem ∧
      (s.queRestarted q g).regs = s.regs ∧ (s.queRestarted q g).fuses = s.fuses := by
    unfold State.queRestarted
    split
    · simp only [State.modTask]
      split <;> simp
    · simp
  obtain ⟨hq, hm, hr, hf⟩ := hfields
  refine ⟨.of_ques hq hm fun _ => State.reg_congr hr hf _ _, ?_⟩
  rw [State.que, hq, ← State.que, State.que_setQue]

/-- The reset of a queue, after what it applies at or before `g`. -/
theorem queReset_eq (hv : v = (s.queEvents q g ((s.que q).relFx.length + (s.que q).pkts.length)).keepNotices q) :
    ∃ src ty l, s.queReset q g = ((((v.queRestarted q g).request q false).bump F.QUE_IDLE_COUNT_ptr_fault (queIx q)).bump
      F.FLT_UNIT_COUNT_other pkg).faultRec (q / 256) src ty g l := by
  subst hv
  exact ⟨_, _, _, rfl⟩

theorem faultRec_reg (s : State) {r : Reg} (ix : Ix) (d src ty : Nat) (t : Time) (l : List Byte) (h : r ≠ .DIE_ORIGIN_COUNT) :
    (s.faultRec d src ty t l).reg r ix = s.reg r ix := (State.emit_reg _ _ _ h).trans (State.reg_congr rfl rfl _ _)

theorem queReset_result :
    let w := s.queReset q g
    (w.que q).gen = ((s.que q).gen + 1) % 65536 ∧ (w.que q).pkts = [] ∧ (w.que q).wp = 0 ∧ (w.que q).rel = 0 ∧
      (w.que q).freeNow = (s.que q).cap ∧ (w.que q).copiesAgree = true ∧ (w.que q).dmaOpen = false ∧
      w.fld F.QUE_IDLE_COUNT_ptr_fault (queIx q) = min (s.fld F.QUE_IDLE_COUNT_ptr_fault (queIx q) + 1) 65535 ∧
      w.dieMem = s.dieMem ∧ ∀ r, r ≠ q → w.que r = s.que r := by
  obtain ⟨v, hv⟩ : ∃ v, v = (s.queEvents q g ((s.que q).relFx.length + (s.que q).pkts.length)).keepNotices q := ⟨_, rfl⟩
  obtain ⟨src, ty, l, hw⟩ := State.queReset_eq hv
  obtain ⟨⟨hgen, hcap⟩, hmem, hother, hreg⟩ : s.KeepsRing q v := by
    rw [hv]
    exact (State.keepsRing_queEvents q g _ s).trans (State.keepsRing_keepNotices _ q)
  obtain ⟨hkeep, hx⟩ := State.queRestarted_keeps (q := q) v g
  obtain ⟨-, hmem', hother', hreg'⟩ := hkeep.trans (State.keepsRing_request _ q false)
  obtain ⟨-, b, hque⟩ := State.request_result (v.queRestarted q g) q false
  have hques (u : State) : ((((u.bump F.QUE_IDLE_COUNT_ptr_fault (queIx q)).bump F.FLT_UNIT_COUNT_other pkg).faultRec (q / 256) src ty g l).ques =
      u.ques) ∧ (((u.bump F.QUE_IDLE_COUNT_ptr_fault (queIx q)).bump F.FLT_UNIT_COUNT_other pkg).faultRec (q / 256) src ty g l).dieMem = u.dieMem := by
    simp [State.faultRec, State.emitUnit]
  have hque' (u : State) (r : Nat) : (((u.bump F.QUE_IDLE_COUNT_ptr_fault (queIx q)).bump F.FLT_UNIT_COUNT_other pkg).faultRec (q / 256) src ty g
      l).que r = u.que r := by rw [State.que, (hques u).1, State.que]
  have hfld (u : State) : (((u.bump F.QUE_IDLE_COUNT_ptr_fault (queIx q)).bump F.FLT_UNIT_COUNT_other pkg).faultRec (q / 256) src ty g l).fld
      F.QUE_IDLE_COUNT_ptr_fault (queIx q) = min (u.fld F.QUE_IDLE_COUNT_ptr_fault (queIx q) + 1) 65535 := by
    rw [State.fld, State.faultRec_reg _ _ _ _ _ _ _ (by decide), State.reg_bump_ne _ _ _ (by decide), ← State.fld]
    exact (State.fld_setFld (f := F.QUE_IDLE_COUNT_ptr_fault) _ _ _ (by decide)).trans (Nat.mod_eq_of_lt (Nat.lt_succ_of_le (min_le_right _ _)))
  rw [hw]
  dsimp only
  rw [hque', hque, hx, hfld, (hques _).2]
  refine ⟨by rw [← hgen]; rfl, rfl, rfl, rfl, ?_, ?_, rfl, ?_, ?_, fun r hr => ?_⟩
  · rw [← hcap]
    rfl
  · simp [QueSt.copiesAgree, QueSt.restarted, QueSt.twin]
  · have hreg'' : ((v.queRestarted q g).request q false).reg .QUE_IDLE_COUNT (queIx q) = s.reg .QUE_IDLE_COUNT (queIx q) :=
      (hreg' _).trans ((State.reg_congr rfl rfl _ _).trans (hreg _))
    exact congrArg (fun w => min (bitsOf w _ _ + 1) 65535) hreg''
  · rw [hmem', ← hmem]
    rfl
  · rw [hque', hother' r hr, State.que_setQue_ne _ _ hr, hother r hr]

end State

/-- One upset copy differs from the other. -/
theorem QueSt.copiesAgree_upset (x : QueSt) (h : x.copiesAgree = true) : ({ x with wpN := ~~~x.wpN } : QueSt).copiesAgree = false := by
  simp only [QueSt.copiesAgree, Bool.and_eq_true, beq_iff_eq] at h
  obtain ⟨⟨hwp, -⟩, -⟩ := h
  simp only [QueSt.copiesAgree, hwp, Bool.and_eq_false_iff, beq_eq_false_iff_ne]
  refine .inl (.inl fun he => ?_)
  have hbit := congrArg (fun b : Word => b.getLsbD 0) he
  simp at hbit

/-- The reset of a queue and of the descriptor in progress on it (R424, R440). -/
theorem State.queResetAll_eq :
    s.queResetAll q g = match (s.que q).dma with
      | none => s.queReset q g
      | some k =>
        let w := s.queReset q g
        let c := q / 256 * 8 + k
        if (w.dma c).named = some q ∧ ((w.dma c).phase = .moving ∨ (w.dma c).phase = .lengthHold) ∧ (w.dma c).wb = none then
          (w.setDma c { w.dma c with pktEnds := [] }).dmaFail c 7 (w.dmaCur c)
        else w := by
  unfold State.queResetAll
  cases (s.que q).dma <;> rfl

end Keeps

/-! ## Publishes and releases in their order -/

section Order
variable {s : State} {port : Port} {q : Nat} {g : Time} {v : Word}

theorem queuePublish_eq (hacts : s.dieActs (q / 256) = true) {p : Pkt} (hp : (s.que q).nextPub = some p) :
    queuePublish s q = if (s.que q).relFx.head?.any (fun e => relFirst e p) then s else (s.at p.stamp).publish q p := by
  unfold queuePublish
  rw [hp]
  cases (s.que q).relFx with
  | nil => simp [hacts]
  | cons e rest => cases hr : relFirst e p <;> simp [hacts, hr]

theorem State.applyRel_eq {e : Eff} {rest : List Eff} {k upto gen : Nat} (hfx : (s.que q).relFx = e :: rest) (hk : e.kind = .release k upto gen) :
    s.applyRel q e = if gen = (s.que q).gen then ((s.at e.stamp).setQue q { s.que q with relFx := rest }).releaseTo q upto e.stamp
      else (s.at e.stamp).setQue q { s.que q with relFx := rest } := by
  simp [State.applyRel, hk, State.modQue, hfx]

theorem qrelApply_eq (hacts : s.dieActs (q / 256) = true) {e : Eff} {rest : List Eff} (hfx : (s.que q).relFx = e :: rest) :
    qrelApply s q = if (s.que q).nextPub.any (fun p => !relFirst e p) then s else s.applyRel q e := by
  unfold qrelApply
  rw [hfx]
  cases (s.que q).nextPub with
  | none => simp [hacts]
  | some p => cases hr : relFirst e p <;> simp [hacts, hr]

theorem queIx_number (q : Nat) : 256 * (queIx q).d + (queIx q).i = q := Nat.div_add_mod q 256

theorem State.Opens.queHostRel (hop : s.Opens port (.QUE_HOST_REL, queIx q)) :
    s.hostWriteReg port (.QUE_HOST_REL, queIx q) v = s.wrote (.QUE_HOST_REL, queIx q) (queHostRel s port q v) :=
  (hop.dieWrite v rfl (by decide)).trans (congrArg (fun k => s.wrote (.QUE_HOST_REL, queIx q) (Machine.queHostRel s port k v)) (queIx_number q))

theorem queHostRel_eq : queHostRel s port q v =
    if (s.que q).bound = true ∧ (s.que q).consKind = 2 ∧ bitsOf v 0 17 ≠ 0 ∧
      ∃ p ∈ (s.que q).pkts, p.vis = true ∧ p.fin = (s.que q).rel + bitsOf v 0 17 then s.outRelease q ((s.que q).rel + bitsOf v 0 17)
    else s.setBit F.QUE_STATUS_cfg_reject (queIx q) true :=
  if_congr (by simp [and_assoc]) rfl rfl

end Order

/-- Settles O40: what a reset leaves by `State.KeepsRing` and `State.queReset_eq`, the order of publishes and releases by their equations. -/
theorem queueEvents : Obligations.QueueEvents := by
  refine ⟨fun s port q x g v hx => ⟨fun hacts => ⟨fun p hp => ⟨fun hno => ?_, fun e rest hfx hrel => ?_⟩, fun e rest k upto gen hfx hk => ?_,
    fun p us hus h0 hcons hp => ?_⟩, fun hop => ⟨fun hb hc hn hex => ?_, fun hbad => ?_⟩⟩,
    fun s u w q x g hx => ⟨fun hb hacts hagree hu => ?_, fun hw => ?_, fun k c hdma hc hw => ?_, fun hdma => ?_⟩⟩
  all_goals subst hx
  · refine congrArg Host.Outcome.next ((queuePublish_eq hacts hp).trans (if_neg ?_))
    cases hfx : (s.que q).relFx with
    | nil => simp
    | cons e rest => simp [relFirst, hno e rest hfx]
  · exact congrArg Host.Outcome.next ((queuePublish_eq hacts hp).trans (if_pos (by simp [hfx, relFirst, hrel])))
  · have heq := qrelApply_eq hacts hfx
    rw [State.applyRel_eq hfx hk] at heq
    refine ⟨fun hno => ?_, fun p hp hpub => congrArg Host.Outcome.next (heq.trans (if_pos ?_))⟩
    · have hgo : (s.que q).nextPub.any (fun p => !relFirst e p) = false := by
        cases hp : (s.que q).nextPub with
        | none => rfl
        | some p => simp [relFirst, hno p hp]
      rw [hgo, if_neg (by decide)] at heq
      exact ⟨fun hg => congrArg Host.Outcome.next (heq.trans (if_pos hg)), fun hg => congrArg Host.Outcome.next (heq.trans (if_neg hg))⟩
    · have hp' : (s.que q).nextPub = some p := hp
      simp [hp', relFirst, hpub]
  · subst hus
    exact congrArg Host.Outcome.next (by simp [queueFlush, hp, h0, hcons, hacts])
  · refine congrArg Host.Outcome.next (hop.queHostRel.trans (congrArg _ ?_))
    rw [queHostRel_eq, State.at_que]
    exact if_pos ⟨hb, hc, hn, hex⟩
  · refine congrArg Host.Outcome.next (hop.queHostRel.trans (congrArg _ ?_))
    rw [queHostRel_eq, State.at_que]
    refine if_neg fun ⟨hb, hc, hn, p, hp, hv, hf⟩ => ?_
    rcases hbad with h | h | h | h
    · simp [h] at hb
    · exact h hc
    · exact hn h
    · exact h p hp hv hf
  · subst hu
    have hgo : ((s.que q).bound && s.dieActs (q / 256)) = true := by simp [hb, hacts]
    refine congrArg Host.Outcome.next ((if_pos hgo).trans ?_)
    have hupset : (((s.at g).modQue q (fun x => { x with wpN := ~~~x.wpN })).que q).copiesAgree = false := by
      simp only [State.modQue, State.que_setQue, State.at_que]
      exact QueSt.copiesAgree_upset _ hagree
    rw [State.queCheck, hupset, State.modQue, State.at_que]
    rfl
  · subst hw
    exact State.queReset_result
  · subst hc hw
    have heq := State.queResetAll_eq (s := s) (q := q) (g := g)
    rw [hdma] at heq
    refine ⟨fun hn hp hwb => heq.trans (if_pos ⟨hn, hp, hwb⟩), fun hno => heq.trans (if_neg fun ⟨hn, hp, hwb⟩ => ?_)⟩
    rcases hno with h | ⟨h1, h2⟩ | h
    · exact h hn
    · exact hp.elim h1 h2
    · exact h hwb
  · have heq := State.queResetAll_eq (s := s) (q := q) (g := g)
    rwa [hdma] at heq

end Sys2Proof.Machine

/-! # The DMA engine (R414, R421, R427 to R441, R447, R453) -/

namespace Sys2Proof.Machine

section Ends
variable {s u : State} {c err a : Nat}

/-! ## How a descriptor ends -/

namespace State

theorem dmaEnd_waits (h : s.dmaAccess c (s.descSpace c) (s.dmaCur c) 64 true = .waits) (hu : u = s.dmaSettle c) :
    s.dmaEnd c err = u.setDma c { u.dma c with pktEnds := [], wb := some err } := by
  subst hu
  exact if_pos h

theorem dmaEnd_written (h : s.dmaAccess c (s.descSpace c) (s.dmaCur c) 64 true ≠ .waits) (hu : u = s.dmaHold c) {y : State}
    (hy : u.writeback c err ((u.dma c).w 0) = some y) : s.dmaEnd c err = (y.dmaSettle c).dmaStopped c err false := by
  subst hu
  refine (if_neg h).trans ?_
  simp only [hy]

theorem dmaEnd_unwritten (h : s.dmaAccess c (s.descSpace c) (s.dmaCur c) 64 true ≠ .waits) (hu : u = s.dmaHold c)
    (hy : u.writeback c err ((u.dma c).w 0) = none) : s.dmaEnd c err = (u.dmaSettle c).dmaStopped c err true := by
  subst hu
  refine (if_neg h).trans ?_
  simp only [hy]

theorem dmaStopped_abort (b : Bool) : s.dmaStopped c 5 b =
    ((if b then (s.setDma c ((s.dma c).clear .idle)).setBit F.DMA_STATUS_wb_fail (dmaIx c) true else s.setDma c ((s.dma c).clear .idle)).setBit
      F.DMA_STATUS_aborted (dmaIx c) true).dmaPost c := rfl

theorem dmaStopped_halt (h : err ≠ 5) (b : Bool) : s.dmaStopped c err b = s.dmaHalt c err b := if_neg h

end State

/-! ## What the engine reads of its descriptor -/

section OwnRead
variable {sp n : Nat} (hsp : s.descSpace c = sp) (f : State → State)
include hsp

namespace State

theorem dmaOwnRead_ok (h : s.dmaAccess c sp a n false = .ok) (hecc : s.dmaEcc sp a n = false) : s.dmaOwnRead c a n f = f (s.dmaBeatOk c) := by
  simp [State.dmaOwnRead, hsp, h, hecc]

theorem dmaOwnRead_ecc (h : s.dmaAccess c sp a n false = .ok) (hecc : s.dmaEcc sp a n = true) : s.dmaOwnRead c a n f = s.dmaFail c 4 a := by
  simp [State.dmaOwnRead, hsp, h, hecc]

theorem dmaOwnRead_fails :
    (s.dmaAccess c sp a n false = .access → s.dmaOwnRead c a n f = s.dmaFail c 2 a) ∧
    (s.dmaAccess c sp a n false = .bus → s.dmaOwnRead c a n f = s.dmaBusError c a) ∧
    (s.dmaAccess c sp a n false = .waits → s.dmaOwnRead c a n f = s) := by
  refine ⟨fun h => ?_, fun h => ?_, fun h => ?_⟩
  all_goals simp [State.dmaOwnRead, hsp, h]

end State

end OwnRead

theorem State.dmaBeatOk_eq : s.dmaBeatOk c = if (s.dma c).beatTries = 0 then s
    else (s.setDma c { s.dma c with beatTries := 0 }).bump F.FLT_CORR_COUNT_1_dma_retry pkg := rfl

/-! ## Commands -/

variable {port : Port}

theorem dmaIx_number (c : Nat) : 8 * (dmaIx c).d + (dmaIx c).i = c := Nat.div_add_mod c 8

theorem State.Opens.dmaCmd (hop : s.Opens port (.DMA_CMD, dmaIx c)) (v : Word) :
    s.hostWriteReg port (.DMA_CMD, dmaIx c) v = s.wrote (.DMA_CMD, dmaIx c) (dmaCmdWrite s port c v) :=
  (hop.dieWrite v rfl (by decide)).trans (congrArg (fun k => s.wrote (.DMA_CMD, dmaIx c) (dmaCmdWrite s port k v)) (dmaIx_number c))

namespace DmaSt

/-- The channel stands: idle or halted. -/
def stands (x : DmaSt) : Bool := x.phase == .idle || x.phase == .halted

theorem stands_iff (x : DmaSt) : x.stands = true ↔ x.phase = .idle ∨ x.phase = .halted := by simp [DmaSt.stands]

end DmaSt

theorem dmaCmdWrite_start : dmaCmdWrite s port c 1 = if (s.dma c).stands then
      ((s.setReg64 .DMA_CUR_LO .DMA_CUR_HI (dmaIx c) (s.reg64 .DMA_HEAD_LO .DMA_HEAD_HI (dmaIx c))).setBit
        F.DMA_STATUS_wb_fail (dmaIx c) false).setDma c ((s.dma c).clear .fetch)
    else s.setBit F.DMA_STATUS_cmd_reject (dmaIx c) true := rfl

theorem dmaCmdWrite_abort : dmaCmdWrite s port c 2 = if (s.dma c).stands then s.setBit F.DMA_STATUS_cmd_reject (dmaIx c) true
    else if (s.dma c).phase = .parked ∧ (s.dma c).wb = none then s.dmaStopped c 5 false
    else (s.setFld F.DMA_STATUS_last_error (dmaIx c) 5).dmaEnd c 5 := rfl

end Ends

/-! ## Events -/

section Events
variable {s u : State} {c : Nat} {g : Time}

theorem dmaFetchDone_eq (hph : (s.dma c).phase = .fetch) (hacts : s.dmaActs c = true) :
    dmaFetchDone s c = if s.dmaCur c % 64 ≠ 0 then s.dmaFail c 1 (s.dmaCur c)
      else s.dmaOwnRead c (s.dmaCur c) 64 fun w =>
        (w.setDma c { w.dma c with desc := w.dmaWords (s.descSpace c) (s.dmaCur c) 16 }).dmaGo c := if_pos ⟨hph, hacts⟩

/-- The address that a beat error concerns, if there is a beat (R439). -/
def State.errorAt (s : State) (c : Nat) : Option Nat :=
  match (s.dma c).phase with
  | .fetch => some (s.dmaCur c)
  | .moving => (s.dma c).beat.map (fun b => b.1)
  | .tailRead => some (s.dmaCur c)
  | .parked => if s.reg .DMA_APPEND_COUNT (dmaIx c) ≠ s.reg .DMA_SEEN (dmaIx c) then some (s.dmaCur c) else none
  | _ => none

theorem dmaBeatError_eq {a : Nat} (hat : s.errorAt c = some a) (hacts : s.dmaActs c = true)
    (hgr : (s.dma c).phase ≠ .moving ∨ s.dmaGranted c = true) (ecc : Bool) :
    dmaBeatError s c ecc g = if ecc then (s.at g).dmaFail c 4 a else (s.at g).dmaBusError c a := by
  have hgo : (s.dmaActs c && ((s.dma c).phase != DmaPhase.moving || s.dmaGranted c)) = true := by
    rcases hgr with h | h <;> simp [hacts, h]
  have hcode : dmaBeatError s c ecc g = match s.errorAt c with
      | none => s
      | some a => if s.dmaActs c && ((s.dma c).phase != DmaPhase.moving || s.dmaGranted c) then
          if ecc then (s.at g).dmaFail c 4 a else (s.at g).dmaBusError c a
        else s := rfl
  rw [hcode, hat]
  exact if_pos hgo

/-- The beat that is granted, by what its access meets (R435 to R439). -/
theorem dmaBeatDone_eq {src dst n : Nat} (hph : (s.dma c).phase = .moving) (hacts : s.dmaActs c = true) (hgr : s.dmaGranted c = true)
    (hb : (s.dma c).beat = some (src, dst, n)) :
    (s.beatAccess c src dst n = .access → dmaBeatDone s c g = (s.at g).dmaFail c 2 src) ∧
    (s.beatAccess c src dst n = .bus → dmaBeatDone s c g = (s.at g).dmaBusError c src) ∧
    (s.beatAccess c src dst n = .waits → dmaBeatDone s c g = s) ∧
    (s.beatAccess c src dst n = .ok → u = (s.at g).dmaTake c →
      (u.dmaEcc (u.dma c).srcSpace src n = true → dmaBeatDone s c g = u.dmaFail c 4 src) ∧
      (∀ sg rest, u.dmaEcc (u.dma c).srcSpace src n = false → (u.dma c).segs = sg :: rest →
        dmaBeatDone s c g =
          (let k := (u.dma c).moved.length - (if (u.dma c).back then (u.dma c).segDone else 0)
           let v := (u.beatWrite c dst (u.beatRead c src n)).dmaBeatOk c
           let w := (v.setReg64 .DMA_BYTES_LO .DMA_BYTES_HI (dmaIx c) (v.reg64 .DMA_BYTES_LO .DMA_BYTES_HI (dmaIx c) +
             BitVec.ofNat 64 n)).setDma c { u.dma c with
               moved := (u.dma c).moved.take k ++ u.beatRead c src n ++ (u.dma c).moved.drop k,
               segDone := (u.dma c).segDone + n, beatTries := 0 }
           if (u.dma c).segDone + n < sg.len then w else w.segEnd c))) := by
  have hgo : dmaBeatDone s c g = _ := if_pos ⟨hph, hacts, hgr⟩
  simp only [hb] at hgo
  refine ⟨fun ha => ?_, fun ha => ?_, fun ha => ?_, fun ha hu => ?_⟩
  all_goals simp only [ha] at hgo
  · exact hgo
  · exact hgo
  · exact hgo
  · subst hu
    refine ⟨fun he => hgo.trans (if_pos he), fun sg rest he hs => hgo.trans ((if_neg (by simp [he])).trans ?_)⟩
    simp only [hs]

namespace State

/-- R421 lets a packet of stamp `t` complete on the queue. -/
def putAllowed (s : State) (q : Nat) (t : Time) : Bool :=
  match s.putNotBefore q with | some b => upTo b t | none => true

theorem putAllowed_iff {q : Nat} {t : Time} : s.putAllowed q t = true ↔ ∀ b, s.putNotBefore q = some b → upTo b t = true := by
  unfold State.putAllowed
  cases s.putNotBefore q <;> simp

end State

/-- The length word of a queue destination (R414, R421). -/
theorem dmaLengthWord_eq {q : Nat} {ws : List Word} (hph : (s.dma c).phase = .lengthHold) (hq : (s.dma c).queue = some q)
    (hacts : s.dmaActs c = true) (hws : ws = bytesWords (s.dma c).moved)
    (hu : u = ((s.at g).setQue q { s.que q with reserved := 0, dmaOpen := false }).putPacket q (g + nsT 40) ws) :
    dmaLengthWord s c g = if s.putAllowed q (g + nsT 40) then
      (let w := u.setQue q { u.que q with lastPut := some (g + nsT 40) }
       (if (s.que q).consKind = 0 then w.logPut q (g + nsT 40) ws 0 17 else w).dmaTail c)
      else s := by
  have hcode : dmaLengthWord s c g = if s.dmaActs c && s.putAllowed q (g + nsT 40) then
      (let v := (((s.at g).modQue q (fun y => { y with reserved := 0, dmaOpen := false })).putPacket q (g + nsT 40)
         (bytesWords (s.dma c).moved)).modQue q (fun y => { y with lastPut := some (g + nsT 40) })
       (if (v.que q).consKind = 0 then v.logPut q (g + nsT 40) (bytesWords (s.dma c).moved) 0 17 else v).dmaTail c) else s := by
    unfold dmaLengthWord
    simp only [hph, hq] <;>
      rfl
  have hopen : (s.at g).modQue q (fun y => { y with reserved := 0, dmaOpen := false }) =
      (s.at g).setQue q { s.que q with reserved := 0, dmaOpen := false } := by rw [State.modQue, State.at_que]
  have hcons : (u.que q).consKind = (s.que q).consKind := by
    rw [hu]
    simp [State.putPacket, State.modQue, QueSt.twin]
  rw [hcode, hacts, Bool.true_and, hopen, ← hws, ← hu, State.modQue]
  simp only [State.que_setQue, hcons]

theorem State.at_descSpace : (s.at g).descSpace c = s.descSpace c := State.at_fld _ _ _ _

/-- The tail of a descriptor whose data has moved (R433). -/
theorem dmaTailReadDone_eq {ws : List Word} {w0 : Word} {next : Nat} (hph : (s.dma c).phase = .tailRead) (hacts : s.dmaActs c = true)
    (h64 : s.dmaAccess c (s.descSpace c) (s.dmaCur c) 64 false = .ok)
    (h32 : (s.at g).dmaAccess c (s.descSpace c) (s.dmaCur c) 32 false = .ok)
    (hecc : (s.at g).dmaEcc (s.descSpace c) (s.dmaCur c) 32 = false)
    (hws : ws = ((s.at g).dmaBeatOk c).dmaWords (s.descSpace c) (s.dmaCur c) 8) (hw0 : w0 = ws.getD 0 0)
    (hnext : next = (joinHalves (ws.getD 7 0) (ws.getD 6 0)).toNat)
    (hu : u = ((s.at g).dmaBeatOk c).setFld F.DMA_STATUS_last_error (dmaIx c) 0) (ok : Bool) :
    dmaTailReadDone s c ok g = match (if ok then u.writeback c 0 w0 else none) with
      | none => u.dmaHalt c 0 true
      | some w => (if bitOf ((s.dma c).w 0) 29 then ((w.bump F.DMA_DONE_COUNT_count (dmaIx c)).setBit F.DMA_STATUS_done (dmaIx c) true).dmaPost c
          else w.bump F.DMA_DONE_COUNT_count (dmaIx c)).dmaNext c w0 next (s.dma c).count := by
  subst hu hnext hw0 hws
  exact (if_pos ⟨hph, hacts, by simp [h64]⟩).trans (State.dmaOwnRead_ok State.at_descSpace _ h32 hecc)

end Events

/-- Settles O42: how a descriptor ends by `State.dmaEnd_*`, each event by its equation. -/
theorem dmaEngine : Obligations.DmaEngine := by
  refine ⟨fun s p u w port c x v hx => ⟨fun hop => ?_, fun hop => ?_⟩, fun s u v w c src dst n x y g acc hx hacts =>
    ⟨fun hph hacc => ?_, ⟨fun e a hp => ?_, fun a hp => ?_, fun l hp => ⟨fun h => ?_, fun h => ?_⟩⟩, fun err a p he hp => ?_, fun a => ?_, ?_,
      fun a ha => ?_, fun hph hpaced => ?_, fun hph hgr hb ha => ?_⟩,
    fun s u c q x g ws w0 next hx hacts => ⟨fun hph hq => ?_, fun hph h64 h32 hecc hws hw0 hnext hu => ?_, fun hph hne h64 h32 hecc hu hws => ?_,
      fun seen => ⟨fun h => if_pos h, fun h => if_neg (by simp [h])⟩⟩⟩
  all_goals subst hx
  · have hstart := hop.dmaCmd 1
    have habort := hop.dmaCmd 2
    rw [dmaCmdWrite_start] at hstart
    rw [dmaCmdWrite_abort] at habort
    have hmoves (h1 : (s.dma c).phase ≠ .idle) (h2 : (s.dma c).phase ≠ .halted) : ¬ (s.dma c).stands = true := by
      rw [DmaSt.stands_iff]
      exact fun h => h.elim h1 h2
    refine ⟨fun h => ?_, fun h1 h2 => ?_, fun h => ?_, fun hpark hwb => ?_, fun h1 h2 hnp hp => ?_⟩
    · exact congrArg Host.Outcome.next (hstart.trans (congrArg _ (if_pos ((DmaSt.stands_iff _).2 h))))
    · exact congrArg Host.Outcome.next (hstart.trans (congrArg _ (if_neg (hmoves h1 h2))))
    · exact congrArg Host.Outcome.next (habort.trans (congrArg _ (if_pos ((DmaSt.stands_iff _).2 h))))
    · refine congrArg Host.Outcome.next (habort.trans (congrArg _ ((if_neg (hmoves ?_ ?_)).trans (if_pos ⟨hpark, hwb⟩))))
      all_goals simp [hpark]
    · subst hp
      rw [if_neg (hmoves h1 h2), if_neg (fun h => hnp.elim (· h.1) (· h.2))] at habort
      refine ⟨fun hwait hw => ?_, fun hgo hu => ⟨fun y hy hw => ?_, fun hy hw => ?_⟩⟩
      all_goals refine congrArg Host.Outcome.next (habort.trans (congrArg _ ?_))
      · exact State.dmaEnd_waits hwait hw
      · subst hw
        exact State.dmaEnd_written hgo hu hy
      · subst hw
        exact State.dmaEnd_unwritten hgo hu hy
  · exact congrArg Host.Outcome.next ((hop.dieWrite v rfl (by decide)).trans
      (congrArg (fun k => s.wrote (.DMA_APPEND, dmaIx c) (dmaAppendWrite s port k v)) (dmaIx_number c)))
  · subst hacc
    have hfetch := dmaFetchDone_eq hph hacts
    refine ⟨fun hmis => congrArg Host.Outcome.next (hfetch.trans (if_pos hmis)), fun hal => ?_⟩
    rw [if_neg (not_not.2 hal)] at hfetch
    obtain ⟨haccess, hbus, hwaits⟩ := State.dmaOwnRead_fails (s := s) (c := c) (a := s.dmaCur c) (n := 64) rfl fun w =>
      (w.setDma c { w.dma c with desc := w.dmaWords (s.descSpace c) (s.dmaCur c) 16 }).dmaGo c
    refine ⟨fun h => ?_, fun h => ?_, fun h => ?_, fun h he => ?_, fun h he hu => ?_⟩
    all_goals refine congrArg Host.Outcome.next (hfetch.trans ?_)
    · exact haccess h
    · exact hbus h
    · exact hwaits h
    · exact State.dmaOwnRead_ecc rfl _ h he
    · subst hu
      exact State.dmaOwnRead_ok rfl _ h he
  · unfold State.dmaGo
    rw [hp]
  · unfold State.dmaGo
    rw [hp]
  · unfold State.dmaGo
    rw [hp]
    exact if_pos h
  · unfold State.dmaGo
    rw [hp]
    exact if_neg (by simp [h])
  · subst hp
    refine ⟨fun hwait hu => State.dmaEnd_waits hwait hu, fun hgo hu => ⟨fun z hz => ?_, fun hz => ?_⟩⟩
    · exact (State.dmaEnd_written hgo hu hz).trans (State.dmaStopped_halt he _)
    · exact (State.dmaEnd_unwritten hgo hu hz).trans (State.dmaStopped_halt he _)
  · exact ⟨fun h => if_pos h, fun h => if_neg (Nat.not_lt.2 h)⟩
  · exact ⟨fun h => if_pos h, fun h => if_neg h⟩
  · have hat : s.errorAt c = some a ∧ ((s.dma c).phase ≠ .moving ∨ s.dmaGranted c = true) := by
      rcases ha with ⟨h | h | ⟨h, hne⟩, rfl⟩ | ⟨h, hgr, d, k, hb⟩
      · simp [State.errorAt, h]
      · simp [State.errorAt, h]
      · simp [State.errorAt, h, hne]
      · simp [State.errorAt, h, hb, hgr]
    exact ⟨congrArg Host.Outcome.next (dmaBeatError_eq hat.1 hacts hat.2 true), congrArg Host.Outcome.next (dmaBeatError_eq hat.1 hacts hat.2 false)⟩
  · have hgo : dmaPacingMet s c g = _ := if_pos ⟨hph, hacts, hpaced⟩
    refine ⟨fun l hl => ?_, fun e a he => ?_⟩
    · simp only [hl] at hgo
      exact congrArg Host.Outcome.next hgo
    · simp only [he] at hgo
      exact congrArg Host.Outcome.next hgo
  · subst ha
    obtain ⟨haccess, hbus, hwaits, hok⟩ := dmaBeatDone_eq (u := u) (g := g) hph hacts hgr hb
    refine ⟨fun h => congrArg Host.Outcome.next (haccess h), fun h => congrArg Host.Outcome.next (hbus h),
      fun h => congrArg Host.Outcome.next (hwaits h), fun h hu => ⟨fun he => congrArg Host.Outcome.next ((hok h hu).1 he),
        fun sg rest k he hs hk hv hy hw => ?_⟩⟩
    subst hk hv hy hw
    exact congrArg Host.Outcome.next ((hok h hu).2 sg rest he hs)
  · refine ⟨fun t ht hno => ?_, fun hall hu => ?_⟩
    · refine congrArg Host.Outcome.next ((dmaLengthWord_eq hph hq hacts rfl rfl).trans (if_neg ?_))
      rw [State.putAllowed_iff]
      intro h
      simp [h t ht] at hno
    · exact congrArg Host.Outcome.next ((dmaLengthWord_eq hph hq hacts rfl hu).trans (if_pos (State.putAllowed_iff.2 hall)))
  · have htail := dmaTailReadDone_eq hph hacts h64 h32 hecc hws hw0 hnext hu
    refine ⟨congrArg Host.Outcome.next (htail false), fun hwb => ?_, fun w hwb => ⟨fun h29 => ?_, fun h29 => ?_⟩⟩
    all_goals
      have ht := htail true
      rw [if_pos rfl, hwb] at ht
      refine congrArg Host.Outcome.next (ht.trans ?_)
    · rfl
    · simp only [h29] <;> rfl
    · simp only [h29] <;> rfl
  · subst hu hws
    exact congrArg Host.Outcome.next ((if_pos ⟨hph, hne, hacts, by simp [h64]⟩).trans (State.dmaOwnRead_ok rfl _ h32 hecc))

end Sys2Proof.Machine

/-! # Command queues (R458 to R466, R487) -/

namespace Sys2Proof.Machine

section Decode
variable {s u : State} {q : Nat} {g : Time} {es : List Word}

namespace State

theorem at_cqEntry : (s.at g).cqEntry q = s.cqEntry q := by simp [State.cqEntry, State.spaceRead]

theorem at_cqSize : (s.at g).cqSize q = s.cqSize q := by simp [State.cqSize]

/-- The 4 ns after the last decoded entry are over (R461). -/
def cqInTime (s : State) (g : Time) : Bool :=
  match s.cqTime with | some t => upTo (t + nsT 4) g | none => true

theorem cqInTime_iff : s.cqInTime g = true ↔ ∀ t, s.cqTime = some t → upTo (t + nsT 4) g = true := by
  unfold State.cqInTime
  cases s.cqTime <;> simp

end State

/-- The entry whose turn it is, by the distance of its sequence from the expected one (R460, R461). -/
theorem cqEntryDecode_eq (hacts : s.dieActs 0 = true) (hturn : s.cqTurn = some q) (hes : es = s.cqEntry q)
    (hu : u = ({ (s.at g).setFld F.CQ_STATUS_head (pkg1 q) ((s.fld F.CQ_STATUS_head (pkg1 q) + 1) % s.cqSize q) with
      cqLast := q, cqTime := some g }.setBit F.CQ_STATUS_busy (pkg1 q) true)) :
    cqEntryDecode s q g = if s.cqInTime g then
      (if s.cqDist q (es.getD 0 0) = 0 then
        ((u.setReg .CQ_NEXT_SEQ (pkg1 q) (s.reg .CQ_NEXT_SEQ (pkg1 q) + 1)).setCq q
            ⟨es, g + picots 20480, true, (CqCmd.broken ⟨es, g + picots 20480, true, none, none⟩), none⟩).log 0 0x09 0 q
              (g + picots 20480) es
      else u.setCq q ⟨es, 0, false, some (if -4096 ≤ s.cqDist q (es.getD 0 0) ∧ s.cqDist q (es.getD 0 0) < 0 then 0x80 else 0x81), none⟩)
      else s := by
  have hseq : u.reg .CQ_NEXT_SEQ (pkg1 q) = s.reg .CQ_NEXT_SEQ (pkg1 q) := by
    rw [hu, State.reg_setBit_ne _ _ _ _ (by decide)]
    exact (State.reg_setFld_ne (s.at g) (f := F.CQ_STATUS_head) _ _ _ (by decide)).trans (State.at_reg ..)
  have hdist : u.cqDist q (es.getD 0 0) = s.cqDist q (es.getD 0 0) := by rw [State.cqDist, hseq, State.cqDist]
  have hgo : (s.dieActs 0 && s.cqTurn == some q && s.cqInTime g) = s.cqInTime g := by simp [hacts, hturn]
  have hcode : cqEntryDecode s q g = if s.dieActs 0 && s.cqTurn == some q && s.cqInTime g then
      (let w := { (s.at g).setFld F.CQ_STATUS_head (pkg1 q) (((s.at g).fld F.CQ_STATUS_head (pkg1 q) + 1) % (s.at g).cqSize q) with
          cqLast := q, cqTime := some g }.setBit F.CQ_STATUS_busy (pkg1 q) true
       let es := (s.at g).cqEntry q
       if w.cqDist q (es.getD 0 0) = 0 then
         ((w.setReg .CQ_NEXT_SEQ (pkg1 q) (w.reg .CQ_NEXT_SEQ (pkg1 q) + 1)).setCq q
            ⟨es, g + picots 20480, true, (CqCmd.broken ⟨es, g + picots 20480, true, none, none⟩), none⟩).log 0 0x09 0 q
              (g + picots 20480) es
       else w.setCq q ⟨es, 0, false, some (if -4096 ≤ w.cqDist q (es.getD 0 0) ∧ w.cqDist q (es.getD 0 0) < 0 then 0x80 else 0x81), none⟩)
      else s := rfl
  rw [hcode, hgo, State.at_fld, State.at_cqSize, State.at_cqEntry, ← hu, ← hes]
  dsimp only
  rw [hdist, hseq]

theorem State.completion_cqs {c : CqCmd} {st : Nat} : ((s.at g).completion q c st).cqs = s.cqs := by
  unfold State.completion State.emitUnit State.emit State.numberRec
  dsimp only
  split <;> simp

end Decode

section Writes
variable {s u : State} {port : Port} {q : Nat} {v lo : Word}

theorem cqCfgWrite_enable : cqCfgWrite s port q (v ||| 1) =
    if bitsOf v 2 4 < 4 ∨ 12 < bitsOf v 2 4 ∨ (bitOf (s.reg .CQ_CFG (pkg1 q)) 0 = true ∧
        (v ||| 1) &&& 0x3E ≠ s.reg .CQ_CFG (pkg1 q) &&& 0x3E) then s.setBit F.CQ_STATUS_write_reject (pkg1 q) true
    else if bitOf (s.reg .CQ_CFG (pkg1 q)) 0 = false then
      (s.plainWrite .CQ_CFG (pkg1 q) (v ||| 1)).setBit F.CQ_STATUS_stopped (pkg1 q) false
    else s.plainWrite .CQ_CFG (pkg1 q) (v ||| 1) := by
  have hbit : bitOf (v ||| 1) 0 = true := by simp [bitOf]
  unfold cqCfgWrite
  simp only [bitsOf_or_one v (lo := 2) (w := 4) (by decide), hbit, Bool.true_and, Bool.not_eq_true']
  exact if_congr (by simp only [Bool.or_eq_true, decide_eq_true_eq, Bool.and_eq_true, bne_iff_ne, or_assoc]) rfl rfl

theorem cqBaseWrite_eq : cqBaseWrite s port q lo v = if s.bit F.CQ_CFG_en (pkg1 q) = true ∨ bitsOf lo 0 6 ≠ 0 then
      s.setBit F.CQ_STATUS_write_reject (pkg1 q) true
    else (((s.setReg .CQ_BASE_LO (pkg1 q) lo).setReg .CQ_BASE_HI (pkg1 q) v).setFld F.CQ_STATUS_head (pkg1 q) 0).setFld
      F.CQ_STATUS_tail (pkg1 q) 0 :=
  if_congr (by simp) rfl rfl

/-- The low half that a write of a high half takes, and the state with it taken. -/
theorem State.lowHalf_eq {k : RKey} (h : ((s.port port).staged = some (regAddr k, lo) ∧ u = s.modPort port (fun x => { x with staged := none })) ∨
    ((∀ w, (s.port port).staged ≠ some (regAddr k, w)) ∧ lo = s.reg k.1 k.2 ∧ u = s)) : s.lowHalf port k = (lo, u) := by
  rcases h with ⟨hst, rfl⟩ | ⟨hno, rfl, rfl⟩
  · simp [State.lowHalf, hst]
  · unfold State.lowHalf
    cases hst : (u.port port).staged with
    | none => rfl
    | some x =>
      have hx : x.1 ≠ regAddr k := fun h => hno x.2 (by rw [hst, ← h])
      exact if_neg hx

theorem State.Opens.cqBaseHi (hop : s.Opens port (.CQ_BASE_HI, pkg1 q)) (h : s.lowHalf port (.CQ_BASE_LO, pkg1 q) = (lo, u)) :
    s.hostWriteReg port (.CQ_BASE_HI, pkg1 q) v = s.wrote (.CQ_BASE_HI, pkg1 q) (cqBaseWrite u port q lo v) := by
  refine hop.write_eq ?_
  rw [State.writeKey_hi _ _ rfl (by decide), show Reg.lo .CQ_BASE_HI = .CQ_BASE_LO from rfl, h]
  rfl

end Writes

/-- Settles O44: an entry by `cqEntryDecode_eq`, the registers' writes by their equations. -/
theorem commandQueues : Obligations.CommandQueues := by
  intro s u port q v g es c st
  refine ⟨fun hop => ?_, fun hacts hturn => ⟨fun t ht hsoon => ?_, fun d hall hes hd hu => ?_⟩, fun hacts hholds => ?_, fun hacts hc hst hu => ?_,
    fun hop => ?_, fun lo hop hlo => ?_⟩
  · have hwrite : s.hostWriteReg port (.CQ_DOORBELL, pkg1 q) v = s.wrote (.CQ_DOORBELL, pkg1 q) (cqDoorbellWrite s port q v) :=
      hop.write_eq (State.writeKey_pkg _ _ _ _ (by decide))
    exact ⟨fun h => congrArg Host.Outcome.next (hwrite.trans (congrArg _ (if_neg (Nat.not_le.2 h)))),
      fun h => congrArg Host.Outcome.next (hwrite.trans (congrArg _ (if_pos h)))⟩
  · refine congrArg Host.Outcome.next ((cqEntryDecode_eq hacts hturn rfl rfl).trans (if_neg fun h => ?_))
    rw [State.cqInTime_iff.1 h t ht] at hsoon
    cases hsoon
  · subst hd
    have hdec := (cqEntryDecode_eq hacts hturn hes hu).trans (if_pos (State.cqInTime_iff.2 hall))
    refine ⟨fun h0 => congrArg Host.Outcome.next (hdec.trans (if_pos h0)), fun hlow hneg => ?_, fun hfar => ?_⟩
    · rw [if_neg (by omega), if_pos ⟨hlow, hneg⟩] at hdec
      exact congrArg Host.Outcome.next hdec
    · rw [if_neg (by omega), if_neg (by omega)] at hdec
      exact congrArg Host.Outcome.next hdec
  · exact congrArg Host.Outcome.next (if_pos (by simp [hacts, hholds]))
  · rw [← State.completion_cqs (q := q) (c := c) (st := st) (g := g)] at hu
    subst hu
    refine congrArg Host.Outcome.next ?_
    simp only [commandComplete, hc, hst, hacts, if_true]
    exact if_congr (by simp [and_assoc]) rfl rfl
  · have hwrite : s.hostWriteReg port (.CQ_CFG, pkg1 q) (v ||| 1) = s.wrote (.CQ_CFG, pkg1 q) (cqCfgWrite s port q (v ||| 1)) :=
      hop.write_eq (State.writeKey_pkg _ _ _ _ (by decide))
    rw [cqCfgWrite_enable] at hwrite
    refine ⟨fun hmin hmax hoff => congrArg Host.Outcome.next (hwrite.trans (congrArg _ ((if_neg ?_).trans (if_pos hoff)))),
      fun hbad => congrArg Host.Outcome.next (hwrite.trans (congrArg _ (if_pos hbad)))⟩
    rintro (h | h | ⟨h, -⟩)
    · omega
    · omega
    · rw [hoff] at h
      cases h
  · have hlow := State.lowHalf_eq (k := (.CQ_BASE_LO, pkg1 q)) hlo
    obtain ⟨hregs, hfuses, -⟩ := State.lowHalf_fields hlow
    have hwrite := hop.cqBaseHi (v := v) hlow
    rw [cqBaseWrite_eq, State.bit_congr hregs hfuses] at hwrite
    refine ⟨fun hbad => congrArg Host.Outcome.next (hwrite.trans (congrArg _ (if_pos hbad))),
      fun hoff hal => congrArg Host.Outcome.next (hwrite.trans (congrArg _ (if_neg ?_)))⟩
    rintro (h | h)
    · rw [hoff] at h
      cases h
    · exact h hal

end Sys2Proof.Machine

/-! # Accesses of registers and memory through the ports (R14, R18 to R25, R52 to R57, R452 to R457) -/

namespace Sys2Proof.Machine

/-! ## The place of a register (R12) -/

section Place
variable {o d a n b m c l i : Nat} {ix : List Nat}

theorem findIx_cons {r : List (Nat × Nat)} (h : findIx o ((a, n) :: r) = some ix) :
    ∃ i t, ix = i :: t ∧ i < n ∧ i * a ≤ o ∧ findIx (o - i * a) r = some t := by
  simp only [findIx] at h
  split at h
  · next hlt =>
    obtain ⟨t, ht, rfl⟩ := Option.map_eq_some_iff.1 h
    exact ⟨_, t, rfl, hlt, Nat.div_mul_le_self o a, ht⟩
  · cases h

theorem findIx_nil (h : findIx o [] = some ix) : o = 0 ∧ ix = [] := by
  simp only [findIx] at h
  split at h
  · next h0 => exact ⟨h0, (Option.some.inj h).symm⟩
  · cases h

/-- A register found at an offset has its place there, and its copy exists. -/
theorem regAtOff_some {r : Reg} {k : RKey} (hd : d < 8) (hdims : r.info.dims.length ≤ 3) (h : regAtOff r d o = some k) :
    k.1 = r ∧ k.2.d = d ∧ keyOk k = true ∧ regAddr k = (if r.info.win then 0x08000000 + 0x01000000 * d else 0) + o := by
  simp only [regAtOff] at h
  split at h
  · cases h
  next hoff =>
  cases hx : findIx (o - r.info.off) r.info.dims with
  | none => simp [hx] at h
  | some ix =>
    obtain rfl : (r, (⟨d, ix.getD 0 0, ix.getD 1 0, ix.getD 2 0⟩ : Ix)) = k := by simpa [hx] using h
    refine ⟨rfl, rfl, ?_⟩
    simp only [keyOk, regAddr]
    match hds : r.info.dims with
    | [] =>
      rw [hds] at hx
      obtain ⟨h0, -⟩ := findIx_nil hx
      exact ⟨by simp [hd], by dsimp only; omega⟩
    | [(a, n)] =>
      rw [hds] at hx
      obtain ⟨i, t, rfl, hi, hle, hx⟩ := findIx_cons hx
      obtain ⟨h0, rfl⟩ := findIx_nil hx
      refine ⟨by simp [hd, hi], ?_⟩
      simp only [List.getD_cons_zero, Nat.mul_comm a]
      omega
    | [(a, n), (b, m)] =>
      rw [hds] at hx
      obtain ⟨i, t, rfl, hi, hle, hx⟩ := findIx_cons hx
      obtain ⟨j, t, rfl, hj, hle', hx⟩ := findIx_cons hx
      obtain ⟨h0, rfl⟩ := findIx_nil hx
      refine ⟨by simp [hd, hi, hj], ?_⟩
      simp only [List.getD_cons_zero, List.getD_cons_succ, Nat.mul_comm a, Nat.mul_comm b]
      omega
    | [(a, n), (b, m), (c, l)] =>
      rw [hds] at hx
      obtain ⟨i, t, rfl, hi, hle, hx⟩ := findIx_cons hx
      obtain ⟨j, t, rfl, hj, hle', hx⟩ := findIx_cons hx
      obtain ⟨k, t, rfl, hk, hle'', hx⟩ := findIx_cons hx
      obtain ⟨h0, rfl⟩ := findIx_nil hx
      refine ⟨by simp [hd, hi, hj, hk], ?_⟩
      simp only [List.getD_cons_zero, List.getD_cons_succ, Nat.mul_comm a, Nat.mul_comm b, Nat.mul_comm c]
      omega
    | _ :: _ :: _ :: _ :: _ =>
      rw [hds] at hdims
      simp only [List.length_cons] at hdims
      omega

theorem regSearch_some {win : Bool} {k : RKey} {rs : List Reg} (h : regSearch win d o rs = some k) :
    ∃ r ∈ rs, r.info.win = win ∧ regAtOff r d o = some k := by
  induction rs with
  | nil => cases h
  | cons r rs ih =>
    simp only [regSearch] at h
    split at h
    · next hw =>
      cases hx : regAtOff r d o with
      | none =>
        obtain ⟨q, hq, h1, h2⟩ := ih (by simpa [hx] using h)
        exact ⟨q, List.mem_cons_of_mem _ hq, h1, h2⟩
      | some k' =>
        obtain rfl : k' = k := by simpa [hx] using h
        exact ⟨r, List.mem_cons_self, hw, hx⟩
    · obtain ⟨q, hq, h1, h2⟩ := ih h
      exact ⟨q, List.mem_cons_of_mem _ hq, h1, h2⟩

theorem allRegs_dims : ∀ r ∈ allRegs, r.info.dims.length ≤ 3 := by decide +kernel

/-- The register at a place exists and has that place. -/
theorem AtReg.place {k : RKey} (h : AtReg a k) :
    keyOk k = true ∧ regAddr k = a ∧ (k.1.info.win = decide (0x08000000 ≤ a)) ∧ (0x08000000 ≤ a → k.2.d = (a - 0x08000000) / 0x01000000) := by
  have hlt := h.lt
  obtain ⟨-, hreg, -, -⟩ := h
  by_cases ha : a < 0x08000000
  · rw [regAt, if_pos ha] at hreg
    obtain ⟨r, hr, hw, hk⟩ := regSearch_some hreg
    obtain ⟨rfl, -, hok, hp⟩ := regAtOff_some (by decide) (allRegs_dims _ hr) hk
    refine ⟨hok, by simpa [hw] using hp, by simp [hw, ha], fun h => absurd ha (by omega)⟩
  · rw [regAt, if_neg ha, if_pos hlt] at hreg
    obtain ⟨r, hr, hw, hk⟩ := regSearch_some hreg
    obtain ⟨rfl, hd, hok, hp⟩ := regAtOff_some (by omega) (allRegs_dims _ hr) hk
    refine ⟨hok, ?_, by simp [hw]; omega, fun _ => hd⟩
    rw [hp, hw, if_pos rfl]
    omega

end Place

/-! ## Writes at the place of a register -/

section Writes
variable {s : State} {p : Port} {a : Nat} {k : RKey}

namespace AtReg

/-- A 32-bit write at the place of a register is a write of that register. -/
theorem hostWrite (h : AtReg a k) (s : State) (p : Port) (v : Word) : s.hostWrite p a v = s.hostWriteReg p k v := by
  have hbar := h.notBar2 (p := p)
  have hlt := h.lt
  obtain ⟨hok, hplace, hwin, hdie⟩ := h.place
  obtain ⟨h4, hreg, hring, hmem⟩ := h
  have hring' : (decide (0x01800000 ≤ a) && decide (a < 0x01880000)) = false := by simpa using hring
  simp only [State.hostWrite, State.hostWriteReg, hbar, hok, hplace, h4, hwin, Bool.false_eq_true, if_false, Bool.not_true, Bool.false_or,
    bne_self_eq_false, hring']
  by_cases hgo : s.reaches p a = true ∧ s.mayWrite p = true
  · obtain ⟨hr, hm⟩ := hgo
    simp only [hr, hm, Bool.not_true, Bool.false_or, decide_eq_true_eq, if_neg hlt.not_ge, State.meetsNone, Bool.true_and]
    by_cases ha : 0x08000000 ≤ a
    · rw [hdie ha]
      simp only [ha, hlt]
      have hwindow : (decide (True ∧ True) && !s.windowUp ((a - 0x08000000) / 0x01000000)) = !s.windowUp ((a - 0x08000000) / 0x01000000) := by simp
      rw [hwindow]
      rw [regAt, if_neg (by omega), if_pos hlt] at hreg
      simp only [decide_true, Bool.true_and, if_true]
      rw [if_neg (show ¬ a % 0x01000000 < 0x400000 by omega), hreg]
      cases hup : s.windowUp ((a - 0x08000000) / 0x01000000) <;> simp [hok, hplace, hr, hwin, hdie ha, ha, hup]
    · simp only [ha]
      rw [regAt, if_pos (by omega)] at hreg
      rw [hreg]
      simp [hok, hplace, hr, hwin, ha]
  · have : (!s.reaches p a || !s.mayWrite p) = true := by
      cases hr : s.reaches p a <;> cases hm : s.mayWrite p <;> simp_all
    simp only [this, Bool.true_or, if_true]

theorem hostWriteN4 (h : AtReg a k) (s : State) (p : Port) (x : BitVec 64) :
    s.hostWriteN p a 4 x = s.hostWriteReg p k (loHalf x) := (if_pos rfl).trans (h.hostWrite s p (loHalf x))

end AtReg

/-- A port that may not write is no PCIe port, and its 32-bit writes do nothing (R31). -/
theorem State.hostWriteN4_barred (h : s.mayWrite p = false) (x : BitVec 64) : s.hostWriteN p a 4 x = s := by
  have hbar : inBar2 p a = false := by cases p <;> simp [State.mayWrite, inBar2] at h ⊢
  refine (if_pos rfl).trans ?_
  simp [State.hostWrite, hbar, h]

/-- A 64-bit write at the place of a low half is the write of both halves (R23). -/
theorem AtReg.hostWriteN8 (h : AtReg a k) (h8 : a % 8 = 0) {q : RKey} (hhi : AtReg (a + 4) q)
    (hup : 0x08000000 ≤ a → s.windowUp ((a - 0x08000000) / 0x01000000) = true) (x : BitVec 64) :
    s.hostWriteN p a 8 x = (s.hostWriteReg p k (loHalf x)).hostWriteReg p q (hiHalf x) := by
  have hmeets : s.meetsNone p a = false := by
    by_cases ha : 0x08000000 ≤ a
    · simp [State.meetsNone, hup ha]
    · simp [State.meetsNone, ha]
  have hmem : ¬ (0x08000000 ≤ a ∧ a < 0x10000000 ∧ a % 0x01000000 < 0x400000) := by
    obtain ⟨-, -, -, h⟩ := h
    omega
  rw [State.hostWriteN, if_neg (by decide), if_neg hmem, hmeets, if_neg (by decide), if_pos ⟨rfl, h8⟩, h.hostWrite, hhi.hostWrite]

end Writes

/-! ## Reads of a register -/

section Reads
variable {s u : State} {p : Port} {a : Nat} {k : RKey} {v w : Word}

/-- The registers whose read does more than show them. -/
theorem special_half : Reg.RTR_CLAIM.info.half = 0 ∧ Reg.PIN_NEXT_INFO.info.half = 0 ∧ Reg.HOOP_TOOTH_INFO.info.half = 0 := by decide

namespace State

theorem readKey_plain (h1 : k.1 ≠ .RTR_CLAIM) (h2 : k.1 ≠ .PIN_NEXT_INFO) (h3 : k.1 ≠ .HOOP_TOOTH_INFO) :
    s.readKey p k = if k.1.info.half = 1 then s.readLo p k.1 k.2
      else if k.1.info.half = 2 then ((s.port p).capture, s)
      else ((s.view k.1 k.2).1, (s.view k.1 k.2).2.rcClear p k.1 k.2) := by
  unfold State.readKey
  split
  · next h => exact absurd h h1
  · next h => exact absurd h h2
  · next h => exact absurd h h3
  · rfl

theorem readKey_half (h : k.1.info.half ≠ 0) :
    s.readKey p k = if k.1.info.half = 1 then s.readLo p k.1 k.2
      else if k.1.info.half = 2 then ((s.port p).capture, s)
      else ((s.view k.1 k.2).1, (s.view k.1 k.2).2.rcClear p k.1 k.2) := by
  obtain ⟨hc, hp, ht⟩ := special_half
  exact State.readKey_plain (fun he => h (by rw [he, hc])) (fun he => h (by rw [he, hp])) (fun he => h (by rw [he, ht]))

theorem readKey_claim (h : k.1 = .RTR_CLAIM) : s.readKey p k = rtrClaimRead s p k.2.i := by
  rw [State.readKey, h]

theorem readKey_pinInfo (h : k.1 = .PIN_NEXT_INFO) : s.readKey p k = ((s.port p).pinInfo, s) := by
  rw [State.readKey, h]

theorem readKey_toothInfo (h : k.1 = .HOOP_TOOTH_INFO) : s.readKey p k = ((s.port p).toothInfo, s) := by
  rw [State.readKey, h]

end State

theorem State.Reads.readN4 (h : s.Reads p a k) (hv : s.readKey p k = (v, u)) : s.readN p a 4 = u.gave p v := h.readAt hv

namespace State

/-- The high word of an aligned double word is reached with the low one. -/
theorem reaches_high (h8 : a % 8 = 0) (h : s.reaches p a = true) : s.reaches p (a + 4) = true := by
  simp only [State.reaches, Bool.and_eq_true, Bool.or_eq_true, decide_eq_true_eq] at h ⊢
  obtain ⟨hopen, hplace⟩ := h
  refine ⟨hopen, ?_⟩
  rcases hplace with hport | ⟨hlo, hhi⟩
  · rcases hport with hport | hlow
    · exact .inl (.inl hport)
    · exact .inl (.inr (by omega))
  · exact .inr ⟨by omega, by omega⟩

theorem readLo_plain {r : Reg} {ix : Ix} (h1 : r ≠ .PIN_NEXT_LO) (h2 : r ≠ .HOOP_LAST_TOOTH_LO) :
    s.readLo p r ix = (loHalf (s.view64 r ix), s.modPort p (fun y => { y with capture := hiHalf (s.view64 r ix) })) := by
  unfold State.readLo
  split
  · exact absurd rfl h1
  · exact absurd rfl h2
  · rfl

end State

/-- A 64-bit read at the place of a low half is the read of both halves (R23). -/
theorem State.Reads.readN8 (h : s.Reads p a k) (hlo : k.1.info.half = 1) (h1 : k.1 ≠ .PIN_NEXT_LO) (h2 : k.1 ≠ .HOOP_LAST_TOOTH_LO)
    (h8 : a % 8 = 0) (hat : AtReg (a + 4) (k.1.hi, k.2)) (hhi : k.1.hi.info.half = 2) :
    s.readN p a 8 = (s.modPort p (fun y => { y with capture := hiHalf (s.view64 k.1 k.2) })).gave64 p (s.view64 k.1 k.2) := by
  have hlow : s.hostRead p a = _ := h.hostRead.trans ((State.readKey_half (by omega)).trans ((if_pos hlo).trans (State.readLo_plain h1 h2)))
  have hmeets := h.meets
  obtain ⟨-, hreach, hup⟩ := h
  have hreads : (s.modPort p (fun y => { y with capture := hiHalf (s.view64 k.1 k.2) })).Reads p (a + 4) (k.1.hi, k.2) := by
    refine ⟨hat, State.reaches_high h8 hreach, fun ha => ?_⟩
    rw [show (a + 4 - 0x08000000) / 0x01000000 = (a - 0x08000000) / 0x01000000 by omega]
    exact hup (by omega)
  have hhigh := hreads.hostRead.trans ((State.readKey_half (by rw [hhi]; decide)).trans ((if_neg (by rw [hhi]; decide)).trans (if_pos hhi)))
  rw [State.readN, State.hostReadN, if_neg (by decide), hmeets, if_neg (by decide), if_pos ⟨rfl, h8⟩]
  simp only [hlow, hhigh, State.port_modPort, joinHalves_halves]
  rfl

end Reads

/-! ## BAR2 (R452) -/

section Bar2
variable {s : State} {o : Nat}

theorem inBar2_bar2 (h : o < 0x10000) : inBar2 .pcie (0x10000000 + o) = true := by
  simp [inBar2]
  omega

namespace State

theorem readN_bar2 (ho : o < 0x10000) (h4 : o % 4 = 0) (hres : s.boot.inReset = false) (hperst : s.boot.perst = false) :
    s.readN .pcie (0x10000000 + o) 4 = s.gave .pcie (s.bar2Read o) := by
  have hread : s.hostRead .pcie (0x10000000 + o) = (s.bar2Read o, s) := by
    simp [State.hostRead, inBar2_bar2 ho, State.bar2Up, hres, hperst, show (0x10000000 + o) % 4 = 0 by omega]
  simp only [State.readN, State.hostReadN, if_true, hread, loHalf_zeroExtend, hiHalf_zeroExtend]
  rfl

theorem hostWriteN4_bar2 (ho : o < 0x10000) (h4 : o % 4 = 0) (hres : s.boot.inReset = false) (hperst : s.boot.perst = false)
    (x : BitVec 64) : s.hostWriteN .pcie (0x10000000 + o) 4 x = s.bar2Write o (loHalf x) := by
  refine (if_pos rfl).trans ?_
  simp [State.hostWrite, inBar2_bar2 ho, State.bar2Up, hres, hperst, show (0x10000000 + o) % 4 = 0 by omega]

theorem bar2Write_mask {t : Nat} (ht : t < 64) (v : Word) : s.bar2Write (16 * t + 12) v = s.setMsixMask t (bitOf v 0) := by
  rw [State.bar2Write, if_neg (by omega), if_pos (by omega), show (16 * t + 12) / 16 = t by omega]

end State

end Bar2

/-! ## Words and bytes of memory -/

section Bytes
variable (m : List Host.Cell) (a : Nat)

theorem wordBytes_memWord : wordBytes (memWord m a) = memReadList m a 4 := by
  have h0 (b3 b2 b1 b0 : Byte) : (b3 ++ b2 ++ b1 ++ b0).extractLsb' 0 8 = b0 := by
    ext i hi
    rw [BitVec.getElem_extractLsb', BitVec.getLsbD_append, if_pos (by omega), Nat.zero_add, BitVec.getLsbD_eq_getElem hi]
  have h1 (b3 b2 b1 b0 : Byte) : (b3 ++ b2 ++ b1 ++ b0).extractLsb' 8 8 = b1 := by
    ext i hi
    rw [BitVec.getElem_extractLsb', BitVec.getLsbD_append, if_neg (by omega), BitVec.getLsbD_append, if_pos (by omega), Nat.add_sub_cancel_left,
      BitVec.getLsbD_eq_getElem hi]
  have h2 (b3 b2 b1 b0 : Byte) : (b3 ++ b2 ++ b1 ++ b0).extractLsb' 16 8 = b2 := by
    ext i hi
    rw [BitVec.getElem_extractLsb', BitVec.getLsbD_append, if_neg (by omega), BitVec.getLsbD_append, if_neg (by omega), BitVec.getLsbD_append,
      if_pos (by omega), show 16 + i - 8 - 8 = i by omega, BitVec.getLsbD_eq_getElem hi]
  have h3 (b3 b2 b1 b0 : Byte) : (b3 ++ b2 ++ b1 ++ b0).extractLsb' 24 8 = b3 := by
    ext i hi
    rw [BitVec.getElem_extractLsb', BitVec.getLsbD_append, if_neg (by omega), BitVec.getLsbD_append, if_neg (by omega), BitVec.getLsbD_append,
      if_neg (by omega), show 24 + i - 8 - 8 - 8 = i by omega, BitVec.getLsbD_eq_getElem hi]
  rw [wordBytes, memWord, h0, h1, h2, h3]
  rfl

theorem memWord_eq : memWord m a = BitVec.ofNat 32 (leNat (memReadList m a 4)) := by
  rw [← wordBytes_memWord, leNat_wordBytes]
  simp

theorem leNat_append (l r : List Byte) : leNat (l ++ r) = leNat l + 256 ^ l.length * leNat r := by
  induction l with
  | nil => simp [leNat]
  | cons b l ih =>
    simp only [List.cons_append, leNat, ih, List.length_cons, pow_succ']
    ring

theorem leNat_lt (l : List Byte) : leNat l < 256 ^ l.length := by
  induction l with
  | nil => simp [leNat]
  | cons b l ih =>
    have hb := b.isLt
    simp only [leNat, List.length_cons, pow_succ']
    omega

theorem memReadList_length (n : Nat) : (memReadList m a n).length = n := by
  induction n generalizing a with
  | zero => rfl
  | succ n ih => simp [memReadList, ih]

theorem joinHalves_memWord : joinHalves (memWord m (a + 4)) (memWord m a) = BitVec.ofNat 64 (leNat (memReadList m a 8)) := by
  have hsplit : memReadList m a 8 = wordBytes (memWord m a) ++ wordBytes (memWord m (a + 4)) := by
    rw [wordBytes_memWord, wordBytes_memWord]
    rfl
  have hlow := (memWord m a).isLt
  have hhigh := (memWord m (a + 4)).isLt
  refine BitVec.eq_of_toNat_eq ?_
  rw [hsplit, leNat_append, leNat_wordBytes, leNat_wordBytes, wordBytes_length, joinHalves, BitVec.toNat_append, ← Nat.shiftLeft_add_eq_or_of_lt hlow,
    Nat.shiftLeft_eq, BitVec.toNat_ofNat]
  omega

theorem halves_ofNat {v : Nat} (h : v < 2 ^ 32) : loHalf (BitVec.ofNat 64 v) = BitVec.ofNat 32 v ∧ hiHalf (BitVec.ofNat 64 v) = 0 := by
  constructor
  · refine BitVec.eq_of_toNat_eq ?_
    simp [loHalf]
  · refine BitVec.eq_of_toNat_eq ?_
    simp [hiHalf, Nat.shiftRight_eq_div_pow]
    omega

end Bytes

/-! ## Die windows (R23, R54 to R57) -/

theorem widthBytes_bits (n : Nat) : widthBytes (8 * n) = n := by simp [widthBytes]

section Window
variable {s : State} {p : Port} {a d off n : Nat} {x : BitVec 64}

theorem window_parts (ha : a = 0x08000000 + 0x01000000 * d + off) (hd : d < 8) (ho : off < 0x01000000) :
    (0x08000000 ≤ a ∧ a < 0x10000000) ∧ (a - 0x08000000) / 0x01000000 = d ∧ a % 0x01000000 = off := by omega

theorem inBar2_window (h : a < 0x10000000) : inBar2 p a = false := by
  simp [inBar2]
  omega

namespace State

theorem meetsNone_window (ha : a = 0x08000000 + 0x01000000 * d + off) (hd : d < 8) (ho : off < 0x01000000) (hr : s.reaches p a = true) :
    s.meetsNone p a = !s.windowUp d := by
  obtain ⟨hrange, hdie, -⟩ := window_parts ha hd ho
  simp [State.meetsNone, hr, hrange, hdie]

/-- A 32-bit read of the window of a die that is gone (R54, R55). -/
theorem readN_gone (ha : a = 0x08000000 + 0x01000000 * d + off) (hd : d < 8) (ho : off < 0x01000000) (hr : s.reaches p a = true)
    (hup : s.windowUp d = false) : s.readN p a 4 = s.absentAccess.gave p (s.goneWord a) := by
  have hmeets := State.meetsNone_window ha hd ho hr
  rw [hup] at hmeets
  obtain ⟨hrange, -, -⟩ := window_parts ha hd ho
  have hread : s.hostRead p a = (s.goneWord a, s.absentAccess) := by
    rw [State.hostRead, inBar2_window hrange.2, if_neg (by decide), hmeets]
    rfl
  simp only [State.readN, State.hostReadN, if_true, hread, loHalf_zeroExtend, hiHalf_zeroExtend]
  rfl

theorem goneWord_absent (hdie : (a - 0x08000000) / 0x01000000 = d) (hno : s.present d = false) : s.goneWord a = 0 := by
  simp [State.goneWord, hdie, hno]

end State

theorem halves_zero : loHalf 0 = 0 ∧ hiHalf 0 = 0 := ⟨rfl, rfl⟩

namespace State

theorem readN_absent (ha : a = 0x08000000 + 0x01000000 * d + off) (hd : d < 8) (ho : off < 0x01000000) (hr : s.reaches p a = true)
    (hno : s.present d = false) (n : Nat) : s.readN p a n = s.absentAccess.gave p 0 := by
  have hup : s.windowUp d = false := by simp [State.windowUp, hno]
  have hmeets := State.meetsNone_window ha hd ho hr
  obtain ⟨hrange, hdie, hoff⟩ := window_parts ha hd ho
  have hgone : s.goneWord a = 0 := State.goneWord_absent hdie hno
  by_cases h4 : n = 4
  · rw [h4, State.readN_gone ha hd ho hr hup, hgone]
  · have hzero : (if n = 8 ∧ a % 8 = 0 then joinHalves (s.goneWord (a + 4)) (s.goneWord a) else 0) = 0 := by
      split
      · next h8 =>
        obtain ⟨-, hdie', -⟩ := window_parts (a := a + 4) (off := off + 4) (by rw [ha, Nat.add_assoc]) hd (by omega)
        rw [hgone, State.goneWord_absent hdie' hno]
        rfl
      · rfl
    rw [State.readN, State.hostReadN, if_neg h4, hmeets, hup, Bool.not_false, if_pos rfl, hzero]
    simp only [halves_zero.1, halves_zero.2]
    rfl

theorem hostWriteN_gone (ha : a = 0x08000000 + 0x01000000 * d + off) (hd : d < 8) (ho : off < 0x01000000) (hr : s.reaches p a = true)
    (hm : s.mayWrite p = true) (hup : s.windowUp d = false) (n : Nat) (v : BitVec 64) : s.hostWriteN p a n v = s.absentAccess := by
  have hmeets := State.meetsNone_window ha hd ho hr
  obtain ⟨hrange, hdie, hoff⟩ := window_parts ha hd ho
  by_cases h4 : n = 4
  · refine (if_pos h4).trans ?_
    simp [State.hostWrite, inBar2_window hrange.2, hr, hm, hrange.2.not_ge, hmeets, hup]
  · by_cases hmem : off < 0x400000
    · rw [State.hostWriteN, if_neg h4, if_pos ⟨hrange.1, hrange.2, by omega⟩, hdie, hoff]
      simp [State.dieMemWrite, hmem.not_ge, hd.not_ge, ← ha, hr, hm, hup]
    · rw [State.hostWriteN, if_neg h4, if_neg (by omega), hmeets, hup]
      simp [hm]

theorem hostRead_mem (ha : a = 0x08000000 + 0x01000000 * d + off) (hd : d < 8) (ho : off < 0x400000) (hr : s.reaches p a = true)
    (hup : s.windowUp d = true) (h4 : off % 4 = 0) : s.hostRead p a = (memWord s.dieMem (dieAddr d off), s) := by
  have hmeets := State.meetsNone_window ha hd (by omega) hr
  rw [hup] at hmeets
  obtain ⟨hrange, hdie, hoff⟩ := window_parts ha hd (by omega)
  simp [State.hostRead, inBar2_window hrange.2, hmeets, hr, show a % 4 = 0 by omega, hrange.1, hrange.2.not_ge, hdie, hoff, State.readWindow, ho]

/-- A read of die memory (R23, R57). -/
theorem readN_mem (ha : a = 0x08000000 + 0x01000000 * d + off) (hd : d < 8) (ho : off < 0x400000) (hr : s.reaches p a = true)
    (hup : s.windowUp d = true) (hn : n = 1 ∨ n = 2 ∨ n = 4) (hal : off % n = 0) :
    s.readN p a n = s.gave p (BitVec.ofNat 32 (leNat (memReadList s.dieMem (dieAddr d off) n))) := by
  have hmeets := State.meetsNone_window ha hd (by omega) hr
  rw [hup] at hmeets
  obtain ⟨hrange, hdie, hoff⟩ := window_parts ha hd (by omega)
  have hlt := leNat_lt (memReadList s.dieMem (dieAddr d off) n)
  rw [memReadList_length] at hlt
  have hread : s.hostReadN p a n = (BitVec.ofNat 64 (leNat (memReadList s.dieMem (dieAddr d off) n)), s) := by
    by_cases h4 : n = 4
    · subst h4
      rw [State.hostReadN, if_pos rfl, State.hostRead_mem ha hd ho hr hup hal, memWord_eq]
      refine Prod.ext (BitVec.eq_of_toNat_eq ?_) rfl
      simp only [BitVec.truncate_eq_setWidth, BitVec.toNat_setWidth, BitVec.toNat_ofNat]
      omega
    · have hsmall : n = 1 ∨ n = 2 := by omega
      have hal' : a % n = 0 := by rcases hsmall with rfl | rfl <;> omega
      rw [State.hostReadN, if_neg h4, hmeets, if_neg (by decide), if_neg (by omega),
        if_pos ⟨hsmall, hal', hr, hrange.1, hrange.2, by omega⟩, hdie, hoff]
  obtain ⟨hlo, hhi⟩ := halves_ofNat (v := leNat (memReadList s.dieMem (dieAddr d off) n)) (by rcases hn with rfl | rfl | rfl <;> omega)
  simp only [State.readN, hread, hlo, hhi]
  rfl

theorem readN_mem8 (ha : a = 0x08000000 + 0x01000000 * d + off) (hd : d < 8) (ho : off < 0x400000) (hr : s.reaches p a = true)
    (hup : s.windowUp d = true) :
    s.readN p a 8 = if off % 8 = 0 then s.gave64 p (BitVec.ofNat 64 (leNat (memReadList s.dieMem (dieAddr d off) 8))) else s.gave p 0 := by
  have hmeets := State.meetsNone_window ha hd (by omega) hr
  rw [hup] at hmeets
  obtain ⟨hrange, hdie, hoff⟩ := window_parts ha hd (by omega)
  rw [State.readN, State.hostReadN, if_neg (by decide), hmeets, if_neg (by decide)]
  by_cases h8 : off % 8 = 0
  · have hlow := State.hostRead_mem ha hd ho hr hup (by omega)
    have ha4 : a + 4 = 0x08000000 + 0x01000000 * d + (off + 4) := (congrArg (· + 4) ha).trans (Nat.add_assoc _ _ 4)
    have hhigh := State.hostRead_mem ha4 hd (by omega) (State.reaches_high (by omega) hr) hup (by omega)
    have haddr : dieAddr d (off + 4) = dieAddr d off + 4 := (Nat.add_assoc _ _ 4).symm
    rw [if_pos ⟨rfl, by omega⟩, if_pos h8, ← joinHalves_memWord]
    simp only [hlow, hhigh, haddr]
    rfl
  · rw [if_neg (by omega), if_neg (by omega), if_neg h8]
    simp only [halves_zero.1, halves_zero.2]
    rfl

theorem dieMemWrite_eq (ha : a = 0x08000000 + 0x01000000 * d + off) (hd : d < 8) (ho : off < 0x400000) (hr : s.reaches p a = true)
    (hup : s.windowUp d = true) (hn : n = 1 ∨ n = 2 ∨ n = 4 ∨ n = 8) (hal : off % n = 0) (hm : s.mayWrite p = true) :
    s.dieMemWrite p d off n x =
      if s.rangeHeld d off n then s.bump F.MEM_WRITE_REJECT_COUNT_count pkg else s.writeDie d off (leBytes x.toNat n) := by
  have hwidth : (n == 1 || n == 2 || n == 4 || n == 8) = true := by rcases hn with rfl | rfl | rfl | rfl <;> rfl
  simp [State.dieMemWrite, ho.not_ge, hd.not_ge, ← ha, hr, hm, hup, hwidth, hal]

end State

end Window

/-! ## Port accesses as commands -/

section Accesses
variable {s u : State} {p : Port} {a d off n width : Nat} {k q : RKey} {v w : Word} {x : BitVec 64}

theorem State.gave_gave (s : State) (p : Port) (v w : Word) : (s.gave p v).modPort p (fun y => { y with rd := w }) = (s.gave p v).gave p w := by
  simp only [State.gave, State.modPort, State.port, nmGet_nmPut_self]

theorem widthBytes_32 : widthBytes 32 = 4 := by decide
theorem widthBytes_64 : widthBytes 64 = 8 := by decide

theorem rcFieldRead_32 : exec (.rcFieldRead p ⟨a, 32⟩) s = .next (s.readN p a 4) :=
  congrArg (fun n => Host.Outcome.next (s.readN p a n)) widthBytes_32

theorem reg64LoRead_32 : exec (.reg64LoRead p ⟨a, 32⟩) s = .next (s.readN p a 4) :=
  congrArg (fun n => Host.Outcome.next (s.readN p a n)) widthBytes_32

theorem rcFieldRead_64 : exec (.rcFieldRead p ⟨a, 64⟩) s = .next (s.readN p a 8) :=
  congrArg (fun n => Host.Outcome.next (s.readN p a n)) widthBytes_64

theorem reg64LoRead_64 : exec (.reg64LoRead p ⟨a, 64⟩) s = .next (s.readN p a 8) :=
  congrArg (fun n => Host.Outcome.next (s.readN p a n)) widthBytes_64

theorem registerWrite_32 : exec (.registerWrite p ⟨a, 32⟩ x) s = .next (s.hostWriteN p a 4 x) :=
  congrArg (fun n => Host.Outcome.next (s.hostWriteN p a n x)) widthBytes_32

theorem reg64HiWrite_32 : exec (.reg64HiWrite p ⟨a, 32⟩ x) s = .next (s.hostWriteN p a 4 x) :=
  congrArg (fun n => Host.Outcome.next (s.hostWriteN p a n x)) widthBytes_32

theorem registerWrite_64 : exec (.registerWrite p ⟨a, 64⟩ x) s = .next (s.hostWriteN p a 8 x) :=
  congrArg (fun n => Host.Outcome.next (s.hostWriteN p a n x)) widthBytes_64

/-- A quad-SPI read that timed out drives 0 (R456). -/
theorem qspiReadTimeout_eq (h : exec (.rcFieldRead .qspi ⟨a, 32⟩) s = .next u) :
    exec (.qspiReadTimeout a) s = .next (u.gave .qspi 0) := by
  have hu : Host.Outcome.next (s.readAt .qspi a) = (Host.Outcome.next u : Host.Outcome State Fault Refusal) := rcFieldRead_32.symm.trans h
  have hhi : hiHalf (s.hostReadN .qspi a 4).1 = 0 := hiHalf_zeroExtend _
  have hread : s.readAt .qspi a = (s.hostReadN .qspi a 4).2.gave .qspi (loHalf (s.hostReadN .qspi a 4).1) := by
    rw [State.readAt, State.readN, hhi]
    rfl
  refine congrArg Host.Outcome.next ?_
  rw [← Host.Outcome.next.inj hu, hread, State.gave_gave]

namespace State

/-- A read that lies in no die window, is no 32-bit word and no aligned double word completes and returns 0 (R24). -/
theorem readN_odd (ha : a < 0x08000000) (hw : width = 8 ∨ width = 16 ∨ (width = 64 ∧ a % 8 ≠ 0) ∨ (width = 32 ∧ a % 4 ≠ 0)) :
    s.readN p a (widthBytes width) = s.gave p 0 := by
  have hmeets : s.meetsNone p a = false := by simp [State.meetsNone, show ¬ 0x08000000 ≤ a by omega]
  have hread : s.hostReadN p a (widthBytes width) = (0, s) := by
    by_cases h4 : width = 32
    · subst h4
      have hmis : a % 4 ≠ 0 := by omega
      have hzero : s.hostRead p a = (0, s) := by
        rw [State.hostRead, inBar2_window (by omega), if_neg (by decide), hmeets, if_neg (by decide), if_pos (by simp [hmis])]
      rw [State.hostReadN, if_pos (by decide), hzero]
      rfl
    · have hbytes : widthBytes width ≠ 4 := by rcases hw with rfl | rfl | ⟨rfl, -⟩ | ⟨rfl, -⟩ <;> simp [widthBytes] at h4 ⊢
      have hwide : ¬ (widthBytes width = 8 ∧ a % 8 = 0) := by
        rcases hw with rfl | rfl | ⟨rfl, h8⟩ | ⟨rfl, -⟩ <;> simp_all [widthBytes]
      rw [State.hostReadN, if_neg hbytes, hmeets, if_neg (by decide), if_neg hwide, if_neg (by omega)]
  rw [State.readN, hread]
  simp only [halves_zero.1, halves_zero.2]
  rfl

theorem hostWriteN_odd (ha : a < 0x08000000) (hw : width = 8 ∨ width = 16 ∨ (width = 64 ∧ a % 8 ≠ 0) ∨ (width = 32 ∧ a % 4 ≠ 0)) :
    s.hostWriteN p a (widthBytes width) x = s := by
  have hmeets : s.meetsNone p a = false := by simp [State.meetsNone, show ¬ 0x08000000 ≤ a by omega]
  by_cases h4 : width = 32
  · subst h4
    have hmis : a % 4 ≠ 0 := by omega
    refine (if_pos rfl).trans ?_
    simp [State.hostWrite, inBar2_window (show a < 0x10000000 by omega), hmeets, hmis]
  · have hbytes : widthBytes width ≠ 4 := by rcases hw with rfl | rfl | ⟨rfl, -⟩ | ⟨rfl, -⟩ <;> simp [widthBytes] at h4 ⊢
    have hwide : ¬ (widthBytes width = 8 ∧ a % 8 = 0) := by
      rcases hw with rfl | rfl | ⟨rfl, h8⟩ | ⟨rfl, -⟩ <;> simp_all [widthBytes]
    rw [State.hostWriteN, if_neg hbytes, if_neg (by omega), hmeets, if_neg (by decide), if_neg hwide]

theorem goneWord_present (ha : a = 0x08000000 + 0x01000000 * d + off) (hd : d < 8) (ho : off < 0x01000000) (hpre : s.present d = true) :
    s.goneWord a = if 0x900000 ≤ off ∧ off < 0xA00000 then nmGet (s.die d).snapshot off 0 else 0 := by
  obtain ⟨-, hdie, hoff⟩ := window_parts ha hd ho
  simp only [State.goneWord, hdie, hoff, hpre, Bool.true_and, decide_eq_true_eq]

/-- A write of the low half of a 64-bit register waits at its port (R21). -/
theorem writeKey_lo (p : Port) (v : Word) (hlock : s.lockBit k = none) (hhalf : k.1.info.half = 1) (hrw : k.1.info.rw ≠ 0) :
    s.writeKey p k v = s.modPort p (fun x => { x with staged := some (regAddr k, v) }) := by
  rw [State.writeKey, hlock]
  exact (if_pos hhalf).trans (if_neg hrw)

/-- A half of a register without a writable bit takes no write. -/
theorem writeKey_readOnly (p : Port) (v : Word) (hlock : s.lockBit k = none) (hhalf : k.1.info.half = 1 ∨ k.1.info.half = 2)
    (hrw : k.1.info.rw = 0) : s.writeKey p k v = s := by
  rw [State.writeKey, hlock]
  rcases hhalf with h1 | h2
  · exact (if_pos h1).trans (if_pos hrw)
  · exact (if_neg (by omega)).trans ((if_pos h2).trans (if_pos hrw))

end State

/-- ABSENT_DIE_ACCESS of a window that does not answer is the access (R54, R55). -/
theorem absentDieAccess_gone (ha : a = 0x08000000 + 0x01000000 * d + off) (hd : d < 8) (ho : off < 0x01000000) (hup : s.windowUp d = false)
    (write : Bool) : exec (.absentDieAccess p ⟨a, width⟩ write) s =
      .next (if write then s.hostWriteN p a (widthBytes width) 0 else s.readN p a (widthBytes width)) := by
  obtain ⟨hrange, hdie, -⟩ := window_parts ha hd ho
  refine congrArg Host.Outcome.next (if_pos ?_)
  simp [hrange, hdie, hup]

theorem absentDieAccess_up (ha : a = 0x08000000 + 0x01000000 * d + off) (hd : d < 8) (ho : off < 0x01000000) (hup : s.windowUp d = true)
    (write : Bool) : exec (.absentDieAccess p ⟨a, width⟩ write) s = .next s := by
  obtain ⟨hrange, hdie, -⟩ := window_parts ha hd ho
  refine congrArg Host.Outcome.next (if_neg ?_)
  simp [hrange, hdie, hup]

end Accesses

/-- Settles O47: an access of a port at the place of a register is the register's own read or write, BAR2 and the windows of dies that
are gone answer as their rules say, and die memory is read and written by its bytes. -/
theorem registerAccess : Obligations.RegisterAccess := by
  unfold Obligations.RegisterAccess
  refine ⟨fun s u p a k v w x => ⟨fun hat _ _ => ⟨?_, ?_, ?_⟩, fun hm => ⟨?_, ?_⟩, ⟨rfl, rfl, rfl, rfl, rfl⟩,
      fun hreads => ⟨?_, ?_, ?_, ?_, ?_, ?_, ?_, ?_⟩, fun o t hres hperst => ⟨fun ho h4 => ⟨?_, ?_⟩, fun ht ho => ⟨?_, ?_⟩⟩⟩,
    fun s p a width k x => ⟨?_, fun hat _ h8 hhi _ _ hup => ⟨?_, rfl⟩, fun ha hw => ⟨?_, ?_, ?_, ?_⟩⟩,
    fun s p a d off n width x ha hd ho hr => ⟨fun hno => ?_, fun hup hm => ?_, fun hpre hfence => ?_, fun hup => ⟨?_, ?_⟩,
      fun hup hn hal hoff => ⟨fun hle => ?_, ?_, fun hm => ⟨fun hheld => ?_, fun hheld => ?_⟩, fun hm => ?_⟩⟩,
    fun s p k v w f ix hop => ⟨fun hlock => ?_, fun hlock hhalf hrw => ?_, fun hlock hhalf hrw => ?_, fun b hst hb => ?_, fun e hst he => ?_,
      fun hst => ?_, fun hlock hhalf hrw => ?_⟩⟩
  · rw [registerWrite_32, hat.hostWriteN4]
  · rw [reg64HiWrite_32, hat.hostWriteN4]
  · rintro rfl
    exact congrArg Host.Outcome.next (hat.hostWrite s .qspi v)
  · rw [registerWrite_32, State.hostWriteN4_barred hm]
  · rw [reg64HiWrite_32, State.hostWriteN4_barred hm]
  · rintro hlo rfl
    exact reg64LoRead_32.trans (congrArg Host.Outcome.next (hreads.readN4 ((State.readKey_half (by omega)).trans (if_pos hlo))))
  · intro hhi
    exact reg64LoRead_32.trans (congrArg Host.Outcome.next (hreads.readN4 ((State.readKey_half (by omega)).trans ((if_neg (by omega)).trans (if_pos hhi)))))
  · intro hk
    exact rcFieldRead_32.trans (congrArg Host.Outcome.next (hreads.readN4 (State.readKey_pinInfo hk)))
  · intro hk
    exact rcFieldRead_32.trans (congrArg Host.Outcome.next (hreads.readN4 (State.readKey_toothInfo hk)))
  · intro hk
    exact rcFieldRead_32.trans (congrArg Host.Outcome.next (hreads.readN4 (State.readKey_claim hk)))
  · intro h0 h1 h2 h3 hview
    refine rcFieldRead_32.trans (congrArg Host.Outcome.next (hreads.readN4 ((State.readKey_plain h1 h2 h3).trans ?_)))
    rw [if_neg (by omega), if_neg (by omega), hview]
    rfl
  · rintro rfl
    exact rcFieldRead_32.symm
  · rintro rfl
    exact qspiReadTimeout_eq
  · exact rcFieldRead_32.trans (congrArg Host.Outcome.next (State.readN_bar2 ho h4 hres hperst))
  · intro hbig
    exact registerWrite_32.trans (congrArg Host.Outcome.next ((State.hostWriteN4_bar2 ho h4 hres hperst x).trans (if_pos hbig)))
  · intro hbit
    subst ho
    refine registerWrite_32.trans (congrArg Host.Outcome.next ((State.hostWriteN4_bar2 (o := 16 * t + 12) (by omega) (by omega) hres hperst x).trans
      ((State.bar2Write_mask ht _).trans ?_)))
    rw [hbit]
    rfl
  · rintro hbit rfl
    subst ho
    refine registerWrite_32.trans (congrArg Host.Outcome.next ((State.hostWriteN4_bar2 (o := 16 * t + 12) (by omega) (by omega) hres hperst x).trans
      ((State.bar2Write_mask ht _).trans ?_)))
    rw [hbit]
    rfl
  · intro hreads hlo h1 h2 h8 hat hhi
    exact reg64LoRead_64.trans (congrArg Host.Outcome.next (hreads.readN8 hlo h1 h2 h8 hat hhi))
  · exact registerWrite_64.trans (congrArg Host.Outcome.next (hat.hostWriteN8 h8 hhi hup x))
  · exact congrArg Host.Outcome.next (State.readN_odd ha hw)
  · exact congrArg Host.Outcome.next (State.readN_odd ha hw)
  · exact congrArg Host.Outcome.next (State.hostWriteN_odd ha hw)
  · exact congrArg Host.Outcome.next (State.hostWriteN_odd ha hw)
  · have hup : s.windowUp d = false := by simp [State.windowUp, hno]
    exact (absentDieAccess_gone ha hd ho hup false).trans (congrArg Host.Outcome.next (State.readN_absent ha hd ho hr hno _))
  · exact (absentDieAccess_gone ha hd ho hup true).trans (congrArg Host.Outcome.next (State.hostWriteN_gone ha hd ho hr hm hup _ _))
  · have hup : s.windowUp d = false := by simp [State.windowUp, hfence]
    rw [absentDieAccess_gone ha hd ho hup, widthBytes_32, State.readN_gone ha hd ho hr hup, State.goneWord_present ha hd ho hpre]
    rfl
  · exact absentDieAccess_up ha hd ho hup true
  · exact absentDieAccess_up ha hd ho hup false
  · refine congrArg Host.Outcome.next ?_
    rw [widthBytes_bits]
    exact State.readN_mem ha hd hoff hr hup (by omega) hal
  · exact rcFieldRead_64.trans (congrArg Host.Outcome.next (State.readN_mem8 ha hd hoff hr hup))
  · refine congrArg Host.Outcome.next ?_
    rw [widthBytes_bits, State.dieMemWrite_eq ha hd hoff hr hup hn hal hm, hheld]
    rfl
  · refine congrArg Host.Outcome.next ?_
    rw [widthBytes_bits, State.dieMemWrite_eq ha hd hoff hr hup hn hal hm, hheld]
    rfl
  · refine congrArg Host.Outcome.next (if_pos ?_)
    simp [hm]
  · exact hop.write_eq (State.writeKey_locked p v hlock)
  · exact hop.write_eq (State.writeKey_lo p v hlock hhalf hrw)
  · exact hop.write_eq (State.writeKey_hi p v hlock ⟨hhalf, hrw⟩)
  · exact State.lowHalf_eq (.inl ⟨hst, hb⟩)
  · exact State.lowHalf_eq (.inr ⟨fun y hy => he (by rw [hst] at hy; cases hy; rfl), rfl, rfl⟩)
  · exact State.lowHalf_eq (.inr ⟨fun y hy => Option.some_ne_none _ (hy.symm.trans hst), rfl, rfl⟩)
  · exact hop.write_eq (State.writeKey_readOnly p v hlock hhalf hrw)

end Sys2Proof.Machine

/-! # Context debug and the debug port (R140 to R149, R539, R540) -/

namespace Sys2Proof.Machine

/-! ## Fields that a write leaves alone -/

section Fields
variable (s : State) {f g : Fld} (ix jx : Ix)

theorem bitsOf_congr {x y : Word} {lo w : Nat} (h : ∀ i < w, x.getLsbD (lo + i) = y.getLsbD (lo + i)) : bitsOf x lo w = bitsOf y lo w := by
  apply Nat.eq_of_testBit_eq
  intro i
  rw [bitsOf_testBit, bitsOf_testBit]
  by_cases hi : i < w
  · rw [h i hi]
  · simp [hi]

namespace State

/-- A field beside the one that is set. -/
theorem fld_setFld_apart (v : Nat) (hg : g.lo + g.w ≤ 32) (h : g.lo + g.w ≤ f.lo ∨ f.lo + f.w ≤ g.lo) :
    (s.setFld f ix v).fld g jx = s.fld g jx := by
  by_cases hk : (g.reg, jx) = (f.reg, ix)
  · obtain ⟨hr, rfl⟩ := Prod.mk.inj hk
    rw [State.fld, State.fld, State.setFld, hr, State.reg_setReg]
    exact bitsOf_congr fun i hi => by rw [getLsbD_putBits _ _ _ _ (by omega), if_neg (by omega)]
  · rw [State.fld, State.setFld, State.reg_setReg_ne _ _ _ _ _ _ hk, State.fld]

/-- A field that no plain write changes. -/
theorem fld_plainWrite (v : Word) (hf : f.lo + f.w ≤ 32)
    (h : ∀ i < f.w, (f.reg.info.rw ||| f.reg.info.w1c ||| f.reg.info.w1s).testBit (f.lo + i) = false) :
    (s.plainWrite f.reg ix v).fld f ix = s.fld f ix := by
  rw [State.fld, State.plainWrite, State.reg_setReg]
  refine bitsOf_congr fun i hi => ?_
  have hmask := h i hi
  simp only [Nat.testBit_or, Bool.or_eq_false_iff] at hmask
  obtain ⟨⟨hrw, hw1c⟩, hw1s⟩ := hmask
  simp [getLsbD_writeMask _ _ _ (show f.lo + i < 32 by omega), hrw, hw1c, hw1s]

end State

end Fields

/-! ## The selected context (R141 to R149) -/

section Context
variable {s : State} {port : Port} {d t : Nat} {k : Task} {v : Word}

/-- A write of DBG_CTRL. -/
theorem State.Opens.dbgCtrl (hop : s.Opens port (.DBG_CTRL, dieIx d)) (v : Word) :
    s.hostWriteReg port (.DBG_CTRL, dieIx d) v = s.wrote (.DBG_CTRL, dieIx d) (dbgCtrlWrite s port d v) := hop.dieWrite v rfl (by decide)

section Command
variable {c : Nat} (hc : bitsOf v 0 5 = c) (hone : c = 1 ∨ c = 2 ∨ c = 4 ∨ c = 8 ∨ c = 16)
include hc hone

/-- A command that needs an unlocked port is refused at a locked one (R149). -/
theorem dbgCtrlWrite_locked (hne : c ≠ 16) (h : s.unlocked = false) :
    dbgCtrlWrite s port d v = s.setBit F.DBG_STATUS_locked_reject (dieIx d) true := by
  unfold dbgCtrlWrite
  simp only [hc]
  exact (if_neg (by omega)).trans ((if_neg (by omega)).trans (if_pos ⟨hne, h⟩))

theorem dbgCtrlWrite_gone (hpass : s.unlocked = true ∨ c = 16) (ht : s.taskOn (s.ctxSel d) d = none) :
    dbgCtrlWrite s port d v = s.setBit F.DBG_STATUS_not_here_reject (dieIx d) true := by
  have hopen : ¬ (c ≠ 16 ∧ s.unlocked = false) := by
    rintro ⟨hne, hl⟩
    rw [hl] at hpass
    exact hne (hpass.resolve_left (by decide))
  unfold dbgCtrlWrite
  simp only [hc]
  rw [ht]
  exact (if_neg (by omega)).trans ((if_neg (by omega)).trans (if_neg hopen))

/-- A command on the task that is selected. -/
theorem dbgCtrlWrite_task (hpass : s.unlocked = true ∨ c = 16) (ht : s.taskOn (s.ctxSel d) d = some k) :
    dbgCtrlWrite s port d v =
      if (s.haltedTask k && c == 1) || (!s.haltedTask k && (c == 2 || c == 4)) then s.setBit F.DBG_STATUS_state_reject (dieIx d) true
      else if c = 1 then ctxHaltDo s (s.ctxSel d) k
      else if c = 2 then ctxResumeDo s (s.ctxSel d) k
      else if c = 4 then ctxSingleDo s (s.ctxSel d) k
      else s.setTask (s.ctxSel d) { k with brk := c == 8 } := by
  have hopen : ¬ (c ≠ 16 ∧ s.unlocked = false) := by
    rintro ⟨hne, hl⟩
    rw [hl] at hpass
    exact hne (hpass.resolve_left (by decide))
  unfold dbgCtrlWrite
  simp only [hc]
  rw [ht]
  exact (if_neg (by omega)).trans ((if_neg (by omega)).trans (if_neg hopen))

end Command

/-- The commands of DBG_CTRL, each one bit (R149). -/
theorem dbgCtrl_commands (hop : s.Opens port (.DBG_CTRL, dieIx d)) :
    exec (.ctxHalt port d) s = .next (s.wrote (.DBG_CTRL, dieIx d) (dbgCtrlWrite s port d 1)) ∧
    exec (.ctxResume port d) s = .next (s.wrote (.DBG_CTRL, dieIx d) (dbgCtrlWrite s port d 2)) ∧
    exec (.ctxSingleStep port d) s = .next (s.wrote (.DBG_CTRL, dieIx d) (dbgCtrlWrite s port d 4)) ∧
    exec (.brkEnable port d) s = .next (s.wrote (.DBG_CTRL, dieIx d) (dbgCtrlWrite s port d 8)) ∧
    exec (.brkDisable port d) s = .next (s.wrote (.DBG_CTRL, dieIx d) (dbgCtrlWrite s port d 16)) :=
  ⟨congrArg Host.Outcome.next (hop.dbgCtrl 1), congrArg Host.Outcome.next (hop.dbgCtrl 2), congrArg Host.Outcome.next (hop.dbgCtrl 4),
    congrArg Host.Outcome.next (hop.dbgCtrl 8), congrArg Host.Outcome.next (hop.dbgCtrl 16)⟩

theorem ctxResume_held (hl : s.unlocked = true) (ht : s.taskOn (s.ctxSel d) d = some k) (hh : s.haltedTask k = true) :
    dbgCtrlWrite s port d 2 = ctxResumeDo s (s.ctxSel d) k := by
  rw [dbgCtrlWrite_task (c := 2) (by decide) (by decide) (.inl hl) ht, hh]
  rfl

/-- A resume of a context whose own halt began at `entry` (R142, R143). -/
theorem ctxResumeDo_halted {entry : Time} (h : k.halt = some entry) :
    ctxResumeDo s t k = (s.setTask t { k with halt := none, step := if s.dbg.halt.isSome then k.step else k.step.bind Step.resume }).haltRec
      k.die entry := by
  unfold ctxResumeDo
  rw [h]

end Context

/-! ## The debug port (R539, R540) -/

section Port
variable {s : State} {port : Port} {v : Word}

theorem State.unlockRefused_plainWrite : (s.plainWrite .DBG_LOCK pkg v).unlockRefused = s.unlockRefused := by
  have hfld := s.fld_plainWrite (f := F.DBG_LOCK_failures) pkg v (by decide) (by decide)
  exact congrArg (fun n => s.fuses.debugDisabled || decide (8 ≤ n)) hfld

namespace State.Opens

theorem dbgLock (hop : s.Opens port (.DBG_LOCK, pkg)) (v : Word) :
    s.hostWriteReg port (.DBG_LOCK, pkg) v = s.wrote (.DBG_LOCK, pkg) (dbgLockWrite s port v) :=
  hop.write_eq (State.writeKey_pkg _ _ _ _ (by decide))

theorem dbgPkg (hop : s.Opens port (.DBG_PKG_CTRL, pkg)) (v : Word) :
    s.hostWriteReg port (.DBG_PKG_CTRL, pkg) v = s.wrote (.DBG_PKG_CTRL, pkg) (dbgPkgWrite s v) :=
  hop.write_eq (State.writeKey_pkg _ _ _ _ (by decide))

end State.Opens

theorem State.at_unlocked (s : State) (g : Time) : (s.at g).unlocked = s.unlocked := State.at_bit _ _ _ _

section Package
variable {w : State} {g : Time} (hw : w = s.at g) (hop : w.Opens port (.DBG_PKG_CTRL, pkg))
include hw hop

theorem packageDebugHalt_eq : exec (.packageDebugHalt port g) s = .next (w.wrote (.DBG_PKG_CTRL, pkg) (packageHalt w)) := by
  subst hw
  exact congrArg Host.Outcome.next (hop.dbgPkg 1)

theorem packageDebugResume_eq : exec (.packageDebugResume port g) s = .next (w.wrote (.DBG_PKG_CTRL, pkg) (packageResume w)) := by
  subst hw
  exact congrArg Host.Outcome.next (hop.dbgPkg 2)

end Package

namespace State

theorem fld_voidChallenge (f : Fld) (ix : Ix) (h : f.reg ≠ .DBG_CHALLENGE) : s.voidChallenge.fld f ix = s.fld f ix := by
  have hreg := foldl_keep (f := fun (s : State) k => s.setReg .DBG_CHALLENGE (pkg1 k) 0) (State.reg · f.reg ix)
    (fun _ _ => State.reg_setReg_other _ _ _ _ h) (List.range 8) s
  exact congrArg (bitsOf · f.lo f.w) hreg

theorem fuses_voidChallenge : s.voidChallenge.fuses = s.fuses :=
  foldl_keep (f := fun (s : State) k => s.setReg .DBG_CHALLENGE (pkg1 k) 0) State.fuses (fun _ _ => rfl) (List.range 8) s

/-- An unlock that failed: it is counted, and the challenge is void (R539, R542). -/
def unlockFailed (u : State) (n : Nat) : State := (u.setFld F.DBG_LOCK_failures pkg (min 8 (n + 1))).voidChallenge

theorem unlockRefused_failed (u : State) (n : Nat) :
    (u.unlockFailed n).unlockRefused = decide (u.fuses.debugDisabled = true ∨ 7 ≤ n) := by
  have hfld : (u.unlockFailed n).fld F.DBG_LOCK_failures pkg = min 8 (n + 1) := by
    rw [State.unlockFailed, State.fld_voidChallenge _ _ (by decide), State.fld_setFld _ _ _ (by decide)]
    exact Nat.mod_eq_of_lt (show min 8 (n + 1) < 16 by omega)
  have hf : (u.unlockFailed n).fuses = u.fuses := State.fuses_voidChallenge
  rw [State.unlockRefused, hfld, hf, Bool.decide_or, Bool.decide_eq_true]
  congr 2
  rw [eq_iff_iff]
  omega

end State

/-- The check of a response (R539). -/
theorem dbgUnlockCheckDone_fail {u : State} (h : s.dbg.checking = true) (hok : s.responseOk = false)
    (hu : u = { s.setBit F.DBG_LOCK_busy pkg false with dbg := { s.dbg with checking := false } }) :
    dbgUnlockCheckDone s = if (u.unlockFailed (s.fld F.DBG_LOCK_failures pkg)).unlockRefused then
      (u.unlockFailed (s.fld F.DBG_LOCK_failures pkg)).setBit F.DBG_LOCK_refused pkg true
      else u.unlockFailed (s.fld F.DBG_LOCK_failures pkg) := by
  have hfld : u.fld F.DBG_LOCK_failures pkg = s.fld F.DBG_LOCK_failures pkg := by
    rw [hu]
    exact s.fld_setFld_apart (f := F.DBG_LOCK_busy) (g := F.DBG_LOCK_failures) pkg pkg _ (by decide) (by decide)
  rw [← hfld, hu]
  unfold dbgUnlockCheckDone
  rw [if_pos h, hok]
  rfl

end Port

/-- Settles O49, by the cases of each command in the order of its checks. -/
theorem debugAccess : Obligations.DebugAccess := by
  unfold Obligations.DebugAccess
  refine ⟨fun s port d t k v => ⟨fun hop => ⟨fun ht => ?_, fun ht => ?_⟩, fun hop => ?_, rfl, fun hop ht => ?_⟩,
    fun s u w port g entry => ⟨fun hop => ⟨fun href => ⟨?_, ?_⟩, fun href => ⟨?_, fun hu => ?_⟩, fun hh => ?_, fun hh => ?_⟩,
      fun hch hu => ⟨fun hok => ?_, fun hok hw => ?_⟩, fun hch => ?_, fun hw hop => ⟨fun hl hh => ?_, fun hor => ?_, fun hh => ?_, fun hh => ?_⟩,
      fun x hx => ?_, fun k st hst hcut hh => ?_⟩⟩
  · refine congrArg Host.Outcome.next ((hop.dieWrite v rfl (by decide)).trans (congrArg (s.wrote _) ?_))
    refine (show s.writeDieReg port .CTX_SEL (dieIx d) v = ctxSelW s port d v from rfl).trans ?_
    unfold ctxSelW
    dsimp only
    rw [show (s.plainWrite .CTX_SEL (dieIx d) v).taskOn (bitsOf v 0 12) d = s.taskOn (bitsOf v 0 12) d from rfl, ht]
  · refine congrArg Host.Outcome.next ((hop.dieWrite v rfl (by decide)).trans (congrArg (s.wrote _) ?_))
    refine (show s.writeDieReg port .CTX_SEL (dieIx d) v = ctxSelW s port d v from rfl).trans ?_
    unfold ctxSelW
    dsimp only
    rw [show (s.plainWrite .CTX_SEL (dieIx d) v).taskOn (bitsOf v 0 12) d = s.taskOn (bitsOf v 0 12) d from rfl, ht]
  · exact congrArg Host.Outcome.next (hop.write_eq (State.writeKey_pkg _ _ _ _ (by decide)))
  · subst ht
    obtain ⟨hhalt, hresume, hsingle, hbrk, hunbrk⟩ := dbgCtrl_commands hop
    refine ⟨fun hl c hc => ?_, fun hgone c hc => ?_, fun htask => ?_, fun hl htask => ⟨?_, fun hrun => ⟨?_, ?_, ?_⟩, fun hheld => ⟨?_, ?_,
      fun hnone => ?_, fun entry hentry hpkg => ?_, fun entry hentry hpkg => ⟨fun hst => ?_, fun st hst hcut => ?_, fun st hst hcut => ?_⟩⟩⟩⟩
    · rcases hc with rfl | rfl | rfl | rfl
      · rw [hhalt, dbgCtrlWrite_locked (c := 1) (by decide) (by decide) (by decide) hl]
      · rw [hresume, dbgCtrlWrite_locked (c := 2) (by decide) (by decide) (by decide) hl]
      · rw [hsingle, dbgCtrlWrite_locked (c := 4) (by decide) (by decide) (by decide) hl]
      · rw [hbrk, dbgCtrlWrite_locked (c := 8) (by decide) (by decide) (by decide) hl]
    · rcases hc with ⟨hl, rfl | rfl | rfl | rfl⟩ | rfl
      · rw [hhalt, dbgCtrlWrite_gone (c := 1) (by decide) (by decide) (.inl hl) hgone]
      · rw [hresume, dbgCtrlWrite_gone (c := 2) (by decide) (by decide) (.inl hl) hgone]
      · rw [hsingle, dbgCtrlWrite_gone (c := 4) (by decide) (by decide) (.inl hl) hgone]
      · rw [hbrk, dbgCtrlWrite_gone (c := 8) (by decide) (by decide) (.inl hl) hgone]
      · rw [hunbrk, dbgCtrlWrite_gone (c := 16) (by decide) (by decide) (.inr rfl) hgone]
    · rw [hunbrk, dbgCtrlWrite_task (c := 16) (by decide) (by decide) (.inr rfl) htask]
      simp
    · rw [hbrk, dbgCtrlWrite_task (c := 8) (by decide) (by decide) (.inl hl) htask]
      simp
    · rw [hhalt, dbgCtrlWrite_task (c := 1) (by decide) (by decide) (.inl hl) htask, hrun]
      rfl
    · rw [hresume, dbgCtrlWrite_task (c := 2) (by decide) (by decide) (.inl hl) htask, hrun]
      rfl
    · rw [hsingle, dbgCtrlWrite_task (c := 4) (by decide) (by decide) (.inl hl) htask, hrun]
      rfl
    · rw [hhalt, dbgCtrlWrite_task (c := 1) (by decide) (by decide) (.inl hl) htask, hheld]
      rfl
    · rw [hsingle, dbgCtrlWrite_task (c := 4) (by decide) (by decide) (.inl hl) htask, hheld]
      rfl
    · rw [hresume, ctxResume_held hl htask hheld, ctxResumeDo, hnone]
    · rw [hresume, ctxResume_held hl htask hheld, ctxResumeDo_halted hentry, hpkg]
      rfl
    · rw [hresume, ctxResume_held hl htask hheld, ctxResumeDo_halted hentry, hpkg, hst]
      obtain ⟨⟩ := k
      subst hst
      rfl
    · rw [hresume, ctxResume_held hl htask hheld, ctxResumeDo_halted hentry, hpkg, hst]
      simp [Step.resume, hcut]
    · rw [hresume, ctxResume_held hl htask hheld, ctxResumeDo_halted hentry, hpkg, hst]
      simp [Step.resume, hcut]
  · exact congrArg Host.Outcome.next ((hop.dbgLock 2).trans (congrArg (s.wrote _) (if_pos (State.unlockRefused_plainWrite.trans href))))
  · exact congrArg Host.Outcome.next ((hop.dbgLock 4).trans (congrArg (s.wrote _) (if_pos (State.unlockRefused_plainWrite.trans href))))
  · exact congrArg Host.Outcome.next ((hop.dbgLock 2).trans (congrArg (s.wrote _)
      (if_neg (Bool.eq_false_iff.1 (State.unlockRefused_plainWrite.trans href)))))
  · subst hu
    exact congrArg Host.Outcome.next ((hop.dbgLock 4).trans (congrArg (s.wrote _)
      (if_neg (Bool.eq_false_iff.1 (State.unlockRefused_plainWrite.trans href)))))
  · exact congrArg Host.Outcome.next ((hop.dbgLock 8).trans (congrArg (s.wrote _) (if_pos hh)))
  · exact congrArg Host.Outcome.next ((hop.dbgLock 8).trans (congrArg (s.wrote _) (if_neg (Bool.eq_false_iff.1 hh))))
  · refine congrArg Host.Outcome.next ((if_pos hch).trans ?_)
    rw [hok, hu]
    rfl
  · refine congrArg Host.Outcome.next ((dbgUnlockCheckDone_fail hch hok hu).trans ?_)
    have hfuses : u.fuses = s.fuses := by rw [hu]; rfl
    rw [State.unlockRefused_failed, hfuses, hw]
    simp only [decide_eq_true_eq]
    rfl
  · exact congrArg Host.Outcome.next (if_neg (Bool.eq_false_iff.1 hch))
  · have hgo : w.unlocked = true ∧ w.dbg.halt = none := by rw [hw, State.at_unlocked]; exact ⟨hl, by simpa using hh⟩
    rw [packageDebugHalt_eq hw hop, packageHalt, hgo.1, hgo.2, hw]
    simp
  · rw [packageDebugHalt_eq hw hop, packageHalt, hw, State.at_unlocked]
    rcases hor with hl | hh
    · simp [hl]
    · simp [hh]
  · rw [packageDebugResume_eq hw hop, packageResume, hw]
    simp [hh]
  · rw [packageDebugResume_eq hw hop, packageResume, hw]
    simp [hh]
  · exact if_neg hx
  · rw [Task.endHalt, hst]
    simp [hcut, hh]

end Sys2Proof.Machine

/-! # Shuttle faults and the spare (R225, R227, R493 to R497) -/

namespace Sys2Proof.Machine

/-! ## The capability fields (R58 to R63) -/

section Capability
variable {γ : Type} (g : State → γ) (hreg : ∀ s r ix v, g (State.setReg s r ix v) = g s) (hwake : ∀ s : State, g s.wake = g s)
include hreg hwake

/-- An update of the capability fields changes registers alone, and wakes management cores. -/
theorem State.capUpdate_keeps (s : State) : g s.capUpdate = g s := by
  have hshut (s : State) : g (s.dieList.foldl (fun s d => s.setReg .CAP_SHUTTLES (pkg1 d) (s.die d).capWord) s) = g s :=
    foldl_keep g (fun _ _ => hreg _ _ _ _) _ s
  have hshared (s : State) (n : Nat) : g (s.postShared n) = g s := by
    unfold State.postShared
    split
    · exact hreg _ _ _ _
    · rfl
  unfold State.capUpdate
  split
  · unfold State.capWrite State.setFld
    simp only [hwake, hshared, hreg, hshut]
  · rfl

end Capability

@[simp] theorem State.capUpdate_fields (s : State) :
    s.capUpdate.dieMem = s.dieMem ∧ s.capUpdate.ring = s.ring ∧ s.capUpdate.hostMem = s.hostMem ∧ s.capUpdate.dies = s.dies ∧
    s.capUpdate.tasks = s.tasks ∧ s.capUpdate.variant = s.variant ∧ s.capUpdate.boot = s.boot :=
  ⟨s.capUpdate_keeps State.dieMem (fun _ _ _ _ => rfl) (fun _ => rfl), s.capUpdate_keeps State.ring (fun _ _ _ _ => rfl) (fun _ => rfl),
    s.capUpdate_keeps State.hostMem (fun _ _ _ _ => rfl) (fun _ => rfl), s.capUpdate_keeps State.dies (fun _ _ _ _ => rfl) (fun _ => rfl),
    s.capUpdate_keeps State.tasks (fun _ _ _ _ => rfl) (fun _ => rfl), s.capUpdate_keeps State.variant (fun _ _ _ _ => rfl) (fun _ => rfl),
    s.capUpdate_keeps State.boot (fun _ _ _ _ => rfl) (fun _ => rfl)⟩

/-! ## A shuttle out of service (R495) -/

/-- A map of entries that keeps each entry's number. -/
theorem nmGet?_map_entries {α β : Type} {f : Nat × α → Nat × β} (hf : ∀ e, (f e).1 = e.1) (m : List (Nat × α)) (k : Nat) :
    nmGet? (m.map f) k = (nmGet? m k).map (fun x => (f (k, x)).2) := by
  induction m with
  | nil => rfl
  | cons e m ih =>
    obtain ⟨j, x⟩ := e
    by_cases hj : j = k
    · subst hj
      have h1 : nmGet? (f (j, x) :: m.map f) j = if (f (j, x)).1 = j then some (f (j, x)).2 else nmGet? (m.map f) j := rfl
      rw [List.map_cons, h1, if_pos (hf _)]
      simp [nmGet?]
    · have h1 : nmGet? (f (j, x) :: m.map f) k = if (f (j, x)).1 = k then some (f (j, x)).2 else nmGet? (m.map f) k := rfl
      rw [List.map_cons, h1, if_neg (by rw [hf]; exact hj), ih]
      simp [nmGet?, hj]

/-- The tasks that hold a context of a shuttle. -/
def onShuttle (d slot : Nat) (e : Nat × Task) : Bool := e.2.held && e.2.die == d && e.2.slot == slot

/-- The task is on its way to a shuttle. -/
def movesTo (d slot : Nat) (k : Task) : Bool := match k.mig with | some m => m.die == d && m.slot == slot | none => false

/-- A task entry once a shuttle is out of service. -/
def outEntry (d slot : Nat) (e : Nat × Task) : Nat × Task :=
  if onShuttle d slot e then (e.1, { e.2.replay with mig := none }) else if movesTo d slot e.2 then (e.1, { e.2 with mig := none }) else e

section Out
variable {s : State} {d slot cause : Nat} {g : Time}

theorem Task.replay_fields (k : Task) :
    k.replay.c = k.c ∧ k.replay.held = k.held ∧ k.replay.die = k.die ∧ k.replay.slot = k.slot := by
  unfold Task.replay
  split
  · exact ⟨rfl, rfl, rfl, rfl⟩
  · split <;> exact ⟨rfl, rfl, rfl, rfl⟩

theorem outEntry_fields (e : Nat × Task) : (outEntry d slot e).1 = e.1 ∧ (outEntry d slot e).2.c = e.2.c ∧
    (outEntry d slot e).2.held = e.2.held ∧ (outEntry d slot e).2.die = e.2.die ∧ (outEntry d slot e).2.slot = e.2.slot := by
  obtain ⟨hc, hheld, hdie, hslot⟩ := Task.replay_fields e.2
  unfold outEntry
  split
  · exact ⟨rfl, hc, hheld, hdie, hslot⟩
  · split <;> exact ⟨rfl, rfl, rfl, rfl, rfl⟩

theorem onShuttle_outEntry (e : Nat × Task) : onShuttle d slot (outEntry d slot e) = onShuttle d slot e := by
  obtain ⟨-, -, hheld, hdie, hslot⟩ := outEntry_fields (d := d) (slot := slot) e
  simp only [onShuttle, hheld, hdie, hslot]

namespace State

/-- The shuttle of a slot marked as failed. -/
def slotFailed (s : State) (d slot : Nat) : State :=
  s.modDie d (fun x => { x with slots := x.slots.set slot { x.slots.getD slot Slot.reset with healthy := false } })

theorem shuttleOut_eq : s.shuttleOut d slot cause =
    ((({ s.slotFailed d slot with tasks := s.tasks.map (outEntry d slot) }).setReg .DIE_SHUTTLE_FAULT (dieIx d)
      (BitVec.ofNat 32 (slot + 8 * cause))).bump F.FLT_UNIT_COUNT_shuttle pkg).capUpdate := rfl

theorem shuttleOut_fields : (s.shuttleOut d slot cause).dieMem = s.dieMem ∧
    (s.shuttleOut d slot cause).tasks = s.tasks.map (outEntry d slot) ∧ (s.shuttleOut d slot cause).dies = (s.slotFailed d slot).dies := by
  rw [State.shuttleOut_eq]
  obtain ⟨hmem, -, -, hdies, htasks, -⟩ := ((({ s.slotFailed d slot with tasks := s.tasks.map (outEntry d slot) }).setReg .DIE_SHUTTLE_FAULT
    (dieIx d) (BitVec.ofNat 32 (slot + 8 * cause))).bump F.FLT_UNIT_COUNT_shuttle pkg).capUpdate_fields
  exact ⟨hmem, htasks, hdies⟩

theorem shuttleOut_task? (t : Nat) : (s.shuttleOut d slot cause).task? t = (s.task? t).map (fun k => (outEntry d slot (t, k)).2) := by
  obtain ⟨-, htasks, -⟩ := s.shuttleOut_fields (d := d) (slot := slot) (cause := cause)
  rw [State.task?, htasks]
  exact nmGet?_map_entries (fun e => (outEntry_fields e).1) _ _

end State

end Out

/-! ## Where the contexts go (R496, R497) -/

section Fault
variable {s : State} {d slot cause o : Nat} {g : Time}

namespace State

/-- The spare that takes the contexts, if any (R496). -/
def takerOf (s : State) (d slot : Nat) : Option Nat :=
  if slot ≠ s.spareOf d ∧ s.spareOf d ≠ 7 ∧ (s.die d).replay = none then some (s.spareOf d)
  else if s.spareOf d = 7 ∧ (s.die d).rotFrom ≠ 7 ∧ slot = s.vacating d then some (s.die d).rotFrom
  else if s.spareOf d = 7 ∧ (s.die d).rotFrom ≠ 7 ∧ slot = (s.die d).rotFrom then some (s.vacating d) else none

/-- The state after a shuttle that is not the spare is out of service, and the rotation is over. -/
def shuttleOver (s : State) (d slot cause : Nat) (g : Time) : State :=
  (((s.at g).shuttleOut d slot cause).setReg .SHT_ROLE (dieIx d) (BitVec.ofNat 32 (s.spareOf d + 7 * 256))).modDie d
    (fun x => { x with rotFrom := 7 })

theorem shuttleOver_tasks : (s.shuttleOver d slot cause g).tasks = s.tasks.map (outEntry d slot) := by
  obtain ⟨-, htasks, -⟩ := (s.at g).shuttleOut_fields (d := d) (slot := slot) (cause := cause)
  exact htasks.trans (by simp)

end State

theorem owed_none : (fun e : Nat × Task => e.2.held && e.2.die == d && (e.2.slot == slot || (none : Option Nat) == some e.2.slot)) =
    onShuttle d slot := by
  funext e
  simp [onShuttle]

variable (hno : (s.die d).replay = none)
include hno

namespace State

theorem shuttleFault_spare (h : slot = s.spareOf d) : s.shuttleFault d slot cause g =
    (((s.at g).shuttleOut d slot cause).setReg .SHT_ROLE (dieIx d) (BitVec.ofNat 32 (7 + 7 * 256))).shuttleRec d slot cause 0xFF 0 0 g := by
  unfold State.shuttleFault
  rw [hno]
  exact if_pos ⟨h, rfl⟩

/-- The fault of a shuttle whose contexts a spare takes. -/
theorem shuttleFault_taken (h : slot ≠ s.spareOf d) (ht : s.takerOf d slot = some o) : s.shuttleFault d slot cause g =
    ((s.shuttleOver d slot cause g).modDie d (fun x => { x with replay := some (slot, o) })).shuttleRec d slot cause o
      (s.tasks.filter (onShuttle d slot)).length 0 g := by
  have hlen : ((s.shuttleOver d slot cause g).tasks.filter (onShuttle d slot)).length = (s.tasks.filter (onShuttle d slot)).length := by
    rw [State.shuttleOver_tasks, List.filter_map, List.length_map]
    exact congrArg List.length (List.filter_congr fun e _ => onShuttle_outEntry e)
  rw [State.takerOf, hno] at ht
  rw [← hlen]
  unfold State.shuttleFault
  rw [hno]
  dsimp only
  rw [if_neg (fun hh => h hh.1), if_neg h, ht, owed_none]
  rfl

/-- The fault of a shuttle whose contexts are placed one at a time. -/
theorem shuttleFault_placed (h : slot ≠ s.spareOf d) (ht : s.takerOf d slot = none) : ∃ n m, s.shuttleFault d slot cause g =
    ((s.shuttleOver d slot cause g).displaceAll true g ((s.shuttleOver d slot cause g).tasks.filter (onShuttle d slot))).2.2.shuttleRec d slot
      cause 0xFF n m g := by
  rw [State.takerOf, hno] at ht
  unfold State.shuttleFault
  rw [hno]
  dsimp only
  rw [if_neg (fun hh => h hh.1), if_neg h, ht, owed_none]
  have hsame : (s.shuttleOver d slot cause g).modDie d (fun x => { x with replay := x.replay }) = s.shuttleOver d slot cause g := by
    rw [State.shuttleOver, State.modDie, State.modDie, State.die_setDie]
    simp [State.setDie]
  have hcode : (s.shuttleOver d slot cause g).modDie d (fun x => { x with replay := if (none : Option Nat).isSome = true then none else x.replay }) =
    s.shuttleOver d slot cause g := hsame
  exact ⟨_, _, congrArg (fun u => ((u.displaceAll true g (u.tasks.filter (onShuttle d slot))).2.2.shuttleRec d slot cause 0xFF
    (u.displaceAll true g (u.tasks.filter (onShuttle d slot))).1 (u.displaceAll true g (u.tasks.filter (onShuttle d slot))).2.1 g)) hcode⟩

end State

end Fault

/-! ## Checks, the watchdog and the load (R493, R495) -/

section Commands
variable {s : State} {d slot bad o : Nat} {g : Time}

namespace State

/-- A context of the shuttle that could issue. -/
theorem issues_true {e : Nat × Task} {st : Step} (he : e ∈ s.tasks) (hheld : e.2.held = true) (hd : e.2.die = d) (hslot : e.2.slot = slot)
    (hst : e.2.step = some st) (hcut : st.cutOff = false) (hh : s.haltedTask e.2 = false) : s.issues d slot = true := by
  refine List.any_eq_true.2 ⟨e, he, ?_⟩
  simp [hheld, hd, hslot, hst, hcut, hh]

theorem issues_false (h : ∀ e ∈ s.tasks, e.2.die = d → e.2.slot = slot → e.2.step = none ∨ s.haltedTask e.2 = true) :
    s.issues d slot = false := by
  refine List.any_eq_false.2 fun e he => ?_
  by_cases hat : e.2.die = d ∧ e.2.slot = slot
  · rcases h e he hat.1 hat.2 with hst | hh
    · simp [hst]
    · simp [hh]
  · simp only [not_and_or] at hat
    rcases hat with hd | hslot
    · simp [hd]
    · simp [hslot]

end State

end Commands

/-- Settles O51, by what the shuttle's die still has to take its contexts. -/
theorem shuttleFaults : Obligations.ShuttleFaults := by
  rintro s d slot cause _ _ o g _ _ w _ rfl rfl rfl rfl rfl
  refine ⟨fun hup => ⟨fun h1 h3 => ?_, fun e st he hheld hd hslot hst hcut hh => ?_, fun hidle => ?_⟩, fun hup => ⟨?_, ?_⟩,
    ⟨?_, ?_, fun t => ?_, fun t k ht hheld hd hslot => ?_⟩, fun hno => ⟨fun hsp => ?_, fun hcase => ?_, fun hsp h7 hrot hw => ?_⟩,
    fun hacts => ⟨fun bad o hrep => ?_, fun hph => ⟨?_, ?_⟩⟩, fun hno => ?_⟩
  · exact congrArg Host.Outcome.next (if_pos (by simp [hup, h1, h3]))
  · exact congrArg Host.Outcome.next (if_pos (by rw [hup, State.issues_true he hheld hd hslot hst hcut hh]; rfl))
  · exact congrArg Host.Outcome.next (if_neg (by rw [State.issues_false hidle]; simp))
  · exact congrArg Host.Outcome.next (if_neg (by simp [hup]))
  · exact congrArg Host.Outcome.next (if_neg (by simp [hup]))
  · exact State.shuttleOut_fields.1.trans (by simp)
  · obtain ⟨-, -, hdies⟩ := (s.at g).shuttleOut_fields (d := d) (slot := slot) (cause := cause)
    rw [State.die, hdies]
    simp [State.slotFailed, State.modDie, State.setDie, State.die]
  · rw [State.shuttleOut_task?, State.at_task?, Option.map_map]
    refine congrArg (fun f => (s.task? t).map f) ?_
    funext k
    exact (outEntry_fields (t, k)).2.1
  · have hon : onShuttle d slot (t, k) = true := by simp [onShuttle, hheld, hd, hslot]
    rw [State.shuttleOut_task?, State.at_task?, ht, Option.map_some, outEntry, if_pos hon]
  · exact State.shuttleFault_spare hno hsp
  · have hsp : slot ≠ s.spareOf d := by
      rcases hcase with ⟨h, -⟩ | ⟨h, -⟩ <;> exact h
    refine State.shuttleFault_taken hno hsp ?_
    rw [State.takerOf]
    rcases hcase with ⟨-, h7, rfl⟩ | ⟨-, h7, hrf, ⟨hv, rfl⟩ | ⟨hv, hs, rfl⟩⟩
    · rw [if_pos ⟨hsp, h7, hno⟩]
    · rw [if_neg (fun h => h.2.1 h7), if_pos ⟨h7, hrf, hv⟩]
    · rw [if_neg (fun h => h.2.1 h7), if_neg (fun h => hv h.2.2), if_pos ⟨h7, hrf, hs⟩]
  · subst hw
    refine State.shuttleFault_placed hno hsp ?_
    rw [State.takerOf, if_neg (fun h => h.2.1 h7), if_neg (fun h => ?_), if_neg (fun h => ?_)]
    · rcases hrot with hrf | ⟨-, hs⟩
      · exact h.2.1 hrf
      · exact hs h.2.2
    · rcases hrot with hrf | ⟨hv, -⟩
      · exact h.2.1 hrf
      · exact hv h.2.2
  · refine congrArg Host.Outcome.next ?_
    rw [hrep]
    refine (if_pos hacts).trans ?_
    rw [State.modDie, State.at_die, ← State.at_tasks s g]
    rfl
  · exact congrArg Host.Outcome.next (if_pos ⟨hph, hacts⟩)
  · exact congrArg Host.Outcome.next (if_pos ⟨hph, hacts⟩)
  · refine congrArg Host.Outcome.next ?_
    rw [hno]
end Sys2Proof.Machine

/-! # Die fences (R498 to R502) -/

namespace Sys2Proof.Machine

/-- Die 1 with a fifth link in its list, beyond the four that a die has, and with a cause of a fence that die 0 is to learn of. -/
def fiveLinks : State :=
  { State.reset with dies := [(1, { Die.reset with links := [false, false, false, false, true], fenceDue := some 2 })] }

/-- The state of the fence of die 1, before the capability fields change. -/
def fiveLinksFenced : State :=
  (((fiveLinks.at 0).setDie 1 { fiveLinks.die 1 with
    live := false, fenced := true, fenceDue := none, fenceOpen := some (2, 0), snapshot := fiveLinks.healthSnapshot 1 }).dropLinks 1).fenceCutOff

theorem fiveLinksFenced_links : (fiveLinksFenced.die 1).links = [false, false, false, false, true] := by rfl

/-- Refutes O52: a fence takes the links 0 to 3 of its die out of service, and the statement speaks of every entry of the die's list
of links, which a state may hold longer than four. -/
theorem not_dieFences : ¬ Obligations.DieFences := by
  rintro ⟨-, hfence⟩
  obtain ⟨hdue, -⟩ := hfence fiveLinks fiveLinksFenced ((fiveLinksFenced.setFld ⟨.FLT_FENCE_CAUSE, 4 * 1, 4⟩ pkg 2).fenceMgmt 1 0).capUpdate
    (((fiveLinksFenced.setFld ⟨.FLT_FENCE_CAUSE, 4 * 1, 4⟩ pkg 2).fenceMgmt 1 0).capUpdate).bmca 1 2 0
  obtain ⟨-, -, hlinks⟩ := hdue rfl rfl rfl rfl
  obtain ⟨-, -, hnone, -⟩ := hlinks (by decide)
  rw [fiveLinksFenced_links] at hnone
  exact absurd hnone (by decide)

end Sys2Proof.Machine

/-! # Management, memory and supply faults (R489, R503 to R505, R511, R551) -/

namespace Sys2Proof.Machine

/-! ## Management (R503, R505) -/

section Mgmt
variable {s : State} {cause : Nat} {g : Time}

namespace State

theorem mgmtFails_takeover (h0 : s.boot.pair0 = true) (ht : s.boot.takeover = false) (h1 : s.boot.pair1Ok = true) :
    s.mgmtFails cause = { s with boot := { s.boot with pair0 := false, failCause := cause } } := if_pos (by simp [h0, ht, h1])

theorem mgmtFails_fault (h : (s.boot.pair0 = true ∧ s.boot.pair1Ok = false) ∨ s.boot.takeover = true) :
    s.mgmtFails cause = s.packageFault 2 := by
  rcases h with ⟨h0, h1⟩ | ht
  · exact (if_neg (by simp [h1])).trans (if_pos (by simp [h0]))
  · exact (if_neg (by simp [ht])).trans (if_pos (by simp [ht]))

theorem mgmtFails_none (h0 : s.boot.pair0 = false) (ht : s.boot.takeover = false) : s.mgmtFails cause = s :=
  (if_neg (by simp [h0])).trans (if_neg (by simp [h0, ht]))

end State

theorem mgmtFailure_eq (h1 : 1 ≤ cause) (h4 : cause ≤ 4) : exec (.mgmtFailure cause g) s = .next ((s.at g).mgmtFails cause) :=
  congrArg Host.Outcome.next (if_pos ⟨h1, h4⟩)

end Mgmt

/-! ## An uncorrectable word (R511) -/

section Memory
variable {s u : State} {t d off code : Nat} {k : Task} {g : Time}

namespace State

/-- A task that holds an uncorrectable word faults, unless it has faulted already. -/
def faultHolder (g : Time) (s : State) (t : Nat) : State :=
  match s.task? t with
  | some k => if k.state = .faulted then s else s.taskFaultAt t 0x06 g
  | none => s

theorem faultHolder_some (ht : s.task? t = some k) :
    s.faultHolder g t = if k.state = .faulted then s else s.taskFaultAt t 0x06 g := by
  rw [State.faultHolder, ht]

/-- A task that was `k` is faulted; one that had not faulted before, with MEM_ECC. -/
def holderFaulted (s : State) (t : Nat) (k : Task) : Prop :=
  ∃ k', s.task? t = some k' ∧ k'.state = .faulted ∧ (k.state ≠ .faulted → k'.faultCode = 0x06)

theorem faultHolder_ne {r : Nat} (h : t ≠ r) : (s.faultHolder g r).task? t = s.task? t := by
  unfold State.faultHolder
  split
  · next k hk =>
    split
    · rfl
    · obtain ⟨-, -, -, -, -, -, -, -, -, -, hother, -⟩ := State.taskFault_some hk 0x06 0 0 g
      exact hother t h
  · rfl

theorem faultHolder_same (ht : s.task? t = some k) : (s.faultHolder g t).holderFaulted t k := by
  rw [State.faultHolder_some ht]
  split
  · next hf => exact ⟨k, ht, hf, fun hn => absurd hf hn⟩
  · obtain ⟨k', hk', hst, hcode, -⟩ := State.taskFault_some ht 0x06 0 0 g
    exact ⟨k', hk', hst, fun _ => hcode⟩

theorem holderFaulted_next (h : s.holderFaulted t k) (r : Nat) : (s.faultHolder g r).holderFaulted t k := by
  obtain ⟨k', hk', hst, hcode⟩ := h
  refine ⟨k', ?_, hst, hcode⟩
  by_cases hr : t = r
  · subst hr
    rw [State.faultHolder_some hk', if_pos hst, hk']
  · rw [State.faultHolder_ne hr, hk']

/-- Of the tasks that hold an uncorrectable word each is faulted in the end. -/
theorem faultHolders {l : List Nat} (hmem : t ∈ l) (ht : s.task? t = some k) : (l.foldl (State.faultHolder g) s).holderFaulted t k := by
  induction l generalizing s with
  | nil => cases hmem
  | cons r l ih =>
    by_cases hr : t = r
    · subst hr
      exact foldl_inv (P := (State.holderFaulted · t k)) (fun _ r hb => State.holderFaulted_next hb r) l (State.faultHolder_same ht)
    · exact ih ((List.mem_cons.1 hmem).resolve_left hr) ((State.faultHolder_ne hr).trans ht)

/-- The state with an uncorrectable word noted. -/
def noteBad (s : State) (d off : Nat) : State := { s with ecc := (dieAddr d (off / 4 * 4) :: s.ecc).eraseDups }

theorem badFound_held (h : s.tasksAt d (off / 4 * 4) ≠ []) :
    s.badFound d off g = (s.tasksAt d (off / 4 * 4)).foldl (State.faultHolder g) (s.noteBad d off) := if_pos h

theorem badFound_queue {q : Nat} (h : s.tasksAt d (off / 4 * 4) = []) (hq : s.queueAt d (off / 4 * 4) = some q) :
    s.badFound d off g = (s.noteBad d off).queResetAll q g := by
  unfold State.badFound
  dsimp only
  rw [if_neg (not_not_intro h), hq]
  rfl

theorem badFound_free (h : s.tasksAt d (off / 4 * 4) = []) (hq : s.queueAt d (off / 4 * 4) = none) :
    s.badFound d off g = (s.writeDieWord d (off / 4 * 4) 0).bump F.DIE_SCRUB_STATUS_zeroed (dieIx d) := by
  unfold State.badFound
  dsimp only
  rw [if_neg (not_not_intro h), hq]

/-- The scrubber's find, counted and located (R489, R511). -/
def scrubFound (s : State) (d off : Nat) (g : Time) : State :=
  ((s.at g).bump F.DIE_ECC_COUNT_uncorrectable (dieIx d)).setReg .DIE_ECC_ADDR (dieIx d) (BitVec.ofNat 32 (off / 4 * 4))

theorem scrubFound_fields : (s.scrubFound d off g).tasksAt d (off / 4 * 4) = s.tasksAt d (off / 4 * 4) ∧
    (s.scrubFound d off g).queueAt d (off / 4 * 4) = s.queueAt d (off / 4 * 4) ∧ (s.scrubFound d off g).ecc = s.ecc ∧
    ∀ t, (s.scrubFound d off g).task? t = s.task? t := by
  simp [State.scrubFound, State.tasksAt, State.queueAt]

theorem noteBad_scrubFound {w : State} {a : Nat} (ha : a = dieAddr d (off / 4 * 4))
    (hu : u = ((s.at g).bump F.DIE_ECC_COUNT_uncorrectable (dieIx d)).setReg .DIE_ECC_ADDR (dieIx d) (BitVec.ofNat 32 (off / 4 * 4)))
    (hw : w = { u with ecc := (a :: s.ecc).eraseDups }) : (s.scrubFound d off g).noteBad d off = w := by
  obtain ⟨-, -, hecc, -⟩ := s.scrubFound_fields (d := d) (off := off) (g := g)
  rw [hw, hu, ha, State.noteBad, hecc]
  rfl

end State

theorem scrubUncorrectable_word (hacts : s.dieActs d = true) (hoff : off < 0x400000) :
    exec (.scrubUncorrectable d off none g) s = .next ((s.scrubFound d off g).badFound d off g) := by
  have hsaw : (s.at g).sawBad d off false = s.scrubFound d off g := by simp [State.sawBad, State.scrubFound, b2n]
  refine congrArg Host.Outcome.next ((if_pos (by simp [hacts, hoff])).trans ?_)
  exact congrArg (fun u : State => u.badFound d off g) hsaw

/-- The scrubber's find of an uncorrectable word in the shadow of a task's context (R492). -/
theorem scrubUncorrectable_shadow (hacts : s.dieActs d = true) (hoff : off < 0x400000) (ht : s.task? t = some k)
    (hu : u = ((s.at g).bump F.DIE_ECC_COUNT_uncorrectable (dieIx d)).setReg .DIE_ECC_ADDR (dieIx d) (BitVec.ofNat 32 (off / 4 * 4 + 2 ^ 22))) :
    exec (.scrubUncorrectable d off (some t) g) s =
      .next (if k.held = true ∧ k.die = d ∧ k.state ≠ .faulted then u.taskFaultAt t 0x06 g else u) := by
  have hsaw : (s.at g).sawBad d off true = u := by
    rw [hu]
    rfl
  have htask : u.task? t = some k := by
    rw [hu]
    simpa using ht
  refine congrArg Host.Outcome.next ((if_pos (by simp [hacts, hoff])).trans ?_)
  dsimp only [Option.isSome]
  rw [hsaw, htask]
  exact if_congr (by simp [and_assoc]) rfl rfl

end Memory

/-! ## Channel banks (R551) -/

section Banks
variable {s u : State} {d : Nat} {b : Bool} {g : Time}

theorem channelBankOutOfRange_eq (hpre : s.present d = true)
    (hu : u = (s.at g).setReg .PWR_STATUS pkg (s.reg .PWR_STATUS pkg &&& ~~~(BitVec.ofNat 32 (2 ^ ((if b then 8 else 16) + d))))) :
    exec (.channelBankOutOfRange d b g) s = .next (if b = true ∧ (s.die d).live = true then (List.range 64).foldl (fun s i =>
      if s.pinDriven (64 * d + i) then s.pinFault (64 * d + i) 3 0 g else s) u else u) := by
  have hlive : (u.die d).live = (s.die d).live := by
    rw [hu]
    simp
  refine congrArg Host.Outcome.next ((if_pos hpre).trans ?_)
  dsimp only
  rw [State.at_reg, ← hu]
  exact if_congr (by rw [hlive, Bool.and_eq_true]) rfl rfl

end Banks

/-- Settles O53, by what the management pairs and the tasks, queues and cells of the word stand at. -/
theorem managementAndMemoryFaults : Obligations.ManagementAndMemoryFaults := by
  unfold Obligations.ManagementAndMemoryFaults
  refine ⟨fun s u cause g hu => ?_, fun s u w d off a t b g ha => ⟨fun hacts hoff => ⟨?_, fun hu hw => ⟨fun hts hq => ?_, fun q hts hq => ?_,
    fun k hts ht => ?_, fun k hmem ht => ?_⟩, fun k hu ht => scrubUncorrectable_shadow hacts hoff ht hu⟩, rfl,
    fun hpre => ⟨channelBankOutOfRange_eq hpre, congrArg Host.Outcome.next (if_pos hpre)⟩⟩⟩
  · subst hu
    have hboot : (s.at g).boot = s.boot := by simp
    refine ⟨fun h1 h4 => ⟨fun h0 ht hok => ?_, fun h => ?_, fun h0 ht => ?_⟩, ?_, fun h0 ht hok => ⟨1 + (s.at g).fresh.1.toNat % 3, by omega,
      by omega, ?_⟩, fun h => ?_, fun h0 ht hok hlive => ?_, fun h => ?_, fun h1 h3 => ⟨fun hp => ?_, fun hp => ?_⟩⟩
    · rw [← hboot] at h0 ht hok
      rw [mgmtFailure_eq h1 h4, State.mgmtFails_takeover h0 ht hok, hboot]
    · rw [← hboot] at h
      rw [mgmtFailure_eq h1 h4, State.mgmtFails_fault h]
    · rw [← hboot] at h0 ht
      rw [mgmtFailure_eq h1 h4, State.mgmtFails_none h0 ht]
    · rw [mgmtFailure_eq (by decide) (by decide)]
      rfl
    · refine congrArg Host.Outcome.next ((if_pos (by simp [h0, ht, hok])).trans ?_)
      have hcount : (s.at g).freeCount = s.freeCount := by simp
      rw [State.fresh, hcount]
    · refine congrArg Host.Outcome.next (if_neg ?_)
      rcases h with h | h | h <;> simp [h]
    · exact congrArg Host.Outcome.next (if_pos (by simp [h0, ht, hok, hlive]))
    · refine congrArg Host.Outcome.next (if_neg ?_)
      rcases h with h | h | h <;> simp [h]
    · exact congrArg Host.Outcome.next ((if_pos ⟨h1, h3⟩).trans (if_neg (Bool.eq_false_iff.1 hp)))
    · exact congrArg Host.Outcome.next ((if_pos ⟨h1, h3⟩).trans (if_pos hp))
  · subst ha
    exact congrArg Host.Outcome.next (if_pos (by simp [hacts, hoff]))
  · obtain ⟨htasks, hque, -, -⟩ := s.scrubFound_fields (d := d) (off := off) (g := g)
    rw [scrubUncorrectable_word hacts hoff, State.badFound_free (htasks.trans hts) (hque.trans hq), hu]
    rfl
  · obtain ⟨htasks, hque, -, -⟩ := s.scrubFound_fields (d := d) (off := off) (g := g)
    rw [scrubUncorrectable_word hacts hoff, State.badFound_queue (htasks.trans hts) (hque.trans hq), State.noteBad_scrubFound ha hu hw]
  · obtain ⟨htasks, -, -, htask⟩ := s.scrubFound_fields (d := d) (off := off) (g := g)
    rw [scrubUncorrectable_word hacts hoff, State.badFound_held (by rw [htasks, hts]; exact List.cons_ne_nil _ _), htasks, hts,
      State.noteBad_scrubFound ha hu hw]
    have hw' : w.task? t = some k := by
      rw [← State.noteBad_scrubFound ha hu hw]
      exact (htask t).trans ht
    exact congrArg Host.Outcome.next (State.faultHolder_some hw')
  · obtain ⟨htasks, -, -, htask⟩ := s.scrubFound_fields (d := d) (off := off) (g := g)
    have hheld : (s.scrubFound d off g).tasksAt d (off / 4 * 4) ≠ [] := by
      rw [htasks]
      exact List.ne_nil_of_mem hmem
    obtain ⟨k', hk', hst, hcode⟩ := State.faultHolders (g := g) (s := (s.scrubFound d off g).noteBad d off) (htasks ▸ hmem) ((htask t).trans ht)
    exact ⟨_, k', (scrubUncorrectable_word hacts hoff).trans (congrArg Host.Outcome.next (State.badFound_held hheld)), hk', hst, hcode⟩

end Sys2Proof.Machine

/-! # The staggered start, the boot and READY (R521, R523 to R528, R531 to R538) -/

namespace Sys2Proof.Machine

/-! ## Memory that is cleared (R526) -/

/-- Outside the range that is cleared nothing changes. -/
theorem memRead_memClear_outside (m : List Host.Cell) {lo n a : Nat} (h : a < lo ∨ lo + n ≤ a) :
    memRead (memClear m lo n) a = memRead m a := by
  unfold memRead memClear
  induction m with
  | nil => rfl
  | cons e m ih =>
    obtain ⟨b, v⟩ := e
    by_cases hb : b = a
    · subst hb
      rw [List.filter_cons, if_pos (by simpa using h)]
      simp [amGet]
    · have htail : amGet ((b, v) :: m) a memDefault = amGet m a memDefault := if_neg hb
      rw [List.filter_cons, htail, ← ih]
      split
      · exact if_neg hb
      · rfl

section Start
variable {s : State} {d slot code : Nat} {x : Die} (hst : s.starting = true)
include hst

/-- A die's core clock is enabled once every earlier stage of the start stands (R526, R527). -/
theorem dieCoreEnable_open (hf : s.boot.fusesOk = true) (hpre : s.present d = true) (hcore : (s.die d).core = false)
    (hfence : (s.die d).fenced = false) (hcode : s.startCode d = 0) (h0 : d ≠ 0 → (s.die 0).core = true) :
    exec (.dieCoreEnable d) s = .next (if !bitOf (s.reg .CLK_STATUS pkg) d then s.startFail d 1
      else if !(bitOf (s.reg .PWR_STATUS pkg) (8 + d) && bitOf (s.reg .PWR_STATUS pkg) (16 + d)) then s.startFail d 6
      else ((if d = 0 then { s with now := 0, slewFrac := 0 } else s.at (nsT (250000 * d))).modDie d
        (fun x => { x with core := true })).initFilters d) := by
  have hzero : (d == 0 || (s.die 0).core) = true := by
    by_cases hd : d = 0
    · simp [hd]
    · simp [h0 hd]
  exact congrArg Host.Outcome.next (if_pos (by rw [hst, hf, hpre, hcore, hfence, hcode, hzero]; rfl))

variable (hcore : (s.die d).core = true)
include hcore

/-- A stage of the start of a die whose core clock runs. -/
theorem startStage {α : Type} (a b : α) : (if s.starting && (s.die d).core then a else b) = a := if_pos (by rw [hst, hcore]; rfl)

theorem sramClearEnd_ok : ∃ u, exec (.sramClearEnd d true) s = .next u ∧ u.die d = { s.die d with sramOk := true } ∧ u.tasks = s.tasks ∧
    u.regs = s.regs ∧ (∀ o, o < 0x400000 → memRead u.dieMem (dieAddr d o) = 0) ∧
    (∀ a, (a < dieAddr d 0 ∨ dieAddr (d + 1) 0 ≤ a) → memRead u.dieMem a = memRead s.dieMem a ∧ (a ∈ u.ecc ↔ a ∈ s.ecc)) ∧
    ∀ o, o < 0x400000 → dieAddr d o ∉ u.ecc := by
  refine ⟨_, congrArg Host.Outcome.next (startStage hst hcore _ _), State.die_setDie _ _ _, rfl, rfl, fun o ho => ?_, fun a ha => ⟨?_, ?_⟩,
    fun o ho hmem => ?_⟩
  · exact memRead_memClear _ (by simp only [dieAddr]; omega)
  · exact memRead_memClear_outside _ (by simp only [dieAddr] at ha ⊢; omega)
  · refine List.mem_filter.trans (and_iff_left ?_)
    simpa using ha
  · obtain ⟨-, hout⟩ := List.mem_filter.1 hmem
    rcases Bool.or_eq_true_iff.1 hout with hlow | hhigh
    · have hlt := of_decide_eq_true hlow
      simp only [dieAddr] at hlt
      omega
    · have hle := of_decide_eq_true hhigh
      simp only [dieAddr] at hle
      omega

/-- The last checks of a die (R527), in their order. -/
theorem dieStartCheck_eq (hl : (s.die d).live = false) (hf : (s.die d).fenced = false) (hs : (s.die d).sramOk = true)
    (ht : (s.die d).selfTest = true) (al ok : Bool) (links : BitVec 4) :
    exec (.dieStartCheck d al links ok) s = .next (if d ≠ 0 ∧ al = false then s.startFail d 4
      else if links = 0 then s.startFail d 5
      else if d ≠ 0 ∧ ok = false then s.startFail d 7
      else (s.modDie d (fun x => { x with
        live := true, links := (List.range 4).map (fun k => links.getLsbD k), digest := s.reg .CONFIG_DIGEST pkg })).setReg .TIME_STATUS pkg (s.reg .TIME_STATUS pkg ||| BitVec.ofNat 32 (2 ^ (8 + d)))) :=
  congrArg Host.Outcome.next ((if_pos (by rw [hst, hcore, hl, hf, hs, ht]; rfl)).trans rfl)

end Start

theorem State.startFail_channel (s : State) {d : Nat} (hd : d ≠ 0) (c : Nat) : s.startFail d c = if s.startCode d = 0 then
    (s.setDie d { s.die d with core := false }).setReg .START_FAIL pkg (putBits (s.reg .START_FAIL pkg) (4 * d) 4 c)
    else s.setDie d { s.die d with core := false } := if_neg hd

/-! ## The boot (R531 to R534) -/

section Boot
variable {s u : State} {code : Nat} {port : Port} {v : Word}

namespace State

/-- A boot attempt that failed, with its code (R533). -/
theorem bootFailed_next (hu : u = { s.setFld F.BOOT_STATUS_error pkg code with boot := { s.boot with busy := false } }) (source : Nat) :
    s.bootFailed source code = if source = 1 then { u with boot := { u.boot with source := 1 } }.setFld F.RST_STATUS_boot_state pkg 2
      else if source = 2 ∧ 2 ≤ s.fld F.RST_STATUS_boot_sel pkg then
        { u with boot := { u.boot with source := 2 } }.setFld F.RST_STATUS_boot_state pkg 3
      else u.setFld F.RST_STATUS_boot_state pkg 7 := by
  have hsel : u.fld F.RST_STATUS_boot_sel pkg = s.fld F.RST_STATUS_boot_sel pkg := by
    rw [hu]
    exact congrArg (fun r => bitsOf r F.RST_STATUS_boot_sel.lo F.RST_STATUS_boot_sel.w)
      (s.reg_setFld_ne (f := F.BOOT_STATUS_error) pkg pkg code (by decide))
  rw [← hsel, hu]
  rfl

theorem wrote_boot (s t : State) : s.wrote (.BOOT_CTRL, pkg) t = t ∧ s.wrote (.TASK_KEY_LOCK, pkg) t = t := by
  have h1 : digestReg (.BOOT_CTRL, pkg) = false := by decide
  have h2 : digestReg (.TASK_KEY_LOCK, pkg) = false := by decide
  simp [State.wrote, h1, h2]

end State

theorem bootGo_eq (hop : s.Opens port (.BOOT_CTRL, pkg)) : exec (.bootGo port v) s = .next (bootCtrlWrite s port v) :=
  congrArg Host.Outcome.next (hop.write_eq ((State.writeKey_pkg _ _ _ _ (by decide)).trans (s.wrote_boot _).1))

/-- The lock of the task key is a bit that a write only sets (R538). -/
theorem State.bit_plainWrite_keyLock : (s.plainWrite .TASK_KEY_LOCK pkg v).bit F.TASK_KEY_LOCK_locked pkg =
    (s.bit F.TASK_KEY_LOCK_locked pkg || bitOf v 0) := by
  have hmask : Reg.TASK_KEY_LOCK.info.rw.testBit 0 = false ∧ Reg.TASK_KEY_LOCK.info.w1c.testBit 0 = false ∧
      Reg.TASK_KEY_LOCK.info.w1s.testBit 0 = true := by decide
  obtain ⟨hrw, hw1c, hw1s⟩ := hmask
  have hreg : (s.plainWrite .TASK_KEY_LOCK pkg v).reg .TASK_KEY_LOCK pkg = writeMask .TASK_KEY_LOCK (s.reg .TASK_KEY_LOCK pkg) v :=
    State.reg_setReg _ _ _ _
  rw [State.bit, show F.TASK_KEY_LOCK_locked.reg = .TASK_KEY_LOCK from rfl, hreg, bitOf, getLsbD_writeMask _ _ _ (by decide), State.bit, bitOf,
    bitOf]
  simp [show F.TASK_KEY_LOCK_locked.lo = 0 from rfl, show F.TASK_KEY_LOCK_locked.reg = .TASK_KEY_LOCK from rfl, hrw, hw1c, hw1s]

end Boot

/-! ## READY (R535) -/

section Ready
variable {s u : State}

namespace State

/-- The state in which READY is set, before the update of the live fields. -/
def broughtUp (s : State) : State :=
  (s.dieList.foldl (fun s d => s.firstSpare d) (s.setBit F.PLC_STATUS_up pkg true)).setFld F.RST_STATUS_boot_state pkg 6

theorem broughtUp_keeps {γ : Type} (g : State → γ) (hreg : ∀ s r ix v, g (State.setReg s r ix v) = g s) : g s.broughtUp = g s := by
  have hspare (s : State) (d : Nat) : g (s.firstSpare d) = g s := by
    unfold State.firstSpare
    split
    · exact hreg _ _ _ _
    · rfl
  exact (hreg _ _ _ _).trans ((foldl_keep g hspare _ _).trans (hreg _ _ _ _))

end State

theorem readySet_eq (h : s.canReady = true) :
    exec .readySet s = .next ((s.broughtUp.updateDigest.setBit F.RST_STATUS_ready pkg true).capWrite) := congrArg Host.Outcome.next (if_pos h)

end Ready

/-- Settles O56, stage by stage: each stage has its guard, and its first failure is noted. -/
theorem startUpAndBoot : Obligations.StartUpAndBoot := by
  unfold Obligations.StartUpAndBoot
  refine ⟨fun s d slot x hx hst => ?_, fun s u port slot code sel img v g hsel => ?_⟩
  · subst hx
    refine ⟨fun hf => ⟨?_, ?_⟩, fun hpre => ?_, fun hf hpre hcore hfence hcode h0 => ⟨fun hclk => ?_, fun hclk => ⟨fun hpwr => ?_,
      fun hp8 hp16 => ?_⟩⟩, fun hcore => ⟨?_, ?_, sramClearEnd_ok hst hcore, fun hslot => ?_, fun hd => ?_, fun hd => ?_, ?_, ?_,
      fun hl hfe hs ht links al ok => ⟨fun hd hal => ?_, fun hal hlinks => ?_, fun hd hal hlinks hok => ?_, fun hal hlinks => ?_⟩⟩,
      fun hd c => s.startFail_channel hd c, fun c => rfl⟩
    · exact congrArg Host.Outcome.next ((if_pos (by rw [hst, hf]; rfl)).trans rfl)
    · exact congrArg Host.Outcome.next ((if_pos (by rw [hst, hf]; rfl)).trans rfl)
    · exact congrArg Host.Outcome.next (if_pos (by rw [hst, hpre]; rfl))
    · rw [dieCoreEnable_open hst hf hpre hcore hfence hcode h0, hclk]
      rfl
    · rw [dieCoreEnable_open hst hf hpre hcore hfence hcode h0, hclk]
      rcases hpwr with h | h <;> simp [h]
    · rw [dieCoreEnable_open hst hf hpre hcore hfence hcode h0, hclk, hp8, hp16]
      have hdie : (if d = 0 then { s with now := 0, slewFrac := 0 } else s.at (nsT (250000 * d))).die d = s.die d := by
        split
        · rfl
        · exact State.at_die _ _ _
      rw [State.modDie, hdie]
      rfl
    · exact congrArg Host.Outcome.next (startStage hst hcore _ _)
    · exact congrArg Host.Outcome.next (startStage hst hcore _ _)
    · exact congrArg Host.Outcome.next (if_pos (by simp [hst, hcore, hslot]))
    · subst hd
      exact congrArg Host.Outcome.next (startStage hst hcore _ _)
    · subst hd
      exact congrArg Host.Outcome.next (startStage hst hcore _ _)
    · exact congrArg Host.Outcome.next (startStage hst hcore _ _)
    · exact congrArg Host.Outcome.next (startStage hst hcore _ _)
    · rw [dieStartCheck_eq hst hcore hl hfe hs ht, if_pos ⟨hd, hal⟩]
    · rw [dieStartCheck_eq hst hcore hl hfe hs ht, if_neg (by rcases hal with h | h <;> simp [h]), if_pos hlinks]
    · rw [dieStartCheck_eq hst hcore hl hfe hs ht, if_neg (by simp [hal]), if_neg hlinks, if_pos ⟨hd, hok⟩]
    · rw [dieStartCheck_eq hst hcore hl hfe hs ht, if_neg (by rcases hal with h | h <;> simp [h]), if_neg hlinks,
        if_neg (by rcases hal with h | h <;> simp [h])]
      rfl
  · subst hsel
    refine ⟨fun hst h0 hstate hbusy hslot => ⟨?_, ?_⟩, fun hu => ⟨State.bootFailed_next hu 1, fun h2 => ?_, fun h2 => ?_, State.bootFailed_next hu 3⟩,
      fun hop => ⟨fun h31 hgo => ?_, fun h31 hno => ?_, fun h31 => ?_⟩, fun hbusy hstate hcode => ?_, fun hver h1 hl ht => ?_,
      fun hready hu => ?_, fun hready => congrArg Host.Outcome.next (if_neg (Bool.eq_false_iff.1 hready)), fun hop => ?_,
      State.bit_plainWrite_keyLock, fun bme d3 => rfl⟩
    · exact congrArg Host.Outcome.next (if_pos (by simp [hst, h0, hstate, hbusy, hslot]))
    · exact congrArg Host.Outcome.next (if_pos (by simp [hst, h0, hstate, hbusy, hslot]))
    · rw [State.bootFailed_next hu, if_neg (by decide), if_pos ⟨rfl, h2⟩]
    · rw [State.bootFailed_next hu, if_neg (by decide), if_neg (by omega)]
    · exact (bootGo_eq hop).trans (congrArg Host.Outcome.next ((if_pos h31).trans (if_pos hgo)))
    · refine (bootGo_eq hop).trans (congrArg Host.Outcome.next ((if_pos h31).trans (if_neg ?_)))
      tauto
    · exact (bootGo_eq hop).trans (congrArg Host.Outcome.next (if_neg (Bool.eq_false_iff.1 h31)))
    · subst hcode
      exact congrArg Host.Outcome.next (if_pos (by simp [hbusy, hstate]))
    · have hat : (s.at g).boot = s.boot ∧ (s.at g).fuses = s.fuses := by simp
      obtain ⟨hboot, hfuses⟩ := hat
      refine congrArg Host.Outcome.next (if_congr ?_ ?_ rfl)
      · rw [State.at_die, hboot, hfuses]
        simp [hver, h1, hl, ht]
      · rw [hboot]
    · subst hu
      exact ⟨readySet_eq hready, State.broughtUp_keeps State.tasks (fun _ _ _ _ => rfl), State.broughtUp_keeps State.dieMem (fun _ _ _ _ => rfl)⟩
    · exact congrArg Host.Outcome.next (hop.write_eq ((State.writeKey_pkg _ _ _ _ (by decide)).trans (s.wrote_boot _).2))

end Sys2Proof.Machine

end
